-- ==== Sys2Proof/Word.lean ====
section
/-! DEFINITION. Word types of the ZN880 and the shape of its sparse tables. -/
namespace Sys2Proof

/-- A byte of memory (00 R9). -/
abbrev Byte := BitVec 8
/-- A 32-bit register word (06 R155). -/
abbrev Word := BitVec 32
/-- A 64-bit value: a register pair (00 R11), an address, a body word (12 R271). -/
abbrev DWord := BitVec 64
/-- A lane set: bit l for lane l (06 R162). -/
abbrev Mask := BitVec 32

/-- A table from numbers to values: keys strictly rising, no key bound to the table's default value. -/
abbrev SMap (β : Type) := List (Nat × β)

end Sys2Proof
end

