-- ==== Sys2Proof/Config.lean ====
section
/-! DEFINITION. What an implementation fixes, and the free values of the model: constants without a body, so that
no proof can see what they are (ISA guide; log 10, log 27). -/
namespace Sys2Proof.Config

/-- A free choice among the behaviours the ordering machine or the device permits, numbered by State.fresh
(03 R75, R80, R82; log 1, log 5, log 10). -/
opaque choose : Nat → Nat
/-- A free word where the spec states no result, numbered by State.fresh (log 10). -/
opaque freeWord : Nat → Word
/-- What a byte encrypted under one key reads as under another, or once its sector has been written under another: by reading key,
location and position of the store clock (02 R71, R74; log 25). -/
opaque unrelated : Nat → Nat → Nat → Byte
/-- What a fresh allocation of buffers or scratchpad holds: by draw, buffer and offset (02 R56; log 9). -/
opaque freshByte : Nat → Nat → Nat → Byte
/-- The package among the 384 of a fabric (01 R26, 22 R421; log 27). -/
opaque package : Fin 384
/-- The package number PA[51:43] names (01 R26, 22 R421). -/
def packageNumber : Nat := package.val
/-- Installed Mezzanine bytes: at most 0x600_0000_0000 (00 R1; 01 R26). -/
opaque mezz : Fin 0x600_0000_0001
/-- Installed Mezzanine bytes, MEZZ of RESYNC (01 R26, 22 R430). -/
def mezzBytes : Nat := mezz.val
/-- How long the device may put off what it promises within finite time: a read of the latest write, an act that can take place
(03 R81; 06 R170; log 1). -/
opaque patience : Nat
/-- Whether an image passes ECDSA P-384 under the fused key (22 R431; log 21). -/
opaque authentic : List Byte → Bool
/-- The version an image carries (22 R430, R431; log 21). -/
opaque imageVersion : List Byte → Word
/-- SHA-384 of an image (22 R431; log 21). -/
opaque sha384 : List Byte → List Byte
/-- The bytes a remote member contributes to a collective entry: group, rank, round, offset (04 R115; log 22). -/
opaque remoteShare : Nat → Nat → Nat → Nat → Byte
/-- The clock in MHz a remote member of a group reports, and whether it is limited (21 R419; log 22). -/
opaque remotePace : Nat → Nat → Option Nat

end Sys2Proof.Config
end

