-- ==== Sys2Proof/Syntax.lean ====
section
/-! DEFINITION. The syntax of the Walix instruction set, its candidate words and the machine's events (12, 13, 14, 15, 10, 95). -/
namespace Sys2Proof

/-- An operand: a class code and its 8-bit register field, decoded (12 R276, R277).
A field that an instruction does not use, or uses as a literal n, is `s n` (12 R276, R278). -/
inductive Opnd where
  | s (n : Nat)    -- uniform register, or a literal
  | a (n : Nat)    -- affine register
  | v (n : Nat)    -- varying register
  | t (n : Nat)    -- tile
  | m (n : Nat)    -- mask
  | lc (n : Nat)   -- loop counter
  | sp (n : Nat)   -- special source, code 0x50 to 0x5C
  | k (n : Nat)    -- capability register
  | e (n : Nat)    -- engine context
  | imm (x : Int)  -- small immediate, -64 to 63
deriving DecidableEq, Repr

/-- The full form (12 R275): every field below OP. `ty` is MOD[4:0] and `m5` is MOD[5] (12 R279). -/
structure Full where
  sub : Nat
  d : Opnd
  a : Opnd
  b : Opnd
  c : Opnd
  pn : Bool
  pm : Nat
  fs : Nat
  m5 : Bool
  ty : Nat
deriving DecidableEq, Repr

/-- The M-form (12 R282). -/
structure MForm where
  sub : Nat
  d : Opnd
  a : Opnd
  b : Opnd
  off : Int
  pn : Bool
  pm : Nat
  fs : Nat
  ty : Nat
deriving DecidableEq, Repr

/-- One slot of a pair word (12 R284). -/
structure Slot where
  pop : Nat
  d : Opnd
  b : Opnd
  ty : Nat
deriving DecidableEq, Repr

/-- The fields of a candidate word below OP (10 R245); `imm` is IMM17 as a signed number. -/
structure CWord where
  d : Nat
  a : Nat
  b : Nat
  imm : Int
deriving DecidableEq, Repr

/-- An agent of the ordering machine with a write queue (03 R76). -/
inductive Agent where
  | lane (w l : Nat)
  | op (u e n : Nat)
  | fabric (pkg : Nat)
deriving DecidableEq, Repr

/-- An access of a remote package (03 R103). -/
inductive FabricOp where
  | read (n : Nat)
  | write (bytes : List Byte)
  /-- ATOM of 14 R360, by its SUB, type and operand -/
  | atom (sub ty v : Nat)
  /-- ATCAS of 14 R361, of n bytes -/
  | cas (n old new : Nat)
  | fence (system : Bool)
  /-- REL of a value to the sync object at the address, and the physical runs of the regions bound to it there -/
  | rel (v : Nat) (runs : List (Nat × Nat))
  /-- ACQ of the sync object at the address -/
  | acq
deriving DecidableEq, Repr

/-- A management window: a virtual function's own, or the physical function's (22 R423, R424). -/
inductive Win where
  | vf (n : Nat)
  | pf
deriving DecidableEq, Repr

/-- A register without behaviour of its own, as a write names it (08 R189, R197, R201; 22 R423; 07 R184; 02 R50; 21 R413; 08 R216). -/
inductive RegTarget where
  | launchWin (vf off size : Nat)
  | mgmt (win : Win) (off : Nat)
  | fwRecord (die idx off size : Nat)
  | fwHeartbeat (die : Nat)
  | fwStealScope (die entry : Nat)
  | fwOther (die off : Nat)
  | mcDieColours (die : Nat)
  | mcBoostLimit (die : Nat)
  | mcWeight (vf : Nat)
deriving DecidableEq, Repr

/-- The operands of a machine event: what its occasion supplies (log 1). Syntax names them for each event below. -/
structure Occasion where
  a : Nat
  b : Nat
  c : Nat
  win : Win
deriving DecidableEq, Repr

/-- The instruction set: one constructor per row of the opcode table, events included (95).
An event written without fields takes its operands from the occasion (`State.occ`), as its comment says. -/
inductive Instr where
  | nop (w : Full)
  | bra (sub : Nat) (cond : Opnd) (off : Int)
  | brc (sub : Nat) (cond : Opnd) (off : Int)
  | jmpi (w : Full)
  | call (sub : Nat) (cond link : Opnd) (off : Int)
  | ret (w : Full)
  | syncw (w : Full)
  | loop (lc count : Opnd) (body : Nat)
  | lbrk (w : Full)
  | exitI (w : Full)
  | exitW (w : Full)
  | yield (w : Full)
  | bkpt (w : Full)
  | trapI (w : Full)
  | barSync (w : Full)
  | barArrive (w : Full)
  | barWait (w : Full)
  | mwait (w : Full)
  | waitt (w : Full)
  | iadd (w : Full)
  | isub (w : Full)
  | imul (w : Full)
  | imulh (w : Full)
  | imad (w : Full)
  | idiv (w : Full)
  | irem (w : Full)
  | ineg (w : Full)
  | iabs (w : Full)
  | imin (w : Full)
  | imax (w : Full)
  | andI (w : Full)
  | orI (w : Full)
  | xorI (w : Full)
  | andn (w : Full)
  | notI (w : Full)
  | shl (w : Full)
  | shr (w : Full)
  | sar (w : Full)
  | rot (w : Full)
  | bfe (w : Full)
  | bfi (w : Full)
  | popc (w : Full)
  | clz (w : Full)
  | ctz (w : Full)
  | brev (w : Full)
  | icmp (w : Full)
  | isel (w : Full)
  | movI (w : Full)
  | movi (d : Opnd) (ty : Nat) (imm : Word)
  | cvti (w : Full)
  | lea (w : Full)
  | prom (w : Full)
  | pickl (w : Full)
  | vtoa (w : Full)
  | mkaff (w : Full)
  | abase (w : Full)
  | astride (w : Full)
  | mand (w : Full)
  | mor (w : Full)
  | mxor (w : Full)
  | mnot (w : Full)
  | mandn (w : Full)
  | mpopc (w : Full)
  | mffs (w : Full)
  | mtos (w : Full)
  | stom (w : Full)
  | mlive (w : Full)
  | vrdx (w : Full)
  | vwrx (w : Full)
  | cnarrow (w : Full)
  | cperm (w : Full)
  | cget (w : Full)
  | ctag (w : Full)
  | cld (w : MForm)
  | cst (w : MForm)
  | cfmt (w : Full)
  | fadd (w : Full)
  | fsub (w : Full)
  | fmul (w : Full)
  | ffma (w : Full)
  | fmin (w : Full)
  | fmax (w : Full)
  | fabs (w : Full)
  | fneg (w : Full)
  | fcmp (w : Full)
  | fdiv (w : Full)
  | fsqrt (w : Full)
  | frcp (w : Full)
  | frsq (w : Full)
  | fexp2 (w : Full)
  | flog2 (w : Full)
  | fsinpi (w : Full)
  | fcospi (w : Full)
  | ftanh (w : Full)
  | fsigm (w : Full)
  | frnd (w : Full)
  | fcvt (w : Full)
  | retag (w : Full)
  | fclass (w : Full)
  | dotp (w : Full)
  | expr (w : Full) (in3 : Opnd) (tokens : List Nat)
  | fscale (w : Full)
  | shfl (w : Full)
  | vote (w : Full)
  | vred (w : Full)
  | vscan (w : Full)
  | matchI (w : Full)
  | ld (w : MForm)
  | st (w : MForm)
  | pfetch (w : MForm)
  | atom (w : Full)
  | atcas (w : Full)
  | fence (w : Full)
  | fencePath (w : Full)
  | acq (w : Full)
  | relI (w : Full)
  | bindI (w : Full)
  | unbind (w : Full)
  | abarInit (w : Full)
  | abarArrive (w : Full)
  | abarWait (w : Full)
  | abarTest (w : Full)
  | cflush (w : Full)
  | icinv (w : Full)
  | tcfg (w : Full)
  | trel (w : Full)
  | tstat (w : Full)
  | tzero (w : Full)
  | twait (w : Full)
  | mma (w : Full)
  | mmaCks (w : Full)
  | mstep (w : Full)
  | gang (w : Full)
  | mown (w : Full)
  | mpass (w : Full)
  | cgo (w : Full)
  | ggo (w : Full)
  | xgo (w : Full)
  | tlge (w : Full)
  | tlout (w : Full)
  | tlrd (w : Full)
  | tliss (w : Full)
  | tlflt (w : Full)
  | commit (w : Full)
  | spawn (w : Full)
  | joinI (w : Full)
  | emit (w : Full)
  | launch (w : Full)
  | cancel (w : Full)
  | lvlcnt (w : Full)
  | crun (w : Full)
  | vsti (w : Full)
  | vstq (w : Full)
  | vstc (w : Full)
  | srd (w : Full)
  | swr (w : Full)
  | timens (w : Full)
  | cycles (w : Full)
  | perfrd (w : Full)
  | winrd (w : Full)
  | winwr (w : Full)
  | tresume (w : Full)
  | tkill (w : Full)
  | tescal (w : Full)
  | pairWord (x y : Slot)
  | candHalt (c : CWord)
  | candAdd (c : CWord)
  | candSub (c : CWord)
  | candMul (c : CWord)
  | candDiv (c : CWord)
  | candRem (c : CWord)
  | candAnd (c : CWord)
  | candOr (c : CWord)
  | candXor (c : CWord)
  | candShl (c : CWord)
  | candShr (c : CWord)
  | candSar (c : CWord)
  | candMin (c : CWord)
  | candMax (c : CWord)
  | candSlt (c : CWord)
  | candSeq (c : CWord)
  | candAddi (c : CWord)
  | candMuli (c : CWord)
  | candAndi (c : CWord)
  | candLi (c : CWord)
  | candLis (c : CWord)
  | candNeg (c : CWord)
  | candAbs (c : CWord)
  | candLd (c : CWord)
  | candSt (c : CWord)
  | candLdx (c : CWord)
  | candBeq (c : CWord)
  | candBne (c : CWord)
  | candBlt (c : CWord)
  | candBge (c : CWord)
  | candJmp (c : CWord)
  | candOut (c : CWord)
  | candSel (c : CWord)
  | candClz (c : CWord)
  | candPopc (c : CWord)
  | candIllegal (op : Nat) (c : CWord)
  | drain (ag : Agent) (idx : Nat)
  | hostWrite (ep pa : Nat) (bytes : List Byte)
  | fabricAccess (pkg pa : Nat) (acc : FabricOp)
  | remoteStoreFail (ag : Agent) (idx : Nat)
  | storageError (u buf off : Nat) (corrected : Bool)
  | registerWrite (by_ : Nat) (target : RegTarget) (v : DWord)
  | partw (die entry : Nat) (bytes : List Byte)
  | fwstage (off : Nat) (bytes : List Byte)
  | sensorSample (cluster : Nat) (t0 t1 t2 : Int)
  | reservedOpcode (w : DWord)
  | blockRecord (dist : Nat)
  | syncwRelease  -- a the wave
  | loopEnd  -- a the wave
  | barWaitResume  -- a the wave
  | mwaitWake  -- a the wave, b a lane that waits
  | waittExpiry  -- a the wave, b a lane that waits
  | abarWaitResume  -- a the wave, b a lane that waits
  | tileWaitResume  -- a the wave, b a lane that waits
  | mmaComplete  -- a the unit
  | gangLatchMatch  -- a the unit
  | mownGrant  -- a the core
  | engineLimitResume  -- a the wave, b a lane that waits
  | engineOperationStart  -- a the unit, b the context
  | copyEntry  -- a the unit, b the context, c 1 where a remote access or member fails
  | gatherEntry  -- a the unit, b the context, c 1 where a remote access or member fails
  | landingTransferComplete  -- a the unit, b the context
  | loopEntry  -- a the unit, b the context
  | condEntry  -- a the unit, b the context
  | arriveOnlyEntry  -- a the unit, b the context
  | collectiveEntry  -- a the unit, b the context, c 1 where a remote access or member fails
  | endEntry  -- a the unit, b the context
  | tlgeResume  -- a the wave, b a lane that waits
  | tloutResume  -- a the wave, b a lane that waits
  | commitResume  -- a the wave, b a lane that waits
  | joinResume  -- a the wave, b a lane that waits
  | dequePop  -- a core, b wave slot
  | dequeRefill  -- a core, b launch whose region is chosen
  | dequeSteal  -- a thief, b victim, c wave slot
  | coreDepart  -- a the core
  | emitResume  -- a the wave, b a lane that waits
  | launchLimitResume  -- a the wave, b a lane that waits
  | cancelRetire  -- a the wave
  | handlerStart  -- a the core
  | hostRead  -- a endpoint, b physical address, c bytes
  | remoteLoadComplete  -- a wave, b lane, c 1 when it returned and 0 when the fabric reports failure
  | memberResidentWake  -- a the wave, b a lane that waits
  | currentReservationGrant  -- a global cluster
  | storageTrap  -- a the wave
  | xlateRecordPost  -- a virtual function
  | doorbellLaunch  -- a virtual function, b value written
  | doorbellClose  -- a virtual function, b value written
  | phaseStart  -- a virtual function
  | launchComplete  -- a launch
  | slotcommit  -- a die, b record index
  | bindRecordRun  -- a die, b record index
  | bindRecordResume  -- a die, b record index
  | bindRecordEvict  -- a die, b record index
  | unitPlace  -- a die, b record index
  | unitEvict  -- a the unit
  | scrubComplete  -- a core, b 1 when the scrub passed its check
  | heartbeatTimeout  -- a die
  | lendCluster  -- a global cluster, b partition entry of its die
  | reclaimCluster  -- a global cluster
  | reclaimDeadline  -- a global cluster
  | nodeLaunchStart  -- a virtual function, b node
  | nodeTimeoutExpiry  -- a virtual function, b node
  | tenantSliceEnd  -- a die, b partition entry
  | sliceLimitExpiry  -- a die, b partition entry
  | shootdown  -- a endpoint, win window
  | shootdownComplete  -- a virtual function
  | disposeReplay  -- a endpoint, win window
  | disposeFail  -- a endpoint, win window
  | gallery  -- a endpoint, win window
  | nsnew  -- a endpoint, win window
  | nsfree  -- a endpoint, win window
  | collnew  -- a endpoint, win window
  | collfree  -- a endpoint, win window
  | pause  -- a endpoint, win window
  | resume  -- a endpoint, win window
  | migin  -- a endpoint, win window
  | resync  -- a endpoint, win window
  | teardown  -- a endpoint, win window
  | pfread  -- a endpoint, win window
  | pfwrite  -- a endpoint, win window
  | cmdUnknown  -- a endpoint, b code, win window
  | rootWrite  -- a endpoint, b value, win window
  | toffsetWrite  -- a endpoint, b value, win window
  | resetPartition  -- a endpoint and win window; or c 1 by the side band, b target
  | resetEngine  -- a endpoint and win window; or c 1 by the side band, b target
  | resetLink  -- a endpoint and win window; or c 1 by the side band, b target
  | resetPackage  -- a endpoint and win window; or c 1 by the side band, b target
  | sbResync  -- a segment
  | stealgrp  -- a die, b entry, c group
  | owner  -- a virtual function, b endpoint
  | sbTeardown  -- a virtual function
  | fwact  -- no operand
  | schedulerHandoff  -- a die
  | sensclr  -- a global cluster, b sensor
  | flitCrcFail  -- a port, b 1 where the flit has failed before
  | flitAckTimeout  -- a port, b 1 where the flit has failed before
  | linkDown  -- a port
  | mezzaninePortFail  -- a port
  | boostIntervalEnd  -- a global cluster
  | boostStepdown  -- a global cluster
  | permitRefill  -- a global cluster
  | boostGrant  -- a die
  | railSwitch  -- a global cluster, b 1 for the high rail, c 1 when the switch ends
  | meterSample  -- a die, b entry, c milliwatts
  | throttleStep  -- a die, b partition entry
  | thermalStep  -- a global cluster
  | clauseFlagClear  -- a wave, b flag
  | tenantSliceBegin  -- a die, b partition entry
  | linkUp  -- a port, b peer, c peer port
  | collectiveGroupUsable  -- a group
  | endRecord  -- no operand
deriving DecidableEq, Repr

end Sys2Proof
end

