-- ==== Sys2Proof/WellFormed.lean ====
section
/-! DEFINITION. Which instructions have an encoding: the ranges of every field (12 R275-R277, R282, R284; 10 R245). -/
namespace Sys2Proof

/-- A register number lies in its file, a code names an operand (12 R276, R277). -/
def Opnd.wf : Opnd → Bool
  | .s n => n < 64
  | .a n => n < 32
  | .v n => n < 256
  | .t n => n < 64
  | .m n => n < 8
  | .lc n => n < 3
  | .sp n => 0x50 ≤ n && n ≤ 0x5C
  | .k n => n < 16
  | .e n => n < 8
  | .imm x => -64 ≤ x && x ≤ 63

/-- The ranges of the full form's fields (12 R275). -/
def Full.wf (w : Full) : Bool :=
  w.sub < 16 && w.d.wf && w.a.wf && w.b.wf && w.c.wf && w.pm < 8 && w.fs < 4 && w.ty < 32

/-- The ranges of the M-form's fields (12 R282). -/
def MForm.wf (w : MForm) : Bool :=
  w.sub < 16 && w.d.wf && w.a.wf && w.b.wf && -512 ≤ w.off && w.off ≤ 511 && w.pm < 8 && w.fs < 4 && w.ty < 32

/-- The ranges of a pair slot's fields (12 R284). -/
def Slot.wf (x : Slot) : Bool := x.pop < 64 && x.d.wf && x.b.wf && x.ty < 32

/-- The ranges of a candidate word's fields (10 R245). -/
def CWord.wf (c : CWord) : Bool := c.d < 8 && c.a < 8 && c.b < 8 && -65536 ≤ c.imm && c.imm ≤ 65535

/-- A native branch offset is a whole number of words in 24 bits (12 R282). -/
def offWf (off : Int) : Bool := off % 8 = 0 && -67108864 ≤ off && off ≤ 67108856

/-- The opcodes the map reserves (12 R286). -/
def reservedOp (op : Nat) : Bool :=
  op = 0x3F || (0x53 ≤ op && op ≤ 0x57) || (0x5D ≤ op && op ≤ 0x5F) || (0x6D ≤ op && op ≤ 0x6F)

/-- A word whose bit 63 is 0 and whose OP is reserved (12 R274, R286). -/
def reservedWord (w : DWord) : Bool := w.toNat / 2 ^ 63 = 0 && reservedOp (w.toNat / 2 ^ 56 % 128)

/-- An instruction has a native encoding. A machine event has none; it is well formed. -/
def Instr.wf : Instr → Bool
  | .nop w => w.wf
  | .jmpi w => w.wf
  | .ret w => w.wf
  | .syncw w => w.wf
  | .lbrk w => w.wf
  | .exitI w => w.wf
  | .exitW w => w.wf
  | .yield w => w.wf
  | .bkpt w => w.wf
  | .trapI w => w.wf
  | .barSync w => w.wf
  | .barArrive w => w.wf
  | .barWait w => w.wf
  | .mwait w => w.wf
  | .waitt w => w.wf
  | .iadd w => w.wf
  | .isub w => w.wf
  | .imul w => w.wf
  | .imulh w => w.wf
  | .imad w => w.wf
  | .idiv w => w.wf
  | .irem w => w.wf
  | .ineg w => w.wf
  | .iabs w => w.wf
  | .imin w => w.wf
  | .imax w => w.wf
  | .andI w => w.wf
  | .orI w => w.wf
  | .xorI w => w.wf
  | .andn w => w.wf
  | .notI w => w.wf
  | .shl w => w.wf
  | .shr w => w.wf
  | .sar w => w.wf
  | .rot w => w.wf
  | .bfe w => w.wf
  | .bfi w => w.wf
  | .popc w => w.wf
  | .clz w => w.wf
  | .ctz w => w.wf
  | .brev w => w.wf
  | .icmp w => w.wf
  | .isel w => w.wf
  | .movI w => w.wf
  | .cvti w => w.wf
  | .lea w => w.wf
  | .prom w => w.wf
  | .pickl w => w.wf
  | .vtoa w => w.wf
  | .mkaff w => w.wf
  | .abase w => w.wf
  | .astride w => w.wf
  | .mand w => w.wf
  | .mor w => w.wf
  | .mxor w => w.wf
  | .mnot w => w.wf
  | .mandn w => w.wf
  | .mpopc w => w.wf
  | .mffs w => w.wf
  | .mtos w => w.wf
  | .stom w => w.wf
  | .mlive w => w.wf
  | .vrdx w => w.wf
  | .vwrx w => w.wf
  | .cnarrow w => w.wf
  | .cperm w => w.wf
  | .cget w => w.wf
  | .ctag w => w.wf
  | .cfmt w => w.wf
  | .fadd w => w.wf
  | .fsub w => w.wf
  | .fmul w => w.wf
  | .ffma w => w.wf
  | .fmin w => w.wf
  | .fmax w => w.wf
  | .fabs w => w.wf
  | .fneg w => w.wf
  | .fcmp w => w.wf
  | .fdiv w => w.wf
  | .fsqrt w => w.wf
  | .frcp w => w.wf
  | .frsq w => w.wf
  | .fexp2 w => w.wf
  | .flog2 w => w.wf
  | .fsinpi w => w.wf
  | .fcospi w => w.wf
  | .ftanh w => w.wf
  | .fsigm w => w.wf
  | .frnd w => w.wf
  | .fcvt w => w.wf
  | .retag w => w.wf
  | .fclass w => w.wf
  | .dotp w => w.wf
  | .fscale w => w.wf
  | .shfl w => w.wf
  | .vote w => w.wf
  | .vred w => w.wf
  | .vscan w => w.wf
  | .matchI w => w.wf
  | .atom w => w.wf
  | .atcas w => w.wf
  | .fence w => w.wf
  | .fencePath w => w.wf
  | .acq w => w.wf
  | .relI w => w.wf
  | .bindI w => w.wf
  | .unbind w => w.wf
  | .abarInit w => w.wf
  | .abarArrive w => w.wf
  | .abarWait w => w.wf
  | .abarTest w => w.wf
  | .cflush w => w.wf
  | .icinv w => w.wf
  | .tcfg w => w.wf
  | .trel w => w.wf
  | .tstat w => w.wf
  | .tzero w => w.wf
  | .twait w => w.wf
  | .mma w => w.wf
  | .mmaCks w => w.wf
  | .mstep w => w.wf
  | .gang w => w.wf
  | .mown w => w.wf
  | .mpass w => w.wf
  | .cgo w => w.wf
  | .ggo w => w.wf
  | .xgo w => w.wf
  | .tlge w => w.wf
  | .tlout w => w.wf
  | .tlrd w => w.wf
  | .tliss w => w.wf
  | .tlflt w => w.wf
  | .commit w => w.wf
  | .spawn w => w.wf
  | .joinI w => w.wf
  | .emit w => w.wf
  | .launch w => w.wf
  | .cancel w => w.wf
  | .lvlcnt w => w.wf
  | .crun w => w.wf
  | .vsti w => w.wf
  | .vstq w => w.wf
  | .vstc w => w.wf
  | .srd w => w.wf
  | .swr w => w.wf
  | .timens w => w.wf
  | .cycles w => w.wf
  | .perfrd w => w.wf
  | .winrd w => w.wf
  | .winwr w => w.wf
  | .tresume w => w.wf
  | .tkill w => w.wf
  | .tescal w => w.wf
  | .bra sub cond off => sub < 16 && cond.wf && offWf off
  | .brc sub cond off => sub < 16 && cond.wf && offWf off
  | .call sub cond link off => sub < 16 && cond.wf && link.wf && offWf off
  | .loop lc count body => lc.wf && count.wf && 1 ≤ body && body ≤ 256
  | .movi d ty _ => d.wf && ty < 32
  | .cld w => w.wf
  | .cst w => w.wf
  | .ld w => w.wf
  | .st w => w.wf
  | .pfetch w => w.wf
  | .expr w in3 tokens => w.wf && in3.wf && tokens.length = 13 && tokens.all (· < 16)
  | .pairWord x y => x.wf && y.wf
  | .reservedOpcode w => reservedWord w
  | .candIllegal op c => 0x23 ≤ op && op < 64 && c.wf
  | .candHalt c => c.wf
  | .candAdd c => c.wf
  | .candSub c => c.wf
  | .candMul c => c.wf
  | .candDiv c => c.wf
  | .candRem c => c.wf
  | .candAnd c => c.wf
  | .candOr c => c.wf
  | .candXor c => c.wf
  | .candShl c => c.wf
  | .candShr c => c.wf
  | .candSar c => c.wf
  | .candMin c => c.wf
  | .candMax c => c.wf
  | .candSlt c => c.wf
  | .candSeq c => c.wf
  | .candAddi c => c.wf
  | .candMuli c => c.wf
  | .candAndi c => c.wf
  | .candLi c => c.wf
  | .candLis c => c.wf
  | .candNeg c => c.wf
  | .candAbs c => c.wf
  | .candLd c => c.wf
  | .candSt c => c.wf
  | .candLdx c => c.wf
  | .candBeq c => c.wf
  | .candBne c => c.wf
  | .candBlt c => c.wf
  | .candBge c => c.wf
  | .candJmp c => c.wf
  | .candOut c => c.wf
  | .candSel c => c.wf
  | .candClz c => c.wf
  | .candPopc c => c.wf
  | .syncwRelease => true
  | .loopEnd => true
  | .barWaitResume => true
  | .mwaitWake => true
  | .waittExpiry => true
  | .abarWaitResume => true
  | .tileWaitResume => true
  | .mmaComplete => true
  | .gangLatchMatch => true
  | .mownGrant => true
  | .engineLimitResume => true
  | .engineOperationStart => true
  | .copyEntry => true
  | .gatherEntry => true
  | .landingTransferComplete => true
  | .loopEntry => true
  | .condEntry => true
  | .arriveOnlyEntry => true
  | .collectiveEntry => true
  | .endEntry => true
  | .tlgeResume => true
  | .tloutResume => true
  | .commitResume => true
  | .joinResume => true
  | .dequePop => true
  | .dequeRefill => true
  | .dequeSteal => true
  | .coreDepart => true
  | .emitResume => true
  | .launchLimitResume => true
  | .cancelRetire => true
  | .handlerStart => true
  | .drain _ _ => true
  | .hostWrite _ _ _ => true
  | .hostRead => true
  | .fabricAccess _ _ _ => true
  | .remoteLoadComplete => true
  | .remoteStoreFail _ _ => true
  | .memberResidentWake => true
  | .currentReservationGrant => true
  | .storageError _ _ _ _ => true
  | .storageTrap => true
  | .xlateRecordPost => true
  | .doorbellLaunch => true
  | .doorbellClose => true
  | .phaseStart => true
  | .launchComplete => true
  | .registerWrite _ _ _ => true
  | .slotcommit => true
  | .bindRecordRun => true
  | .bindRecordResume => true
  | .bindRecordEvict => true
  | .unitPlace => true
  | .unitEvict => true
  | .scrubComplete => true
  | .heartbeatTimeout => true
  | .lendCluster => true
  | .reclaimCluster => true
  | .reclaimDeadline => true
  | .nodeLaunchStart => true
  | .nodeTimeoutExpiry => true
  | .tenantSliceEnd => true
  | .sliceLimitExpiry => true
  | .shootdown => true
  | .shootdownComplete => true
  | .disposeReplay => true
  | .disposeFail => true
  | .gallery => true
  | .nsnew => true
  | .nsfree => true
  | .collnew => true
  | .collfree => true
  | .pause => true
  | .resume => true
  | .migin => true
  | .resync => true
  | .teardown => true
  | .pfread => true
  | .pfwrite => true
  | .cmdUnknown => true
  | .rootWrite => true
  | .toffsetWrite => true
  | .resetPartition => true
  | .resetEngine => true
  | .resetLink => true
  | .resetPackage => true
  | .sbResync => true
  | .partw _ _ _ => true
  | .stealgrp => true
  | .owner => true
  | .sbTeardown => true
  | .fwstage _ _ => true
  | .fwact => true
  | .schedulerHandoff => true
  | .sensclr => true
  | .flitCrcFail => true
  | .flitAckTimeout => true
  | .linkDown => true
  | .mezzaninePortFail => true
  | .boostIntervalEnd => true
  | .boostStepdown => true
  | .permitRefill => true
  | .boostGrant => true
  | .railSwitch => true
  | .meterSample => true
  | .throttleStep => true
  | .sensorSample _ _ _ _ => true
  | .thermalStep => true
  | .clauseFlagClear => true
  | .tenantSliceBegin => true
  | .linkUp => true
  | .collectiveGroupUsable => true
  | .blockRecord _ => true
  | .endRecord => true

/-- The instruction has an encoding. -/
abbrev Instr.WF (i : Instr) : Prop := i.wf = true

end Sys2Proof
end

