-- ==== Sys2Proof/Decode.lean ====
section
/-! DEFINITION. Decoding native words, candidate words and interchange records; which encodings the spec refuses;
the encoder (10 R245; 12 R271-R291). -/
namespace Sys2Proof

/-- Why a word is not an instruction (12 R288). `short` means bytes are missing. -/
inductive Reject where
  | illop
  | illclass
  | badclause
  | short
deriving DecidableEq, Repr

/-- Bits [hi:lo] of a number (00 notation). -/
def bits (x hi lo : Nat) : Nat := x / 2 ^ lo % 2 ^ (hi - lo + 1)

/-- The low n bits read as two's complement (00 notation). -/
def sextNat (x n : Nat) : Int :=
  if x % 2 ^ n < 2 ^ (n - 1) then (x % 2 ^ n : Nat) else (x % 2 ^ n : Nat) - (2 ^ n : Nat)

/-- The low n bits of an integer's two's complement. -/
def wrapNat (x : Int) (n : Nat) : Nat := (x % (2 ^ n : Nat)).toNat

/-- A class code with its 8-bit register field (12 R276, R277). -/
def decodeOpnd (n : Nat) : Except Reject Opnd :=
  let r := n % 256
  match n / 256 % 4 with
  | 0 => if r < 64 then .ok (.s r) else .error .illop
  | 1 => if r < 32 then .ok (.a r) else .error .illop
  | 2 => .ok (.v r)
  | _ =>
    if r < 0x40 then .ok (.t r)
    else if r < 0x48 then .ok (.m (r - 0x40))
    else if r < 0x4B then .ok (.lc (r - 0x48))
    else if r < 0x50 then .error .illop
    else if r < 0x5D then .ok (.sp r)
    else if r < 0x60 then .error .illop
    else if r < 0x70 then .ok (.k (r - 0x60))
    else if r < 0x78 then .ok (.e (r - 0x70))
    else if r < 0x80 then .error .illop
    else .ok (.imm ((r : Int) - 0xC0))

/-- The ten bits of an operand: class code, then register field (12 R276, R277). -/
def encodeOpnd : Opnd → Nat
  | .s n => n
  | .a n => 256 + n
  | .v n => 512 + n
  | .t n => 768 + n
  | .m n => 768 + 0x40 + n
  | .lc n => 768 + 0x48 + n
  | .sp n => 768 + n
  | .k n => 768 + 0x60 + n
  | .e n => 768 + 0x70 + n
  | .imm x => 768 + (x + 0xC0).toNat

/-- The kinds of operand the instruction entries tell apart (13 R296). -/
inductive Kd where
  | s | a | v | t | m0 | m | lc | us | lane | k | e | imm
deriving DecidableEq, Repr

/-- The kind of an operand. -/
def Opnd.kind : Opnd → Kd
  | .s _ => .s | .a _ => .a | .v _ => .v | .t _ => .t
  | .m n => if n = 0 then .m0 else .m
  | .lc _ => .lc
  | .sp n => if n = 0x50 then .lane else .us
  | .k _ => .k | .e _ => .e | .imm _ => .imm

/-- What a field of an instruction accepts: nothing (12 R278), a literal up to a bound (12 R276), operands of some kinds. -/
inductive Pos where
  | unused
  | lit (max : Nat)
  | acc (l : List Kd)
deriving DecidableEq, Repr

/-- What MOD may hold (12 R279): nothing; a type; a type with .FTZ; N32 or N64; nothing or N64. -/
inductive TyPol where
  | none | int | flt | w | len
deriving DecidableEq, Repr

/-- The computed class an entry gives the destination (06 R157, R158). -/
inductive ClsPol where
  | free        -- no class result, or fixed by the accepted kinds
  | join        -- every affine source computes varying
  | add         -- affine kept by IADD and ISUB, SUB 0
  | mul
  | shl
  | mov
  | lea
  | above       -- PROM: strictly higher than A's
deriving DecidableEq, Repr

/-- The shape of a full-form instruction's entry. -/
structure Shape where
  subs : List Nat
  ty : TyPol
  d : Pos
  a : Pos
  b : Pos
  c : Pos
  cls : ClsPol
  nopred : Bool

def Pos.data : Pos := .acc [.s, .a, .v, .imm, .us, .lane]
def Pos.uni : Pos := .acc [.s, .imm, .us]
def Pos.aff : Pos := .acc [.s, .a, .imm, .us, .lane]
def Pos.s : Pos := .acc [.s]
def Pos.v : Pos := .acc [.v]
def Pos.sv : Pos := .acc [.s, .v]
def Pos.sav : Pos := .acc [.s, .a, .v]
def Pos.mD : Pos := .acc [.m]
def Pos.mA : Pos := .acc [.m0, .m]
def Pos.k : Pos := .acc [.k]
def Pos.t : Pos := .acc [.t]
def Pos.e : Pos := .acc [.e]
def Pos.si : Pos := .acc [.s, .imm]
def Pos.addr : Pos := .acc [.s, .a, .lane, .v, .k]
def Pos.base : Pos := .acc [.s, .a, .v, .k]
def Pos.idx : Pos := .acc [.s, .a, .v, .imm, .us, .lane]

def roundSubs : List Nat := [0, 1, 2, 3, 4, 7]

/-- The entries of the full-form instructions: SUB, type, operand positions, class rule, predication
(07 R177; 10 R240, R254; 12 R287; 13; 14; 15). Any other instruction has none. -/
def Instr.shape : Instr → Option (Full × Shape)
  | .nop w => some (w, ⟨[0], .none, .unused, .unused, .unused, .unused, .free, false⟩)
  | .jmpi w => some (w, ⟨[0], .none, .unused, .acc [.s, .a, .lane, .v], .unused, .unused, .free, false⟩)
  | .ret w => some (w, ⟨[0], .none, .unused, Pos.v, .unused, .unused, .free, false⟩)
  | .syncw w => some (w, ⟨[0], .none, .unused, .unused, .unused, .unused, .free, true⟩)
  | .lbrk w => some (w, ⟨[0], .none, .unused, .unused, .unused, .unused, .free, true⟩)
  | .exitI w => some (w, ⟨[0], .none, .unused, .unused, .unused, .unused, .free, false⟩)
  | .exitW w => some (w, ⟨[1], .none, .unused, .unused, .unused, .unused, .free, true⟩)
  | .yield w => some (w, ⟨[0], .none, .unused, .unused, .unused, .unused, .free, true⟩)
  | .bkpt w => some (w, ⟨[0], .none, .unused, .unused, .unused, .unused, .free, false⟩)
  | .trapI w => some (w, ⟨[0], .none, .unused, .unused, .unused, .unused, .free, false⟩)
  | .barSync w => some (w, ⟨[0], .none, .unused, .unused, .unused, .unused, .free, true⟩)
  | .barArrive w => some (w, ⟨[1], .none, .unused, .unused, .unused, .unused, .free, true⟩)
  | .barWait w => some (w, ⟨[2], .none, .unused, .unused, .unused, .unused, .free, true⟩)
  | .mwait w => some (w, ⟨[0], .none, Pos.sv, Pos.s, Pos.uni, .unused, .free, false⟩)
  | .waitt w => some (w, ⟨[0], .none, .unused, Pos.s, .unused, .unused, .free, false⟩)
  | .iadd w => some (w, ⟨[0, 1, 2], .int, Pos.sav, Pos.data, Pos.data, .unused, .add, false⟩)
  | .isub w => some (w, ⟨[0, 1, 2], .int, Pos.sav, Pos.data, Pos.data, .unused, .add, false⟩)
  | .imul w => some (w, ⟨[0], .int, Pos.sav, Pos.data, Pos.data, .unused, .mul, false⟩)
  | .imulh w => some (w, ⟨[0], .int, Pos.sav, Pos.data, Pos.data, .unused, .join, false⟩)
  | .imad w => some (w, ⟨[0], .int, Pos.sav, Pos.data, Pos.data, Pos.data, .join, false⟩)
  | .idiv w => some (w, ⟨[0], .int, Pos.sav, Pos.data, Pos.data, .unused, .join, false⟩)
  | .irem w => some (w, ⟨[0], .int, Pos.sav, Pos.data, Pos.data, .unused, .join, false⟩)
  | .ineg w => some (w, ⟨[0], .int, Pos.sav, Pos.data, .unused, .unused, .join, false⟩)
  | .iabs w => some (w, ⟨[0], .int, Pos.sav, Pos.data, .unused, .unused, .join, false⟩)
  | .imin w => some (w, ⟨[0], .int, Pos.sav, Pos.data, Pos.data, .unused, .join, false⟩)
  | .imax w => some (w, ⟨[0], .int, Pos.sav, Pos.data, Pos.data, .unused, .join, false⟩)
  | .andI w => some (w, ⟨[0], .int, Pos.sav, Pos.data, Pos.data, .unused, .join, false⟩)
  | .orI w => some (w, ⟨[0], .int, Pos.sav, Pos.data, Pos.data, .unused, .join, false⟩)
  | .xorI w => some (w, ⟨[0], .int, Pos.sav, Pos.data, Pos.data, .unused, .join, false⟩)
  | .andn w => some (w, ⟨[0], .int, Pos.sav, Pos.data, Pos.data, .unused, .join, false⟩)
  | .notI w => some (w, ⟨[0], .int, Pos.sav, Pos.data, .unused, .unused, .join, false⟩)
  | .shl w => some (w, ⟨[0], .int, Pos.sav, Pos.data, Pos.data, .unused, .shl, false⟩)
  | .shr w => some (w, ⟨[0], .int, Pos.sav, Pos.data, Pos.data, .unused, .join, false⟩)
  | .sar w => some (w, ⟨[0], .int, Pos.sav, Pos.data, Pos.data, .unused, .join, false⟩)
  | .rot w => some (w, ⟨[0, 1], .int, Pos.sav, Pos.data, Pos.data, .unused, .join, false⟩)
  | .bfe w => some (w, ⟨[0, 1], .int, Pos.sav, Pos.data, Pos.data, Pos.data, .join, false⟩)
  | .bfi w => some (w, ⟨[0], .int, Pos.sav, Pos.data, Pos.data, Pos.data, .join, false⟩)
  | .popc w => some (w, ⟨[0], .int, Pos.sav, Pos.data, .unused, .unused, .join, false⟩)
  | .clz w => some (w, ⟨[0], .int, Pos.sav, Pos.data, .unused, .unused, .join, false⟩)
  | .ctz w => some (w, ⟨[0], .int, Pos.sav, Pos.data, .unused, .unused, .join, false⟩)
  | .brev w => some (w, ⟨[0], .int, Pos.sav, Pos.data, .unused, .unused, .join, false⟩)
  | .icmp w => some (w, ⟨[0, 1, 2, 3, 4, 5, 6, 7, 8, 9], .int, Pos.mD, Pos.data, Pos.data, .unused, .free, false⟩)
  | .isel w => some (w, ⟨[0], .int, Pos.v, Pos.data, Pos.data, Pos.mA, .free, false⟩)
  | .movI w => some (w, ⟨[0], .int, Pos.sav, .acc [.s, .a, .v, .imm, .us, .lane, .lc], .unused, .unused, .mov, false⟩)
  | .cvti w => some (w, ⟨roundSubs, .int, Pos.sav, Pos.data, .lit 31, .unused, .join, false⟩)
  | .lea w => some (w, ⟨[0], .int, Pos.sav, Pos.data, Pos.data, Pos.uni, .lea, false⟩)
  | .prom w => some (w, ⟨[0], .int, Pos.sav, Pos.data, .unused, .unused, .above, false⟩)
  | .pickl w => some (w, ⟨[0], .int, Pos.s, Pos.v, Pos.uni, .unused, .free, false⟩)
  | .vtoa w => some (w, ⟨[0], .int, .acc [.a], Pos.v, .unused, .unused, .free, false⟩)
  | .mkaff w => some (w, ⟨[0], .w, .acc [.a], Pos.uni, Pos.uni, .unused, .free, false⟩)
  | .abase w => some (w, ⟨[1], .w, Pos.s, .acc [.a, .lane], .unused, .unused, .free, false⟩)
  | .astride w => some (w, ⟨[2], .w, Pos.s, .acc [.a, .lane], .unused, .unused, .free, false⟩)
  | .mand w => some (w, ⟨[0], .none, Pos.mD, Pos.mA, Pos.mA, .unused, .free, false⟩)
  | .mor w => some (w, ⟨[1], .none, Pos.mD, Pos.mA, Pos.mA, .unused, .free, false⟩)
  | .mxor w => some (w, ⟨[2], .none, Pos.mD, Pos.mA, Pos.mA, .unused, .free, false⟩)
  | .mnot w => some (w, ⟨[3], .none, Pos.mD, Pos.mA, .unused, .unused, .free, false⟩)
  | .mandn w => some (w, ⟨[4], .none, Pos.mD, Pos.mA, Pos.mA, .unused, .free, false⟩)
  | .mpopc w => some (w, ⟨[0], .none, Pos.sv, Pos.mA, .unused, .unused, .free, false⟩)
  | .mffs w => some (w, ⟨[1], .none, Pos.sv, Pos.mA, .unused, .unused, .free, false⟩)
  | .mtos w => some (w, ⟨[2], .none, Pos.sv, Pos.mA, .unused, .unused, .free, false⟩)
  | .stom w => some (w, ⟨[3], .none, Pos.mD, Pos.data, .unused, .unused, .free, false⟩)
  | .mlive w => some (w, ⟨[4], .none, Pos.sv, .unused, .unused, .unused, .free, false⟩)
  | .vrdx w => some (w, ⟨[0], .int, Pos.v, Pos.v, Pos.aff, .unused, .free, false⟩)
  | .vwrx w => some (w, ⟨[0], .int, Pos.v, Pos.v, Pos.aff, .unused, .free, false⟩)
  | .cnarrow w => some (w, ⟨[0], .none, Pos.k, Pos.k, Pos.s, Pos.s, .free, false⟩)
  | .cperm w => some (w, ⟨[0], .none, Pos.k, Pos.k, Pos.uni, .unused, .free, false⟩)
  | .cget w => some (w, ⟨[0, 1, 2, 3, 4], .none, Pos.s, Pos.k, .unused, .unused, .free, false⟩)
  | .ctag w => some (w, ⟨[0], .none, Pos.s, Pos.k, .unused, .unused, .free, false⟩)
  | .cfmt w => some (w, ⟨[0], .none, Pos.k, Pos.k, Pos.uni, Pos.uni, .free, false⟩)
  | .fadd w => some (w, ⟨roundSubs, .flt, Pos.sav, Pos.data, Pos.data, .unused, .join, false⟩)
  | .fsub w => some (w, ⟨roundSubs, .flt, Pos.sav, Pos.data, Pos.data, .unused, .join, false⟩)
  | .fmul w => some (w, ⟨roundSubs, .flt, Pos.sav, Pos.data, Pos.data, .unused, .join, false⟩)
  | .ffma w => some (w, ⟨roundSubs, .flt, Pos.sav, Pos.data, Pos.data, Pos.data, .join, false⟩)
  | .fmin w => some (w, ⟨[0], .flt, Pos.sav, Pos.data, Pos.data, .unused, .join, false⟩)
  | .fmax w => some (w, ⟨[0], .flt, Pos.sav, Pos.data, Pos.data, .unused, .join, false⟩)
  | .fabs w => some (w, ⟨[0], .flt, Pos.sav, Pos.data, .unused, .unused, .join, false⟩)
  | .fneg w => some (w, ⟨[0], .flt, Pos.sav, Pos.data, .unused, .unused, .join, false⟩)
  | .fcmp w => some (w, ⟨[0, 1, 2, 3, 4, 5, 6, 7], .flt, Pos.mD, Pos.data, Pos.data, .unused, .free, false⟩)
  | .fdiv w => some (w, ⟨roundSubs, .flt, Pos.sav, Pos.data, Pos.data, .unused, .join, false⟩)
  | .fsqrt w => some (w, ⟨roundSubs, .flt, Pos.sav, Pos.data, .unused, .unused, .join, false⟩)
  | .frcp w => some (w, ⟨[0], .flt, Pos.sav, Pos.data, .unused, .unused, .join, false⟩)
  | .frsq w => some (w, ⟨[1], .flt, Pos.sav, Pos.data, .unused, .unused, .join, false⟩)
  | .fexp2 w => some (w, ⟨[2], .flt, Pos.sav, Pos.data, .unused, .unused, .join, false⟩)
  | .flog2 w => some (w, ⟨[3], .flt, Pos.sav, Pos.data, .unused, .unused, .join, false⟩)
  | .fsinpi w => some (w, ⟨[4], .flt, Pos.sav, Pos.data, .unused, .unused, .join, false⟩)
  | .fcospi w => some (w, ⟨[5], .flt, Pos.sav, Pos.data, .unused, .unused, .join, false⟩)
  | .ftanh w => some (w, ⟨[6], .flt, Pos.sav, Pos.data, .unused, .unused, .join, false⟩)
  | .fsigm w => some (w, ⟨[7], .flt, Pos.sav, Pos.data, .unused, .unused, .join, false⟩)
  | .frnd w => some (w, ⟨roundSubs, .flt, Pos.sav, Pos.data, .unused, .unused, .join, false⟩)
  | .fcvt w => some (w, ⟨roundSubs, .flt, Pos.sav, Pos.data, .lit 31, .unused, .join, false⟩)
  | .retag w => some (w, ⟨[0], .int, Pos.v, Pos.data, .unused, .unused, .free, false⟩)
  | .fclass w => some (w, ⟨[0], .flt, Pos.sav, Pos.data, .unused, .unused, .join, false⟩)
  | .dotp w => some (w, ⟨roundSubs, .flt, Pos.sav, Pos.sv, Pos.sv, Pos.data, .join, false⟩)
  | .fscale w => some (w, ⟨roundSubs, .flt, Pos.sav, Pos.data, Pos.aff, .unused, .join, false⟩)
  | .shfl w => some (w, ⟨[0, 1, 2, 3], .int, Pos.v, Pos.data, Pos.idx, .unused, .free, false⟩)
  | .vote w => some (w, ⟨[0, 1, 2], .none, Pos.sv, .acc [.s, .a, .v, .imm, .us, .lane, .m0, .m], .unused, .unused, .free, false⟩)
  | .vred w => some (w, ⟨[0, 1, 2, 3, 4, 5, 6, 7, 8], .flt, Pos.sv, Pos.data, .unused, .unused, .free, false⟩)
  | .vscan w => some (w, ⟨[0, 1, 2, 3, 4, 5, 6, 7, 8], .flt, Pos.v, Pos.data, .lit 1, .unused, .free, false⟩)
  | .matchI w => some (w, ⟨[0], .int, Pos.v, Pos.data, .unused, .unused, .free, false⟩)
  | .atom w => some (w, ⟨[0, 1, 2, 3, 4, 5, 6, 7, 8, 9, 10, 11], .int, .acc [.s, .v, .imm], Pos.addr, Pos.data, Pos.idx, .free, false⟩)
  | .atcas w => some (w, ⟨[0], .int, .acc [.s, .v, .imm], Pos.addr, Pos.data, Pos.data, .free, false⟩)
  | .fence w => some (w, ⟨[0, 1, 2, 3, 4, 5, 6], .none, .unused, .unused, .unused, .unused, .free, false⟩)
  | .fencePath w => some (w, ⟨[7], .none, .unused, .unused, .unused, .unused, .free, false⟩)
  | .acq w => some (w, ⟨[0], .w, Pos.sv, Pos.s, .unused, .unused, .free, false⟩)
  | .relI w => some (w, ⟨[0], .w, .unused, Pos.s, Pos.data, .unused, .free, false⟩)
  | .bindI w => some (w, ⟨[0], .len, .unused, Pos.s, Pos.uni, Pos.s, .free, false⟩)
  | .unbind w => some (w, ⟨[0], .none, .unused, Pos.s, .unused, .unused, .free, false⟩)
  | .abarInit w => some (w, ⟨[0], .none, .unused, Pos.s, Pos.uni, .unused, .free, false⟩)
  | .abarArrive w => some (w, ⟨[1], .none, .unused, Pos.s, Pos.uni, .unused, .free, false⟩)
  | .abarWait w => some (w, ⟨[2], .none, .unused, Pos.s, Pos.uni, .unused, .free, false⟩)
  | .abarTest w => some (w, ⟨[3], .none, Pos.sv, Pos.s, Pos.uni, .unused, .free, false⟩)
  | .cflush w => some (w, ⟨[0], .none, .unused, .acc [.s, .a, .lane, .v], .unused, Pos.idx, .free, false⟩)
  | .icinv w => some (w, ⟨[0], .none, .unused, Pos.s, Pos.uni, .unused, .free, false⟩)
  | .tcfg w => some (w, ⟨[0], .none, Pos.t, Pos.s, .unused, .unused, .free, false⟩)
  | .trel w => some (w, ⟨[0], .none, .unused, Pos.t, .unused, .unused, .free, false⟩)
  | .tstat w => some (w, ⟨[0], .none, Pos.sv, Pos.t, .unused, .unused, .free, false⟩)
  | .tzero w => some (w, ⟨[1], .none, .unused, Pos.t, .unused, .unused, .free, false⟩)
  | .twait w => some (w, ⟨[2], .none, .unused, Pos.t, .unused, .unused, .free, false⟩)
  | .mma w => some (w, ⟨[0], .none, Pos.t, Pos.t, Pos.t, .unused, .free, false⟩)
  | .mmaCks w => some (w, ⟨[1], .none, Pos.t, Pos.t, Pos.t, .unused, .free, false⟩)
  | .mstep w => some (w, ⟨[3], .none, Pos.t, Pos.t, Pos.t, Pos.uni, .free, false⟩)
  | .gang w => some (w, ⟨[0], .none, .unused, Pos.si, .unused, .unused, .free, false⟩)
  | .mown w => some (w, ⟨[1], .none, .unused, .unused, .unused, .unused, .free, false⟩)
  | .mpass w => some (w, ⟨[2], .none, .unused, .unused, .unused, .unused, .free, false⟩)
  | .cgo w => some (w, ⟨[0], .none, .unused, Pos.e, Pos.s, .acc [.k, .s], .free, false⟩)
  | .ggo w => some (w, ⟨[1], .none, .unused, Pos.e, Pos.s, .acc [.k, .s], .free, false⟩)
  | .xgo w => some (w, ⟨[2], .none, .unused, Pos.e, Pos.s, .acc [.k, .s], .free, false⟩)
  | .tlge w => some (w, ⟨[0], .none, .unused, Pos.e, Pos.si, .unused, .free, false⟩)
  | .tlout w => some (w, ⟨[1], .none, .unused, Pos.e, Pos.uni, .unused, .free, false⟩)
  | .tlrd w => some (w, ⟨[2], .none, Pos.sv, Pos.e, .unused, .unused, .free, false⟩)
  | .tliss w => some (w, ⟨[3], .none, Pos.sv, Pos.e, .unused, .unused, .free, false⟩)
  | .tlflt w => some (w, ⟨[4], .none, Pos.sv, Pos.e, .unused, .unused, .free, false⟩)
  | .commit w => some (w, ⟨[0], .none, Pos.v, .unused, .lit 7, .unused, .free, true⟩)
  | .spawn w => some (w, ⟨[0], .none, .unused, Pos.s, .unused, .unused, .free, false⟩)
  | .joinI w => some (w, ⟨[0], .none, Pos.s, Pos.s, .unused, .unused, .free, false⟩)
  | .emit w => some (w, ⟨[0], .none, .unused, Pos.uni, Pos.s, .unused, .free, false⟩)
  | .launch w => some (w, ⟨[1], .none, Pos.s, Pos.s, .unused, .unused, .free, false⟩)
  | .cancel w => some (w, ⟨[2], .none, .unused, Pos.uni, Pos.uni, .unused, .free, false⟩)
  | .lvlcnt w => some (w, ⟨[3], .none, Pos.sv, Pos.uni, Pos.uni, .unused, .free, false⟩)
  | .crun w => some (w, ⟨[0], .none, Pos.v, Pos.sav, Pos.s, .unused, .free, false⟩)
  | .vsti w => some (w, ⟨[1], .none, Pos.v, Pos.v, Pos.si, .unused, .free, false⟩)
  | .vstq w => some (w, ⟨[2], .none, Pos.v, Pos.v, Pos.si, .unused, .free, false⟩)
  | .vstc w => some (w, ⟨[3], .none, .unused, Pos.si, .unused, .unused, .free, false⟩)
  | .srd w => some (w, ⟨[0], .none, Pos.sv, .unused, .unused, .lit 6, .free, false⟩)
  | .swr w => some (w, ⟨[1], .none, .unused, Pos.uni, .unused, .lit 6, .free, false⟩)
  | .timens w => some (w, ⟨[0], .none, Pos.sv, .unused, .unused, .unused, .free, false⟩)
  | .cycles w => some (w, ⟨[1], .none, Pos.sv, .unused, .unused, .unused, .free, false⟩)
  | .perfrd w => some (w, ⟨[0], .none, Pos.sv, Pos.uni, .unused, .unused, .free, false⟩)
  | .winrd w => some (w, ⟨[0], .none, Pos.sv, Pos.uni, .unused, .unused, .free, false⟩)
  | .winwr w => some (w, ⟨[1], .none, .unused, Pos.uni, .acc [.s, .v, .imm, .us], .unused, .free, false⟩)
  | .tresume w => some (w, ⟨[2], .none, .unused, .unused, .unused, .unused, .free, true⟩)
  | .tkill w => some (w, ⟨[3], .none, .unused, .unused, .unused, .unused, .free, true⟩)
  | .tescal w => some (w, ⟨[4], .none, .unused, .unused, .unused, .unused, .free, true⟩)
  | _ => none

/-- The opcode of an instruction in the full form (12 R287). -/
def Instr.fullOp : Instr → Option (Nat × Full)
  | .nop w => some (0x00, w)
  | .jmpi w => some (0x03, w)
  | .ret w => some (0x05, w)
  | .syncw w => some (0x06, w)
  | .lbrk w => some (0x08, w)
  | .exitI w => some (0x09, w)
  | .exitW w => some (0x09, w)
  | .yield w => some (0x0A, w)
  | .bkpt w => some (0x0B, w)
  | .trapI w => some (0x0C, w)
  | .barSync w => some (0x0D, w)
  | .barArrive w => some (0x0D, w)
  | .barWait w => some (0x0D, w)
  | .mwait w => some (0x0E, w)
  | .waitt w => some (0x0F, w)
  | .iadd w => some (0x10, w)
  | .isub w => some (0x11, w)
  | .imul w => some (0x12, w)
  | .imulh w => some (0x13, w)
  | .imad w => some (0x14, w)
  | .idiv w => some (0x15, w)
  | .irem w => some (0x16, w)
  | .ineg w => some (0x17, w)
  | .iabs w => some (0x18, w)
  | .imin w => some (0x19, w)
  | .imax w => some (0x1A, w)
  | .andI w => some (0x1B, w)
  | .orI w => some (0x1C, w)
  | .xorI w => some (0x1D, w)
  | .andn w => some (0x1E, w)
  | .notI w => some (0x1F, w)
  | .shl w => some (0x20, w)
  | .shr w => some (0x21, w)
  | .sar w => some (0x22, w)
  | .rot w => some (0x23, w)
  | .bfe w => some (0x24, w)
  | .bfi w => some (0x25, w)
  | .popc w => some (0x26, w)
  | .clz w => some (0x27, w)
  | .ctz w => some (0x28, w)
  | .brev w => some (0x29, w)
  | .icmp w => some (0x2A, w)
  | .isel w => some (0x2B, w)
  | .movI w => some (0x2C, w)
  | .cvti w => some (0x2E, w)
  | .lea w => some (0x2F, w)
  | .prom w => some (0x30, w)
  | .pickl w => some (0x31, w)
  | .vtoa w => some (0x32, w)
  | .mkaff w => some (0x33, w)
  | .abase w => some (0x33, w)
  | .astride w => some (0x33, w)
  | .mand w => some (0x34, w)
  | .mor w => some (0x34, w)
  | .mxor w => some (0x34, w)
  | .mnot w => some (0x34, w)
  | .mandn w => some (0x34, w)
  | .mpopc w => some (0x35, w)
  | .mffs w => some (0x35, w)
  | .mtos w => some (0x35, w)
  | .stom w => some (0x35, w)
  | .mlive w => some (0x35, w)
  | .vrdx w => some (0x36, w)
  | .vwrx w => some (0x37, w)
  | .cnarrow w => some (0x38, w)
  | .cperm w => some (0x39, w)
  | .cget w => some (0x3A, w)
  | .ctag w => some (0x3B, w)
  | .cfmt w => some (0x3E, w)
  | .fadd w => some (0x40, w)
  | .fsub w => some (0x41, w)
  | .fmul w => some (0x42, w)
  | .ffma w => some (0x43, w)
  | .fmin w => some (0x44, w)
  | .fmax w => some (0x45, w)
  | .fabs w => some (0x46, w)
  | .fneg w => some (0x47, w)
  | .fcmp w => some (0x48, w)
  | .fdiv w => some (0x49, w)
  | .fsqrt w => some (0x4A, w)
  | .frcp w => some (0x4B, w)
  | .frsq w => some (0x4B, w)
  | .fexp2 w => some (0x4B, w)
  | .flog2 w => some (0x4B, w)
  | .fsinpi w => some (0x4B, w)
  | .fcospi w => some (0x4B, w)
  | .ftanh w => some (0x4B, w)
  | .fsigm w => some (0x4B, w)
  | .frnd w => some (0x4C, w)
  | .fcvt w => some (0x4D, w)
  | .retag w => some (0x4E, w)
  | .fclass w => some (0x4F, w)
  | .dotp w => some (0x50, w)
  | .fscale w => some (0x52, w)
  | .shfl w => some (0x58, w)
  | .vote w => some (0x59, w)
  | .vred w => some (0x5A, w)
  | .vscan w => some (0x5B, w)
  | .matchI w => some (0x5C, w)
  | .atom w => some (0x63, w)
  | .atcas w => some (0x64, w)
  | .fence w => some (0x65, w)
  | .fencePath w => some (0x65, w)
  | .acq w => some (0x66, w)
  | .relI w => some (0x67, w)
  | .bindI w => some (0x68, w)
  | .unbind w => some (0x69, w)
  | .abarInit w => some (0x6A, w)
  | .abarArrive w => some (0x6A, w)
  | .abarWait w => some (0x6A, w)
  | .abarTest w => some (0x6A, w)
  | .cflush w => some (0x6B, w)
  | .icinv w => some (0x6C, w)
  | .tcfg w => some (0x70, w)
  | .trel w => some (0x71, w)
  | .tstat w => some (0x72, w)
  | .tzero w => some (0x72, w)
  | .twait w => some (0x72, w)
  | .mma w => some (0x73, w)
  | .mmaCks w => some (0x73, w)
  | .mstep w => some (0x74, w)
  | .gang w => some (0x74, w)
  | .mown w => some (0x74, w)
  | .mpass w => some (0x74, w)
  | .cgo w => some (0x75, w)
  | .ggo w => some (0x75, w)
  | .xgo w => some (0x75, w)
  | .tlge w => some (0x76, w)
  | .tlout w => some (0x76, w)
  | .tlrd w => some (0x76, w)
  | .tliss w => some (0x76, w)
  | .tlflt w => some (0x76, w)
  | .commit w => some (0x77, w)
  | .spawn w => some (0x78, w)
  | .joinI w => some (0x79, w)
  | .emit w => some (0x7A, w)
  | .launch w => some (0x7A, w)
  | .cancel w => some (0x7A, w)
  | .lvlcnt w => some (0x7A, w)
  | .crun w => some (0x7B, w)
  | .vsti w => some (0x7B, w)
  | .vstq w => some (0x7B, w)
  | .vstc w => some (0x7B, w)
  | .srd w => some (0x7C, w)
  | .swr w => some (0x7C, w)
  | .timens w => some (0x7D, w)
  | .cycles w => some (0x7D, w)
  | .perfrd w => some (0x7F, w)
  | .winrd w => some (0x7E, w)
  | .winwr w => some (0x7E, w)
  | .tresume w => some (0x7E, w)
  | .tkill w => some (0x7E, w)
  | .tescal w => some (0x7E, w)
  | _ => none

/-- The instruction a full-form opcode and SUB name (12 R287). A SUB no row lists gives the opcode's first row, whose entry refuses it. -/
def fullInstr (op : Nat) (w : Full) : Option Instr :=
  match op with
  | 0x00 => some (.nop w)
  | 0x03 => some (.jmpi w)
  | 0x05 => some (.ret w)
  | 0x06 => some (.syncw w)
  | 0x08 => some (.lbrk w)
  | 0x09 => some (if w.sub = 1 then .exitW w else .exitI w)
  | 0x0A => some (.yield w)
  | 0x0B => some (.bkpt w)
  | 0x0C => some (.trapI w)
  | 0x0D => some (if w.sub = 1 then .barArrive w else if w.sub = 2 then .barWait w else .barSync w)
  | 0x0E => some (.mwait w)
  | 0x0F => some (.waitt w)
  | 0x10 => some (.iadd w)
  | 0x11 => some (.isub w)
  | 0x12 => some (.imul w)
  | 0x13 => some (.imulh w)
  | 0x14 => some (.imad w)
  | 0x15 => some (.idiv w)
  | 0x16 => some (.irem w)
  | 0x17 => some (.ineg w)
  | 0x18 => some (.iabs w)
  | 0x19 => some (.imin w)
  | 0x1A => some (.imax w)
  | 0x1B => some (.andI w)
  | 0x1C => some (.orI w)
  | 0x1D => some (.xorI w)
  | 0x1E => some (.andn w)
  | 0x1F => some (.notI w)
  | 0x20 => some (.shl w)
  | 0x21 => some (.shr w)
  | 0x22 => some (.sar w)
  | 0x23 => some (.rot w)
  | 0x24 => some (.bfe w)
  | 0x25 => some (.bfi w)
  | 0x26 => some (.popc w)
  | 0x27 => some (.clz w)
  | 0x28 => some (.ctz w)
  | 0x29 => some (.brev w)
  | 0x2A => some (.icmp w)
  | 0x2B => some (.isel w)
  | 0x2C => some (.movI w)
  | 0x2E => some (.cvti w)
  | 0x2F => some (.lea w)
  | 0x30 => some (.prom w)
  | 0x31 => some (.pickl w)
  | 0x32 => some (.vtoa w)
  | 0x33 => some (if w.sub = 1 then .abase w else if w.sub = 2 then .astride w else .mkaff w)
  | 0x34 => some (if w.sub = 1 then .mor w else if w.sub = 2 then .mxor w else if w.sub = 3 then .mnot w else if w.sub = 4 then .mandn w else .mand w)
  | 0x35 => some (if w.sub = 1 then .mffs w else if w.sub = 2 then .mtos w else if w.sub = 3 then .stom w else if w.sub = 4 then .mlive w else .mpopc w)
  | 0x36 => some (.vrdx w)
  | 0x37 => some (.vwrx w)
  | 0x38 => some (.cnarrow w)
  | 0x39 => some (.cperm w)
  | 0x3A => some (.cget w)
  | 0x3B => some (.ctag w)
  | 0x3E => some (.cfmt w)
  | 0x40 => some (.fadd w)
  | 0x41 => some (.fsub w)
  | 0x42 => some (.fmul w)
  | 0x43 => some (.ffma w)
  | 0x44 => some (.fmin w)
  | 0x45 => some (.fmax w)
  | 0x46 => some (.fabs w)
  | 0x47 => some (.fneg w)
  | 0x48 => some (.fcmp w)
  | 0x49 => some (.fdiv w)
  | 0x4A => some (.fsqrt w)
  | 0x4B => some (if w.sub = 1 then .frsq w else if w.sub = 2 then .fexp2 w else if w.sub = 3 then .flog2 w else if w.sub = 4 then .fsinpi w else if w.sub = 5 then .fcospi w else if w.sub = 6 then .ftanh w else if w.sub = 7 then .fsigm w else .frcp w)
  | 0x4C => some (.frnd w)
  | 0x4D => some (.fcvt w)
  | 0x4E => some (.retag w)
  | 0x4F => some (.fclass w)
  | 0x50 => some (.dotp w)
  | 0x52 => some (.fscale w)
  | 0x58 => some (.shfl w)
  | 0x59 => some (.vote w)
  | 0x5A => some (.vred w)
  | 0x5B => some (.vscan w)
  | 0x5C => some (.matchI w)
  | 0x63 => some (.atom w)
  | 0x64 => some (.atcas w)
  | 0x65 => some (if w.sub = 7 then .fencePath w else .fence w)
  | 0x66 => some (.acq w)
  | 0x67 => some (.relI w)
  | 0x68 => some (.bindI w)
  | 0x69 => some (.unbind w)
  | 0x6A => some (if w.sub = 1 then .abarArrive w else if w.sub = 2 then .abarWait w else if w.sub = 3 then .abarTest w else .abarInit w)
  | 0x6B => some (.cflush w)
  | 0x6C => some (.icinv w)
  | 0x70 => some (.tcfg w)
  | 0x71 => some (.trel w)
  | 0x72 => some (if w.sub = 1 then .tzero w else if w.sub = 2 then .twait w else .tstat w)
  | 0x73 => some (if w.sub = 1 then .mmaCks w else .mma w)
  | 0x74 => some (if w.sub = 1 then .mown w else if w.sub = 2 then .mpass w else if w.sub = 3 then .mstep w else .gang w)
  | 0x75 => some (if w.sub = 1 then .ggo w else if w.sub = 2 then .xgo w else .cgo w)
  | 0x76 => some (if w.sub = 1 then .tlout w else if w.sub = 2 then .tlrd w else if w.sub = 3 then .tliss w else if w.sub = 4 then .tlflt w else .tlge w)
  | 0x77 => some (.commit w)
  | 0x78 => some (.spawn w)
  | 0x79 => some (.joinI w)
  | 0x7A => some (if w.sub = 1 then .launch w else if w.sub = 2 then .cancel w else if w.sub = 3 then .lvlcnt w else .emit w)
  | 0x7B => some (if w.sub = 1 then .vsti w else if w.sub = 2 then .vstq w else if w.sub = 3 then .vstc w else .crun w)
  | 0x7C => some (if w.sub = 1 then .swr w else .srd w)
  | 0x7D => some (if w.sub = 1 then .cycles w else .timens w)
  | 0x7E => some (if w.sub = 1 then .winwr w else if w.sub = 2 then .tresume w else if w.sub = 3 then .tkill w else if w.sub = 4 then .tescal w else .winrd w)
  | 0x7F => some (.perfrd w)
  | _ => none

/-- MOD against 12 R279 for one policy. -/
def modOk (p : TyPol) (ty : Nat) (m5 : Bool) : Bool :=
  match p with
  | .none => ty = 0 && !m5
  | .int => if ty = 12 || ty = 13 then m5 else !m5
  | .flt => if ty = 12 || ty = 13 then m5 else !m5 || ty = 23
  | .w => (ty = 11 && !m5) || (ty = 13 && m5)
  | .len => (ty = 0 && !m5) || (ty = 13 && m5)

/-- ILLOP of one field: an unused field not zero, a literal out of range (12 R276, R278). -/
def Pos.illop (p : Pos) (o : Opnd) : Bool :=
  match p with
  | .unused => o != .s 0
  | .lit n => match o with
    | .s k => n < k
    | _ => true
  | .acc _ => false

/-- ILLCLASS of one field: an operand of a kind the position does not accept (12 R277). -/
def Pos.illclass (p : Pos) (o : Opnd) : Bool :=
  match p with
  | .acc l => !l.contains o.kind
  | _ => false

/-- The class level of an operand as a source: uniform 0, affine 1, varying 2 (06 R157); a k register is uniform data (01 R35). -/
def Opnd.level (o : Opnd) : Nat :=
  match o.kind with
  | .a => 1
  | .lane => 1
  | .v => 2
  | _ => 0

/-- Whether a type is no 32- or 64-bit type, so that an integer instruction computes no affine (13 R297). -/
def narrowTy (ty : Nat) : Bool := !([10, 11, 12, 13, 15, 23, 24].contains ty)

/-- The join of source classes when affine sources compute varying (06 R157). -/
def joinLevel (ls : List Nat) : Nat := if ls.all (· = 0) then 0 else 2

/-- The computed class of an instruction; the saturating sub-codes compute varying (06 R157; 13 R297, R314). -/
def computedLevel (cls : ClsPol) (w : Full) : Nat :=
  let a := w.a.level
  let b := w.b.level
  let keep := !narrowTy w.ty && w.sub = 0
  match cls with
  | .free => 0
  | .join => joinLevel [a, b, w.c.level]
  | .add => if w.sub != 0 || a = 2 || b = 2 then 2 else if a = 0 && b = 0 then 0 else if keep then 1 else 2
  | .mul => if a + b = 1 && keep then 1 else joinLevel [a, b]
  | .shl => if a = 1 && b = 0 && keep then 1 else joinLevel [a, b]
  | .mov => if a = 1 && !keep then 2 else a
  | .lea => if a = 1 && b = 0 && keep then 1 else joinLevel [a, b]
  | .above => a + 1

/-- BFI also reads its destination, so its class joins (13 R317). -/
def destLevelOk (i : Instr) (h : Shape) (w : Full) : Bool :=
  match h.cls with
  | .free => true
  | _ =>
    let comp := match i with
      | .bfi _ => joinLevel [w.a.level, w.b.level, w.c.level, w.d.level]
      | _ => computedLevel h.cls w
    comp ≤ w.d.level && !(h.ty = .int && narrowTy w.ty && w.d.level = 1)

/-- ILLOP rules of single entries beside the common ones. -/
def entryIllop : Instr → Bool
  | .spawn w => w.fs != 0 || (match w.a with
    | .s n => n % 16 != 0
    | _ => false)
  | .joinI w => w.fs != 0
  | .fclass w => w.m5
  | .swr w => w.c = .s 5
  | .emit w => match w.b with
    | .s n => n % 16 != 0
    | _ => false
  | .cgo w => match w.a with
    | .e n => 4 ≤ n
    | _ => false
  | .ggo w => match w.a with
    | .e n => !(n = 4 || n = 5)
    | _ => false
  | .xgo w => match w.a with
    | .e n => n != 6
    | _ => false
  | .fcvt w => w.m5 && w.ty != 23 && w.ty != 12 && w.ty != 13
  | .vred w => w.m5 && w.ty = 23 && w.sub < 6
  | .vscan w => w.m5 && w.ty = 23 && w.sub < 6
  | _ => false

/-- ILLCLASS rules of single entries beside the common ones: a uniform destination of an atomic with other operands (14 R362),
no destination written other than 0xC0 (14 R360), the capability field of an engine issue (15 R382), a wide SHFL index (14 R352). -/
def entryIllclass : Instr → Bool
  | .atom w => atomClass w
  | .atcas w => atomClass w
  | .cgo w => w.c.kind = .s && w.c != .s 0
  | .ggo w => w.c.kind = .s && w.c != .s 0
  | .xgo w => w.c.kind = .s && w.c != .s 0
  | .shfl w => w.b.kind = .v && (w.ty = 12 || w.ty = 13 || w.ty = 24)
  | _ => false
where
  atomClass (w : Full) : Bool :=
    (w.d.kind = .imm && w.d != .imm 0) || (w.d.kind = .s && joinLevel [w.a.level, w.b.level, w.c.level] != 0)

/-- Fields that every full-form word obeys: flag select, predicate, SUB, MOD, unused fields (12 R275-R281). -/
def Shape.illop (i : Instr) (w : Full) (h : Shape) : Bool :=
  w.fs = 3 || (w.pn && w.pm = 0) || (h.nopred && (w.pn || w.pm != 0 || w.fs != 0)) || !h.subs.contains w.sub ||
  !modOk h.ty w.ty w.m5 || h.d.illop w.d || h.a.illop w.a || h.b.illop w.b || h.c.illop w.c || entryIllop i

/-- Operand kinds and the computed class (06 R157-R159). -/
def Shape.illclass (i : Instr) (w : Full) (h : Shape) : Bool :=
  h.d.illclass w.d || h.a.illclass w.a || h.b.illclass w.b || h.c.illclass w.c || entryIllclass i || !destLevelOk i h w

/-- The stack check of an EXPR program: depth after the tokens, or none (12 R283). -/
def exprDepth : List Nat → Nat → Option Nat
  | [], _ => none
  | 0 :: rest, d => if rest.all (· = 0) && d = 1 then some d else none
  | t :: rest, d =>
    let need := if t ≤ 4 then 0 else if t = 8 then 3 else if t = 5 || t = 6 || t = 7 || t = 9 || t = 10 then 2 else 1
    let d' := if t ≤ 4 then d + 1 else d - need + 1
    if d < need || 4 < d' then none else exprDepth rest d'

/-- The tokens of an EXPR program before END. -/
def exprProgram (ts : List Nat) : List Nat := ts.takeWhile (· != 0)

/-- ILLOP of an EXPR program and its inputs (12 R283; 14 R349). -/
def exprIllop (w : Full) (in3 : Opnd) (ts : List Nat) : Bool :=
  let prog := exprProgram ts
  let supplied := fun k => k = 1 || (k = 2 && w.b != .s 0) || (k = 3 && w.c != .s 0) || (k = 4 && in3 != .s 0)
  7 < (prog.filter (4 < ·)).length || (exprDepth ts 0).isNone || ts.length != 13 ||
  [1, 2, 3, 4].any (fun k => supplied k != prog.contains k)

/-- The operations of pair slots (12 R284). -/
def popOk (p : Nat) : Bool := (p ≤ 0x16 && p != 0x0F) || p = 0x18

/-- A unary pair operation: d = op b (12 R284). -/
def popUnary (p : Nat) : Bool := p = 0x0C || p = 0x0D || p = 0x0E || p = 0x15 || p = 0x16 || p = 0x18

/-- ILLOP of one pair slot (12 R285): `bank` is 0 for slot X and 2 for slot Y. -/
def Slot.illop (x : Slot) (bank : Nat) : Bool :=
  !popOk x.pop || (x.pop = 0 && (x.d != .s 0 || x.b != .s 0 || x.ty != 0)) || x.ty = 12 || x.ty = 13 ||
  !([Kd.s, .a, .v].contains x.d.kind) || !([Kd.s, .a, .v, .imm].contains x.b.kind) ||
  bankBad x.d || bankBad x.b
where
  bankBad : Opnd → Bool
    | .v n => !(n % 4 = bank || n % 4 = bank + 1)
    | _ => false

/-- The register words a slot writes, for the rule that both slots must not write the same register (12 R285). -/
def Slot.writes (x : Slot) : List Opnd :=
  if x.pop = 0 then []
  else match x.d with
    | .v n => if x.ty = 24 then [.v n, .v (n + 1)] else [.v n]
    | .s n => if x.ty = 24 then [.s n, .s (n + 1)] else [.s n]
    | o => [o]

/-- ILLOP of a pair word (12 R285). -/
def pairIllop (x y : Slot) : Bool :=
  x.illop 0 || y.illop 2 || (x.pop = 0 && y.pop != 0) || x.writes.any (y.writes.contains ·)

/-- ILLCLASS of one pair slot: the class rule of its full-form instruction with the wrapping sub-code (06 R157; 12 R285). -/
def Slot.illclass (x : Slot) : Bool :=
  let w : Full := { sub := 0, d := x.d, a := if popUnary x.pop then x.b else x.d, b := if popUnary x.pop then .s 0 else x.b,
                    c := .s 0, pn := false, pm := 0, fs := 0, m5 := false, ty := x.ty }
  let cls : ClsPol := if x.pop = 1 || x.pop = 2 then .add else if x.pop = 3 then .mul else if x.pop = 7 then .shl
    else if x.pop = 0x0C then .mov else if x.pop = 0x18 then .above else .join
  x.pop != 0 && (w.d.level < computedLevel cls w || ((x.pop < 0x10 || x.pop = 0x18) && narrowTy x.ty && w.d.level = 1))

/-- The M-form's fields (12 R282, R288). `size8` says whether SUB 1 and 2 exist; `typed` whether FMT is used. -/
def MForm.illop (w : MForm) (typed : Bool) : Bool :=
  w.fs = 3 || (w.pn && w.pm = 0) ||
  (if typed then 2 < w.sub || (w.sub != 0 && (w.ty = 12 || w.ty = 13 || w.ty = 24)) else w.sub != 0 || w.ty != 0)

/-- The encoding and class faults of an instruction, in the order of 06 R168: ILLOP, then ILLCLASS (12 R288).
FS naming a SET field that holds 15, CALL and LOOP placement depend on the clause and are judged when the word issues;
a pair's slots are judged one after the other, X first (12 R285). -/
def Instr.illegal (i : Instr) : Option Reject :=
  match i.shape with
  | some (w, h) =>
    if h.illop i w then some .illop else if h.illclass i w then some .illclass else none
  | none =>
    match i with
    | .bra sub cond _ =>
      if 2 < sub || (sub = 0 && cond != .s 0) then some .illop
      else if Pos.uni.illclass cond then some .illclass else none
    | .brc sub cond _ =>
      if 1 < sub then some .illop else if Pos.mD.illclass cond then some .illclass else none
    | .call sub cond link off =>
      if 1 < sub || (sub = 0 && cond != .s 0) || (sub = 1 && off != 0) then some .illop
      else if Pos.sv.illclass cond || Pos.v.illclass link then some .illclass else none
    | .loop lc count _ =>
      if Pos.uni.illclass count || lc.kind != .lc then some .illclass else none
    | .movi d ty _ =>
      if ty = 12 || ty = 13 || ty = 24 then some .illop else if Pos.sav.illclass d then some .illclass else none
    | .ld w =>
      if w.illop true then some .illop
      else if Pos.sav.illclass w.d || Pos.base.illclass w.a || Pos.idx.illclass w.b ||
          (w.d.level < 2 && joinLevel [w.a.level, w.b.level] = 2) then some .illclass else none
    | .st w =>
      if w.illop true then some .illop
      else if Pos.data.illclass w.d || Pos.base.illclass w.a || Pos.idx.illclass w.b then some .illclass else none
    | .cld w =>
      if w.illop false then some .illop
      else if Pos.k.illclass w.d || (Pos.acc [.s, .k]).illclass w.a || Pos.uni.illclass w.b then some .illclass else none
    | .cst w =>
      if w.illop false then some .illop
      else if Pos.k.illclass w.d || (Pos.acc [.s, .k]).illclass w.a || Pos.uni.illclass w.b then some .illclass else none
    | .pfetch w =>
      if w.illop false || w.d != .s 0 then some .illop
      else if Pos.base.illclass w.a || Pos.idx.illclass w.b then some .illclass else none
    | .expr w in3 ts =>
      if w.fs = 3 || (w.pn && w.pm = 0) || !roundSubs.contains w.sub || !modOk .flt w.ty w.m5 || exprIllop w in3 ts then some .illop
      else if Pos.sav.illclass w.d || Pos.data.illclass w.a || Pos.data.illclass w.b || Pos.data.illclass w.c ||
          Pos.data.illclass in3 || w.d.level < joinLevel [w.a.level, w.b.level, w.c.level, in3.level] then some .illclass else none
    | .pairWord x y =>
      if pairIllop x y then some .illop else none
    | _ => none

/-- The fields of a full-form word (12 R275). -/
def decodeFull (w : Nat) : Except Reject Full := do
  let d ← decodeOpnd (bits w 51 42)
  let a ← decodeOpnd (bits w 41 32)
  let b ← decodeOpnd (bits w 31 22)
  let c ← decodeOpnd (bits w 21 12)
  return { sub := bits w 55 52, d, a, b, c, pn := bits w 11 11 = 1, pm := bits w 10 8, fs := bits w 7 6, m5 := bits w 5 5 = 1, ty := bits w 4 0 }

/-- The fields of an M-form word (12 R282). -/
def decodeM (w : Nat) : Except Reject MForm := do
  let d ← decodeOpnd (bits w 51 42)
  let a ← decodeOpnd (bits w 41 32)
  let b ← decodeOpnd (bits w 31 22)
  if bits w 0 0 = 1 then .error .illop
  else return { sub := bits w 55 52, d, a, b, off := sextNat (bits w 21 12) 10, pn := bits w 11 11 = 1, pm := bits w 10 8, fs := bits w 7 6, ty := bits w 5 1 }

/-- A pair word (12 R284). -/
def decodePair (w : Nat) : Except Reject Instr := do
  let xd ← decodeOpnd (bits w 56 47)
  let xb ← decodeOpnd (bits w 46 37)
  let yd ← decodeOpnd (bits w 24 15)
  let yb ← decodeOpnd (bits w 14 5)
  if bits w 31 31 = 1 then .error .illop
  else return .pairWord { pop := bits w 62 57, d := xd, b := xb, ty := bits w 36 32 } { pop := bits w 30 25, d := yd, b := yb, ty := bits w 4 0 }

/-- A B-form word (12 R282). Offsets are kept in bytes. -/
def decodeB (op w : Nat) : Except Reject Instr := do
  let cond ← decodeOpnd (bits w 51 42)
  let aux ← decodeOpnd (bits w 41 32)
  let off := 8 * sextNat (bits w 31 8) 24
  let sub := bits w 55 52
  let md := bits w 7 0
  if op = 0x07 then
    if sub != 0 || off != 0 then .error .illop else return .loop aux cond (md + 1)
  else if md != 0 then .error .illop
  else if op = 0x04 then return .call sub cond aux off
  else if aux != .s 0 then .error .illop
  else if op = 0x01 then return .bra sub cond off
  else return .brc sub cond off

/-- The thirteen tokens of an extension word (12 R283). -/
def decodeTokens (w : Nat) : Nat → List Nat
  | 0 => []
  | n + 1 => (w / 16 ^ n % 16) :: decodeTokens w n

/-- The fields of a native body word, with the next word for EXPR (12 R274); the entries' own rules are not judged here. -/
def decodeFields (w : Nat) (ext : Option Nat) : Except Reject Instr := do
  let op := bits w 62 56
  if bits w 63 63 = 1 then decodePair w
  else if reservedOp op then return .reservedOpcode (BitVec.ofNat 64 w)
  else if op = 0x01 || op = 0x02 || op = 0x04 || op = 0x07 then decodeB op w
  else if op = 0x2D then
    let d ← decodeOpnd (bits w 51 42)
    if bits w 55 52 != 0 || bits w 41 37 != 0 then .error .illop
    else return .movi d (bits w 36 32) (BitVec.ofNat 32 (bits w 31 0))
  else if op = 0x3C || op = 0x3D || op = 0x60 || op = 0x61 || op = 0x62 then
    let m ← decodeM w
    if op = 0x3C then return .cld m
    else if op = 0x3D then return .cst m
    else if op = 0x60 then return .ld m
    else if op = 0x61 then return .st m
    else return .pfetch m
  else
    let f ← decodeFull w
    if op = 0x51 then
      match ext with
      | none => .error .badclause
      | some x =>
        let in3 ← decodeOpnd (bits x 63 54)
        if bits x 53 52 != 0 then .error .illop else return .expr f in3 (decodeTokens (bits x 51 0) 13)
    else
      match fullInstr op f with
      | some i => return i
      | none => .error .illop

/-- The decoder of native words: the fields, then the rules of 12 R288. -/
def decodeWord (w : Nat) (ext : Option Nat) : Except Reject Instr :=
  match decodeFields w ext with
  | .error r => .error r
  | .ok i => match i.illegal with
    | some r => .error r
    | none => .ok i

/-- What issues of decoded fields: an ILLOP of the encoding is known before anything else; an ILLCLASS waits for the other ILLOP rules of
its clause and wave (06 R168; 12 R288). -/
def issueForm {α : Type} (r : Except Reject α) (i : α → Instr) : Except Reject α :=
  match r with
  | .error e => .error e
  | .ok a => if (i a).illegal = some .illop then .error .illop else .ok a

/-- A candidate word (10 R245, R246); every word is one. -/
def decodeCand (w : Nat) : Instr :=
  let c : CWord := { d := bits w 25 23, a := bits w 22 20, b := bits w 19 17, imm := sextNat (bits w 16 0) 17 }
  match bits w 31 26 with
  | 0x00 => .candHalt c
  | 0x01 => .candAdd c
  | 0x02 => .candSub c
  | 0x03 => .candMul c
  | 0x04 => .candDiv c
  | 0x05 => .candRem c
  | 0x06 => .candAnd c
  | 0x07 => .candOr c
  | 0x08 => .candXor c
  | 0x09 => .candShl c
  | 0x0A => .candShr c
  | 0x0B => .candSar c
  | 0x0C => .candMin c
  | 0x0D => .candMax c
  | 0x0E => .candSlt c
  | 0x0F => .candSeq c
  | 0x10 => .candAddi c
  | 0x11 => .candMuli c
  | 0x12 => .candAndi c
  | 0x13 => .candLi c
  | 0x14 => .candLis c
  | 0x15 => .candNeg c
  | 0x16 => .candAbs c
  | 0x17 => .candLd c
  | 0x18 => .candSt c
  | 0x19 => .candLdx c
  | 0x1A => .candBeq c
  | 0x1B => .candBne c
  | 0x1C => .candBlt c
  | 0x1D => .candBge c
  | 0x1E => .candJmp c
  | 0x1F => .candOut c
  | 0x20 => .candSel c
  | 0x21 => .candClz c
  | 0x22 => .candPopc c
  | op => .candIllegal op c

/-- The OP of a candidate instruction (10 R246). -/
def candOp : Instr → Option (Nat × CWord)
  | .candHalt c => some (0x00, c)
  | .candAdd c => some (0x01, c)
  | .candSub c => some (0x02, c)
  | .candMul c => some (0x03, c)
  | .candDiv c => some (0x04, c)
  | .candRem c => some (0x05, c)
  | .candAnd c => some (0x06, c)
  | .candOr c => some (0x07, c)
  | .candXor c => some (0x08, c)
  | .candShl c => some (0x09, c)
  | .candShr c => some (0x0A, c)
  | .candSar c => some (0x0B, c)
  | .candMin c => some (0x0C, c)
  | .candMax c => some (0x0D, c)
  | .candSlt c => some (0x0E, c)
  | .candSeq c => some (0x0F, c)
  | .candAddi c => some (0x10, c)
  | .candMuli c => some (0x11, c)
  | .candAndi c => some (0x12, c)
  | .candLi c => some (0x13, c)
  | .candLis c => some (0x14, c)
  | .candNeg c => some (0x15, c)
  | .candAbs c => some (0x16, c)
  | .candLd c => some (0x17, c)
  | .candSt c => some (0x18, c)
  | .candLdx c => some (0x19, c)
  | .candBeq c => some (0x1A, c)
  | .candBne c => some (0x1B, c)
  | .candBlt c => some (0x1C, c)
  | .candBge c => some (0x1D, c)
  | .candJmp c => some (0x1E, c)
  | .candOut c => some (0x1F, c)
  | .candSel c => some (0x20, c)
  | .candClz c => some (0x21, c)
  | .candPopc c => some (0x22, c)
  | .candIllegal op c => some (op, c)
  | _ => none

/-- The little-endian value of a byte list (00 R9). -/
def leNat : List Byte → Nat
  | [] => 0
  | b :: bs => b.toNat + 256 * leNat bs

/-- The n low bytes of a number, least significant first (00 R9). -/
def leBytes : Nat → Nat → List Byte
  | 0, _ => []
  | n + 1, x => BitVec.ofNat 8 x :: leBytes n (x / 256)

/-- An unsigned LEB128 varint of at most ten bytes (12 R290): value and bytes used. -/
def varint : Nat → List Byte → Except Reject (Nat × Nat)
  | 0, _ => .error .illop
  | _, [] => .error .short
  | n + 1, b :: bs =>
    if b.toNat < 128 then .ok (b.toNat, 1)
    else match varint n bs with
      | .error r => .error r
      | .ok (x, k) => .ok (b.toNat - 128 + 128 * x, k + 1)

/-- Zigzag decoding (12 R290). -/
def unzigzag (x : Nat) : Int := if x % 2 = 0 then (x / 2 : Nat) else -((x / 2 : Nat) : Int) - 1

/-- An operand varint: (register << 2) | class (12 R290). `vvirt` bounds varying registers; a register beyond 255 keeps its number. -/
def recOpnd (vvirt n : Nat) : Except Reject Opnd :=
  let r := n / 4
  match n % 4 with
  | 0 => if r < 64 then .ok (.s r) else .error .illop
  | 1 => if r < 32 then .ok (.a r) else .error .illop
  | 2 => if r < vvirt then .ok (.v r) else .error .illop
  | _ => if r < 256 then decodeOpnd (768 + r) else .error .illop

/-- An interchange record (12 R290): the instruction and its length in bytes. B-form offsets are in bytes from the record. -/
def decodeRecord (vvirt : Nat) (bs : List Byte) : Except Reject (Instr × Nat) :=
  match decodeRecordFields vvirt bs with
  | .error r => .error r
  | .ok (i, n) => match i.illegal with
    | some r => .error r
    | none => .ok (i, n)
where
  operand (vvirt : Nat) (bs : List Byte) : Except Reject (Opnd × Nat × List Byte) := do
    let (x, k) ← varint 10 bs
    let o ← recOpnd vvirt x
    return (o, k, bs.drop k)
  byteAt (bs : List Byte) : Except Reject (Nat × List Byte) :=
    match bs with
    | [] => .error .short
    | b :: t => .ok (b.toNat, t)
  decodeRecordFields (vvirt : Nat) (bs : List Byte) : Except Reject (Instr × Nat) := do
    let (op, bs1) ← byteAt bs
    if op = 0xFF then return (.endRecord, 1)
    else if op = 0xFE then
      let (dist, k) ← varint 10 bs1
      return (.blockRecord dist, 1 + k)
    else if 0x80 ≤ op then return (.reservedOpcode (BitVec.ofNat 64 (op * 2 ^ 56)), 1)
    else
      let (b1, bs2) ← byteAt bs1
      let hasP := bits b1 4 4 = 1
      let hasI := bits b1 5 5 = 1
      let hasF := bits b1 6 6 = 1
      if bits b1 7 7 = 1 then .error .illop
      else
        let (d, kd, bs3) ← operand vvirt bs2
        let (a, ka, bs4) ← operand vvirt bs3
        let (b, kb, bs5) ← operand vvirt bs4
        let (c, kc, bs6) ← operand vvirt bs5
        let (md, bs7) ← byteAt bs6
        let (pb, bs8, kp) ← (if hasP then do
            let (x, t) ← byteAt bs7
            return (x, t, 1)
          else return (0, bs7, 0))
        let (im, bs9, ki) ← (if hasI then do
            let (x, k) ← varint 10 bs8
            return (unzigzag x, bs8.drop k, k)
          else return ((0 : Int), bs8, 0))
        let (in3, kf) ← (if hasF then do
            let (o, k, _) ← operand vvirt bs9
            return (o, k)
          else return (Opnd.s 0, 0))
        let len := 2 + kd + ka + kb + kc + 1 + kp + ki + kf
        let sub := bits b1 3 0
        let pn := bits pb 3 3 = 1
        let pm := bits pb 2 0
        if 64 ≤ md || 16 ≤ pb || (hasF && op != 0x51) then .error .illop
        else if reservedOp op then return (.reservedOpcode (BitVec.ofNat 64 (op * 2 ^ 56)), len)
        else if op = 0x01 || op = 0x02 || op = 0x04 || op = 0x07 then
          if hasP || md != 0 || b != .s 0 || c != .s 0 then .error .illop
          else if op = 0x07 then
            if sub != 0 || im < 0 || 255 < im then .error .illop else return (.loop a d (im.toNat + 1), len)
          else if op = 0x04 then return (.call sub d a im, len)
          else if a != .s 0 then .error .illop
          else if op = 0x01 then return (.bra sub d im, len)
          else return (.brc sub d im, len)
        else if op = 0x2D then
          if hasP || sub != 0 || a.kind != .s || b != .s 0 || c != .s 0 || md != 0 || im < -2147483648 || 2147483647 < im then .error .illop
          else match a with
            | .s n => if n < 32 then return (.movi d n (BitVec.ofInt 32 im), len) else .error .illop
            | _ => .error .illop
        else if op = 0x3C || op = 0x3D || op = 0x60 || op = 0x61 || op = 0x62 then
          if c != .s 0 || 32 ≤ md || im < -512 || 511 < im then .error .illop
          else
            let m : MForm := { sub, d, a, b, off := im, pn, pm, fs := 0, ty := md }
            if op = 0x3C then return (.cld m, len)
            else if op = 0x3D then return (.cst m, len)
            else if op = 0x60 then return (.ld m, len)
            else if op = 0x61 then return (.st m, len)
            else return (.pfetch m, len)
        else
          let f : Full := { sub, d, a, b, c, pn, pm, fs := 0, m5 := bits md 5 5 = 1, ty := bits md 4 0 }
          if op = 0x51 then
            if im < 0 || 2 ^ 52 ≤ im then .error .illop else return (.expr f in3 (decodeTokens im.toNat 13), len)
          else if hasI then .error .illop
          else match fullInstr op f with
            | some i => return (i, len)
            | none => .error .illop

/-- The instructions of Walix 3.1 that a module marked MINOR 0 may not contain (12 R287, R294). -/
def Instr.since31 : Instr → Bool
  | .fscale _ => true
  | .matchI _ => true
  | .mstep _ => true
  | _ => false

/-- The full-form word (12 R275). -/
def encodeFull (op : Nat) (w : Full) : Nat :=
  op * 2 ^ 56 + w.sub * 2 ^ 52 + encodeOpnd w.d * 2 ^ 42 + encodeOpnd w.a * 2 ^ 32 + encodeOpnd w.b * 2 ^ 22 +
  encodeOpnd w.c * 2 ^ 12 + (if w.pn then 1 else 0) * 2 ^ 11 + w.pm * 2 ^ 8 + w.fs * 2 ^ 6 + (if w.m5 then 1 else 0) * 2 ^ 5 + w.ty

/-- The M-form word (12 R282). -/
def encodeM (op : Nat) (w : MForm) : Nat :=
  op * 2 ^ 56 + w.sub * 2 ^ 52 + encodeOpnd w.d * 2 ^ 42 + encodeOpnd w.a * 2 ^ 32 + encodeOpnd w.b * 2 ^ 22 +
  wrapNat w.off 10 * 2 ^ 12 + (if w.pn then 1 else 0) * 2 ^ 11 + w.pm * 2 ^ 8 + w.fs * 2 ^ 6 + w.ty * 2

/-- The B-form word (12 R282). -/
def encodeB (op sub : Nat) (cond aux : Opnd) (off : Int) (md : Nat) : Nat :=
  op * 2 ^ 56 + sub * 2 ^ 52 + encodeOpnd cond * 2 ^ 42 + encodeOpnd aux * 2 ^ 32 + wrapNat (off / 8) 24 * 2 ^ 8 + md

/-- The pair word (12 R284). -/
def encodePair (x y : Slot) : Nat :=
  2 ^ 63 + x.pop * 2 ^ 57 + encodeOpnd x.d * 2 ^ 47 + encodeOpnd x.b * 2 ^ 37 + x.ty * 2 ^ 32 +
  y.pop * 2 ^ 25 + encodeOpnd y.d * 2 ^ 15 + encodeOpnd y.b * 2 ^ 5 + y.ty

/-- The TOKENS field of an extension word (12 R283). -/
def encodeTokens : List Nat → Nat
  | [] => 0
  | t :: ts => t * 16 ^ ts.length + encodeTokens ts

/-- The candidate word (10 R245). -/
def encodeCand (op : Nat) (c : CWord) : Nat :=
  op * 2 ^ 26 + c.d * 2 ^ 23 + c.a * 2 ^ 20 + c.b * 2 ^ 17 + wrapNat c.imm 17

/-- The native words of an instruction: none for a machine event or an interchange marker, whose rows have no word. -/
def encode (i : Instr) : List Nat :=
  match i.fullOp with
  | some (op, w) => [encodeFull op w]
  | none =>
    match candOp i with
    | some (op, c) => [encodeCand op c]
    | none =>
      match i with
      | .bra sub cond off => [encodeB 0x01 sub cond (.s 0) off 0]
      | .brc sub cond off => [encodeB 0x02 sub cond (.s 0) off 0]
      | .call sub cond link off => [encodeB 0x04 sub cond link off 0]
      | .loop lc count body => [encodeB 0x07 0 count lc 0 (body - 1)]
      | .movi d ty imm => [0x2D * 2 ^ 56 + encodeOpnd d * 2 ^ 42 + ty * 2 ^ 32 + imm.toNat]
      | .cld w => [encodeM 0x3C w]
      | .cst w => [encodeM 0x3D w]
      | .ld w => [encodeM 0x60 w]
      | .st w => [encodeM 0x61 w]
      | .pfetch w => [encodeM 0x62 w]
      | .expr w in3 ts => [encodeFull 0x51 w, encodeOpnd in3 * 2 ^ 54 + encodeTokens ts]
      | .pairWord x y => [encodePair x y]
      | .reservedOpcode w => [w.toNat]
      | _ => []

/-- The instruction the decoder reads from w, whose low nbits bits are given: a candidate word of up to 32 bits,
else a native word, with its extension above bit 63. -/
def decodeTableWord (nbits w : Nat) : Option Instr :=
  if nbits ≤ 32 then some (decodeCand (w % 2 ^ 32))
  else match decodeWord (w % 2 ^ 64) (some (w / 2 ^ 64 % 2 ^ 64)) with
    | .ok i => some i
    | .error _ => none

end Sys2Proof
end

