-- ==== Sys2Proof/Machine/Bits.lean ====
section
/-! DEFINITION. Tables with a default, lane sets, and the bit helpers of the whole model (00 R9-R11; 06 R162). -/
namespace Sys2Proof

/-- The value bound to a key. -/
def tfind? {β : Type} : SMap β → Nat → Option β
  | [], _ => none
  | (k, v) :: t, x => if k = x then some v else tfind? t x

/-- A table with a key bound to a value. -/
def tins {β : Type} : SMap β → Nat → β → SMap β
  | [], x, v => [(x, v)]
  | (k, w) :: t, x, v => if x < k then (x, v) :: (k, w) :: t else if x = k then (x, v) :: t else (k, w) :: tins t x v

/-- A table without a key. -/
def tdel {β : Type} : SMap β → Nat → SMap β
  | [], _ => []
  | (k, w) :: t, x => if k = x then tdel t x else (k, w) :: tdel t x

/-- The value at a key of a table whose unlisted keys hold d. -/
def tget {β : Type} (d : β) (m : SMap β) (x : Nat) : β := (tfind? m x).getD d

/-- A table whose unlisted keys hold d, with one key changed. -/
def tset {β : Type} [DecidableEq β] (d : β) (m : SMap β) (x : Nat) (v : β) : SMap β :=
  if v = d then tdel m x else tins m x v

/-- Several keys changed in turn. -/
def tsets {β : Type} [DecidableEq β] (d : β) (m : SMap β) (l : List (Nat × β)) : SMap β :=
  l.foldl (fun m p => tset d m p.1 p.2) m

/-- The lanes of a set, lowest first (06 R162). -/
def lanesOf (m : Mask) : List Nat := (List.range 32).filter (fun l => m.getLsbD l)

/-- The set holding one lane. -/
def laneBit (l : Nat) : Mask := BitVec.ofNat 32 (2 ^ l)

/-- The set of the lanes that satisfy a test. -/
def maskWhere (p : Nat → Bool) : Mask :=
  (List.range 32).foldl (fun m l => if p l then m ||| laneBit l else m) 0

/-- The number of lanes in a set. -/
def laneCount (m : Mask) : Nat := (lanesOf m).length

/-- A 64-bit value from its two words (00 R11). -/
def pairOf (lo hi : Word) : DWord := hi ++ lo

/-- Bits [31:0] of a pair. -/
def loWord (x : DWord) : Word := x.truncate 32
/-- Bits [63:32] of a pair. -/
def hiWord (x : DWord) : Word := (x >>> 32).truncate 32

/-- Sign extension of a word to 64 bits. -/
def sext64 (x : Word) : DWord := x.signExtend 64
/-- Zero extension of a word to 64 bits. -/
def zext64 (x : Word) : DWord := x.zeroExtend 64

/-- The exponent of the highest one bit of a positive number; 0 for 0. -/
def log2 (n : Nat) : Nat := Nat.log2 n

/-- The number of one bits among the low n. -/
def popCount : Nat → Nat → Nat
  | 0, _ => 0
  | n + 1, x => x % 2 + popCount n (x / 2)

/-- The low n bits reversed. -/
def revBits : Nat → Nat → Nat
  | 0, _ => 0
  | n + 1, x => x % 2 * 2 ^ n + revBits n (x / 2)

/-- Trailing zeros among n bits; n for 0. -/
def ctz : Nat → Nat → Nat
  | 0, _ => 0
  | n + 1, x => if x % 2 = 1 then 0 else 1 + ctz n (x / 2)

/-- Leading zeros among n bits; n for 0. -/
def clz (n x : Nat) : Nat := if x = 0 then n else n - 1 - log2 x

/-- Element i of width w of a word (05 R132). -/
def elemOf (x w i : Nat) : Nat := x / 2 ^ (w * i) % 2 ^ w

/-- The word whose elements of width w are given, element 0 lowest (05 R132). -/
def packElems (w : Nat) : List Nat → Nat
  | [] => 0
  | e :: es => e % 2 ^ w + 2 ^ w * packElems w es

/-- The integer nearest x inside a range. -/
def clampInt (x lo hi : Int) : Int := if x < lo then lo else if hi < x then hi else x

end Sys2Proof
end

