-- ==== Sys2Proof/Machine/State.lean ====
section
/-! DEFINITION. The state of the machine: everything the spec gives it, as plain data, and its value after reset.
INVENTORY.md lists each field with the rule that names it. -/
namespace Sys2Proof.Machine

/-- Why a run ends. -/
inductive Fault where
  /-- Raised by HOST_WRITE, HOST_READ and FABRIC_ACCESS at a physical address that no memory class of 01 R26 covers. Safe: the machine stops. -/
  | physicalHole (pa : Nat)
deriving DecidableEq, Repr

/-- Why an action has no meaning in a state. -/
inductive Refusal where
  /-- Raised by an arm of exec whose instruction has no meaning yet. Safe. -/
  | notModelled (mnemonic : String)
  /-- Raised by an event whose occasion (the rule of its row) does not hold in the state. Safe: such a step cannot occur. -/
  | notEnabled (row : String)
  /-- Raised by an instruction executed while no wave is issuing. Safe: an instruction is executed only by a lane. -/
  | noIssuer
deriving DecidableEq, Repr

/-- A view or release set: a location's position, as the stamp of a write; absent is position #0 (03 R77). -/
abbrev View := SMap Nat

/-- One queued write, drained in one step (03 R77, R78, R80). -/
structure QEntry where
  /-- the locations written and their bytes, a capability granule tag among them (01 R40) -/
  bytes : List (Nat × Byte)
  /-- the instruction or engine row the write belongs to, for the healing of poison (09 R228) -/
  instr : Nat
  /-- the key index of the writer's context, or the one that a remote package's access is given; 0 for a host (02 R71; log 25) -/
  key : Nat
  /-- the access kind that a fault record of it names: 1 a store, 5 a CST, 8 an engine's write (09 R225) -/
  acc : Nat
  /-- for a fault record of a store that fails: its effective address, and its word's address or its engine's ENTRY and OPNUM (09 R225) -/
  ea : DWord
  pc : DWord
deriving DecidableEq, Repr

/-- How the bytes of a 64-byte sector are encrypted: those of a mask under a context's key, and those lost when the sector was written
under another key (02 R71, R74; log 25). The others read alike under every key. -/
structure SectorKey where
  key : Nat
  keyed : Nat
  lost : Nat
deriving DecidableEq, Repr

/-- What the ordering machine keeps for one agent (03 R77). -/
structure AgentSt where
  view : View
  view1 : View
  queue : List QEntry
  /-- how often in a row a read of a location has returned another write than the latest (03 R81) -/
  late : SMap Nat
deriving DecidableEq, Repr

/-- A superseded or current write of one location: stamp, value, and the extent of the access that made it, with whether an engine did
(03 R77, R78; 02 R67). `key` is the key index under which its byte lies, 0 where it reads alike under every key, and none where that key has
been erased or its sector written under another (02 R52, R71, R74; log 25). -/
structure Version where
  stamp : Nat
  val : Byte
  ext : Nat
  key : Option Nat
deriving DecidableEq, Repr

/-- The names of the release sets (03 R77, R88, R95-R101; 15 R387). -/
inductive RKey where
  | sync (loc : Nat)
  | joinObj (loc : Nat)
  | abar (loc : Nat)
  /-- what a barrier's arrivals had released when one of them last changed its PHASE -/
  | abarPhase (loc : Nat)
  | bar (u : Nat)
  | timeline (u e : Nat)
  | tile (u t : Nat)
  | fence (scope inst : Nat)
  | frame (key : Nat)
  | record (vf node slot : Nat)
  | done (vf : Nat)
deriving DecidableEq, Repr

/-- The backing stores (03 R77): the latest bytes in canonical form, their last writes, the superseded writes. -/
structure Mem where
  /-- the latest byte of each location; addresses strictly rising, no entry equal to what an unlisted location reads as (log 4) -/
  cells : List Host.Cell
  /-- stamp and extent of the latest write of each location; absent is the initial value, stamp 0 -/
  last : SMap (Nat × Nat)
  /-- superseded writes of each location, newest first -/
  past : SMap (List Version)
  /-- stamps drawn so far -/
  clock : Nat
  /-- poisoned 64-byte sectors with what healing instructions have covered: (instruction, cover mask) (09 R228) -/
  poison : SMap (List (Nat × Nat))
  /-- typed-buffer words with an uncorrectable error, by location / 8 (02 R57; 09 R227) -/
  bad : List Nat
  /-- what a reader of a write has observed with it: of a completion record's first word, its other bytes (08 R196) -/
  after : SMap View
  /-- the keys of the sectors that contexts have written -/
  keys : SMap SectorKey
deriving DecidableEq, Repr

/-- An affine register (06 R155). -/
structure Affine where
  base : DWord
  stride : Word
deriving DecidableEq, Repr

/-- One active hardware loop (13 R304, R305; 01 R44). -/
structure LoopFrame where
  lc : Nat
  first : DWord
  last : DWord
  after : DWord
  body : Nat
  /-- the 64-byte fetch blocks of the body that the loop buffer captured, by block number (01 R44) -/
  buf : SMap (List DWord)
deriving DecidableEq, Repr

/-- What an instruction or engine entry asks of a tile: the event rows of 02 R65. -/
inductive TileUse where
  | tcfg | trel | tzero | twait | mmaAB | mmaD | fill | drain
deriving DecidableEq, Repr

/-- Why a word is held before it issues; it issues again when the hold ends (06 R151). -/
inductive Hold where
  | tile (uses : List (Nat × TileUse))
  | engineLimit (e : Nat)
  | commitSlot (lb : Nat)
  | emitFull (node : Nat)
  | launchLimit (die part : Nat)
  | mown
  | mpass
  | member (core : Nat)
  /-- of accesses to other packages and hosts, with their locations -/
  | remote (locs : List Nat)
  | gangLatch
  | reservation
deriving DecidableEq, Repr

/-- What a waiting lane waits for, with the operands captured at issue (06 R151). -/
inductive Wait where
  | hold (h : Hold)
  | syncw
  | loopEnd
  /-- lanes, destination, the stamp since which writes wake it, the address and its location, whether its page tolerates poison, the value (03 R102) -/
  | mwait (e : Mask) (d : Opnd) (since : Nat) (ea : DWord) (loc : Nat) (tol : Bool) (c : Word)
  | waitt (deadline : DWord)
  | joinW (e : Mask) (d : Opnd) (ea : DWord) (loc : Nat)
  | barSyncArrive
  | barArrive
  | barWait
  | abar (e : Mask) (loc : Nat) (p : Word)
  | tlge (e : Mask) (ctx : Nat) (x : DWord)
  | tlout (ctx : Nat) (k : Word)
  /-- its instruction's lanes have taken some of their steps (03 R82) -/
  | steps
deriving DecidableEq, Repr

/-- One lane of a wave (06 R151; 03 R77). -/
structure Lane where
  pc : DWord
  /-- inside a clause body: its header's address and header word (12 R271, R282) -/
  clause : Option (DWord × DWord)
  /-- the fetch blocks that its clause's words come from, by block number (01 R43) -/
  code : SMap (List DWord)
  /-- inside an interchange module: its header's address (12 R289, R290) -/
  modBase : Option DWord
  /-- MINOR and VVIRT of the module's header, as it was read when the lane came into it (12 R289) -/
  modInfo : Nat × Nat
  /-- with a module: a transfer reached this record, which must be a BLOCK (12 R290); without one: a child's wave starts here, where a BLOCK is allowed (12 R291) -/
  enter : Bool
  wait : Option Wait
  /-- where the lane goes when a wait that its word has issued into ends, and whether that leaves the clause -/
  after : DWord
  leaves : Bool
  /-- the core's cycle of the lane's last issue, since it is on this core (12 R271: GAP) -/
  lastIssue : Option Nat
  starve : Nat
  /-- the clause flag that the lane's last word set, 15 for none (12 R273) -/
  flag : Nat
  /-- the current reservation of the lane's clause, asked for or held (21 R414) -/
  heavy : Option Nat
  /-- its word has been held, so that it is not its first try (15 R379) -/
  again : Bool
  /-- its word may issue although a breakpoint lies on it: the debugger has let the wave go on there (16 R398; log 66) -/
  pass : Bool
  /-- how often in a row the device has found the lane's word unready (06 R152, R170) -/
  passed : Nat
  ag : AgentSt
deriving DecidableEq, Repr

/-- The state of a landing slot (04 R118). -/
inductive SlotState where
  | empty | pending | full
deriving DecidableEq, Repr

/-- A landing slot LBn (04 R118, R119). -/
structure Landing where
  state : SlotState
  rows : List DWord
  rowBytes : Nat
  dfmt : Nat
deriving DecidableEq, Repr

/-- One lane's candidate: its record's words and its current example (10 R235, R243, R258). -/
structure CandLane where
  words : List Word
  inputs : List Word
deriving DecidableEq, Repr

/-- The captured operands of a CRUN (10 R241, R243; 09 R229, R231). -/
structure CandRun where
  vd : Nat
  enabled : Mask
  fuel : Nat
  nex : Nat
  ns : Nat
  qonly : Bool
  norec : Bool
  sandbox : Nat
  /-- the address of the CRUN (09 R225) -/
  pc : DWord
  /-- addresses of the run descriptor, the Gallery records, the examples and the outcome records -/
  desc : DWord
  gallery : DWord
  examples : DWord
  outcomes : DWord
  index : SMap Word
  /-- location of each example record, as translated for the run -/
  exLocs : List Nat
  /-- location of each lane's outcome record, as translated for the run -/
  outLocs : List Nat
  /-- the lanes that have written their outcome records (16 R398) -/
  wrote : Mask
  lanes : SMap CandLane
deriving DecidableEq, Repr

/-- A trap record (09 R220). -/
structure TrapRec where
  code : Nat
  cls : Nat
  lane : Nat
  access : Nat
  pc : DWord
  nextpc : DWord
  ea : DWord
  group : Mask
deriving DecidableEq, Repr

/-- Whether a wave runs, waits for the Newel slot, or is handled (09 R219). -/
inductive TrapState where
  | running | trapped | handled
deriving DecidableEq, Repr

/-- An XLATE park (01 R32): what the record says, and its number once posted (09 R225, R226). -/
structure Park where
  seq : Option Nat
  lane : Nat
  access : Nat
  reason : Nat
  level : Nat
  ea : DWord
  pc : DWord
  /-- the lanes of the word that parked, none for a run's records -/
  group : Mask
deriving DecidableEq, Repr

/-- Which word is executing: the wave, its issuing group, the word's address, its clause and extension (06 R152; 12 R271). -/
structure Cursor where
  wave : Nat
  group : Mask
  pc : DWord
  next : DWord
  clause : Option (DWord × DWord)
  modBase : Option DWord
  lastInClause : Bool
  /-- MINOR of the module, and the varying registers it declares beyond the footprint (12 R289, R291) -/
  minor : Nat
  vvirt : Nat
  cand : Option Nat
deriving DecidableEq, Repr

/-- An instruction some of whose lanes have taken their steps: its word, the lanes left with their locations, and what the others'
steps returned, in the order of the steps (03 R82). -/
structure Steps where
  cur : Cursor
  instr : Instr
  left : List (Nat × Nat)
  vals : List (Nat × Nat)
deriving DecidableEq, Repr

/-- A wave (06 R148, R155; 09 R231). -/
structure Wave where
  unit : Nat
  idx : Nat
  core : Nat
  slot : Nat
  resident : Bool
  live : Mask
  exited : Bool
  lanes : SMap Lane
  v : SMap Word
  vtag : SMap Nat
  s : SMap Word
  a : SMap Affine
  ktag : SMap Bool
  masks : SMap Mask
  lc : SMap Word
  loops : List LoopFrame
  flags : SMap Nat
  wstat : Word
  dzmask : Word
  iovmask : Word
  round : Word
  gang : Word
  cancel : Word
  fuelctl : Word
  age : Nat
  skipCycle : Bool
  barArrived : Bool
  barEver : Bool
  barLast : Word
  /-- the BAR word whose acquire the wave last made, and WWORDS then (08 R211) -/
  barSite : Option (DWord × Nat)
  landing : SMap Landing
  sb : Nat
  cand : Option CandRun
  /-- the captured descriptor of the last run that has ended (16 R398) -/
  ran : Option CandRun
  trapState : TrapState
  trap : Option TrapRec
  storageTrap : Bool
  park : Option Park
  handles : Option Nat
  handler : Option Nat
  remoteOk : Mask
  /-- lanes whose remote access the fabric has reported as failed (09 R227) -/
  remoteBad : Mask
  /-- lanes whose next word walks afresh, after a REPLAY (01 R33) -/
  replay : Mask
  /-- the words that groups of the wave are between the steps of, oldest first; no lane is in two (03 R82; 06 R152) -/
  steps : List Steps
  /-- stopped for the debugger, which alone lets it go on; the words it had issued when the debugger let it take one step (16 R398; 17 R400; log 66) -/
  debug : Bool
  stepping : Option Nat
  wwords : Nat
  wopp : Nat
  wstall : Nat
  wtile : Nat
  wblock : Nat
  wcand : Nat
  wtlb : Nat
deriving DecidableEq, Repr

/-- A footprint (07 R172). -/
structure Foot where
  vregs : Nat
  sregs : Nat
  aregs : Nat
  scratch : Nat
  tiles : Nat
  engines : Nat
deriving DecidableEq, Repr

/-- The states of a tile (02 R64, R65). -/
inductive TileState where
  | empty | filling | ready | draining
deriving DecidableEq, Repr

/-- A tile-table entry (02 R58, R64). PEND is computed. -/
structure Tile where
  desc : DWord
  state : TileState
  cfg : Bool
  inv : Bool
  ovf : Bool
  err : Bool
  readers : Nat
  kstep : Nat
  entry : Nat
deriving DecidableEq, Repr

/-- A capability (01 R35) as its 128 bits. -/
abbrev CapBits := BitVec 128

/-- What an operation does (04 R107; 15 R378, R381). -/
inductive OpKind where
  | chain (head : DWord) (cap : Option CapBits)
  | mma (sub : Nat) (td tb : Nat) (members : List (Nat × Nat)) (c0 cn : Nat)
deriving DecidableEq, Repr

/-- The loop a chain is repeating: index of its loop entry, repetition, next entry of the span (04 R111). -/
structure ChainLoop where
  at_ : Nat
  rep : Nat
  count : Nat
  span : Nat
  sstep : Int
  dstep : Int
deriving DecidableEq, Repr

/-- Where an operation stands (04 R111, R118, R121, R122, R124). -/
inductive OpPhase where
  | queued
  | running
  /-- a landing transfer whose rows have been read and not yet landed -/
  | landing (slot : Nat)
  /-- parked for XLATE at its entry; the record's number once posted -/
  | parked (seq : Option Nat)
deriving DecidableEq, Repr

/-- An operation issued to an engine context and not yet complete (04 R105, R124). -/
structure Op where
  num : Nat
  kind : OpKind
  wave : Nat
  phase : OpPhase
  entry : Nat
  loop : Option ChainLoop
  row : Nat
  /-- source rows read of those that move together, where the next one has parked (04 R122, R124) -/
  got : List (List Byte)
  /-- the entry has a current reservation, or had its request granted (04 R125) -/
  reserved : Bool
  requested : Bool
  /-- the round of a collective group that the entry has contributed to, and whether its clocks have been exchanged (04 R115; 21 R419) -/
  round : Option (Nat × Bool)
  /-- the tiles the current entry has moved to FILLING or DRAINING: (unit, tile) (02 R65) -/
  moved : List (Nat × Nat)
  /-- the tiles that its entries so far have filled: (unit, tile) (18 R401; log 60) -/
  filled : List (Nat × Nat)
  /-- the receivers whose barriers the current entry's arrivals have reached (03 R75; 04 R117) -/
  arrived : Nat
  /-- the landing slot that the current entry has made PENDING (04 R118) -/
  slot : Option Nat
  /-- its next access walks afresh, after a REPLAY (01 R33) -/
  afresh : Bool
  /-- a cancel has retired its unit: it stops with its current entry (04 R124) -/
  stops : Bool
  /-- entries read so far, so that a loop repeats the values first read (04 R111) -/
  seen : SMap (List DWord)
  ag : AgentSt
deriving DecidableEq, Repr

/-- An engine context (04 R105, R120). -/
structure EngCtx where
  iss : DWord
  cnt : DWord
  fault : DWord
  ops : List Op
deriving DecidableEq, Repr

/-- A member's matrix operation at the gang latch (15 R380). -/
structure LatchEntry where
  wave : Nat
  lanes : Mask
  op : Nat
  sub : Nat
  td : Nat
  ta : Nat
  tb : Nat
  r : Word
  /-- the clause flag the word sets, 15 for none -/
  flag : Nat
deriving DecidableEq, Repr

/-- A spawned child's frame data (07 R171, R176, R179). -/
structure Frame where
  entry : DWord
  join : DWord
  args : List Word
  foot : DWord
  depth : Nat
  flags : Nat
  parent : Nat
  seq : Word
  /-- the device's own name for the frame, in none of its bytes (07 R173) -/
  id : Nat
deriving DecidableEq, Repr

/-- How a unit was stopped and saved (08 R209, R211, R213). -/
inductive SaveKind where
  | full
  | live
deriving DecidableEq, Repr

/-- A unit (06 R148). -/
structure UnitSt where
  launch : Nat
  vf : Nat
  x : Nat
  y : Nat
  z : Nat
  index : Nat
  depth : Nat
  waves : List Nat
  foot : Foot
  core : Nat
  wslot : Nat
  vbase : Nat
  pregs : Nat
  scrbase : Nat
  tbase : Nat
  resident : Bool
  group : Option (Nat × Nat)
  groupSize : Nat
  barPhase : Word
  eng : SMap EngCtx
  tiles : SMap Tile
  latch : List LatchEntry
  ownsSaved : Bool
  restoring : Bool
  handle : Option Nat
  childJoins : Nat
  child : Option Frame
  cancelled : Bool
  stopping : Bool
  stopDeadline : Option Nat
  /-- it stops because its tenant's slice has ended (08 R211) -/
  sliced : Bool
  saved : Option SaveKind
  record : Option (Nat × Nat)
  ended : Bool
  /-- its tiles and matrix buffers are free again (02 R68) -/
  tilesFreed : Bool
  released : Bool
  umma : Nat
  ueng : Nat
  ucurr : Nat
deriving DecidableEq, Repr

/-- A frame in a deque or pending on a core, with its launch (07 R181, R183). -/
structure QFrame where
  frame : Frame
  launch : Nat
deriving DecidableEq, Repr

/-- What is kept for a spawned frame beside its 64 bytes: its spawner's coordinates (07 R179), by the frame's name. -/
structure FrameInfo where
  launch : Nat
  x : Nat
  y : Nat
  z : Nat
  scrUnit : Option Nat
deriving DecidableEq, Repr

/-- A held join-object update (07 R176, R435). -/
structure JoinUpd where
  id : Nat
  vf : Nat
  launch : Nat
  join : DWord
  code : Option Nat
  core : Nat
  pc : DWord
  seq : Option Nat
  view : View
deriving DecidableEq, Repr

/-- A launch (08 R191, R195; 06 R148). -/
structure Launch where
  vf : Nat
  die : Nat
  part : Nat
  lid : Nat
  code : DWord
  ux : Nat
  uy : Nat
  uz : Nat
  waves : Nat
  foot : Foot
  completion : DWord
  spill : DWord
  /-- DQBYTES of the spill area, and the cores whose deque region has been set up (07 R182) -/
  dqBytes : Nat
  regions : List Nat
  /-- VVIRT of the module at CODE, 0 for native code (12 R291) -/
  vvirt : Nat
  bsBytes : Nat
  liveTable : DWord
  trapBase : DWord
  sh0 : Word
  sh1 : Word
  sh2 : Word
  group : Nat
  qos : Nat
  phase : Nat
  args : DWord
  graphNode : Option Nat
  batch : Option (Nat × Nat)
  padDim : Option (Nat × Nat)
  k0 : CapBits
  k1 : CapBits
  k0tag : Bool
  k1tag : Bool
  start : View
  counter : Nat
  placed : Nat
  faultCnt : Nat
  firstFault : Option (Nat × Nat × Nat × Nat)
  cancelled : Bool
  /-- the bits of %cancel that cancels of its level, its graph or its phase have set (15 R392) -/
  cancelBits : Word
  complete : Bool
  /-- the launch's handle in bind records of its die (08 R198) -/
  handle : Nat
deriving DecidableEq, Repr

/-- A fault record's subject (09 R225, R226). -/
inductive FSubject where
  | wave (w : Nat)
  | op (u e n : Nat)
  | joinUpd (id : Nat)
  | none
deriving DecidableEq, Repr

/-- A fault record (09 R225) with its subject. -/
structure FRec where
  kind : Nat
  code : Nat
  reason : Nat
  access : Nat
  core : Nat
  slot : Nat
  lane : Nat
  lid : Nat
  addr : DWord
  pc : DWord
  subject : FSubject
deriving DecidableEq, Repr

/-- The registers of a management window (22 R423). -/
structure Mgmt where
  root : DWord
  fqbase : DWord
  fqsize : Word
  lost : Word
  fqhead : Word
  fqtail : Word
  gtbase : DWord
  gtnodes : Word
  xlbase : DWord
  xlbytes : Word
  toffset : DWord
  tpolicy : Word
  cmd : Word
  cmdstat : Word
  arg0 : DWord
  arg1 : DWord
  arg2 : DWord
  arg3 : DWord
  result : DWord
deriving DecidableEq, Repr

/-- The life of a context (22 R430). -/
inductive CtxState where
  | active | paused | torn
deriving DecidableEq, Repr

/-- A batch of graph records handed to a node launch (08 R207, R208). -/
structure Batch where
  node : Nat
  start : Nat
  n : Nat
  launch : Nat
  finished : Bool
deriving DecidableEq, Repr

/-- The graph of a context (06 R148; 08 R206-R208). -/
structure Graph where
  counter : Nat
  completion : DWord
  lid : Nat
  faultCnt : Nat
  firstFault : Option (Nat × Nat × Nat × Nat)
  cancelled : Bool
  batches : List Batch
  /-- since when a record not yet taken has been ready, in ticks, by node and count, and nodes whose timeout has expired (08 R207) -/
  readySince : SMap Nat
  expired : SMap Bool
deriving DecidableEq, Repr

/-- A shootdown in progress (01 R42). -/
structure ShootReq where
  va : Nat
  len : Nat
  win : Win
deriving DecidableEq, Repr

/-- A context: one virtual function (08 R189; 22 R423; 03 R77). -/
structure Ctx where
  slots : SMap Byte
  slotBusy : BitVec 8
  rung : List Nat
  rejects : Word
  phase : Nat
  closed : Bool
  phaseCnt : Nat
  phaseCancelled : Bool
  /-- accepted launches that wait for their phase, or for their partition to take one more (08 R190, R194) -/
  heldRecs : List Launch
  mgmt : Mgmt
  lastTime : Nat
  pausedAt : Option Nat
  bindings : List (Nat × Nat × Nat)
  galWin : SMap Nat
  handles : List Nat
  frecs : List (Nat × FRec)
  fseq : Nat
  fwaiting : List FRec
  state : CtxState
  cause : Nat
  /-- when it was torn down, in ticks, and the physical runs that its tables mapped then: location and length (09 R233) -/
  tornTime : Nat
  tornRuns : List (Nat × Nat)
  reported : Bool
  owner : Nat
  weight : Nat
  keyed : Bool
  graph : Option Graph
  nextLid : Nat
  shoot : List ShootReq
deriving DecidableEq, Repr

/-- A cached leaf translation (01 R31). -/
structure TlbEntry where
  vf : Nat
  va : Nat
  level : Nat
  leaf : DWord
  leafLoc : Nat
deriving DecidableEq, Repr

/-- A core (00 R2, 02 R73, 07 R181, 09 R219, 14 R370, 15 R375, R394). -/
structure CoreSt where
  newel : Option Nat
  newelQueue : List Nat
  deque : List QFrame
  pending : List QFrame
  seq : SMap Word
  owner : Option Nat
  mowners : List Nat
  tlb : List TlbEntry
  icache : SMap (List DWord)
  cycles : Nat
  ctx : Option Nat
  /-- the core has left its context (07 R186) -/
  away : Bool
  scrub : Option Nat
  /-- when the scrub began, in ticks: it takes at most 5 us (02 R73) -/
  scrubAt : Nat
  /-- the places of buffers and scratchpad that units have had since the core's last scrub: start and length of scratch and of tiles;
  none before the first scrub (02 R56, R73) -/
  used : Option (List (Nat × Nat × Nat × Nat))
  corrected : Nat
  uncorrectable : Nat
deriving DecidableEq, Repr

/-- Who asks for current (21 R414). -/
inductive Requester where
  | op (u e n : Nat)
  | clause (w id : Nat)
deriving DecidableEq, Repr

/-- A request for current, with the tick in which it was made (21 R415). -/
structure CurReq where
  who : Requester
  units : Nat
  since : Nat
deriving DecidableEq, Repr

/-- A temperature sensor, in hundredths of a degree: its reading, its vote, and its readings of the last 10 ms with their times (21 R417). -/
structure Sensor where
  reading : Int
  voted : Bool
  past : List (Nat × Int)
deriving DecidableEq, Repr

/-- A cluster (21 R407-R419; 01 R31; 08 R203). -/
structure ClusterSt where
  tlb : List TlbEntry
  railHigh : Bool
  /-- a switch of the rails in progress, and to which of them -/
  switching : Bool
  switchHigh : Bool
  /-- since when the rails switch, or a falling switch of an idle cluster has been due, in ticks -/
  switchAt : Nat
  mhz : Nat
  permits : Nat
  denied : Bool
  requestedAt : Option Nat
  granted : Bool
  /-- since when the clock has stood at 1.6 GHz or below, and when the 5 us interval and the last thermal step began, in ticks -/
  refillFrom : Nat
  intervalAt : Nat
  thermalAt : Nat
  matrixHeavy : Bool
  matrixSeen : Bool
  boostSeen : Bool
  stepDue : Option Nat
  /-- the clock of the first step of R411 -/
  stepCap : Nat
  throttleMhz : Nat
  thermalMhz : Nat
  pinned : Bool
  pace : Option Nat
  paceAt : Nat
  unitsFree : Nat
  requests : List CurReq
  sensors : List Sensor
  temp : Option Int
  hot : Bool
  power : Nat
  /-- the metered powers of the last 10 ms with their times (21 R417) -/
  powers : List (Nat × Nat)
  lentTo : Option Nat
  reclaiming : Option Nat
deriving DecidableEq, Repr

/-- A partition-table entry (08 R202) with its steal scope (07 R184), meter samples (21 R416) and slice state (08 R211, 20 R406). -/
structure Part where
  base : Nat
  limit : Nat
  state : Nat
  sgroup : Nat
  vf : Nat
  colours : Nat
  watts : Nat
  lend : Nat
  scope : Nat
  /-- the metered powers of the last 10 us with their times, newest first (21 R416) -/
  samples : List (Nat × Nat)
  sampleAt : Nat
  throttleAt : Nat
  sliceEnd : Option Nat
deriving DecidableEq, Repr

/-- A committed bind record's progress (08 R197, R200). -/
structure Bind where
  launch : Nat
  done : Nat
  unit : Option Nat
  leader : Nat
deriving DecidableEq, Repr

/-- One Vestibule entry (10 R253). -/
structure VestEntry where
  set : Nat
  sig : BitVec 128
  stamp : Nat
deriving DecidableEq, Repr

/-- A namespace (10 R252, R253). -/
structure Namespace where
  vf : Nat
  logsets : Nat
  active : Bool
  base : Nat
  entries : List VestEntry
  stamp : Nat
deriving DecidableEq, Repr

/-- A die (08 R197, R201, R202; 10 R252; 21 R413; 22 R430). -/
structure DieSt where
  parts : SMap Part
  slotTable : SMap Byte
  binds : SMap Bind
  rejectCnt : Word
  heartbeat : DWord
  heartAt : Nat
  schedRst : Nat
  schedDown : Bool
  spaces : SMap Namespace
  boostLimit : Nat
  colourMask : Nat
  schedVer : Word
deriving DecidableEq, Repr

/-- A Plynlink port (22 R421, R430). -/
structure Link where
  state : Nat
  peer : Nat
  peerPort : Nat
  replays : Word
  attempts : Nat
deriving DecidableEq, Repr

/-- A collective group (22 R426). -/
structure CollGroup where
  vf : Nat
  members : List (Nat × Nat)
  usable : Bool
  round : Nat
deriving DecidableEq, Repr

/-- What a member of this package contributes to a round of a collective group: rows in the exchanged format, its clock where it is limited,
or its failure (04 R115; 21 R419). -/
structure Share where
  key : Nat
  round : Nat
  rows : List (List Byte)
  clock : Option Nat
  failed : Bool
deriving DecidableEq, Repr

/-- The management controller and the package's own records (22 R427-R431). -/
structure Package where
  ticks : Nat
  /-- the variant: ZN880-ML, else ZN880-MC (00 R1; log 27) -/
  moduleMemory : Bool
  resyncSeq : Word
  /-- the record that segment 0 of a side-band RESYNC has taken, and the last side-band response -/
  sideBand : List Byte
  response : List Byte
  image : Word
  mcver : Word
  staged : SMap Byte
  digest : List Byte
  handoff : Nat
  nextHandoff : Nat
  mezzOff : Nat
  corrected : Nat
  uncorrectable : Nat
  poisonedCount : Nat
  /-- clusters whose temperature the management controller has been notified of (21 R418) -/
  hotNotices : List Nat
  links : SMap Link
  groups : SMap CollGroup
  shares : List Share
  fabrics : SMap AgentSt
  hostReads : List (Nat × Nat × List Byte)
deriving DecidableEq, Repr

/-- The issue opportunity a second group shares: its wave, the first group, the live lanes, the varying file and tags as they stood (06 R152; 14 R351; 05 R134). -/
structure Opp where
  wave : Nat
  first : Mask
  /-- whether the first group's word has issued -/
  issued : Bool
  live : Mask
  v : SMap Word
  vtag : SMap Nat
deriving DecidableEq, Repr

/-- An action the machine takes next: an event or input, an issue opportunity of a port, the second group of one,
a candidate lane's word, lanes' steps, passing time in ticks, or what a debugger does (log 1, log 66). -/
inductive Act where
  | event (i : Instr) (o : Occasion)
  | issue (core port : Nat)
  | second (w : Nat) (g : Mask)
  | cand (w l : Nat)
  /-- lanes left of an instruction whose lanes step apart take more of their steps: the word that lane l stands at (03 R82) -/
  | steps (w l : Nat)
  | tick (n : Nat)
  /-- a debugger's write of n bytes at an address of a stopped wave (19 R403) -/
  | poke (w : Nat) (ea : DWord) (n x : Nat)
  /-- a debugger sets or takes away a breakpoint on a word of a context's code (16 R398) -/
  | breakpoint (vf : Nat) (ea : DWord) (on : Bool)
  /-- a debugger lets every stopped wave of a launch go on (17 R400) -/
  | cont (n : Nat)
  /-- a debugger lets a stopped wave execute one word (16 R398) -/
  | single (w : Nat)
deriving DecidableEq, Repr

/-- The whole machine. -/
structure State where
  mem : Mem
  rels : List (RKey × View)
  waves : SMap Wave
  units : SMap UnitSt
  launches : SMap Launch
  frames : SMap FrameInfo
  held : List JoinUpd
  ctxs : SMap Ctx
  pf : Mgmt
  cores : SMap CoreSt
  clusters : SMap ClusterSt
  dies : SMap DieSt
  pkg : Package
  agenda : List Act
  occ : Occasion
  cur : Option Cursor
  opp : Option Opp
  /-- how often in a row an act that could take place has been passed over (03 R81; 06 R170) -/
  passed : List (Act × Nat)
  /-- the frames that lie in deque regions, by launch, core and slot (07 R173, R182) -/
  spilled : SMap Nat
  /-- the debugger's breakpoints: virtual function and word address (16 R398) -/
  breaks : List (Nat × DWord)
  /-- fault records of stores that have failed on their way to another package or a host, not yet posted: virtual function and record (09 R227; 22 R421) -/
  failed : List (Nat × FRec)
  fresh : Nat
  nextId : Nat
deriving DecidableEq, Repr

/-- An agent before its first step (03 R77). -/
def AgentSt.init : AgentSt := { view := [], view1 := [], queue := [], late := [] }

/-- An agent that begins with a full acquire of a set (03 R94). -/
def AgentSt.start (v : View) : AgentSt := { view := v, view1 := v, queue := [], late := [] }

/-- A lane before any pc is given to it. -/
def Lane.init : Lane :=
  { pc := 0, clause := none, code := [], modBase := none, modInfo := (0, 0), enter := false, wait := none, after := 0, leaves := false, lastIssue := none, starve := 0, flag := 15,
    heavy := none, again := false, pass := false, passed := 0, ag := AgentSt.init }

/-- An affine register at wave start (06 R167). -/
def Affine.zero : Affine := { base := 0, stride := 0 }

/-- An empty landing slot (04 R118). -/
def Landing.init : Landing := { state := .empty, rows := [], rowBytes := 4, dfmt := 0 }

/-- An engine context when its unit starts (04 R105, R120). -/
def EngCtx.init : EngCtx := { iss := 0, cnt := 0, fault := 0, ops := [] }

/-- A tile-table entry at placement (02 R64). -/
def Tile.init : Tile :=
  { desc := 0, state := .empty, cfg := false, inv := false, ovf := false, err := false, readers := 0, kstep := 0, entry := 0 }

/-- A management window after reset (22 R423). -/
def Mgmt.init : Mgmt :=
  { root := 0, fqbase := 0, fqsize := 0, lost := 0, fqhead := 0, fqtail := 0, gtbase := 0, gtnodes := 0, xlbase := 0,
    xlbytes := 0, toffset := 0, tpolicy := 0, cmd := 0, cmdstat := 0, arg0 := 0, arg1 := 0, arg2 := 0, arg3 := 0, result := 0 }

/-- A context after reset (08 R189; 22 R423, R430; log 3). -/
def Ctx.init : Ctx :=
  { slots := [], slotBusy := 0, rung := [], rejects := 0, phase := 0, closed := false, phaseCnt := 0, phaseCancelled := false,
    heldRecs := [], mgmt := Mgmt.init, lastTime := 0, pausedAt := none, bindings := [], galWin := [], handles := [],
    frecs := [], fseq := 0, fwaiting := [], state := .active, cause := 0, tornTime := 0, tornRuns := [], reported := false, owner := 384, weight := 1,
    keyed := true, graph := none, nextLid := 1, shoot := [] }

/-- A core after reset (log 3). -/
def CoreSt.init : CoreSt :=
  { newel := none, newelQueue := [], deque := [], pending := [], seq := [], owner := none, mowners := [], tlb := [],
    icache := [], cycles := 0, ctx := none, away := false, scrub := none, scrubAt := 0, used := none, corrected := 0, uncorrectable := 0 }

/-- A sensor after reset (log 3). -/
def Sensor.init : Sensor := { reading := 0, voted := false, past := [] }

/-- A cluster after reset: idle, so on the low rail at 1.2 GHz, with a full boost budget (21 R407, R410; log 3). -/
def ClusterSt.init : ClusterSt :=
  { tlb := [], railHigh := false, switching := false, switchHigh := false, switchAt := 0, mhz := 1200, permits := 64, denied := false, requestedAt := none,
    granted := false, refillFrom := 0, intervalAt := 0, thermalAt := 0, matrixHeavy := false, matrixSeen := false, boostSeen := false, stepDue := none, stepCap := 1800,
    throttleMhz := 2000, thermalMhz := 2000, pinned := false, pace := none, paceAt := 0, unitsFree := 96, requests := [],
    sensors := [Sensor.init, Sensor.init, Sensor.init], temp := some 0, hot := false, power := 0, powers := [], lentTo := none,
    reclaiming := none }

/-- A partition-table entry after reset (08 R202; log 3). -/
def Part.init : Part :=
  { base := 0, limit := 0, state := 0, sgroup := 0, vf := 0, colours := 0, watts := 0, lend := 0, scope := 0, samples := [], sampleAt := 0,
    throttleAt := 0, sliceEnd := none }

/-- A namespace after reset (10 R252). -/
def Namespace.init : Namespace := { vf := 0, logsets := 0, active := false, base := 0, entries := [], stamp := 0 }

/-- A die after reset (08 R197, R202; log 3). -/
def DieSt.init : DieSt :=
  { parts := [], slotTable := [], binds := [], rejectCnt := 0, heartbeat := 0, heartAt := 0, schedRst := 0,
    schedDown := false, spaces := [], boostLimit := 0, colourMask := 0, schedVer := 0 }

/-- A link after reset (log 3). -/
def Link.init : Link := { state := 0, peer := 0, peerPort := 0, replays := 0, attempts := 0 }

/-- The package after reset (22 R427, R430; log 3). -/
def Package.init : Package :=
  { ticks := 0, moduleMemory := false, resyncSeq := 0, sideBand := [], response := [], image := 0, mcver := 0, staged := [], digest := [],
    handoff := 0, nextHandoff := 0, mezzOff := 0, corrected := 0, uncorrectable := 0, poisonedCount := 0, hotNotices := [], links := [],
    groups := [], shares := [], fabrics := [], hostReads := [] }

/-- Memory after reset (log 4). -/
def Mem.init : Mem := { cells := [], last := [], past := [], clock := 0, poison := [], bad := [], after := [], keys := [] }

/-- No operands. -/
def Occasion.none : Occasion := { a := 0, b := 0, c := 0, win := .pf }

/-- The machine right after a package reset. -/
def State.reset : State :=
  { mem := Mem.init, rels := [], waves := [], units := [], launches := [], frames := [], held := [], ctxs := [],
    pf := Mgmt.init, cores := [], clusters := [], dies := [], pkg := Package.init, agenda := [], occ := Occasion.none, cur := none, opp := none, passed := [], spilled := [],
    breaks := [], failed := [], fresh := 0, nextId := 0 }

end Sys2Proof.Machine
end

