-- ==== Sys2Proof/Machine/Access.lean ====
section
/-! DEFINITION. Reading and updating the parts of the state by name. -/
namespace Sys2Proof.Machine

/-- The wave that an unused number names: no live lane. -/
def Wave.blank : Wave :=
  { unit := 0, idx := 0, core := 0, slot := 0, resident := false, live := 0, exited := true, lanes := [], v := [], vtag := [],
    s := [], a := [], ktag := [], masks := [], lc := [], loops := [], flags := [], wstat := 0, dzmask := 0, iovmask := 0,
    round := 0, gang := 0, cancel := 0, fuelctl := 0, age := 0, skipCycle := false,
    barArrived := false, barEver := false, barLast := 0, barSite := none, landing := [], sb := 0, cand := none, ran := none, trapState := .running,
    trap := none, storageTrap := false, park := none, handles := none, handler := none, remoteOk := 0, remoteBad := 0, replay := 0, steps := [], debug := false, stepping := none, wwords := 0, wopp := 0,
    wstall := 0, wtile := 0, wblock := 0, wcand := 0, wtlb := 0 }

def Foot.zero : Foot := { vregs := 0, sregs := 0, aregs := 0, scratch := 0, tiles := 0, engines := 0 }

/-- The unit that an unused number names. -/
def UnitSt.blank : UnitSt :=
  { launch := 0, vf := 0, x := 0, y := 0, z := 0, index := 0, depth := 0, waves := [], foot := Foot.zero, core := 0, wslot := 0,
    vbase := 0, pregs := 0, scrbase := 0, tbase := 0, resident := false, group := none, groupSize := 0, barPhase := 0, eng := [],
    tiles := [], latch := [], ownsSaved := false, restoring := false, handle := none, childJoins := 0, child := none,
    cancelled := false, stopping := false, stopDeadline := none, sliced := false, saved := none, record := none, ended := true, tilesFreed := true, released := true,
    umma := 0, ueng := 0, ucurr := 0 }

/-- The launch that an unused number names. -/
def Launch.blank : Launch :=
  { vf := 0, die := 0, part := 0, lid := 0, code := 0, ux := 1, uy := 1, uz := 1, waves := 1, foot := Foot.zero, completion := 0,
    spill := 0, dqBytes := 4096, regions := [], vvirt := 0, bsBytes := 0, liveTable := 0, trapBase := 0, sh0 := 0, sh1 := 0, sh2 := 0, group := 0, qos := 0,
    phase := 0, args := 0, graphNode := none, batch := none, padDim := none, k0 := 0, k1 := 0, k0tag := false, k1tag := false,
    start := [], counter := 0, placed := 0, faultCnt := 0, firstFault := none, cancelled := false, cancelBits := 0, complete := true, handle := 0 }

def State.wave (s : State) (w : Nat) : Wave := (tfind? s.waves w).getD Wave.blank
def State.unit (s : State) (u : Nat) : UnitSt := (tfind? s.units u).getD UnitSt.blank
def State.launch (s : State) (n : Nat) : Launch := (tfind? s.launches n).getD Launch.blank
def State.ctx (s : State) (vf : Nat) : Ctx := tget Ctx.init s.ctxs vf
def State.core (s : State) (c : Nat) : CoreSt := tget CoreSt.init s.cores c
/-- A cluster of which nothing is recorded: as after reset, in the running interval of 5 us (21 R408). -/
def State.freshCluster (s : State) : ClusterSt := { ClusterSt.init with intervalAt := s.pkg.ticks / 500 * 500 }
def State.cluster (s : State) (c : Nat) : ClusterSt := tget s.freshCluster s.clusters c
def State.die (s : State) (d : Nat) : DieSt := tget DieSt.init s.dies d

def State.setWave (s : State) (w : Nat) (x : Wave) : State := { s with waves := tins s.waves w x }
def State.setUnit (s : State) (u : Nat) (x : UnitSt) : State := { s with units := tins s.units u x }
def State.setLaunch (s : State) (n : Nat) (x : Launch) : State := { s with launches := tins s.launches n x }
def State.setCtx (s : State) (vf : Nat) (x : Ctx) : State := { s with ctxs := tset Ctx.init s.ctxs vf x }
def State.setCore (s : State) (c : Nat) (x : CoreSt) : State := { s with cores := tset CoreSt.init s.cores c x }
def State.setCluster (s : State) (c : Nat) (x : ClusterSt) : State := { s with clusters := tset s.freshCluster s.clusters c x }
def State.setDie (s : State) (d : Nat) (x : DieSt) : State := { s with dies := tset DieSt.init s.dies d x }
def State.setPkg (s : State) (p : Package) : State := { s with pkg := p }

def State.modWave (s : State) (w : Nat) (f : Wave → Wave) : State := s.setWave w (f (s.wave w))
def State.modUnit (s : State) (u : Nat) (f : UnitSt → UnitSt) : State := s.setUnit u (f (s.unit u))
def State.modLaunch (s : State) (n : Nat) (f : Launch → Launch) : State := s.setLaunch n (f (s.launch n))
def State.modCtx (s : State) (vf : Nat) (f : Ctx → Ctx) : State := s.setCtx vf (f (s.ctx vf))
def State.modCore (s : State) (c : Nat) (f : CoreSt → CoreSt) : State := s.setCore c (f (s.core c))
def State.modCluster (s : State) (c : Nat) (f : ClusterSt → ClusterSt) : State := s.setCluster c (f (s.cluster c))
def State.modDie (s : State) (d : Nat) (f : DieSt → DieSt) : State := s.setDie d (f (s.die d))

def Wave.lane (w : Wave) (l : Nat) : Lane := tget Lane.init w.lanes l
def Wave.setLane (w : Wave) (l : Nat) (x : Lane) : Wave := { w with lanes := tset Lane.init w.lanes l x }
def Wave.modLane (w : Wave) (l : Nat) (f : Lane → Lane) : Wave := w.setLane l (f (w.lane l))
/-- The same change in each lane of a set. -/
def Wave.modLanes (w : Wave) (g : Mask) (f : Lane → Lane) : Wave := (lanesOf g).foldl (fun w l => w.modLane l f) w

def UnitSt.ctx (u : UnitSt) (e : Nat) : EngCtx := tget EngCtx.init u.eng e
def UnitSt.setEng (u : UnitSt) (e : Nat) (x : EngCtx) : UnitSt := { u with eng := tset EngCtx.init u.eng e x }
def UnitSt.tile (u : UnitSt) (t : Nat) : Tile := tget { Tile.init with entry := u.tbase + t } u.tiles t
def UnitSt.setTile (u : UnitSt) (t : Nat) (x : Tile) : UnitSt := { u with tiles := tins u.tiles t x }

/-- The word that a group of lanes is between the steps of, if it is (03 R82). -/
def Wave.stepsOf (w : Wave) (g : Mask) : Option Steps := w.steps.find? (fun t => t.cur.group = g)
/-- The word that a lane's group is between the steps of. -/
def Wave.stepsAt (w : Wave) (l : Nat) : Option Steps := w.steps.find? (fun t => t.cur.group.getLsbD l)
/-- What is left of a group's word, or nothing, put for what was left of it. -/
def Wave.setSteps (w : Wave) (g : Mask) (t : Option Steps) : Wave :=
  { w with steps := w.steps.filter (fun y => y.cur.group != g) ++ t.toList }

/-- The operation numbered n of a context. -/
def EngCtx.op? (c : EngCtx) (n : Nat) : Option Op := c.ops.find? (fun o => o.num == n)
/-- The operation with the same number replaced. -/
def EngCtx.setOp (c : EngCtx) (o : Op) : EngCtx := { c with ops := c.ops.map (fun x => if x.num = o.num then o else x) }

/-- The launch of a wave. -/
def State.launchOf (s : State) (w : Nat) : Launch := s.launch (s.unit (s.wave w).unit).launch
/-- The virtual function of a wave's context. -/
def State.vfOf (s : State) (w : Nat) : Nat := (s.unit (s.wave w).unit).vf

/-- The footprint of a handler wave (09 R220). -/
def Foot.handler : Foot := { vregs := 64, sregs := 64, aregs := 32, scratch := 0, tiles := 0, engines := 0 }
/-- The declared register counts of a wave (06 R164; 09 R220). -/
def State.footOf (s : State) (w : Nat) : Foot :=
  if (s.wave w).handles.isSome then Foot.handler else (s.unit (s.wave w).unit).foot

/-- Die of a global core (00 R4). -/
def dieOf (core : Nat) : Nat := core / 256
/-- Cluster of a global core, numbered die * 64 + cluster (00 R4). -/
def clusterOf (core : Nat) : Nat := core / 4

/-- A fresh number for a free choice or value (log 10). -/
def State.draw (s : State) : Nat × State := (s.fresh, { s with fresh := s.fresh + 1 })
/-- One of n alternatives; no choice is drawn where there is one (log 10). -/
def State.pick (s : State) (n : Nat) : Nat × State :=
  if n ≤ 1 then (0, s) else (Config.choose s.fresh % n, { s with fresh := s.fresh + 1 })
/-- A fresh identity for a created object. -/
def State.newId (s : State) : Nat × State := (s.nextId, { s with nextId := s.nextId + 1 })

/-- The nanosecond count of a virtual function: 10 * ticks + TOFFSET (15 R394; 22 R427). -/
def State.timens (s : State) (vf : Nat) : DWord := BitVec.ofNat 64 (10 * s.pkg.ticks) + (s.ctx vf).mgmt.toffset
/-- A read of TIMENS also raises LAST (22 R427). -/
def State.readTime (s : State) (vf : Nat) : DWord × State :=
  let t := s.timens vf
  (t, s.modCtx vf (fun c => { c with lastTime := max c.lastTime t.toNat }))

end Sys2Proof.Machine
end

