-- ==== Sys2Proof/Machine/Ordering.lean ====
section
/-! DEFINITION. The ordering machine: backing stores, queues, views, release sets and its steps (03 R75-R103).
Locations are numbers: 01 R26 physical bytes, then each unit's buffers, each context's Gallery windows, and the
capability tag of each granule (03 R78, R79; 01 R40). -/
namespace Sys2Proof.Machine

/-- The location of a physical byte; remote and host memory stand apart from this package's (01 R26). -/
def locPA (mclass pa : Nat) : Nat := if 3 ≤ mclass then 2 ^ 52 + pa else pa
/-- The typed buffers of a unit: kind 0 weights, 1 activations, 2 accumulators, 3 scratchpad (02 R54, R56). -/
def locBuf (kind u off : Nat) : Nat := 2 ^ 64 * (kind + 1) + u * 2 ^ 20 + off
/-- A byte of a unit's scratchpad allocation (01 R19). -/
def locScratch (u off : Nat) : Nat := locBuf 3 u off
/-- A byte of a context's Gallery window on a die (01 R21). -/
def locGallery (vf die off : Nat) : Nat := 2 ^ 64 * 5 + (vf * 4 + die) * 2 ^ 32 + off
/-- The capability tag of the granule that holds a location (01 R40). -/
def locTag (loc : Nat) : Nat := 2 ^ 96 + loc / 16

/-- Whether a location's granule keeps a capability tag: local DRAM and the scratchpad (01 R40). -/
def keepsTag (loc : Nat) : Bool := loc < 0x40_0000_0000 || (2 ^ 64 * 4 ≤ loc && loc < 2 ^ 64 * 5)
/-- A location in generic memory (03 R79). -/
def isGeneric (loc : Nat) : Bool := loc < 2 ^ 64
/-- A location of a remote package or host endpoint (01 R26). -/
def isRemote (loc : Nat) : Bool := 2 ^ 52 ≤ loc && loc < 2 ^ 64
/-- The store group of a location (03 R79): generic 0, weights 1, activations 2, accumulators 3, scratch 4, Gallery 5. -/
def groupOf (loc : Nat) : Nat := if 2 ^ 96 ≤ loc then (loc - 2 ^ 96) * 16 / 2 ^ 64 else loc / 2 ^ 64

/-- What a location that nothing has written reads as (log 4). -/
def unlisted : Byte := 0

/-- The latest byte of a location. -/
def Mem.byte (m : Mem) (loc : Nat) : Byte := tget unlisted m.cells loc

/-- The latest bytes of n locations from loc. -/
def Mem.bytes (m : Mem) (loc n : Nat) : List Byte := (List.range n).map (fun i => m.byte (loc + i))

/-- The latest little-endian value of n bytes at loc (00 R9). -/
def Mem.nat (m : Mem) (loc n : Nat) : Nat := leNat (m.bytes loc n)

/-- The canonical form: addresses strictly rising, no entry equal to what an unlisted location reads as. -/
def cellsWf : List Host.Cell → Bool
  | [] => true
  | [c] => c.2 != unlisted
  | c :: d :: t => c.2 != unlisted && c.1 < d.1 && cellsWf (d :: t)

/-- The memory's canonical form. -/
def Mem.wf (m : Mem) : Bool := cellsWf m.cells

/-- The stamp and extent of a location's latest write; stamp 0 is position #0 (03 R77). -/
def Mem.lastOf (m : Mem) (loc : Nat) : Nat × Nat := tget (0, 0) m.last loc

/-- A sector that no context has written. -/
def SectorKey.none : SectorKey := { key := 0, keyed := 0, lost := 0 }

/-- The key index under which the latest byte of a location lies (02 R71; log 25). -/
def Mem.keyAt (m : Mem) (loc : Nat) : Option Nat :=
  let o := tget SectorKey.none m.keys (loc / 64)
  if o.lost.testBit (loc % 64) then Option.none else if o.keyed.testBit (loc % 64) then some o.key else some 0

/-- The latest write of a location. -/
def Mem.newest (m : Mem) (loc : Nat) : Version :=
  { stamp := (m.lastOf loc).1, val := m.byte loc, ext := (m.lastOf loc).2, key := m.keyAt loc }

/-- One byte drained at a stamp (03 R80): the write before it joins the superseded ones. -/
def Mem.put (m : Mem) (stamp ext : Nat) (loc : Nat) (b : Byte) : Mem :=
  { m with
    cells := tset unlisted m.cells loc b
    last := tset (0, 0) m.last loc (stamp, ext)
    past := tset [] m.past loc (m.newest loc :: tget [] m.past loc) }

/-- A location whose 64-byte sector can be poisoned: generic memory and the Gallery windows, which lie in DRAM (02 R72; 01 R21). -/
def poisonable (loc : Nat) : Bool := isGeneric loc || (2 ^ 64 * 5 ≤ loc && loc < 2 ^ 64 * 6)

/-- The sectors that a write touches with the bytes of each, as cover masks (09 R228). -/
def sectorCover (bytes : List (Nat × Byte)) : SMap Nat :=
  bytes.foldl (fun m p => if poisonable p.1 then tins m (p.1 / 64) (Nat.lor (tget 0 m (p.1 / 64)) (2 ^ (p.1 % 64))) else m) []

/-- Healing: a sector is clean once one instruction has covered its 64 bytes (09 R228). -/
def healPoison (p : SMap (List (Nat × Nat))) (instr : Nat) (cover : SMap Nat) : SMap (List (Nat × Nat)) :=
  cover.foldl (fun p c =>
    match tfind? p c.1 with
    | none => p
    | some l =>
      let have_ := Nat.lor c.2 (((l.find? (fun x => x.1 == instr)).map (·.2)).getD 0)
      if have_ = 2 ^ 64 - 1 then tdel p c.1
      else tins p c.1 ((instr, have_) :: l.filter (fun x => x.1 != instr))) p

/-- A sector after a write under a key of the bytes of a mask: what stood under another context's key is lost (02 R71, R74; log 25). -/
def SectorKey.written (o : SectorKey) (key cover : Nat) : SectorKey :=
  let out := fun (m : Nat) => m - Nat.land m cover
  if key = 0 then { key := if out o.keyed = 0 then 0 else o.key, keyed := out o.keyed, lost := out o.lost }
  else if o.key = key then { o with keyed := Nat.lor o.keyed cover, lost := out o.lost }
  else { key, keyed := cover, lost := out (Nat.lor o.lost o.keyed) }

/-- The keys of the sectors after a write; host memory and other packages' are not this device's to encrypt. -/
def rekey (ks : SMap SectorKey) (key : Nat) (cover : SMap Nat) : SMap SectorKey :=
  cover.foldl (fun ks c => if isRemote (c.1 * 64) then ks
    else tset SectorKey.none ks c.1 ((tget SectorKey.none ks c.1).written key c.2)) ks

/-- A key erased: what it encrypted is lost, superseded writes among it (02 R74). -/
def Mem.eraseKey (m : Mem) (key : Nat) : Mem :=
  if key = 0 then m
  else { m with
    keys := m.keys.map (fun p => if p.2.key = key then (p.1, { key := 0, keyed := 0, lost := Nat.lor p.2.lost p.2.keyed }) else p)
    past := m.past.map (fun p => (p.1, p.2.map (fun y => if y.key = some key then { y with key := Option.none } else y))) }

/-- The bytes of a sector that do not read as written under a key; key 0 is every context's (02 R71, R74; log 25). -/
def SectorKey.hidden (o : SectorKey) (key : Nat) : Nat := if key = 0 || o.key = key then o.lost else Nat.lor o.lost o.keyed

/-- Whether a write of a location does not read as written under a key: whichever key its bytes lay under when it was superseded counts, not
what has been written there since (02 R52, R71, R74; log 25). -/
def Version.hidden (y : Version) (key : Nat) : Bool :=
  match y.key with
  | Option.none => true
  | some k => k != 0 && key != 0 && k != key

/-- A superseded write as it reads under a key. -/
def Version.under (y : Version) (key loc : Nat) : Version := if y.hidden key then { y with val := Config.unrelated key loc y.stamp } else y

/-- Memory as it reads under a key: bytes under another context's key, and lost ones, read as unrelated data (02 R71, R74; log 25). -/
def Mem.under (m : Mem) (key : Nat) : Mem :=
  let hid := m.keys.filter (fun p => p.2.hidden key != 0)
  let locs := hid.flatMap (fun p => ((List.range 64).filter (fun i => (p.2.hidden key).testBit i)).map (p.1 * 64 + ·))
  { m with
    cells := if hid.isEmpty then m.cells else tsets unlisted m.cells (locs.map (fun a => (a, Config.unrelated key a m.clock)))
    past := m.past.map (fun p => (p.1, p.2.map (fun y => y.under key p.1))) }

/-- The extent of a write, so that same-sized writes at one address can be told from others (03 R78); odd for an engine's (02 R67). -/
def extentOf (bytes : List (Nat × Byte)) (acc : Nat) : Nat :=
  match bytes with
  | [] => 0
  | p :: _ => 2 * (p.1 * 64 + (bytes.filter (fun q => q.1 < 2 ^ 96)).length) + (if acc = 8 then 1 else 0)

/-- A whole write drained in one step: its stamp, and the memory after it (03 R78, R80). A buffer word written whole is good again. -/
def Mem.drain (m : Mem) (e : QEntry) : Nat × Mem :=
  let st := m.clock + 1
  let ext := extentOf e.bytes e.acc
  let m1 := e.bytes.foldl (fun m p => m.put st ext p.1 p.2) m
  let bad := m1.bad.filter (fun k => !(List.range 8).all (fun i => e.bytes.any (fun p => p.1 = 8 * k + i)))
  let keys := rekey m1.keys e.key (sectorCover e.bytes)
  (st, { m1 with clock := st, poison := healPoison m1.poison e.instr (sectorCover e.bytes), bad, keys })

/-- Position max, location by location (03 R77). -/
def vmerge (v s : View) : View := s.foldl (fun v p => if tget 0 v p.1 < p.2 then tins v p.1 p.2 else v) v

/-- A view moved to a position. -/
def vset (v : View) (loc pos : Nat) : View := if tget 0 v loc < pos then tins v loc pos else v

/-- A release set (03 R77). -/
def State.rel (s : State) (k : RKey) : View := ((s.rels.find? (fun p => p.1 == k)).map (·.2)).getD []

/-- S merged with a view (03 R77). -/
def State.relMerge (s : State) (k : RKey) (v : View) : State :=
  { s with rels := (k, vmerge (s.rel k) v) :: s.rels.filter (fun p => p.1 != k) }

/-- A release set dropped with its object. -/
def State.relDrop (s : State) (k : RKey) : State := { s with rels := s.rels.filter (fun p => p.1 != k) }

/-- What the machine keeps for an agent. -/
def State.agent (s : State) : Agent → AgentSt
  | .lane w l => ((s.wave w).lane l).ag
  | .op u e n => (((s.unit u).ctx e).op? n).elim AgentSt.init (·.ag)
  | .fabric p => tget AgentSt.init s.pkg.fabrics p

/-- The key index of a context: its virtual function's, from 1 (02 R71). -/
def State.keyIndex (s : State) (vf : Nat) : Nat := if (s.ctx vf).keyed then vf + 1 else 0

/-- The key index under which an agent accesses memory; that of a remote package's access is the one that the owner's system software has
assigned to the mapping context, as the access's occasion says (02 R71; log 25). -/
def State.agentKey (s : State) : Agent → Nat
  | .lane w _ => s.keyIndex (s.unit (s.wave w).unit).vf
  | .op u _ _ => s.keyIndex (s.unit u).vf
  | .fabric _ => s.occ.a

/-- Memory as a context reads it (02 R71). -/
def State.memOf (s : State) (vf : Nat) : Mem := s.mem.under (s.keyIndex vf)

/-- Memory as an agent reads it (02 R71). -/
def State.memFor (s : State) (ag : Agent) : Mem := s.mem.under (s.agentKey ag)

def State.setAgent (s : State) (ag : Agent) (x : AgentSt) : State :=
  match ag with
  | .lane w l => s.modWave w (fun v => v.modLane l (fun y => { y with ag := x }))
  | .op u e n => s.modUnit u (fun y => y.setEng e ((y.ctx e).setOp
      ((((y.ctx e).op? n).map (fun o => { o with ag := x })).getD
        { num := n, kind := .chain 0 none, wave := 0, phase := .queued, entry := 0, loop := none, row := 0, reserved := false,
          requested := false, round := none, got := [], moved := [], filled := [], arrived := 0, slot := none, afresh := false, stops := false, seen := [], ag := x })))
  | .fabric p => s.setPkg { s.pkg with fabrics := tset AgentSt.init s.pkg.fabrics p x }

/-- The access kind of a write by an agent: an engine's is 8, another's as its instruction says (09 R225). -/
def writeKind (ag : Agent) (acc : Nat) : Nat :=
  match ag with
  | .op _ _ _ => 8
  | _ => acc

/-- A write step: the whole write joins the agent's queue (03 R80), with what a fault record of it would name (09 R225). -/
def State.queueWrite (s : State) (ag : Agent) (bytes : List (Nat × Byte)) (instr : Nat) (ea : DWord := 0) (pc : DWord := 0) (acc : Nat := 1) : State :=
  let a := s.agent ag
  s.setAgent ag { a with queue := a.queue ++ [{ bytes, instr, key := s.agentKey ag, acc := writeKind ag acc, ea, pc }] }

/-! Other packages and hosts (01 R26; 22 R421, R422). -/

/-- The package or host endpoint to which a remote location belongs (01 R26). -/
def peerOf (loc : Nat) : Nat := (loc - 2 ^ 52) / 2 ^ 43
/-- Whether some Plynlink port to a package or host endpoint is up (22 R421). -/
def State.linked (s : State) (p : Nat) : Bool := s.pkg.links.any (fun l => l.2.state = 2 && l.2.peer = p)
/-- A location that no access reaches: no port to its package or host is up, or it lies in another package's function space (22 R421, R422). -/
def State.cutOff (s : State) (loc : Nat) : Bool :=
  isRemote loc && (!s.linked (peerOf loc) || (peerOf loc < 384 && 0x7FE_0000_0000 ≤ loc % 2 ^ 43))
/-- Whether a write fails on its way (22 R421, R422). -/
def State.entryFails (s : State) (e : QEntry) : Bool := e.bytes.any (fun p => s.cutOff p.1)

/-- Where an agent's faults are recorded: context, core, slot, lane and launch (09 R225). -/
def State.agentPlace (s : State) : Agent → Option (Nat × Nat × Nat × Nat × Nat)
  | .lane w l => some (s.vfOf w, (s.wave w).core, (s.wave w).slot, l, (s.launchOf w).lid)
  | .op u e _ => some ((s.unit u).vf, (s.unit u).core, e, 0xFF, (s.launch (s.unit u).launch).lid)
  | .fabric _ => none

/-- The fault record of a remote store that fails: KIND 5, code REMOTE (09 R225, R227). -/
def State.failRec (s : State) (ag : Agent) (e : QEntry) : List (Nat × FRec) :=
  (s.agentPlace ag).toList.map (fun p => (p.1, { kind := 5, code := 0x19, reason := 0, access := e.acc, core := p.2.1, slot := p.2.2.1, lane := p.2.2.2.1,
                                                 lid := p.2.2.2.2, addr := e.ea, pc := e.pc, subject := .none }))

/-- Entries drained in order: the memory, and the view moved to each (03 R80). -/
def drainEntries (m : Mem) (v : View) : List QEntry → Mem × View
  | [] => (m, v)
  | e :: es =>
    let (st, m') := m.drain e
    drainEntries m' (e.bytes.foldl (fun v p => vset v p.1 st) v) es

/-- Whether two writes share a location. -/
def QEntry.overlaps (e f : QEntry) : Bool := e.bytes.any (fun p => f.bytes.any (fun q => q.1 == p.1))

/-- Queue entries with a mark on those to drain for some locations: entries at the locations, and every older entry
that shares a location with one to be drained, so that FIFO per location holds (03 R77, R86, R92). -/
def markNeeded (p : Nat → Bool) (q : List QEntry) : List (QEntry × Bool) :=
  q.foldr (fun e (acc : List (QEntry × Bool)) =>
    (e, e.bytes.any (fun b => p b.1) || acc.any (fun x => x.2 && x.1.overlaps e)) :: acc) []

/-- Some of an agent's entries drain in turn and leave the others queued; those that fail on their way leave it too, for their records
to be posted (03 R80; 09 R227; 22 R421). -/
def State.drainList (s : State) (ag : Agent) (es rest : List QEntry) : State :=
  let a := s.agent ag
  let (m, v) := drainEntries s.mem a.view (es.filter (fun e => !s.entryFails e))
  { s with mem := m, failed := s.failed ++ (es.filter s.entryFails).flatMap (s.failRec ag) }.setAgent ag { a with view := v, queue := rest }

/-- The agent's entries at some locations drain in FIFO order (03 R86, R87, R92). -/
def State.drainWhere (s : State) (ag : Agent) (p : Nat → Bool) : State :=
  let marks := markNeeded p (s.agent ag).queue
  s.drainList ag ((marks.filter (·.2)).map (·.1)) ((marks.filter (fun (x : QEntry × Bool) => !x.2)).map Prod.fst)

/-- Every entry of every queue of the agent drains (03 R89, R94). -/
def State.drainAll (s : State) (ag : Agent) : State := s.drainList ag (s.agent ag).queue []

/-- Whether the entry at an index is the oldest of each of its locations (03 R80). -/
def drainable (q : List QEntry) (idx : Nat) : Bool :=
  match q[idx]? with
  | none => false
  | some e => (q.take idx).all (fun f => !f.overlaps e)

/-- One entry drains (03 R80). -/
def State.drainOne (s : State) (ag : Agent) (idx : Nat) : State :=
  let q := (s.agent ag).queue
  match q[idx]? with
  | none => s
  | some e => s.drainList ag [e] (q.eraseIdx idx)

/-- The youngest queued byte for a location (03 R80). -/
def forwarded (q : List QEntry) (loc : Nat) : Option Byte :=
  (q.reverse.findSome? (fun e => (e.bytes.find? (fun p => p.1 == loc)).map (·.2)))

/-- All writes of a location, newest first, down to position #0. -/
def Mem.versions (m : Mem) (loc : Nat) : List Version := m.newest loc :: tget [] m.past loc

/-- The bytes an access covers, numbered as the extents of writes are (03 R78). -/
def extOf (locs : List Nat) : Nat := locs.headD 0 * 64 + (locs.filter (fun x => x < 2 ^ 96)).length

/-- The stamps of the writes that a read of some locations sees whole or not at all, oldest first (03 R78; 02 R67): those of its own
extent, and in the typed buffers every engine's; of a read without an extent, every write's, so that it is of one moment (10 R257). -/
def Mem.wholeStamps (m : Mem) (ext : Option Nat) (locs : List Nat) : List Nat :=
  let buf := locs.all (fun x => 1 ≤ groupOf x && groupOf x ≤ 3)
  (locs.foldl (fun (acc : SMap Unit) x =>
    ((m.versions x).filter (fun y => y.stamp != 0 && ((buf && y.ext % 2 = 1) || ext.all (y.ext / 2 = ·)))).foldl
      (fun acc y => tins acc y.stamp ()) acc) []).map (·.1)

/-- The spans of history between some stamps: each from a stamp up to the next, the last without end. -/
def spansOf (lo : Nat) : List Nat → List (Nat × Option Nat)
  | [] => [(lo, none)]
  | b :: bs => (lo, some b) :: spansOf b bs

/-- Whether a stamp lies before the end of a span. -/
def beforeEnd (st : Nat) (e : Option Nat) : Bool :=
  match e with
  | none => true
  | some b => st < b

/-- The writes of a location that a read may return inside a span of history, given its view (03 R80). -/
def Mem.inSpan (m : Mem) (v : View) (sp : Nat × Option Nat) (loc : Nat) : List Version :=
  let vs := m.versions loc
  let floor := max (tget 0 v loc) (((vs.find? (fun y => y.stamp ≤ sp.1)).map (·.stamp)).getD 0)
  vs.filter (fun y => floor ≤ y.stamp && beforeEnd y.stamp sp.2)

/-- What is observed with some writes (08 R196). -/
def Mem.with_ (m : Mem) (ys : List Version) : View := ys.foldl (fun v y => vmerge v (tget [] m.after y.stamp)) []

/-- The writes of a read, none older than what another of them is observed with (08 R196). -/
def Mem.settled (m : Mem) (locs : List Nat) (ys : List Version) : List Version :=
  let f := m.with_ ys
  if f.isEmpty then ys
  else (locs.zip ys).map (fun p =>
    if p.2.stamp < tget 0 f p.1 then ((m.versions p.1).find? (fun y => y.stamp = tget 0 f p.1)).getD (m.newest p.1) else p.2)

/-- The writes that a read returns, location by location (03 R78, R80): each at or above the view, those of the read's own extent
whole or not at all. A view that is up to date leaves one; one put off too often returns the latest (03 R81). -/
def State.readView (s : State) (m : Mem) (v : View) (due : Bool) (ext : Option Nat) (locs : List Nat) : List Version × State :=
  if locs.all (fun x => (m.lastOf x).1 ≤ tget 0 v x) then (locs.map m.newest, s)
  else if due then (locs.map m.newest, s)
  else
    let sps := (spansOf 0 (m.wholeStamps ext locs)).filter (fun sp => locs.all (fun x => beforeEnd (tget 0 v x) sp.2))
    let (i, s) := s.pick sps.length
    let sp := sps.getD i (0, none)
    let (ys, s) := locs.foldl (fun (acc : List Version × State) x =>
      let vs := m.inSpan v sp x
      let (j, s) := acc.2.pick vs.length
      (acc.1 ++ [vs.getD j (m.newest x)], s)) ([], s)
    (m.settled locs ys, s)

/-- A view moved to the writes that a read returned, and to what is observed with them. -/
def viewRead (m : Mem) (v : View) (locs : List Nat) (ys : List Version) : View :=
  vmerge ((locs.zip ys).foldl (fun v p => vset v p.1 p.2.stamp) v) (m.with_ ys)

/-- The count of reads put off, after a read (03 R81). -/
def lateRead (m : Mem) (late : SMap Nat) (locs : List Nat) (ys : List Version) : SMap Nat :=
  (locs.zip ys).foldl (fun l p => if (m.lastOf p.1).1 ≤ p.2.stamp then tdel l p.1 else tins l p.1 (tget 0 l p.1 + 1)) late

/-- Whether a read of some locations has been put off as often as the device may (03 R81). -/
def AgentSt.due (a : AgentSt) (locs : List Nat) : Bool := locs.any (fun x => Config.patience < tget 0 a.late x)

/-- A read of some locations through V as an access of an extent: what it returns, and the agent after it (03 R80, R81). -/
def State.readThrough (s : State) (ag : Agent) (ext : Option Nat) (locs : List Nat) : List Version × State :=
  let a := s.agent ag
  let m := s.memFor ag
  let (ys, s) := s.readView m a.view (a.due locs) ext locs
  (ys, s.setAgent ag { s.agent ag with view := viewRead m a.view locs ys, late := lateRead m a.late locs ys })

/-- A read step: queued bytes are forwarded, the others are read through V; each location's write, a forwarded one with no stamp (03 R80). -/
def State.readWrites (s : State) (ag : Agent) (locs : List Nat) : List (Byte × Option Nat) × State :=
  let q := (s.agent ag).queue
  let rest := locs.filter (fun x => (forwarded q x).isNone)
  let (ys, s) := s.readThrough ag (some (extOf locs)) rest
  let got := rest.zip ys
  (locs.map (fun x => match forwarded q x with
    | some b => (b, none)
    | none => ((got.find? (fun p => p.1 == x)).map (fun p => (p.2.val, some p.2.stamp))).getD (unlisted, none)), s)

/-- The bytes of a read step (03 R80). -/
def State.readStep (s : State) (ag : Agent) (locs : List Nat) : List Byte × State :=
  let (r, s) := s.readWrites ag locs
  (r.map (·.1), s)

/-- A read step that skips the queue, as candidate records and examples are read (10 R256): a doubleword that is all old or all new, whatever
the accesses that wrote it (10 R257). -/
def State.readSkip (s : State) (ag : Agent) (locs : List Nat) : List Byte × State :=
  let (ys, s) := s.readThrough ag none locs
  (ys.map (·.val), s)

/-- The writes that a read-only read step returns through V1 (03 R80). -/
def State.readOnlyWrites (s : State) (ag : Agent) (locs : List Nat) : List (Byte × Option Nat) × State :=
  let v := (s.agent ag).view1
  let (ys, s) := s.readView (s.memFor ag) v false (some (extOf locs)) locs
  (ys.map (fun y => (y.val, some y.stamp)), s.setAgent ag { s.agent ag with view1 := viewRead s.mem v locs ys })

/-- The bytes of a read-only read step (03 R80). -/
def State.readOnly (s : State) (ag : Agent) (locs : List Nat) : List Byte × State :=
  let (r, s) := s.readOnlyWrites ag locs
  (r.map (·.1), s)

/-- The tag of a granule as the write left it whose bytes a CLD read: that of its youngest queued write where one is forwarded, else
that of the one write that all sixteen bytes come from; bytes of different writes are untagged (01 R37, R40; 03 R78). -/
def State.granTag (s : State) (q : List QEntry) (loc : Nat) (r : List (Byte × Option Nat)) : Bool :=
  if !keepsTag loc then false
  else match forwarded q (locTag loc) with
    | some t => t = 1
    | none =>
      match r.head? with
      | some (_, some st) =>
        r.all (fun p => p.2 = some st) && ((s.mem.versions (locTag loc)).find? (fun y => y.stamp = st)).any (fun y => y.val = 1)
      | _ => false

/-- A write made directly to the backing store in one step, by an atomic, a release, a host or the device (03 R86, R92, R103). -/
def State.storeNow (s : State) (bytes : List (Nat × Byte)) (key : Nat := 0) : State :=
  let (i, s) := s.newId
  { s with mem := (s.mem.drain { bytes, instr := i, key, acc := 1, ea := 0, pc := 0 }).2 }

/-- An agent's write made directly to the backing store; one that another package or host does not take has no effect but its record
(09 R227; 22 R421, R422; log 26). -/
def State.storeOrFail (s : State) (ag : Agent) (bytes : List (Nat × Byte)) (ea pc : DWord) : State :=
  if bytes.any (fun p => s.cutOff p.1) then { s with failed := s.failed ++ s.failRec ag { bytes := [], instr := 0, key := 0, acc := 1, ea, pc } }
  else s.storeNow bytes (s.agentKey ag)

/-- A device write that no agent observes in part, nor without other locations' present writes (08 R196). -/
def State.storeAfter (s : State) (bytes : List (Nat × Byte)) (key : Nat) (locs : List Nat) : State :=
  let before := locs.foldl (fun v x => vset v x (s.mem.lastOf x).1) []
  let s := s.storeNow bytes key
  { s with mem := { s.mem with after := tins s.mem.after s.mem.clock (bytes.foldl (fun v p => vset v p.1 s.mem.clock) before) } }

/-- V_A moved to the latest position of some locations (03 R86, R87, R92). -/
def State.viewLatest (s : State) (ag : Agent) (locs : List Nat) : State :=
  let a := s.agent ag
  s.setAgent ag { a with view := viewRead s.mem a.view locs (locs.map s.mem.newest) }

/-- The bytes of a write of a number, with the capability tag of each granule it touches cleared (01 R40; 00 R9). -/
def plainWrite (loc n x : Nat) : List (Nat × Byte) :=
  (List.range n).map (fun i => (loc + i, BitVec.ofNat 8 (x / 256 ^ i))) ++ tagClears loc n
where
  tagClears (loc n : Nat) : List (Nat × Byte) :=
    if keepsTag loc then ((List.range (n / 16 + 2)).map (fun i => (loc / 16 + i) * 16)).filterMap
      (fun g => if g < loc + n then some (locTag g, 0) else none) else []

/-- The bytes of a write of given bytes, tags cleared (01 R40). -/
def plainBytes (loc : Nat) (bs : List Byte) : List (Nat × Byte) := plainWrite loc bs.length (leNat bs)

/-- An atomic step on n bytes at loc (03 R92): the agent's entries for them drain, the latest value is read, the new one, if any, is appended. -/
def State.atomicStep (s : State) (ag : Agent) (loc n : Nat) (f : Nat → Option Nat) : Nat × State :=
  let s := s.drainWhere ag (fun x => loc ≤ x && x < loc + n)
  let o := (s.memFor ag).nat loc n
  let s := match f o with
    | none => s
    | some x => s.storeNow (plainWrite loc n x) (s.agentKey ag)
  (o, s.viewLatest ag ((List.range n).map (loc + ·)))

/-- An atomic step of the device, which is no agent, under a key (03 R76, R92). -/
def State.deviceAtomic (s : State) (loc n : Nat) (f : Nat → Nat) (key : Nat := 0) : Nat × State :=
  let o := (s.mem.under key).nat loc n
  (o, s.storeNow (plainWrite loc n (f o)) key)

/-- A full release into a set (03 R94). -/
def State.fullRelease (s : State) (ag : Agent) (k : RKey) : State :=
  let s := s.drainAll ag
  s.relMerge k (s.agent ag).view

/-- A full release whose set is handed on as a value, such as an operation's start set (03 R94, R100). -/
def State.releaseView (s : State) (ag : Agent) (v : View) : View × State :=
  let s := s.drainAll ag
  (vmerge v (s.agent ag).view, s)

/-- A full acquire of a view (03 R94). -/
def State.acquireView (s : State) (ag : Agent) (v : View) : State :=
  let a := s.agent ag
  s.setAgent ag { a with view := vmerge a.view v, view1 := vmerge a.view1 v }

/-- A full acquire of a set (03 R94). -/
def State.fullAcquire (s : State) (ag : Agent) (k : RKey) : State := s.acquireView ag (s.rel k)

/-- The scope instances of a lane from wave up to a scope: 0 wave, 1 block, 2 cluster, 3 die, 4 package, 5 domain, 6 system (03 R88). -/
def State.scopeKeys (s : State) (w scope : Nat) : List RKey :=
  let v := s.wave w
  ([RKey.fence 0 w, .fence 1 v.unit, .fence 2 (clusterOf v.core), .fence 3 (dieOf v.core), .fence 4 0, .fence 5 0, .fence 6 0]).take (scope + 1)

/-- FENCE at a scope by one lane: its queues drain, then one atomic step over the scope's instances (03 R89). -/
def State.fenceStep (s : State) (w l scope : Nat) : State :=
  let ag := Agent.lane w l
  let s := s.drainAll ag
  let ks := s.scopeKeys w scope
  let v := (s.agent ag).view
  let s := ks.foldl (fun s k => s.relMerge k v) s
  let v := ks.foldl (fun v k => vmerge v (s.rel k)) v
  let a := s.agent ag
  s.setAgent ag { a with view := v, view1 := vmerge a.view1 v }

/-- A release set replaced. -/
def State.relSet (s : State) (k : RKey) (v : View) : State := { s with rels := (k, v) :: s.rels.filter (fun p => p.1 != k) }

/-- FENCE.PATH by one lane (03 R90). -/
def State.fencePathStep (s : State) (ag : Agent) : State :=
  let s := s.drainAll ag
  let a := s.agent ag
  s.setAgent ag { a with view1 := vmerge a.view1 a.view }

/-- Whether n buffer bytes hold a word with an uncorrectable error (09 R227). -/
def Mem.badWord (m : Mem) (loc n : Nat) : Bool := m.bad.any (fun k => loc < 8 * k + 8 && 8 * k < loc + n)

/-- Whether a location's sector is poisoned, or its Mezzanine interleave unit offline (02 R48, R72). Unit i of 4 KiB is taken to be port
i modulo 8's: the rule gives no order (log 64). -/
def State.poisoned (s : State) (loc : Nat) : Bool :=
  poisonable loc && ((tfind? s.mem.poison (loc / 64)).isSome ||
    (0x100_0000_0000 ≤ loc && loc < 2 ^ 43 && s.pkg.mezzOff.testBit ((loc - 0x100_0000_0000) / 4096 % 8)))

end Sys2Proof.Machine
end

