-- ==== Sys2Proof/Machine/Address.lean ====
section
/-! DEFINITION. Effective addresses: paths, windows, translation, capabilities, and the order of address checks (01). -/
namespace Sys2Proof.Machine

/-- The fault codes (09 R217). -/
abbrev Code := Nat
def Code.illop : Code := 0x01
def Code.badclause : Code := 0x02
def Code.illclass : Code := 0x03
def Code.udiverge : Code := 0x04
def Code.aovf : Code := 0x05
def Code.fmtmis : Code := 0x06
def Code.fmtuns : Code := 0x07
def Code.regidx : Code := 0x08
def Code.captag : Code := 0x09
def Code.capbnd : Code := 0x0A
def Code.capperm : Code := 0x0B
def Code.addrpath : Code := 0x0C
def Code.xlate : Code := 0x0D
def Code.prot : Code := 0x0E
def Code.align : Code := 0x0F
def Code.tileempty : Code := 0x10
def Code.tilecfg : Code := 0x11
def Code.gangmis : Code := 0x12
def Code.engown : Code := 0x13
def Code.chain : Code := 0x14
def Code.spawndepth : Code := 0x15
def Code.spawnfoot : Code := 0x16
def Code.storage : Code := 0x17
def Code.poison : Code := 0x18
def Code.remote : Code := 0x19
def Code.trapsw : Code := 0x1A
def Code.bkpt : Code := 0x1B
def Code.priv : Code := 0x1C
def Code.bindovl : Code := 0x1D
def Code.candmode : Code := 0x1E
def Code.loopdepth : Code := 0x1F

/-- The access kinds, numbered as in the ACCESS column of the fault record (09 R225). -/
abbrev AccKind := Nat
def AccKind.load : AccKind := 0
def AccKind.store : AccKind := 1
def AccKind.atomic : AccKind := 2
def AccKind.fetch : AccKind := 3
def AccKind.cld : AccKind := 4
def AccKind.cst : AccKind := 5
def AccKind.prefetch : AccKind := 6
def AccKind.engineRead : AccKind := 7
def AccKind.engineWrite : AccKind := 8

/-- Bits [63:60] of an address (01 R13). -/
def pathOf (ea : DWord) : Nat := ea.toNat / 2 ^ 60
/-- Bits [59:0] of an address. -/
def restOf (ea : DWord) : Nat := ea.toNat % 2 ^ 60

/-- A write access, for D and W (01 R27, R30). -/
def AccKind.writes (k : AccKind) : Bool := k = 1 || k = 2 || k = 5 || k = 8
def AccKind.reads (k : AccKind) : Bool := !(k = 1 || k = 5 || k = 8)

/-- Whether the table of 01 R14 lets an access kind use a path. -/
def pathAllows (p : Nat) (k : AccKind) : Bool :=
  if k = AccKind.fetch then p = 0
  else if k = AccKind.atomic then p = 0 || p = 2 || p = 3 || p = 8
  else if k.writes then p = 0 || (2 ≤ p && p ≤ 0xA)
  else p ≤ 0xA

/-- The canonical forms of 01 R15: bits above the path's used bits are zero. -/
def canonical (ea : DWord) : Bool :=
  let r := restOf ea
  match pathOf ea with
  | 0 => r < 2 ^ 55 | 1 => r < 2 ^ 55 | 7 => r < 2 ^ 55 | 8 => r < 2 ^ 55
  | 2 => r < 2 ^ 17 | 3 => r < 2 ^ 19
  | 4 => r < 2 ^ 20 | 5 => r < 2 ^ 20 | 6 => r < 2 ^ 20
  | 9 => r < 2 ^ 32 | 0xA => r < 2 ^ 13
  | _ => false

/-- Whether the page tables apply to a path (01 R14). -/
def translated (p : Nat) : Bool := p = 0 || p = 1 || p = 7 || p = 8

/-- A unit's scratchpad allocation in bytes (02 R56). -/
def UnitSt.scratchBytes (u : UnitSt) : Nat := 256 * u.foot.scratch
/-- A unit's allocation in a buffer: 0 weights, 1 activations, 2 accumulators, 3 scratchpad (02 R56). -/
def UnitSt.bufBytes (u : UnitSt) (kind : Nat) : Nat :=
  match kind with
  | 0 => 12288 * u.foot.tiles
  | 1 => 6144 * u.foot.tiles
  | 2 => 4096 * u.foot.tiles
  | _ => u.scratchBytes

/-- The unit that is a member of a cluster group, by its core within the cluster; member m is bound to core m (01 R20; 06 R150). -/
def State.memberUnit (s : State) (g m : Nat) : Option Nat :=
  (s.units.find? (fun p => p.2.group == some (g, m) && !p.2.released)).map (·.1)

/-- Whether a unit has begun on its core, or has already exited (01 R20, 02 R69). -/
def UnitSt.begun (u : UnitSt) : Bool := u.resident || u.ended

/-- Where an untranslated access falls (01 R19-R22): its location, a fault, or a member to wait for. -/
inductive Window where
  | at_ (loc : Nat)
  | bad
  | waitMember (core : Nat)
deriving DecidableEq, Repr

/-- The location of n bytes on an untranslated path for a unit and a sandbox base (01 R19-R22). -/
def State.window (s : State) (u : Nat) (sb : Nat) (ea : DWord) (n : Nat) : Window :=
  let x := s.unit u
  let r := restOf ea
  match pathOf ea with
  | 2 => if r + n ≤ x.scratchBytes then .at_ (locScratch u r) else .bad
  | 3 =>
    match x.group with
    | none => .bad
    | some (g, _) =>
      let m := r / 2 ^ 17
      if x.groupSize ≤ m then .bad
      else match s.memberUnit g m with
        | none => .waitMember m
        | some y =>
          if !(s.unit y).begun then .waitMember m
          else if r % 2 ^ 17 + n ≤ (s.unit y).scratchBytes then .at_ (locScratch y (r % 2 ^ 17)) else .bad
  | 4 => if r + n ≤ x.bufBytes 0 then .at_ (locBuf 0 u r) else .bad
  | 5 => if r + n ≤ x.bufBytes 1 then .at_ (locBuf 1 u r) else .bad
  | 6 => if r + n ≤ x.bufBytes 2 then .at_ (locBuf 2 u r) else .bad
  | 9 =>
    let die := dieOf x.core
    if r + n ≤ tget 0 (s.ctx x.vf).galWin die then .at_ (locGallery x.vf die r) else .bad
  | 0xA =>
    let off := sb + 256 * (r / 256) + r % 256
    if off + n ≤ x.scratchBytes then .at_ (locScratch u off) else .bad
  | _ => .bad

/-- The memory class a PA must have, or none for a hole (01 R26). -/
def classFits (mclass pa : Nat) : Bool :=
  match mclass with
  | 0 => pa / 2 ^ 36 < 4
  | 1 => pa / 2 ^ 36 < 4
  | 2 => 0x100_0000_0000 ≤ pa && pa < 0x100_0000_0000 + Config.mezzBytes
  | 3 => pa / 2 ^ 43 < 384 && pa / 2 ^ 43 != Config.packageNumber
  | 4 => 384 ≤ pa / 2 ^ 43 && pa / 2 ^ 43 < 512
  | _ => false

/-- What one table entry is to the walker (01 R24, R25). -/
inductive PteKind where
  | invalid
  | malformed
  | classClash
  | table (mclass pa : Nat)
  | leaf
deriving DecidableEq, Repr

/-- A table entry judged at a level (01 R24-R26, R32). An entry of TYPE 00 is absent, reason 0 (R32), also where another field of it is
reserved or out of range, which R25 alone would call malformed (log 79). -/
def pteKind (e level : Nat) : PteKind :=
  let ty := bits e 7 6
  let mclass := bits e 57 55
  let pa := bits e 51 16 * 65536
  let leafBits := if level = 1 then 42 else if level = 2 then 29 else 16
  if ty = 0 then .invalid
  else if ty = 3 || (ty = 1 && level = 3) || bits e 63 60 != 0 || bits e 54 52 != 0 || bits e 15 8 != 0 || bits e 0 0 != 0 ||
      5 ≤ mclass then .malformed
  else if ty = 1 then
    if bits e 59 58 != 0 || bits e 5 1 != 0 || mclass = 4 then .malformed
    else if classFits mclass pa then .table mclass pa else .classClash
  else if bits e 3 2 = 3 || pa % 2 ^ leafBits != 0 then .malformed
  else if classFits mclass pa then .leaf else .classClash

/-- The result of a walk (01 R23, R32). -/
inductive Walk where
  | leaf (level : Nat) (entry : Nat) (entryLoc : Nat)
  | xlate (reason level : Nat)
deriving DecidableEq, Repr

/-- The walk through the levels left, from a table (01 R23-R25; 09 R228 for poisoned tables). -/
def State.walkFrom (s : State) (m : Mem) (va : Nat) : Nat → Nat → Nat → Walk
  | 0, _, _ => .xlate 1 3
  | fuel + 1, level, tableLoc =>
    let shift := if level = 1 then 42 else if level = 2 then 29 else 16
    let loc := tableLoc + 8 * (va / 2 ^ shift % 8192)
    let e := m.nat loc 8
    if s.poisoned loc then .xlate 1 level
    else match pteKind e level with
      | .invalid => .xlate 0 level
      | .malformed => .xlate 1 level
      | .classClash => .xlate 2 level
      | .table mc pa => s.walkFrom m va fuel (level + 1) (locPA mc pa)
      | .leaf => .leaf level e loc

/-- The walk of a virtual address in a context (01 R23, 22 R423). -/
def State.walk (s : State) (vf va : Nat) : Walk :=
  let root := (s.ctx vf).mgmt.root.toNat
  let pa := bits root 51 16 * 65536
  if classFits (bits root 57 55) pa then s.walkFrom (s.memOf vf) va 3 1 (locPA (bits root 57 55) pa) else .xlate 2 1

/-- Bytes below a leaf's level (01 R23). -/
def leafShift (level : Nat) : Nat := if level = 1 then 42 else if level = 2 then 29 else 16

/-- The location a leaf maps an address to (01 R23, R26). One beyond the range of its class is ordinary memory, with nothing in it (log 59). -/
def leafLoc (level entry va : Nat) : Nat :=
  locPA (bits entry 57 55) (bits entry 51 16 * 65536 + va % 2 ^ leafShift level)

/-- Whether a cached translation covers an address (01 R31). -/
def TlbEntry.covers (t : TlbEntry) (vf va : Nat) : Bool :=
  t.vf = vf && t.va / 2 ^ leafShift t.level = va / 2 ^ leafShift t.level

/-- Leaf permissions an access needs (01 R27). -/
def pageOk (k : AccKind) (entry : Nat) : Bool :=
  let r := bits entry 1 1 = 1
  let w := bits entry 2 2 = 1
  let x := bits entry 3 3 = 1
  if k = AccKind.fetch then x else if k = AccKind.atomic then r && w else if k.writes then w else r

/-- A walk that fills the TLBs and sets A on the leaf's first use (01 R30, R31). -/
def State.translateWalk (s : State) (core vf va : Nat) : Walk × State :=
  match s.walk vf va with
  | .xlate r l => (.xlate r l, s)
  | .leaf level e loc =>
    let e' := if bits e 4 4 = 0 then e + 16 else e
    let s := if bits e 4 4 = 0 then s.storeNow (plainWrite loc 8 e') (s.keyIndex vf) else s
    let t : TlbEntry := { vf, va := va / 65536 * 65536, level, leaf := BitVec.ofNat 64 e', leafLoc := loc }
    let s := s.modCore core (fun c => { c with tlb := (t :: c.tlb).take 256 })
    (.leaf level e' loc, s.modCluster (clusterOf core) (fun c => { c with tlb := (t :: c.tlb).take 4096 }))

/-- A translation found in a TLB that holds it and is used, else by a walk (01 R31); `afresh` walks (01 R33).
Where a held translation differs from the table's, whether it is still held is the device's choice (log 17). -/
def State.translate (s : State) (core vf va : Nat) (afresh : Bool) : Walk × State :=
  let held := ((s.core core).tlb.find? (fun t => t.covers vf va)).orElse
    (fun _ => (s.cluster (clusterOf core)).tlb.find? (fun t => t.covers vf va))
  match if afresh then none else held with
  | some t =>
    let same := s.walk vf va == .leaf t.level t.leaf.toNat t.leafLoc
    let (i, s1) := s.pick (if same then 1 else 2)
    if i = 0 then (.leaf t.level t.leaf.toNat t.leafLoc, s1) else s1.translateWalk core vf va
  | none => s.translateWalk core vf va

/-- A TLB's copies of an entry changed with it. -/
def tlbDirty (loc : Nat) (e : Nat) (l : List TlbEntry) : List TlbEntry :=
  l.map (fun t => if t.leafLoc = loc && t.leaf.toNat = e then { t with leaf := BitVec.ofNat 64 (e + 32) } else t)

/-- D set through a leaf that a core's TLBs hold with D clear: a compare-and-swap on the entry (01 R30). False where the entry has changed. -/
def State.setDirty (s : State) (core vf entry loc : Nat) : Bool × State :=
  if bits entry 5 5 = 1 then (true, s)
  else if (s.memOf vf).nat loc 8 = entry then
    let s := s.storeNow (plainWrite loc 8 (entry + 32)) (s.keyIndex vf)
    let s := s.modCore core (fun c => { c with tlb := tlbDirty loc entry c.tlb })
    (true, s.modCluster (clusterOf core) (fun c => { c with tlb := tlbDirty loc entry c.tlb }))
  else (false, s)

/-- One lane's access to be checked (01 R41). -/
structure Req where
  lane : Nat
  ea : DWord
  size : Nat
  kind : AccKind
  align : Nat
  /-- a fault the instruction itself found before the address checks: CAPTAG, CAPBND or CAPPERM (01 R39) -/
  cap : Option Code
  /-- paths the instruction's entry accepts; others fault ADDRPATH -/
  paths : List Nat
deriving DecidableEq, Repr

/-- Where an access goes once every check has passed: its location, the paths's store, and the leaf used. -/
structure Place where
  lane : Nat
  ea : DWord
  loc : Nat
  leaf : Option (Nat × Nat)
deriving DecidableEq, Repr

/-- The outcome of the address checks of one instruction (01 R32, R41). -/
inductive Checked where
  | ok (places : List Place)
  | fault (code lane : Nat) (ea : DWord)
  | xlate (lane : Nat) (ea : DWord) (kind reason level : Nat)
  | waitMember (core : Nat)
deriving DecidableEq, Repr

/-- Faults 1-6 of 01 R41 for one lane, ranked by their order. -/
def State.plainFault (s : State) (u sb : Nat) (r : Req) : Option Code :=
  match r.cap with
  | some c => some c
  | none =>
    let p := pathOf r.ea
    if p = 0xF then some Code.priv
    else if !pathAllows p r.kind || !r.paths.contains p || !canonical r.ea ||
        (!translated p && s.window u sb r.ea r.size == .bad) then some Code.addrpath
    else if r.align != 0 && r.ea.toNat % r.align != 0 then some Code.align
    else none

/-- The rank of a fault of 01 R41. -/
def addrRank (c : Code) : Nat :=
  if c = Code.captag then 1 else if c = Code.capbnd then 2 else if c = Code.capperm then 3 else if c = Code.priv then 4
  else if c = Code.addrpath then 5 else 6

/-- The highest-ranked fault among lanes, at its lowest lane (01 R41). -/
def worstFault (l : List (Req × Code)) : Option (Req × Code) :=
  l.foldl (fun b x => match b with
    | none => some x
    | some y => if addrRank x.2 < addrRank y.2 then some x else some y) none

/-- Translation of lanes in turn, keeping the first XLATE and the first PROT (01 R41). -/
def State.translateAll (s : State) (core vf u sb : Nat) (afresh : Bool) :
    List Req → List Place → Option (Req × Nat × Nat) → Option Req → (List Place × Option (Req × Nat × Nat) × Option Req × State)
  | [], ps, x, p => (ps, x, p, s)
  | r :: rs, ps, x, p =>
    if translated (pathOf r.ea) then
      let (wk, s') := s.translate core vf (restOf r.ea) afresh
      match wk with
      | .xlate reason level => State.translateAll s' core vf u sb afresh rs ps (if x.isNone then some (r, reason, level) else x) p
      | .leaf level e loc =>
        if pageOk r.kind e then
          State.translateAll s' core vf u sb afresh rs (ps ++ [{ lane := r.lane, ea := r.ea, loc := leafLoc level e (restOf r.ea), leaf := some (e, loc) }]) x p
        else State.translateAll s' core vf u sb afresh rs ps x (if p.isNone then some r else p)
    else match s.window u sb r.ea r.size with
      | .at_ loc => State.translateAll s core vf u sb afresh rs (ps ++ [{ lane := r.lane, ea := r.ea, loc, leaf := none }]) x p
      | _ => State.translateAll s core vf u sb afresh rs ps x p

/-- The leaves through which the writing accesses of an instruction go: entry and location. -/
def writtenLeaves (rs : List Req) (ps : List Place) : List (Nat × Nat) :=
  ((rs.zip ps).filterMap (fun p => if p.1.kind.writes then p.2.leaf else none)).eraseDups

/-- D set for some leaves; true where every entry was as it was read (01 R30). -/
def State.dirtyAll (s : State) (core vf : Nat) (ls : List (Nat × Nat)) : Bool × State :=
  ls.foldl (fun (acc : Bool × State) q => let (ok, s) := acc.2.setDirty core vf q.1 q.2; (acc.1 && ok, s)) (true, s)

/-- Checks 7 and 8 of 01 R41 for a whole instruction: XLATE before PROT, the lowest lane first; then a group member not yet resident. -/
def State.translateCheck (s : State) (core vf u sb : Nat) (afresh : Bool) (rs : List Req) : Checked × State :=
  let (ps, x, p, s) := s.translateAll core vf u sb afresh rs [] none none
  match x with
  | some (r, reason, level) => (.xlate r.lane r.ea r.kind reason level, s)
  | none =>
    match p with
    | some r => (.fault Code.prot r.lane r.ea, s)
    | none =>
      match rs.findSome? (fun r => match s.window u sb r.ea r.size with
          | .waitMember c => if translated (pathOf r.ea) then none else some c
          | _ => none) with
      | some c => (.waitMember c, s)
      | none => (.ok ps, s)

/-- The address checks of a whole instruction, in the order of 01 R41, lanes lowest first. D is set for writes that pass; where an entry
has changed since it was read, every lane walks again (01 R30). -/
def State.checkAccess (s : State) (core vf u sb : Nat) (rs : List Req) (afresh : Bool := false) : Checked × State :=
  match worstFault (rs.filterMap (fun r => (s.plainFault u sb r).map (fun c => (r, c)))) with
  | some (r, c) => (.fault c r.lane r.ea, s)
  | none =>
    match s.translateCheck core vf u sb afresh rs with
    | (.ok ps, s) =>
      match s.dirtyAll core vf (writtenLeaves rs ps) with
      | (true, s) => (.ok ps, s)
      | (false, s) =>
        match s.translateCheck core vf u sb true rs with
        | (.ok ps, s) => (.ok ps, (s.dirtyAll core vf (writtenLeaves rs ps)).2)
        | r => r
    | r => r

/-- The poison handling of the page an access went through: true for PH 1 (01 R29). -/
def Place.tolerant (p : Place) : Bool :=
  match p.leaf with
  | some (e, _) => bits e 59 59 = 1
  | none => false

/-- BASE of a capability (01 R35). -/
def CapBits.base (c : CapBits) : DWord := c.extractLsb' 64 64
def CapBits.length (c : CapBits) : Nat := (c.extractLsb' 24 40).toNat
def CapBits.perms (c : CapBits) : Nat := (c.extractLsb' 16 8).toNat
def CapBits.fmt (c : CapBits) : Nat := (c.extractLsb' 11 5).toNat
def CapBits.pitch (c : CapBits) : Nat := (c.extractLsb' 0 11).toNat

/-- A capability from its fields (01 R35). -/
def capOf (base : DWord) (length perms fmt pitch : Nat) : CapBits :=
  base ++ BitVec.ofNat 40 length ++ BitVec.ofNat 8 perms ++ BitVec.ofNat 5 fmt ++ BitVec.ofNat 11 pitch

/-- The permissions an access needs: `need` plus S on paths 0x2-0x6 and G on 0x9, 0xA (01 R39). Bit 0 R, 1 W, 2 A, 3 K, 4 E, 5 G, 6 S. -/
def capNeed (need path : Nat) : Nat :=
  if 2 ≤ path && path ≤ 6 then Nat.lor need 0x40 else if path = 9 || path = 0xA then Nat.lor need 0x20 else need

/-- The capability checks of 01 R39 for n bytes at an offset; the effective address is BASE + off. -/
def capCheck (tag : Bool) (c : CapBits) (off : DWord) (n need : Nat) : Option Code :=
  let path := pathOf (c.base + off)
  if !tag then some Code.captag
  else if c.length ≤ off.toNat || c.length - off.toNat < n then some Code.capbnd
  else if Nat.land c.perms (capNeed need path) != capNeed need path then some Code.capperm
  else none

/-- A K0 or K1 field is well formed (01 R38). -/
def capWellFormed (c : CapBits) : Bool :=
  c != 0 && c.perms < 0x80 && canonical c.base &&
  restOf c.base + c.length ≤ (match pathOf c.base with
    | 0 => 2 ^ 55 | 1 => 2 ^ 55 | 7 => 2 ^ 55 | 8 => 2 ^ 55
    | 2 => 2 ^ 17 | 3 => 2 ^ 19 | 4 => 2 ^ 20 | 5 => 2 ^ 20 | 6 => 2 ^ 20 | 9 => 2 ^ 32 | _ => 2 ^ 13)

end Sys2Proof.Machine
end

