-- ==== Sys2Proof/Machine/Chain.lean ====
section
/-! DEFINITION. What the entries of a command chain say: their kinds, checks, tile sides and receivers, the barriers and conditions they
name, and the tiles that an operation names and fills again (04 R104, R108-R117; 02 R65, R68; 18 R401). -/
namespace Sys2Proof.Machine

/-- A chain entry's KIND (04 R108). -/
def entryKind (d : List DWord) : Nat := bits (d.headD 0).toNat 63 60
/-- A doubleword of a chain entry. -/
def dw (d : List DWord) (i : Nat) : Nat := (d.getD i 0).toNat

/-- Whether a unit may use a context (04 R104). -/
def UnitSt.hasCtx (u : UnitSt) (e : Nat) : Bool := u.foot.engines.testBit e

/-- PHASE at the backing store (04 R117; 14 R368; log 61). -/
def Mem.abarPhase (m : Mem) (loc : Nat) : Nat := m.nat (loc + 8) 4

/-- The eight doublewords of entry i of a chain, read one a step (03 R100; 04 R108, R111), or the fault of the read. -/
def State.readEntry (s : State) (u e : Nat) (o : Op) (i : Nat) : Except Code (List DWord) × State :=
  match o.kind with
  | .mma _ _ _ _ _ _ => (.error Code.chain, s)
  | .chain head _ =>
    let off := head.toNat % 2 ^ 17 + 64 * i
    if (s.unit u).scratchBytes < off + 64 then (.error Code.addrpath, s)
    else
      let loc := locScratch u off
      let (ds, s) := (List.range 8).foldl (fun (acc : List DWord × State) k =>
        let (bs, s) := acc.2.readStep (.op u e o.num) ((List.range 8).map (loc + 8 * k + ·))
        (acc.1 ++ [BitVec.ofNat 64 (leNat bs)], s)) ([], s)
      (if s.mem.badWord loc 64 then .error Code.storage else .ok ds, s)

/-- A path that a tile coordinate may name (04 R113). -/
def onBuffer (x : Nat) : Bool := 4 ≤ bits x 63 60 && bits x 63 60 ≤ 6

/-- The entry kinds a context accepts (04 R104). -/
def kindAccepted (e k : Nat) : Bool :=
  (2 ≤ k && k ≤ 5) || (k = 0 && e ≤ 3) || (k = 1 && (e = 4 || e = 5)) || (k = 6 && e = 6)

/-- The dash doublewords of a kind and the reserved bits of D6 and D7 (04 R109). -/
def entryReserved (k : Nat) (d : List DWord) : Bool :=
  let z := fun (l : List Nat) => l.any (fun i => dw d i != 0)
  match k with
  | 0 => z [7] || bits (dw d 6) 63 7 != 0
  | 1 => bits (dw d 7) 62 3 != 0
  | 2 => z [1, 2, 3, 4, 5]
  | 3 => z [1, 2, 3, 4] || bits (dw d 6) 63 35 != 0 || bits (dw d 6) 31 2 != 0
  | 4 => z [1, 2, 4, 6, 7]
  | 5 => z [1, 2, 3, 4, 5, 6, 7]
  | _ => z [7] || bits (dw d 6) 31 16 != 0

/-- An entry that faults CHAIN by 04 R110. -/
def entryBad (e i : Nat) (seen : SMap (List DWord)) (d : List DWord) : Bool :=
  let k := entryKind d
  let d0 := dw d 0
  let tv := bits d0 38 38 = 1
  let span := bits (dw d 6) 31 0
  !kindAccepted e k || bits d0 31 0 != 0 || entryReserved k d ||
  (!(k = 0 || k = 1 || k = 6) && (bits d0 55 41 != 0 || bits d0 39 32 != 0)) ||
  (!(k = 0 || k = 1 || k = 4 || k = 6) && (bits d0 59 56 != 0 || bits d0 40 40 != 0)) ||
  ((k = 0 || k = 1 || k = 6) && tv && !(onBuffer (dw d 1) || onBuffer (dw d 2))) ||
  (k = 0 && bits (dw d 6) 6 6 = 1 && !(tv && onBuffer (dw d 1) && onBuffer (dw d 2))) ||
  (k = 4 && bits d0 40 40 = 0) || (k = 3 && 2 ≤ bits (dw d 6) 1 0) ||
  (k = 2 && (span = 0 || i < span || (List.range span).any (fun j => entryKind ((tfind? seen (i - span + j)).getD []) = 2)))

/-- The tile that a side of an entry names, by number: source, then destination (04 R113). Without STV both sides name TILE (log 16). -/
def tileSides (d : List DWord) : Option Nat × Option Nat :=
  let t := bits (dw d 0) 37 32
  let src := if entryKind d = 0 && bits (dw d 6) 6 6 = 1 && onBuffer (dw d 2) then bits (dw d 6) 5 0 else t
  if bits (dw d 0) 38 38 = 1 then
    (if onBuffer (dw d 1) then some src else none, if onBuffer (dw d 2) then some t else none)
  else (none, none)

/-- The receivers of an entry (04 R116), or ADDRPATH. -/
def State.receivers (s : State) (u : Nat) (d : List DWord) : Except Code (List Nat) :=
  let m := bits (dw d 0) 59 56
  if m = 0 then .ok [u]
  else match (s.unit u).group with
    | none => .error Code.addrpath
    | some (g, _) =>
      let rs := ((List.range 4).filter (fun c => m.testBit c)).map (s.memberUnit g)
      if rs.any Option.isNone then .error Code.addrpath else .ok (rs.filterMap id)

/-- The barrier at D5 in a receiver (04 R117): its location, or the fault. -/
def State.barrierAt (s : State) (rcv : Nat) (d : List DWord) : Except Code Nat :=
  let a := BitVec.ofNat 64 (dw d 5)
  if pathOf a != 2 || a.toNat % 16 != 0 then .error Code.chain
  else if !canonical a || (s.unit rcv).scratchBytes < restOf a + 16 then .error Code.addrpath
  else .ok (locScratch rcv (restOf a))

/-- What a cond entry finds (04 R110, R111): the fault it makes, or the set it acquires where its condition holds. -/
def State.condSet (s : State) (u e : Nat) (o : Op) (d : List DWord) : Except Code (Option RKey) :=
  let c := bits (dw d 6) 34 32
  if bits (dw d 6) 1 0 = 0 then
    if !(s.unit u).hasCtx c then .error Code.engown
    else if c = e && o.num ≤ dw d 7 then .error Code.chain
    else .ok (if ((s.unit u).ctx c).cnt.toNat < dw d 7 then none else some (.timeline u c))
  else (s.barrierAt u d).map (fun loc => if s.mem.abarPhase loc = bits (dw d 7) 31 0 then none else some (.abarPhase loc))

/-- The entries of a chain from one on, as the operation has read them or, where it has not, as they now stand (04 R111). -/
def State.chainFrom (s : State) (u e : Nat) (o : Op) : Nat → Nat → SMap (List DWord) → List (List DWord)
  | 0, _, _ => []
  | fuel + 1, i, seen =>
    let d := match tfind? o.seen i with
      | some d => some d
      | none => ((s.readEntry u e o i).1.toOption).filter (fun d => !entryBad e i (tins seen i d) d)
    match d with
    | none => []
    | some d => if entryKind d = 5 then [] else d :: State.chainFrom s u e o fuel (i + 1) (tins seen i d)

/-- The entries of an operation's chain up to its end, or to one that it would fault at. -/
def State.chainEntries (s : State) (u e : Nat) (o : Op) : List (List DWord) :=
  match o.kind with
  | .mma _ _ _ _ _ _ => []
  | .chain _ _ => s.chainFrom u e o ((s.unit u).scratchBytes / 64 + 1) 0 []

/-- Whether an entry of a unit's operation fills a tile: (unit, tile) (02 R65; 04 R113, R116). -/
def State.entryFills (s : State) (u : Nat) (d : List DWord) (p : Nat × Nat) : Bool :=
  (tileSides d).2 = some p.2 && ((s.receivers u d).toOption.getD []).contains p.1

/-- Whether an operation of a unit names tiles of a unit (02 R68). -/
def State.opNames (s : State) (y e : Nat) (o : Op) (u : Nat) : Bool :=
  match o.kind with
  | .mma _ _ _ _ _ _ => y = u
  | .chain _ _ => o.moved.any (fun p => p.1 = u) || (s.chainEntries y e o).any (fun d =>
      ((tileSides d).1.isSome && y = u) || ((tileSides d).2.isSome && ((s.receivers y d).toOption.getD []).contains u))

/-- Whether an entry lies ahead of an operation: at or after the one it stands at, or in the span of a loop that has a repetition to make
(04 R111). -/
def Op.ahead (o : Op) (ds : List (List DWord)) (j : Nat) : Bool :=
  o.entry ≤ j || (List.range ds.length).any (fun k =>
    let d := ds.getD k []
    entryKind d = 2 && o.entry ≤ k && k < j + bits (dw d 6) 31 0 + 1 && j < k && bits (dw d 6) 63 32 != 0 &&
      !o.loop.any (fun l => l.at_ = k && l.count ≤ l.rep))

/-- Whether an operation stands at a cond that waits for the matrix engine or for arrivals, and does not hold (04 R111). -/
def State.heldAtCond (s : State) (u e : Nat) (o : Op) (ds : List (List DWord)) : Bool :=
  match ds[o.entry]? with
  | some d => entryKind d = 3 && (bits (dw d 6) 1 0 = 1 || bits (dw d 6) 34 32 = 7) && (s.condSet u e o d).toOption = some none
  | none => false

/-- Whether an operation that has filled a tile is to fill it again (18 R401). One that waits for the matrix engine, or for arrivals, lets the
tile be used meanwhile: what it waits for may need it (log 60). -/
def State.refills (s : State) (u e : Nat) (o : Op) (p : Nat × Nat) : Bool :=
  o.filled.contains p &&
    (let ds := s.chainEntries u e o
     !s.heldAtCond u e o ds && (List.range ds.length).any (fun j => s.entryFills u (ds.getD j []) p && o.ahead ds j))

end Sys2Proof.Machine
end

