-- ==== Sys2Proof/Machine/Life.lean ====
section
/-! DEFINITION. The device's own accesses, fault records, escalation, and how waves, children, units and gangs end
(07 R176, R185, R435; 08 R195, R196; 09 R219, R225, R226; 13 R307, R310; 15 R375, R380). -/
namespace Sys2Proof.Machine

/-- Where a device access on path 0x0 falls (07 R435). -/
inductive DevPlace where
  | at_ (loc : Nat)
  | xlate (reason level : Nat)
  | prot
  | poison
  | remote
deriving DecidableEq, Repr

/-- A device access of n bytes at a virtual address of a context, needing R and W as asked (07 R435; 08 R191). One that no port takes to its
package or host, or that goes to a function space there, fails REMOTE (22 R421, R422). -/
def State.devPlace (s : State) (vf : Nat) (va : Nat) (r w : Bool) : DevPlace :=
  match s.walk vf va with
  | .xlate reason level => .xlate reason level
  | .leaf level e _ =>
    let loc := leafLoc level e va
    if (r && bits e 1 1 = 0) || (w && bits e 2 2 = 0) then .prot
    else if s.cutOff loc then .remote
    else if r && bits e 59 59 = 0 && s.poisoned loc then .poison
    else .at_ loc

/-- A and D set by a device access through a leaf (01 R30). -/
def State.devTouch (s : State) (vf : Nat) (va : Nat) (w : Bool) : State :=
  match s.walk vf va with
  | .xlate _ _ => s
  | .leaf _ e loc =>
    let e' := (if bits e 4 4 = 0 then 16 else 0) + (if w && bits e 5 5 = 0 then 32 else 0)
    if e' = 0 then s else s.storeNow (plainWrite loc 8 (e + e')) (s.keyIndex vf)

/-- A set on the leaves through which the device reads n bytes (01 R30; 07 R435). -/
def State.devUse (s : State) (vf : Nat) (ea : DWord) (n : Nat) : State :=
  (List.range ((ea.toNat % 65536 + n + 65535) / 65536)).foldl (fun s i => s.devTouch vf ((ea.toNat / 65536 + i) * 65536) false) s

/-- The fault code of a device access that fails, or none (07 R435). -/
def DevPlace.code? : DevPlace → Option Code
  | .at_ _ => none
  | .xlate _ _ => some Code.xlate
  | .prot => some Code.prot
  | .poison => some Code.poison
  | .remote => some Code.remote

/-- A device write at a path 0x0 address of a context; one that cannot be placed has no effect but on the leaf's A (log 31). -/
def State.devWrite (s : State) (vf : Nat) (ea : DWord) (bs : List Byte) : State :=
  match s.devPlace vf ea.toNat false true with
  | .at_ loc => (s.devTouch vf ea.toNat true).storeNow (plainBytes loc bs) (s.keyIndex vf)
  | _ => s.devTouch vf ea.toNat false

/-- A device read at a path 0x0 address of a context. -/
def State.devRead (s : State) (vf : Nat) (ea : DWord) (n : Nat) : Option Nat :=
  match s.devPlace vf ea.toNat true false with
  | .at_ loc => some ((s.memOf vf).nat loc n)
  | _ => none

/-- The bytes of a fault record (09 R225). -/
def FRec.bytes (r : FRec) (seq : Nat) : List Byte :=
  leBytes 1 r.kind ++ leBytes 1 r.code ++ leBytes 1 r.reason ++ leBytes 1 r.access ++ leBytes 2 r.core ++ leBytes 1 r.slot ++
  leBytes 1 r.lane ++ leBytes 4 seq ++ leBytes 4 r.lid ++ leBytes 8 r.addr.toNat ++ leBytes 8 r.pc.toNat

/-- A record that reports an XLATE waits for a disposition (09 R225). -/
def FRec.isXlate (r : FRec) : Bool := r.kind = 1 || r.kind = 2 || r.kind = 6

/-- The record's number told to what it parks (09 R225). -/
def State.noteSeq (s : State) (subj : FSubject) (seq : Nat) : State :=
  match subj with
  | .wave w => s.modWave w (fun v => { v with park := v.park.map (fun p => { p with seq := some seq }) })
  | .op u e n => s.modUnit u (fun x => x.setEng e
      { x.ctx e with ops := (x.ctx e).ops.map (fun o => if o.num = n then { o with phase := .parked (some seq) } else o) })
  | .joinUpd id => { s with held := s.held.map (fun h => if h.id = id then { h with seq := some seq } else h) }
  | .none => s

/-- A record appended at FQTAIL, with its sequence number; the record's bytes precede the advance (09 R225). -/
def State.appendFault (s : State) (vf : Nat) (r : FRec) : State :=
  let c := s.ctx vf
  let seq := c.fseq
  let slot := c.mgmt.fqtail.toNat % c.mgmt.fqsize.toNat
  let s := s.devWrite vf (c.mgmt.fqbase + BitVec.ofNat 64 (32 * slot)) (r.bytes seq)
  let s := s.modCtx vf (fun c => { c with
    mgmt := { c.mgmt with fqtail := c.mgmt.fqtail + 1 }
    fseq := (seq + 1) % 2 ^ 32
    frecs := if r.isXlate then c.frecs ++ [(seq, r)] else c.frecs })
  if r.isXlate then s.noteSeq r.subject seq else s

/-- The fault queue is full (09 R226). -/
def Ctx.queueFull (c : Ctx) : Bool := c.mgmt.fqtail - c.mgmt.fqhead == c.mgmt.fqsize

/-- A record posted, waiting for room, or dropped and counted in LOST (09 R226); none for a context torn down (09 R233). With no queue placed, an XLATE is the caller's to resolve. -/
def State.postFault (s : State) (vf : Nat) (r : FRec) : State :=
  let c := s.ctx vf
  if c.state = .torn then s
  else
  let drop := s.modCtx vf (fun c => { c with mgmt := { c.mgmt with lost := c.mgmt.lost + 1 } })
  if c.mgmt.fqsize = 0 then (if r.isXlate then s else drop)
  else if c.queueFull then
    if r.isXlate then s.modCtx vf (fun c => { c with fwaiting := c.fwaiting ++ [r] }) else drop
  else s.appendFault vf r

/-- The bytes 0x04-0x1F of a completion record, then its first word (08 R195, R196). -/
def completionBytes (faultCnt : Nat) (first : Option (Nat × Nat × Nat × Nat)) (lid : Nat) (time : DWord) : List Byte :=
  let (_, fcore, fctx, opnum) := first.getD (0, 0, 0, 0)
  leBytes 4 faultCnt ++ leBytes 2 fcore ++ leBytes 1 fctx ++ leBytes 1 0 ++ leBytes 4 opnum ++ leBytes 4 lid ++ leBytes 4 0 ++ leBytes 8 time.toNat

/-- The first word of a completion record (08 R195). -/
def completionWord (done faulted cancelled rejected : Bool) (code reason : Nat) : Nat :=
  (if done then 2 ^ 31 else 0) + (if faulted then 2 ^ 30 else 0) + (if cancelled then 2 ^ 29 else 0) +
  (if rejected then 2 ^ 28 else 0) + code % 256 * 256 + reason % 256

/-- A completion record written: its later bytes first, then its first word, which no reader sees without them (08 R196). -/
def State.writeCompletion (s : State) (vf : Nat) (ea : DWord) (w0 : Nat) (rest : List Byte) : State :=
  let s := s.devWrite vf (ea + 4) rest
  match s.devPlace vf ea.toNat false true with
  | .at_ loc => (s.devTouch vf ea.toNat true).storeAfter (plainBytes loc (leBytes 4 w0)) (s.keyIndex vf) ((List.range 28).map (loc + 4 + ·))
  | _ => s

/-- An escalation of a launch (04 R123; 08 R195, R196; 09 R223; 07 R435). -/
def State.escalate (s : State) (n code fcore fctx opnum : Nat) : State :=
  let s := s.modLaunch n (fun l => { l with
    faultCnt := (l.faultCnt + 1) % 2 ^ 32
    firstFault := if l.firstFault.isNone then some (code, fcore, fctx, opnum) else l.firstFault })
  let l := s.launch n
  if l.complete then s
  else s.writeCompletion l.vf l.completion (completionWord false true false false ((l.firstFault.map (·.1)).getD 0) 0)
    (completionBytes l.faultCnt l.firstFault 0 0)

/-- The launch counter falls by one (06 R148). -/
def State.launchDown (s : State) (n : Nat) : State := s.modLaunch n (fun l => { l with counter := l.counter - 1 })

/-- The location of a join object that a frame's rewritten JOIN names on path 0x2: its unit and offset (07 R176). -/
def State.handleUnit (s : State) (vf h : Nat) : Option Nat :=
  (s.units.find? (fun p => p.2.vf == vf && p.2.handle == some h && !p.2.released)).map (·.1)

/-- The members of a unit's cluster group that still hold anything; the unit alone outside groups (06 R150; 02 R69). -/
def State.mates (s : State) (u : Nat) : List Nat :=
  match (s.unit u).group with
  | none => [u]
  | some (g, _) => (s.units.filter (fun p => p.2.group.map (·.1) = some g && !p.2.released)).map (·.1)

/-- Whether nothing needs a unit's resources any more: it has ended, its operations are complete, and no child is to update a join object
in its scratchpad (02 R68; 07 R176). -/
def UnitSt.spent (x : UnitSt) : Bool := x.ended && x.childJoins = 0 && (List.range 8).all (fun e => (x.ctx e).ops.isEmpty)

/-- Whether an ended unit's resources are released: with those of its whole group, whose operations may name them (02 R68, R69). -/
def State.releasable (s : State) (u : Nat) : Bool :=
  !(s.unit u).released && (s.unit u).spent && (s.mates u).all (fun y => (s.unit y).spent)

/-- SAVE of a unit (08 R210). -/
def saveSize (waves : Nat) (f : Foot) (vvirt : Nat) : Nat :=
  (4096 + waves * max f.vregs vvirt * 128 + 256 * f.scratch + 22528 * f.tiles + 65535) / 65536 * 65536

/-- The room that a unit's saved state takes in its launch's backing store (08 R210; 12 R291). -/
def State.roomOf (s : State) (u : Nat) : Nat := saveSize (s.unit u).waves.length (s.unit u).foot (s.launch (s.unit u).launch).vvirt

/-- The matrix engine of a core passed to nobody (15 R375); MOWN_GRANT gives it on. -/
def State.dropOwner (s : State) (core u : Nat) : State :=
  if (s.core core).owner = some u then s.modCore core (fun c => { c with owner := none }) else s

/-- An ended unit's allocations and handle are given back (02 R68, R69; 07 R176). -/
def State.giveBack (s : State) (u : Nat) : State :=
  let x := s.unit u
  let s := s.modUnit u (fun y => { y with released := true, resident := false, saved := none })
  match x.handle with
  | none => s
  | some h => s.modCtx x.vf (fun c => { c with handles := c.handles.filter (· != h) })

/-- Whether an outstanding operation of a unit or its group names the unit's tiles (02 R68). -/
def State.tilesNamed (s : State) (u : Nat) : Bool :=
  (s.mates u).any (fun y => (List.range 8).any (fun e => ((s.unit y).ctx e).ops.any (fun o => s.opNames y e o u)))

/-- The tiles and matrix buffers of ended units are free once no operation that names them is left (02 R68). An operation that a mate issues
to them later finds what free entries hold, EMPTY with CFG 0, and faults TILECFG: the rules do not say (log 74). -/
def State.freeTiles (s : State) (u : Nat) : State :=
  (s.mates u).foldl (fun s y =>
    if (s.unit y).ended && !s.tilesNamed y then s.modUnit y (fun x => { x with tilesFreed := true, tiles := [] }) else s) s

/-- What an ended unit leaves is released once nothing holds it, all members of a group together: matrix ownership, allocations, handles
(02 R68, R69; 07 R176; 15 R375). -/
def State.releaseGroup (s : State) (u : Nat) : State :=
  let x := s.unit u
  let s := if x.ended && (x.ctx 7).ops.isEmpty then s.dropOwner x.core u else s
  let s := s.freeTiles u
  if s.releasable u then (s.mates u).foldl State.giveBack s else s

/-- The updates of one ending performed together at a join object's location (07 R185): FAULTS and FIRSTCODE first, which whoever acquires
the object's set observes (07 R180), then COUNT. -/
def State.joinApply (s : State) (vf loc : Nat) (code : Option Nat) (view : View) : State :=
  let s := s.relMerge (.joinObj loc) view
  let s := match code with
    | none => s
    | some c =>
      let faults := (s.memOf vf).nat (loc + 8) 4
      let first := (s.memOf vf).nat (loc + 12) 4
      let s := s.storeNow (plainWrite (loc + 8) 8 ((faults + 1) % 2 ^ 32 + 2 ^ 32 * (if faults = 0 then c else first))) (s.keyIndex vf)
      s.relMerge (.joinObj loc) ((List.range 8).foldl (fun v i => vset v (loc + 8 + i) (s.mem.lastOf (loc + 8 + i)).1) [])
  (s.deviceAtomic loc 4 (fun o => (o + (2 ^ 32 - 1)) % 2 ^ 32) (s.keyIndex vf)).2

/-- A child's join updates performed, held or dropped (07 R176, R185, R435). `again` marks a REPLAY, whose record is posted afresh. -/
def State.joinUpdate (s : State) (j : JoinUpd) : State :=
  let finish := fun (s : State) => s.launchDown j.launch
  if pathOf j.join = 2 then
    match s.handleUnit j.vf (bits j.join.toNat 59 44) with
    | none => finish s
    | some u =>
      if ((s.unit u).resident || (s.unit u).ended) && (s.unit u).saved.isNone then
        let s := s.joinApply j.vf (locScratch u (bits j.join.toNat 16 0)) j.code j.view
        let s := s.modUnit u (fun x => { x with childJoins := x.childJoins - 1 })
        (finish s).releaseGroup u
      else { s with held := s.held ++ [j] }
  else
    match s.devPlace j.vf j.join.toNat true true with
    | .at_ loc => finish ((s.devTouch j.vf j.join.toNat true).joinApply j.vf loc j.code j.view)
    | .xlate reason level =>
      if (s.ctx j.vf).mgmt.fqsize = 0 then finish (s.escalate j.launch Code.xlate j.core 0xFF 0)
      else
        let s := { s with held := s.held ++ [j] }
        s.postFault j.vf {
          kind := 6, code := Code.xlate, reason := reason + 4 * level, access := 2, core := j.core, slot := 0xFF,
          lane := 0xFF, lid := (s.launch j.launch).lid, addr := j.join, pc := j.pc, subject := .joinUpd j.id }
    | p => finish ((s.devTouch j.vf j.join.toNat false).escalate j.launch ((p.code?).getD 0) j.core 0xFF 0)

/-- How a wave ends: it exits, its handler ends it as faulted, or a cancel retires it (07 R185). -/
inductive Ending where
  | exit
  | faulted (code : Nat)
  | cancelled
deriving DecidableEq, Repr

/-- The fault code a faulted ending carries (07 R185). -/
def Ending.code? : Ending → Option Nat
  | .faulted c => some c
  | _ => none

/-- Every lane of a wave drains, and their views join (03 R94, R95). -/
def State.drainWave (s : State) (w : Nat) : View × State :=
  (List.range 32).foldl (fun (acc : View × State) l => acc.2.releaseView (.lane w l) acc.1) ([], s)

/-- A child's ending (07 R185). -/
def State.childEnd (s : State) (u w : Nat) (f : Frame) (pc : DWord) (e : Ending) : State :=
  let x := s.unit u
  if f.join = 0 then s.launchDown x.launch
  else
    let (v, s) := s.drainWave w
    let (id, s) := s.newId
    s.joinUpdate { id, vf := x.vf, launch := x.launch, join := f.join, code := e.code?, core := x.core, pc, seq := none, view := v }

/-- Engine faults still recorded when the unit's last wave exits escalate, lowest context first (04 R123). -/
def State.escalateEngines (s : State) (u : Nat) : State :=
  (List.range 8).foldl (fun s e =>
    let x := s.unit u
    let f := (x.ctx e).fault.toNat
    if bits f 63 63 = 1 then s.escalate x.launch (bits f 55 48) (x.core / 4 * 4 + bits f 33 32) e (bits f 31 0) else s) s

/-- The unit barrier completes its phase once every participant has arrived (13 R310). -/
def State.barJudge (s : State) (u : Nat) : State :=
  let x := s.unit u
  let ps := x.waves.filter (fun w => !(s.wave w).exited)
  if !ps.isEmpty && ps.all (fun w => (s.wave w).barArrived) then
    let s := ps.foldl (fun s w => s.modWave w (fun v => { v with barArrived := false })) s
    s.modUnit u (fun x => { x with barPhase := x.barPhase + 1 })
  else s

/-- A frame is pending on none of some cores (07 R183). -/
def State.unpend (s : State) (id : Nat) : List Nat → State
  | [] => s
  | n :: ns => (State.unpend s id ns).modCore n (fun c => { c with pending := c.pending.filter (fun q => q.frame.id != id) })

/-- A child's frame ceases to be pending: its first word has retired, or it has faulted (07 R183). -/
def State.beginChild (s : State) (w : Nat) : State :=
  let x := s.unit (s.wave w).unit
  match x.child with
  | none => s
  | some f => { s.unpend f.id (s.cores.map (·.1)) with frames := tdel s.frames f.id }

/-- The current reservations that a wave's clauses hold or have asked for (21 R414). -/
def Wave.heavyIds (v : Wave) : List Nat := (v.lanes.filterMap (fun p => p.2.heavy)).eraseDups

/-- Reservations of a wave's clauses returned, and requests for them withdrawn (21 R414, R420). -/
def State.dropHeavy (s : State) (w : Nat) (ids : List Nat) : State :=
  let k := clusterOf (s.wave w).core
  let mine := fun (r : CurReq) => ids.any (fun i => r.who = .clause w i)
  let held := ids.filter (fun i => !(s.cluster k).requests.any (fun r => r.who = .clause w i))
  if ids.isEmpty then s
  else (s.modCluster k (fun c => { c with unitsFree := c.unitsFree + 8 * held.length, requests := c.requests.filter (fun r => !mine r) })).modWave w
    (fun v => v.modLanes 0xFFFFFFFF (fun l =>
      if l.heavy.any ids.contains then { l with heavy := none, wait := if l.wait = some (.hold .reservation) then none else l.wait } else l))

/-- The current reservations of a wave's clauses, and its requests for them, given up with the wave (21 R414). -/
def State.dropReservation (s : State) (w : Nat) : State := s.dropHeavy w (s.wave w).heavyIds

/-- A wave's park is dropped, with its record; the parked word walks afresh when it issues again (01 R33; 06 R149; 09 R234). -/
def State.dropPark (s : State) (w : Nat) : State :=
  let v := s.wave w
  let seqs := (v.park.bind (·.seq)).toList
  let again := (v.park.map (·.group)).getD 0
  (s.setWave w { v with park := none, replay := v.replay ||| again }).modCtx (s.vfOf w) (fun c => { c with
    frecs := c.frecs.filter (fun p => !seqs.contains p.1)
    fwaiting := c.fwaiting.filter (fun r => r.subject != .wave w) })

/-- A wave becomes trapped and waits for its core's Newel slot, in the order waves stop (09 R218, R219). Lanes keep their PCs;
a park it was under is dropped, and the parked word walks afresh when resumed (09 R234). -/
def State.stopWave (s : State) (w : Nat) (t : TrapRec) : State :=
  let s := ((s.beginChild w).dropReservation w).dropPark w
  let v := s.wave w
  let s := s.setWave w ({ v with trapState := .trapped, trap := some t, debug := false, stepping := none }.modLanes v.live (fun l => { l with again := false }))
  if v.resident then s.modCore v.core (fun c => { c with newelQueue := c.newelQueue ++ [w] }) else s

/-- The lowest lane of a set; 0 for the empty set. -/
def lowestLane (m : Mask) : Nat := (lanesOf m).headD 0

/-- A latch entry put among others in the order of wave slots. -/
def State.insertSlot (s : State) (h : LatchEntry) : List LatchEntry → List LatchEntry
  | [] => [h]
  | x :: xs => if (s.wave h.wave).slot ≤ (s.wave x.wave).slot then h :: x :: xs else x :: s.insertSlot h xs

/-- Members held at the gang latch leave it with a precise fault (15 R380), stopped in one cycle, so lower slot first (09 R219). One
that is stopped meanwhile issues its word again. -/
def State.latchFault (s : State) (u : Nat) (code : Code) (hs : List LatchEntry) : State :=
  let s := s.modUnit u (fun x => { x with latch := x.latch.filter (fun h => !hs.contains h) })
  (hs.foldr s.insertSlot []).foldl (fun s h =>
    let l := (s.wave h.wave).lane (lowestLane h.lanes)
    let s := s.modWave h.wave (fun v => v.modLanes v.live (fun y => if y.wait = some (.hold .gangLatch) then { y with wait := none } else y))
    if (s.wave h.wave).trapState = .running && !(s.wave h.wave).exited then
      s.stopWave h.wave {
        code, cls := 1, lane := lowestLane h.lanes, access := 0xF, pc := l.pc, nextpc := l.after, ea := 0, group := (s.wave h.wave).live }
    else s) s

/-- The wave indices a %gang value names (15 R376). -/
def gangMembers (g : Word) : List Nat := (List.range (bits g.toNat 26 24)).map (fun j => bits g.toNat (4 * j + 3) (4 * j))

/-- The entries of the latch that belong to a gang: those of the waves it names (15 R380). -/
def State.gangEntries (s : State) (u : Nat) (g : Word) : List LatchEntry :=
  (s.unit u).latch.filter (fun h => (gangMembers g).contains (s.wave h.wave).idx)

/-- The entries of the latch whose gang, as now held, names a wave index (15 R380). -/
def State.latchNaming (s : State) (u idx : Nat) : List LatchEntry :=
  (s.unit u).latch.filter (fun h => (gangMembers (s.wave h.wave).gang).contains idx)

/-- A wave with no live lane has exited: barrier, gang latch, child edge, unit (13 R307; 07 R185; 06 R148). -/
def State.waveExited (s : State) (w : Nat) (pc : DWord) (e : Ending) : State :=
  let v := s.wave w
  if v.exited then s
  else
    let u := v.unit
    let s := s.setWave w { v with exited := true, live := 0, loops := [], cand := none, steps := [] }
    let s := s.dropReservation w
    let s := s.barJudge u
    let x := s.unit u
    let s := s.modUnit u (fun x => { x with latch := x.latch.filter (fun h => h.wave != w) })
    let s := s.latchFault u Code.gangmis (s.latchNaming u v.idx)
    let s := match x.child with
      | some f => s.childEnd u w f pc e
      | none => s
    if (s.unit u).waves.all (fun w => (s.wave w).exited) then
      let s := s.escalateEngines u
      let s := s.modUnit u (fun x => { x with ended := true })
      let s := if x.child.isNone then s.launchDown x.launch else s
      s.releaseGroup u
    else s

/-- WAITERS, bits [31:16] of the last word, changed by k (14 R368). -/
def waitersNew (o k : Nat) : Nat := o % 2 ^ 112 + 2 ^ 112 * ((o / 2 ^ 112 + k) % 2 ^ 16)

/-- WAITERS of a barrier changed by the waiting lanes' instruction, in one atomic step (14 R368). -/
def State.abarWaiters (s : State) (loc k : Nat) : State := (s.deviceAtomic loc 16 (fun o => waitersNew o k)).2

/-- Lanes that end in ABAR.WAIT leave it: a barrier no longer counts an instruction in which no lane is left (04 R117; 14 R368). -/
def State.leaveBarriers (s : State) (w : Nat) (g : Mask) : State :=
  let v := s.wave w
  let at_ := fun (m : Mask) => ((lanesOf (v.live &&& m)).filterMap (fun l => match (v.lane l).wait with
    | some (.abar _ loc p) => some (loc, p, (v.lane l).pc)
    | _ => none)).eraseDups
  ((at_ g).filter (fun b => !(at_ (~~~g)).contains b)).foldl (fun s b => s.abarWaiters b.1 (2 ^ 16 - 1)) s

/-- Lanes exit (13 R307): they leave L and what they wait at, their queues still drain (03 R81), and a wave left without live lanes has
exited. -/
def State.exitLanes (s : State) (w : Nat) (g : Mask) (pc : DWord) (e : Ending) : State :=
  let s := (s.leaveBarriers w g).modWave w (fun v => { v with live := v.live &&& ~~~g }.modLanes g (fun y => { y with wait := none, clause := none, modBase := none }))
  if (s.wave w).live = 0 then s.waveExited w pc e else s

/-- The address of the word a wave stands at, lowest live lane first. -/
def Wave.pcNow (v : Wave) : DWord := (v.lane (lowestLane v.live)).pc

/-- A wave killed by its handler: all lanes exit with a full release (09 R223). -/
def State.killWave (s : State) (w : Nat) (code : Nat) : State :=
  let v := s.wave w
  let (_, s) := s.drainWave w
  s.exitLanes w v.live v.pcNow (.faulted code)

/-- How a handler ends (09 R223). -/
inductive HandlerEnd where
  | resume
  | kill
  | escal (code : Nat)
deriving DecidableEq, Repr

/-- A handler's ending: its own wave is gone, the Newel slot is free, the handled wave goes on or ends (09 R223). A fault of the handler
itself ends the pair with the handler's own code. -/
def State.endHandler (s : State) (hw : Nat) (e : HandlerEnd) : State :=
  let h := s.wave hw
  match h.handles with
  | none => s
  | some w =>
    let s := ((s.dropPark hw).dropReservation hw).leaveBarriers hw 0xFFFFFFFF
    let s := s.modWave hw (fun h => { h with live := 0, exited := true, handles := none, steps := [] })
    let s := s.modCore h.core (fun c => { c with newel := if c.newel = some hw then none else c.newel })
    let code := ((s.wave w).trap.map (·.code)).getD 0
    let s := s.modWave w (fun v => { v with trapState := .running, trap := none, handler := none })
    match e with
    | .resume => s
    | .kill => s.killWave w code
    | .escal c =>
      let n := (s.unit (s.wave w).unit).launch
      let core := (s.wave w).core
      let s := s.killWave w c
      s.escalate n c core 0xFF 0

/-- TAKING A PRECISE OR IMPRECISE FAULT (09 R218-R220, R223): a wave becomes trapped with its record; a fault in a handler ends the pair. -/
def State.takeFault (s : State) (w : Nat) (t : TrapRec) : State :=
  if (s.wave w).handles.isSome then s.endHandler w (.escal t.code) else s.stopWave w t

end Sys2Proof.Machine
end

