-- ==== Sys2Proof/Machine/Ops.lean ====
section
/-! DEFINITION. Registers of a wave by name, and the frame every native instruction shares: its checks in the order of
06 R168, its lane sets (13 R296), what happens to its lanes, and taking a precise fault or an XLATE park
(TAKING AN EXCEPTION is `State.takeFault`, the return from one `State.endHandler`, both in Life; 09 R218-R223; 01 R32). -/
namespace Sys2Proof.Machine

/-- The N32 tag, which every varying register holds at wave start (06 R167; 05 R126). -/
def tagN32 : Nat := 11
/-- The N64 tag (05 R126). -/
def tagN64 : Nat := 13

/-- A uniform register. -/
def Wave.rs (v : Wave) (n : Nat) : Word := tget 0 v.s n
/-- A uniform pair (00 R11). -/
def Wave.rs2 (v : Wave) (n : Nat) : DWord := pairOf (v.rs n) (v.rs (n + 1))
/-- An affine register. -/
def Wave.ra (v : Wave) (n : Nat) : Affine := tget Affine.zero v.a n
/-- One lane of a varying register. -/
def Wave.rv (v : Wave) (n l : Nat) : Word := tget 0 v.v (n * 32 + l)
/-- The tag of a varying register. -/
def Wave.rtag (v : Wave) (n : Nat) : Nat := tget tagN32 v.vtag n
/-- A capability register: the quad it aliases (01 R35). -/
def Wave.rk (v : Wave) (n : Nat) : CapBits := v.rs2 (4 * n + 2) ++ v.rs2 (4 * n)
/-- The tag of a capability register. -/
def Wave.rktag (v : Wave) (n : Nat) : Bool := tget false v.ktag n
/-- A mask register; m0 reads as the issuing group (06 R162). -/
def Wave.rm (v : Wave) (g : Mask) (n : Nat) : Mask := if n = 0 then g else tget 0 v.masks n
/-- A loop counter. -/
def Wave.rlc (v : Wave) (n : Nat) : Word := tget 0 v.lc n

/-- A uniform register written by other than a capability write: its quad's tag clears (01 R36). -/
def Wave.ws (v : Wave) (n : Nat) (x : Word) : Wave :=
  { v with s := tset 0 v.s n x, ktag := tset false v.ktag (n / 4) false }
/-- A uniform pair written. -/
def Wave.ws2 (v : Wave) (n : Nat) (x : DWord) : Wave := (v.ws n (loWord x)).ws (n + 1) (hiWord x)
/-- An affine register written. -/
def Wave.wa (v : Wave) (n : Nat) (x : Affine) : Wave := { v with a := tset Affine.zero v.a n x }
/-- One lane of a varying register written. -/
def Wave.wv (v : Wave) (n l : Nat) (x : Word) : Wave := { v with v := tset 0 v.v (n * 32 + l) x }
/-- A varying register's tag written (05 R134). -/
def Wave.wtag (v : Wave) (n t : Nat) : Wave := { v with vtag := tset tagN32 v.vtag n t }
/-- A capability write: the quad, and its tag as given (01 R36). -/
def Wave.wk (v : Wave) (n : Nat) (x : CapBits) (tag : Bool) : Wave :=
  let v := (v.ws2 (4 * n) (x.extractLsb' 0 64)).ws2 (4 * n + 2) (x.extractLsb' 64 64)
  { v with ktag := tset false v.ktag n tag }
/-- A mask register written in some lanes; the other bits keep their values (06 R162). -/
def Wave.wm (v : Wave) (n : Nat) (e x : Mask) : Wave :=
  { v with masks := tset 0 v.masks n ((tget 0 v.masks n &&& ~~~e) ||| (x &&& e)) }
/-- A loop counter written. -/
def Wave.wlc (v : Wave) (n : Nat) (x : Word) : Wave := { v with lc := tset 0 v.lc n x }

/-- value64 of an affine register (06 R156). -/
def Affine.value64 (a : Affine) (l : Nat) : DWord := a.base + sext64 a.stride * BitVec.ofNat 64 l
/-- value32 of an affine register (06 R156). -/
def Affine.value32 (a : Affine) (l : Nat) : Word := loWord (a.value64 l)

/-- The special sources other than %lane (06 R159); a handler's read as those of the handled wave (09 R220). -/
def State.special (s : State) (v : Wave) (code : Nat) : Word :=
  let u := s.unit v.unit
  let n := s.launch u.launch
  match code with
  | 0x51 => BitVec.ofNat 32 v.idx
  | 0x52 => BitVec.ofNat 32 u.x
  | 0x53 => BitVec.ofNat 32 u.y
  | 0x54 => BitVec.ofNat 32 u.z
  | 0x55 => BitVec.ofNat 32 (v.core % 4)
  | 0x56 => BitVec.ofNat 32 (v.core / 4 % 64)
  | 0x57 => BitVec.ofNat 32 (v.core / 256)
  | 0x58 => BitVec.ofNat 32 u.depth
  | 0x59 => BitVec.ofNat 32 n.lid
  | 0x5A => n.sh0
  | 0x5B => n.sh1
  | 0x5C => n.sh2
  | _ => 0

/-- The word that executes: its cursor, its wave as it stood, and the lane sets G, E and L (13 R296). -/
structure Iss where
  cur : Cursor
  w : Nat
  wave : Wave
  g : Mask
  e : Mask
  live : Mask

/-- What an instruction comes to. -/
inductive Res where
  /-- it takes effect, and the lanes of G go on to the next word -/
  | done (s : State)
  /-- it takes effect and has placed its lanes itself -/
  | moved (s : State)
  /-- some of its lanes have taken their steps; the others take theirs later (03 R82) -/
  | midway (s : State)
  /-- it is held before it issues (06 R151) -/
  | held (h : Hold) (s : State)
  /-- a precise fault (09 R218), with its lane, access kind and address -/
  | fault (code lane acc : Nat) (ea : DWord) (s : State)
  /-- an XLATE (01 R32) -/
  | park (lane acc reason level : Nat) (ea : DWord) (s : State)

/-- The fields and rules common to native words: predicate, flag select, registers named (with how many registers from
the first), and whether the word writes for the wave (06 R161). -/
structure Head where
  pn : Bool
  pm : Nat
  fs : Nat
  regs : List (Opnd × Nat)
  uni : Bool
  /-- 1: ILLOP when a handler issues it (09 R220); 2: ILLOP when any other wave issues it (15 R396) -/
  handler : Nat

/-- The lowest faulting lane of a check that the whole group fails. -/
def Iss.lane0 (x : Iss) : Nat := lowestLane x.g

/-- A fault that every lane of the group takes and no address belongs to. -/
def Iss.fail (x : Iss) (code : Code) (s : State) : Res := .fault code x.lane0 0xF 0 s

/-- The lanes a predicate enables in a group (12 R281). -/
def enabledLanes (v : Wave) (g : Mask) (pn : Bool) (pm : Nat) : Mask :=
  if pm = 0 then g else if pn then g &&& ~~~(v.rm g pm) else g &&& v.rm g pm

/-- A register name within the declared counts and aligned (06 R164). -/
def regOk (f : Foot) (vn : Nat) : Opnd × Nat → Bool
  | (.s n, k) => n + k ≤ f.sregs && (k = 1 || n % 2 = 0)
  | (.v n, k) => n + k ≤ max f.vregs vn && (k = 1 || n % 2 = 0)
  | (.a n, _) => n < f.aregs
  | (.k n, _) => 4 * n + 4 ≤ f.sregs
  | _ => true

/-- The flag that a word's flag select names in its clause: 15 is none (12 R271, R273). -/
def flagOf (c : Cursor) (fs : Nat) : Nat :=
  match c.clause with
  | some (_, h) => if fs = 1 then bits h.toNat 43 40 else if fs = 2 then bits h.toNat 39 36 else 15
  | none => 15

/-- Whether a word writes for the whole wave and may not (06 R161). -/
def Iss.diverges (x : Iss) : Bool := x.g != x.live || !(x.e = 0 || x.e = x.live)

/-- CALL must be the last word of its clause (13 R302). -/
def callMisplaced (c : Cursor) : Instr → Bool
  | .call _ _ _ _ => c.clause.isSome && !c.lastInClause
  | _ => false

/-- Checks 1 to 4 of 06 R168, made once for an instruction whose lanes take their steps apart. -/
def State.issueFault (s : State) (x : Iss) (i : Instr) (h : Head) : Option Code :=
  let isHandler := x.wave.handles.isSome
  if (x.wave.stepsOf x.g).isSome then none
  else if i.illegal = some .illop || (h.fs != 0 && flagOf x.cur h.fs = 15) || (h.handler = 1 && isHandler) || (h.handler = 2 && !isHandler) ||
      callMisplaced x.cur i then
    some Code.illop
  else if i.illegal.isSome then some Code.illclass
  else if !h.regs.all (regOk (s.footOf x.w) x.cur.vvirt) then some Code.regidx
  else if h.uni && x.diverges then some Code.udiverge
  else none

/-- Lanes that have come to a header by fall-through wait there if it ends the innermost loop's body (13 R305). -/
def arriveWait (v : Wave) (next : DWord) : Option Wait :=
  match v.loops with
  | f :: _ => if f.after = next then some .loopEnd else none
  | [] => none

/-- Lanes go on at the next word (12 R272; 13 R305). -/
def State.advance (s : State) (c : Cursor) (g : Mask) : State :=
  s.modWave c.wave (fun v => v.modLanes (g &&& v.live) (fun l =>
    { l with pc := c.next, clause := if c.lastInClause then none else c.clause, modBase := c.modBase, enter := false,
             wait := arriveWait v c.next }))

/-- A word issues: its flag is set (12 R273), and GAP counts from it (12 R271). A word whose lanes step apart has issued with the first. -/
def State.flagged (s : State) (x : Iss) (fs : Nat) : State :=
  let now := (s.core x.wave.core).cycles
  let flag := if fs = 0 then 15 else flagOf x.cur fs
  if (x.wave.stepsOf x.g).isSome then s
  else s.modWave x.w (fun v => { v.modLanes x.g (fun l => { l with lastIssue := some now, flag }) with
    flags := if fs = 0 then v.flags else tset 0 v.flags flag 1 })

/-- A word has issued: it is counted (15 R395). -/
def State.issued (s : State) (x : Iss) (fs : Nat) : State :=
  (s.flagged x fs).modWave x.w (fun v => { v.modLanes x.g (fun l => { l with again := false, pass := false }) with wwords := v.wwords + 1 })

/-- Whether some lanes of a group wait within their word, which has not retired then (06 R151; 07 R183). -/
def Wave.midWord (v : Wave) (g : Mask) : Bool := (lanesOf g).any (fun l => (v.lane l).wait.any (· != .loopEnd))

/-- A pending child has begun with the first word that retires (07 R183). -/
def State.retired (s : State) (x : Iss) : State := if (s.wave x.w).midWord x.g then s else s.beginChild x.w

/-- The trap record of a fault at the executing word (09 R220). -/
def Iss.record (x : Iss) (code cls lane acc : Nat) (ea : DWord) : TrapRec :=
  { code, cls, lane, access := acc, pc := x.cur.pc, nextpc := x.cur.next, ea, group := x.g }

/-- An XLATE of a wave (01 R32; 09 R226): parked with a record, or the precise XLATE at once where no queue is placed. -/
def State.parkWave (s : State) (x : Iss) (lane acc reason level : Nat) (ea : DWord) : State :=
  let vf := s.vfOf x.w
  if (s.ctx vf).mgmt.fqsize = 0 then s.takeFault x.w (x.record Code.xlate 2 lane acc ea)
  else
    let s := s.beginChild x.w
    let v := s.wave x.w
    let s := s.setWave x.w { v with park := some { seq := none, lane, access := acc, reason, level, ea, pc := x.cur.pc, group := x.g } }
    s.postFault vf {
      kind := 1, code := Code.xlate, reason := reason + 4 * level, access := acc, core := v.core, slot := v.slot, lane
      lid := (s.launchOf x.w).lid, addr := ea, pc := x.cur.pc, subject := .wave x.w }

/-- Whether a wave can still stop at a word: a wave that the first of two groups stopped reports that one (09 R218, R234). A handler whose
fault would end it first lets its other groups' words take their full effect; the word issues again. -/
def Wave.stoppable (v : Wave) : Bool := !v.exited && v.trapState = .running && (v.handles.isNone || v.steps.isEmpty)

/-- A replayed word has walked afresh (01 R33). -/
def State.walked (s : State) (x : Iss) : State := s.modWave x.w (fun v => { v with replay := v.replay &&& ~~~x.g })

/-- What an instruction comes to, done to the state. -/
def State.settle (x : Iss) (fs : Nat) : Res → State
  | .done s => (((s.walked x).issued x fs).beginChild x.w).advance x.cur x.g
  | .moved s => ((s.walked x).issued x fs).retired x
  | .midway s => (s.flagged x fs).modWave x.w (fun v => v.modLanes x.g (fun l => { l with wait := some .steps }))
  | .held h s => s.modWave x.w (fun v => v.modLanes x.g (fun l =>
      { l with wait := some (.hold h), after := x.cur.next, leaves := x.cur.lastInClause, again := true }))
  | .fault code lane acc ea s => if (s.wave x.w).stoppable then s.takeFault x.w (x.record code 1 lane acc ea) else s
  | .park lane acc reason level ea s =>
    if (s.wave x.w).stoppable && (s.wave x.w).park.isNone then s.parkWave x lane acc reason level ea else s

/-- The live lanes of a wave; those of the opportunity, where a second group issues in it (06 R152, R161). -/
def State.liveAt (s : State) (w : Nat) : Mask := ((s.opp.filter (fun o => o.wave = w)).map (·.live)).getD (s.wave w).live

/-- The word that executes in a state, with its lane sets. -/
def State.issOf (s : State) (c : Cursor) (pn : Bool) (pm : Nat) : Iss :=
  let v := s.wave c.wave
  { cur := c, w := c.wave, wave := v, g := c.group, e := enabledLanes v c.group pn pm, live := s.liveAt c.wave }

/-- A native instruction: the checks of 06 R168 that precede its own, then its effect. -/
def State.perform (s : State) (i : Instr) (h : Head) (body : Iss → State → Res) : Host.Outcome State Fault Refusal :=
  match s.cur with
  | none => .refused .noIssuer
  | some c =>
    let x := s.issOf c h.pn h.pm
    match s.issueFault x i h with
    | some code => .next (State.settle x h.fs (x.fail code s))
    | none => .next (State.settle x h.fs (body x s))

/-- The head of a full-form word. -/
def headF (w : Full) (regs : List (Opnd × Nat)) (uni : Bool) : Head :=
  { pn := w.pn, pm := w.pm, fs := w.fs, regs, uni, handler := 0 }

/-- The same for an instruction that a handler may not issue (09 R220). -/
def Head.notHandler (h : Head) : Head := { h with handler := 1 }
/-- The same for an instruction that only a handler may issue (15 R396). -/
def Head.handlerOnly (h : Head) : Head := { h with handler := 2 }

/-- The head of a B-form word, which has neither predicate nor flag select (12 R282). -/
def Head.plain (regs : List (Opnd × Nat)) (uni : Bool) : Head :=
  { pn := false, pm := 0, fs := 0, regs, uni, handler := 0 }

/-- A destination that speaks for the wave (06 R161). -/
def perWave : Opnd → Bool
  | .s _ => true
  | .a _ => true
  | .k _ => true
  | _ => false

/-- Whether an operand is a varying register. -/
def isVarying : Opnd → Bool
  | .v _ => true
  | _ => false

/-- The class-01 check of an event's own occasion: an event whose rule does not hold is no step. -/
def guardEvent (row : String) (ok : Bool) (s : State) : Host.Outcome State Fault Refusal :=
  if ok then .next s else .refused (.notEnabled row)

/-- Where control goes when lanes transfer (13 R298, R305): each lane in `targets`; the others of G go on.
A target outside the innermost active loop's body faults ILLOP. -/
def State.transfer (s : State) (x : Iss) (targets : List (Nat × DWord)) : Res :=
  let bad := match (s.wave x.w).loops with
    | f :: _ => targets.filter (fun (t : Nat × DWord) => t.2 < f.first || f.after ≤ t.2)
    | [] => []
  match bad with
  | t :: _ => .fault Code.illop t.1 0xF 0 s
  | [] =>
    let s := s.advance x.cur x.g
    let inModule := x.cur.modBase.isSome
    .moved (s.modWave x.w (fun v => targets.foldl (fun (v : Wave) (t : Nat × DWord) => v.modLane t.1 (fun l =>
      { l with pc := t.2, clause := none, modBase := x.cur.modBase, enter := inModule, wait := none })) v))

/-- Lanes leave a loop's body together, or skip it, for the header after it (13 R304-R306). -/
def Wave.leaveTo (v : Wave) (g : Mask) (pc : DWord) (modBase : Option DWord) : Wave :=
  v.modLanes g (fun l => { l with pc, clause := none, modBase, enter := false, wait := arriveWait v pc })

/-- How many accesses of an instruction miss the core's TLB. No lane translates where a check that comes before translation faults
(01 R41; 15 R395). -/
def State.misses (s : State) (x : Iss) (reqs : List Req) : Nat :=
  let v := x.wave
  if reqs.any (fun r => (s.plainFault v.unit v.sb r).isSome) then 0
  else (reqs.filter (fun r => translated (pathOf r.ea) && !(s.core v.core).tlb.any (fun t => t.covers (s.unit v.unit).vf (restOf r.ea)))).length

/-- The outcome of the address checks of an instruction, handed on: places, or the fault, park or hold they end in. -/
def State.access (s : State) (x : Iss) (reqs : List Req) (k : List Place → State → Res) : Res :=
  let v := x.wave
  let missed := s.misses x reqs
  let s := s.modWave x.w (fun v => { v with wtlb := v.wtlb + missed })
  let (r, s) := s.checkAccess v.core (s.unit v.unit).vf v.unit v.sb reqs (v.replay &&& x.g != 0)
  match r with
  | .ok ps => k ps s
  | .fault code lane ea => .fault code lane (((reqs.find? (fun r => r.lane = lane)).map (·.kind)).getD 0xF) ea s
  | .xlate lane ea kind reason level => .park lane kind reason level ea s
  | .waitMember c => .held (.member c) s

/-- Accesses that reach another package or the host are held, a blocking point, until they return, or fault REMOTE (03 R103; 06 R169; 09 R227; log 26). -/
def State.reach (s : State) (x : Iss) (ps : List Place) (kind : AccKind) (k : State → Res) : Res :=
  if ps.any (fun p => isRemote p.loc) then
    if x.g &&& (s.wave x.w).remoteBad != 0 then
      match (ps.find? (fun p => s.cutOff p.loc)).orElse (fun _ => ps.find? (fun p => isRemote p.loc)) with
      | some p => .fault Code.remote p.lane kind p.ea (s.modWave x.w (fun v => { v with remoteBad := v.remoteBad &&& ~~~x.g }))
      | none => k s
    else if x.g &&& ~~~(s.wave x.w).remoteOk != 0 then .held (.remote ((ps.map (·.loc)).filter isRemote)) s
    else k (s.modWave x.w (fun v => { v with remoteOk := v.remoteOk &&& ~~~x.g }))
  else k s

/-- A lane whose place in memory delivers poison that faults, lowest first, for accesses of n bytes (09 R228). -/
def State.poisonLane (s : State) (ps : List Place) (n : Nat) : Option Place :=
  ps.find? (fun p => !p.tolerant && (List.range n).any (fun i => s.poisoned (p.loc + i)))

/-- The bytes that a tolerant page gives for locations: zeros where the sector is poisoned (01 R29). -/
def State.maskPoison (s : State) (loc : Nat) (bs : List Byte) : List Byte :=
  ((List.range bs.length).zip bs).map (fun p => if s.poisoned (loc + p.1) then 0 else p.2)

/-- A load or atomic that consumes data: held while it is remote, POISON where poison faults, else its effect, with POIS of
%wstat set where a tolerant page gave zeros (01 R29; 03 R103; 09 R228). -/
def State.consume (s : State) (x : Iss) (ps : List Place) (n : Nat) (kind : AccKind) (k : State → Res) : Res :=
  s.reach x ps kind (fun s =>
    match s.poisonLane ps n with
    | some q => .fault Code.poison q.lane kind q.ea s
    | none => k (if ps.any (fun p => (List.range n).any (fun i => s.poisoned (p.loc + i))) then
        s.modWave x.w (fun v => { v with wstat := v.wstat ||| 2 }) else s))

/-- A list in an order that the device chooses. -/
def State.shuffle {α : Type} : Nat → List α → State → List α × State
  | 0, l, s => (l, s)
  | n + 1, l, s =>
    let (i, s) := s.pick l.length
    match l[i]? with
    | none => (l, s)
    | some a =>
      let (r, s) := State.shuffle n (l.eraseIdx i) s
      (a :: r, s)

/-- The steps of an instruction's lanes, in an order of the device's choosing: some of them now, and where lanes are left their steps
come later, after steps of other agents (03 R82). `one` is a lane's step at its location; `fin` what follows the last. -/
def State.laneSteps (s : State) (x : Iss) (i : Instr) (ls : List (Nat × Nat)) (vals : List (Nat × Nat))
    (one : Nat → Nat → State → Nat × State) (fin : List (Nat × Nat) → State → Res) : Res :=
  let (ls, s) := State.shuffle ls.length ls s
  let (k, s) := s.pick ls.length
  let r := (ls.take (k + 1)).foldl (fun (acc : List (Nat × Nat) × State) p =>
    let (o, s) := one p.1 p.2 acc.2
    (acc.1 ++ [(p.1, o)], s)) (vals, s)
  match ls.drop (k + 1) with
  | [] => fin r.1 (r.2.modWave x.w (fun v => v.setSteps x.g none))
  | left => .midway (r.2.modWave x.w (fun v => v.setSteps x.g (some { cur := x.cur, instr := i, left, vals := r.1 })))

/-- An instruction whose lanes step at the places of its accesses: its checks with its first lanes' steps, no checks with the later ones'. -/
def State.steppedAccess (s : State) (x : Iss) (i : Instr) (reqs : List Req) (size : Nat) (kind : AccKind)
    (one : Nat → Nat → State → Nat × State) (fin : List (Nat × Nat) → State → Res) : Res :=
  match x.wave.stepsOf x.g with
  | some t => s.laneSteps x i t.left t.vals one fin
  | none => s.access x reqs (fun ps s => s.consume x ps size kind (fun s =>
      s.laneSteps x i (ps.map (fun p => (p.lane, p.loc))) [] one fin))

end Sys2Proof.Machine
end

