-- ==== Sys2Proof/Machine/Formats.lean ====
section
/-! DEFINITION. The 32 number formats: decoding, encoding, rounding, and exact arithmetic with one rounding (05 R126-R139;
14 R338-R350). -/
namespace Sys2Proof

/-- An exact value: NaN, an infinity, or (-1)^s * m * 2^e. -/
inductive Num where
  | nan
  | inf (s : Bool)
  | fin (s : Bool) (m : Nat) (e : Int)
deriving DecidableEq, Repr

/-- A floating-point layout (05 R127). `special` is 0 where every pattern is finite, 1 where only all ones is NaN, 2 for IEEE patterns. -/
structure FloatFmt where
  ebits : Nat
  mbits : Nat
  bias : Nat
  special : Nat
deriving DecidableEq, Repr

/-- The floating-point tags (05 R127). -/
def floatFmt? : Nat → Option FloatFmt
  | 16 => some ⟨2, 1, 1, 0⟩
  | 17 => some ⟨3, 2, 3, 0⟩
  | 18 => some ⟨2, 3, 1, 0⟩
  | 19 => some ⟨4, 3, 7, 1⟩
  | 20 => some ⟨5, 2, 15, 2⟩
  | 28 => some ⟨3, 4, 3, 1⟩
  | 29 => some ⟨5, 6, 15, 2⟩
  | 21 => some ⟨5, 10, 15, 2⟩
  | 22 => some ⟨8, 7, 127, 2⟩
  | 30 => some ⟨8, 10, 127, 2⟩
  | 23 => some ⟨8, 23, 127, 2⟩
  | 24 => some ⟨11, 52, 1023, 2⟩
  | _ => none

/-- The width of an element in bits (05 R126, R127); 0 for ZB blocks. -/
def fmtBits : Nat → Nat
  | 0 => 1 | 1 => 1 | 2 => 2 | 3 => 2 | 31 => 2 | 4 => 4 | 5 => 4 | 6 => 8 | 7 => 8 | 8 => 16 | 9 => 16 | 10 => 32 | 11 => 32
  | 12 => 64 | 13 => 64 | 14 => 16 | 15 => 32 | 16 => 4 | 17 => 6 | 18 => 6 | 19 => 8 | 20 => 8 | 28 => 8 | 29 => 12 | 21 => 16
  | 22 => 16 | 30 => 19 | 23 => 32 | 24 => 64 | _ => 0

/-- A 64-bit format, which occupies a register pair (05 R132). -/
def wide (t : Nat) : Bool := t = 12 || t = 13 || t = 24
/-- A ZB block format (05 R129). -/
def isZB (t : Nat) : Bool := t = 25 || t = 26 || t = 27
/-- An integer or fixed-point format (05 R126). -/
def isIntFmt (t : Nat) : Bool := t ≤ 15 || t = 31
/-- A format whose integers are unsigned (05 R126). -/
def isUnsignedFmt (t : Nat) : Bool := t = 1 || t = 31 || t = 5 || t = 7 || t = 9 || t = 11 || t = 13
/-- The integer arithmetic group (05 R132). -/
def intGroup (t : Nat) : Bool := 6 ≤ t && t ≤ 15
/-- The floating arithmetic group (05 R132). -/
def floatGroup (t : Nat) : Bool := 21 ≤ t && t ≤ 24
/-- The conversion-only group (05 R132). -/
def convGroup (t : Nat) : Bool := t = 19 || t = 20 || t = 28
/-- The 32- and 64-bit integer types (13 R317). -/
def wordInts (t : Nat) : Bool := 10 ≤ t && t ≤ 13

/-- Elements of a format per lane word or pair (05 R132; log 13 for the opaque formats). -/
def fmtElems (t : Nat) : Nat :=
  let w := fmtBits t
  if w = 1 || w = 2 || w = 4 || w = 8 || w = 16 then 32 / w else 1
/-- The width of an element's place in a lane word or pair. -/
def elemBits (t : Nat) : Nat := if wide t then 64 else 32 / fmtElems t

/-- The step of a fixed-point format, as an exponent (05 R126). -/
def fixedExp (t : Nat) : Int := if t = 14 then -15 else if t = 15 then -31 else 0

/-- The exact value of an element's bits (05 R126, R127). -/
def decodeElem (t x : Nat) : Num :=
  match floatFmt? t with
  | some f =>
    let s := x / 2 ^ (f.ebits + f.mbits) % 2 = 1
    let e := x / 2 ^ f.mbits % 2 ^ f.ebits
    let m := x % 2 ^ f.mbits
    if f.special = 2 && e = 2 ^ f.ebits - 1 then (if m = 0 then .inf s else .nan)
    else if f.special = 1 && e = 2 ^ f.ebits - 1 && m = 2 ^ f.mbits - 1 then .nan
    else if e = 0 then .fin s m (1 - (f.bias : Int) - f.mbits)
    else .fin s (2 ^ f.mbits + m) ((e : Int) - f.bias - f.mbits)
  | none =>
    let w := fmtBits t
    if t = 0 then .fin (x % 2 = 1) 1 0
    else if t = 2 && x % 4 = 2 then .fin false 0 0
    else if isUnsignedFmt t then .fin false (x % 2 ^ w) 0
    else
      let i := sextNat x w
      .fin (i < 0) i.natAbs (fixedExp t)

/-- m / 2^sh rounded to an integer by a mode of 05 R135. -/
def roundShift (rm : Nat) (neg : Bool) (m sh : Nat) : Nat :=
  let q := m / 2 ^ sh
  let r := m % 2 ^ sh
  if r = 0 then q
  else match rm with
    | 1 => q
    | 2 => if neg then q else q + 1
    | 3 => if neg then q + 1 else q
    | 4 => if 2 ^ sh ≤ 2 * r then q + 1 else q
    | _ => if 2 ^ sh < 2 * r || (2 ^ sh = 2 * r && q % 2 = 1) then q + 1 else q

/-- The exponent of a positive value's leading bit. -/
def lead (m : Nat) (e : Int) : Int := (log2 m : Int) + e

/-- m * 2^e, positive, rounded to an integer multiple of 2^q: the multiple. A value far below one step is judged as a quarter step. -/
def roundAt (rm : Nat) (neg : Bool) (m : Nat) (e q : Int) : Nat :=
  if m = 0 then 0
  else if q ≤ e then m * 2 ^ (e - q).toNat
  else if lead m e < q - 2 then roundShift rm neg 1 2
  else roundShift rm neg m (q - e).toNat

/-- The largest finite pattern of a format, without its sign. -/
def FloatFmt.maxBits (f : FloatFmt) : Nat :=
  if f.special = 0 then 2 ^ (f.ebits + f.mbits) - 1
  else if f.special = 1 then 2 ^ (f.ebits + f.mbits) - 2
  else (2 ^ f.ebits - 1) * 2 ^ f.mbits - 1

/-- The pattern of +infinity. -/
def FloatFmt.infBits (f : FloatFmt) : Nat := (2 ^ f.ebits - 1) * 2 ^ f.mbits

/-- The canonical NaN (05 R128); +0 for a format without one (05 R137). -/
def FloatFmt.nanBits (f : FloatFmt) : Nat :=
  if f.special = 2 then f.infBits + 2 ^ (f.mbits - 1) else if f.special = 1 then 2 ^ (f.ebits + f.mbits) - 1 else 0

/-- The sign bit's weight. -/
def FloatFmt.signBit (f : FloatFmt) : Nat := 2 ^ (f.ebits + f.mbits)

/-- A finite value beyond the largest, or an infinity (05 R137): pattern without sign, and SAT. -/
def FloatFmt.over (f : FloatFmt) (rm : Nat) (neg isInf : Bool) : Nat × Bool :=
  if f.special != 2 then (f.maxBits, true)
  else if isInf then (f.infBits, false)
  else if rm = 1 || (rm = 2 && neg) || (rm = 3 && !neg) then (f.maxBits, false)
  else (f.infBits, false)

/-- A value rounded once into a floating-point format (05 R137): bits and SAT. -/
def FloatFmt.encode (f : FloatFmt) (rm : Nat) : Num → Nat × Bool
  | .nan => (f.nanBits, f.special = 0)
  | .inf s =>
    let (b, sat) := f.over rm s true
    ((if s then f.signBit else 0) + b, sat)
  | .fin s m e =>
    let sg := if s then f.signBit else 0
    if m = 0 then (sg, false)
    else
      let l := lead m e
      let emin := 1 - (f.bias : Int)
      if (2 ^ f.ebits : Nat) ≤ l then
        let (b, sat) := f.over rm s false
        (sg + b, sat)
      else
        let top := if l < emin then emin else l
        let n := roundAt rm s m e (top - f.mbits)
        let b := (top - emin).toNat * 2 ^ f.mbits + n
        if f.maxBits < b then
          let (b, sat) := f.over rm s false
          (sg + b, sat)
        else (sg + b, false)

/-- The range of an integer or fixed-point format, in its own steps (05 R126). -/
def intRange (t : Nat) : Int × Int :=
  let w := fmtBits t
  if t = 2 then (-1, 1)
  else if isUnsignedFmt t then (0, (2 ^ w : Nat) - 1)
  else (-(2 ^ (w - 1) : Nat), (2 ^ (w - 1) : Nat) - 1)

/-- A value as an integer of the format's steps, rounded by the mode. -/
def toSteps (rm : Nat) (s : Bool) (m : Nat) (e q : Int) : Int :=
  let n : Int := if 200 < lead m e - q && m != 0 then (2 ^ 200 : Nat) else (roundAt rm s m e q : Nat)
  if s then -n else n

/-- A value encoded into any format but ZB (05 R137, R139): bits, SAT of a floating-point destination, saturation of an integer one. -/
def encodeElem (t rm : Nat) (x : Num) : Nat × Bool × Bool :=
  match floatFmt? t with
  | some f =>
    let (b, sat) := f.encode rm x
    (b, sat, false)
  | none =>
    let w := fmtBits t
    let (lo, hi) := intRange t
    match x with
    | .nan => (0, false, true)
    | .inf s => (wrapNat (if s then lo else hi) w, false, true)
    | .fin s m e =>
      if t = 0 then ((if s then 1 else 0), false, false)
      else
        let n := toSteps rm s m e (fixedExp t)
        let c := clampInt n lo hi
        (wrapNat c w, false, c != n)

/-- A finite value as a signed count of 2^q, for q at or below its exponent. -/
def Num.steps (s : Bool) (m : Nat) (e q : Int) : Int :=
  let n : Int := (m * 2 ^ (e - q).toNat : Nat)
  if s then -n else n

/-- a + b exactly; the sign of an exact zero is 14 R340's. -/
def Num.add (rm : Nat) : Num → Num → Num
  | .nan, _ => .nan
  | _, .nan => .nan
  | .inf s, .inf t => if s = t then .inf s else .nan
  | .inf s, _ => .inf s
  | _, .inf t => .inf t
  | .fin s m e, .fin t n f =>
    if m = 0 && n = 0 then .fin (if s = t then s else decide (rm = 3)) 0 0
    else if m = 0 then .fin t n f
    else if n = 0 then .fin s m e
    else
      let q := if e < f then e else f
      let i := Num.steps s m e q + Num.steps t n f q
      if i = 0 then .fin (rm = 3) 0 0 else .fin (i < 0) i.natAbs q

/-- The value with its sign inverted. -/
def Num.neg : Num → Num
  | .nan => .nan
  | .inf s => .inf (!s)
  | .fin s m e => .fin (!s) m e

/-- a * b exactly (14 R340). -/
def Num.mul : Num → Num → Num
  | .nan, _ => .nan
  | _, .nan => .nan
  | .inf s, .inf t => .inf (s != t)
  | .inf s, .fin t n _ => if n = 0 then .nan else .inf (s != t)
  | .fin s m _, .inf t => if m = 0 then .nan else .inf (s != t)
  | .fin s m e, .fin t n f => .fin (s != t) (m * n) (e + f)

/-- a / b, with a sticky bit below a quotient of over a hundred bits (14 R340). -/
def Num.div : Num → Num → Num
  | .nan, _ => .nan
  | _, .nan => .nan
  | .inf _, .inf _ => .nan
  | .inf s, .fin t _ _ => .inf (s != t)
  | .fin s _ _, .inf t => .fin (s != t) 0 0
  | .fin s m e, .fin t n f =>
    if n = 0 then (if m = 0 then .nan else .inf (s != t))
    else if m = 0 then .fin (s != t) 0 0
    else
      let k := 140 + log2 n
      let q := m * 2 ^ k / n
      let r := m * 2 ^ k % n
      .fin (s != t) (2 * q + (if r = 0 then 0 else 1)) (e - f - k - 1)

/-- The integer square root, from the bits at and below the given one. -/
def isqrtGo (n : Nat) : Nat → Nat → Nat
  | 0, acc => acc
  | k + 1, acc => isqrtGo n k (if (acc + 2 ^ k) * (acc + 2 ^ k) ≤ n then acc + 2 ^ k else acc)

/-- The integer square root. -/
def isqrt (n : Nat) : Nat := isqrtGo n (log2 n / 2 + 1) 0

/-- The square root, with a sticky bit (14 R340). -/
def Num.sqrt : Num → Num
  | .nan => .nan
  | .inf s => if s then .nan else .inf false
  | .fin s m e =>
    if m = 0 then .fin s 0 0
    else if s then .nan
    else
      let odd := (e % 2).toNat
      let x := m * 2 ^ (280 + odd)
      let r := isqrt x
      .fin false (2 * r + (if r * r = x then 0 else 1)) ((e - odd - 280) / 2 - 1)

/-- Whether a value is less than another; NaN is not, and -0 equals +0. -/
def Num.lt : Num → Num → Bool
  | .nan, _ => false
  | _, .nan => false
  | .inf s, .inf t => s && !t
  | .inf s, _ => s
  | _, .inf t => !t
  | .fin s m e, .fin t n f =>
    let q := if e < f then e else f
    Num.steps s m e q < Num.steps t n f q

/-- Whether two values are equal; NaN is not, and -0 equals +0. -/
def Num.eq (a b : Num) : Bool := a != .nan && b != .nan && !a.lt b && !b.lt a

/-- Negative sign, zeros included. -/
def Num.isNeg : Num → Bool
  | .nan => false
  | .inf s => s
  | .fin s _ _ => s

/-- The order of FMIN and FMAX, -0 below +0 (14 R341). -/
def Num.below (a b : Num) : Bool := a.lt b || (a.eq b && a.isNeg && !b.isNeg)

/-- FMIN (14 R341). -/
def Num.min (a b : Num) : Num :=
  match a, b with
  | .nan, b => b
  | a, .nan => a
  | a, b => if b.below a then b else a

/-- FMAX (14 R341). -/
def Num.max (a b : Num) : Num :=
  match a, b with
  | .nan, b => b
  | a, .nan => a
  | a, b => if a.below b then b else a

/-- a scaled by 2^n (14 R350). -/
def Num.scale (n : Int) : Num → Num
  | .fin s m e => .fin s m (if m = 0 then e else e + n)
  | x => x

/-- The integral value a mode selects, its sign kept (14 R344). -/
def Num.integral (rm : Nat) : Num → Num
  | .fin s m e => if 0 ≤ e then .fin s m e else .fin s (roundAt rm s m e 0) 0
  | x => x

/-- The exact function RELU of EXPR (14 R349). -/
def Num.relu : Num → Num
  | .nan => .nan
  | .inf s => if s then .fin false 0 0 else .inf false
  | .fin s m e => if s then .fin false 0 0 else .fin false m e

/-- Absolute value. -/
def Num.abs : Num → Num
  | .nan => .nan
  | .inf _ => .inf false
  | .fin _ m e => .fin false m e

/-- An FP32 subnormal as the zero of its sign (05 R138). -/
def Num.flush (ftz : Bool) : Num → Num
  | .fin s m e => if ftz && m != 0 && lead m e < -126 then .fin s 0 0 else .fin s m e
  | x => x

/-- A floating-point element read, flushed under .FTZ. -/
def readF (t : Nat) (ftz : Bool) (x : Nat) : Num := (decodeElem t x).flush ftz

/-- A result rounded once into a floating arithmetic format, flushed after rounding under .FTZ (05 R137, R138). -/
def roundF (t rm : Nat) (ftz : Bool) (x : Num) : Nat :=
  let b := (encodeElem t rm x).1
  if ftz && b / 2 ^ 23 % 256 = 0 then b / 2 ^ 31 * 2 ^ 31 else b

/-- The class code of FCLASS (14 R347). -/
def classify (t x : Nat) : Nat :=
  match floatFmt? t with
  | none => 0
  | some f =>
    let s := x / f.signBit % 2 = 1
    let e := x / 2 ^ f.mbits % 2 ^ f.ebits
    let m := x % 2 ^ f.mbits
    if e = 2 ^ f.ebits - 1 then
      if m = 0 then (if s then 2 ^ 0 else 2 ^ 7) else if m / 2 ^ (f.mbits - 1) = 1 then 2 ^ 9 else 2 ^ 8
    else if e = 0 then
      if m = 0 then (if s then 2 ^ 3 else 2 ^ 4) else if s then 2 ^ 2 else 2 ^ 5
    else if s then 2 ^ 1 else 2 ^ 6

/-- Bytes and elements of a format's memory unit (05 R131). -/
def unitBytes (t : Nat) : Nat :=
  match fmtBits t with
  | 1 => 1 | 2 => 1 | 4 => 1 | 6 => 3 | 8 => 1 | 12 => 3 | 16 => 2 | 19 => 4 | 32 => 4 | 64 => 8
  | _ => if t = 25 then 8 else if t = 26 then 12 else 18
def unitElems (t : Nat) : Nat :=
  match fmtBits t with
  | 1 => 8 | 2 => 4 | 4 => 2 | 6 => 4 | 8 => 1 | 12 => 2 | 16 => 1 | 19 => 1 | 32 => 1 | 64 => 1
  | _ => 16

/-- The magnitude bits m of a ZB block (05 R129). -/
def zbBits (t : Nat) : Nat := if t = 25 then 2 else if t = 26 then 4 else 7

/-- A ZB block's elements (05 R129). -/
def decodeZB (t x : Nat) : List Num :=
  let m := zbBits t
  let e := bits x 7 0
  (List.range 16).map (fun i =>
    let z := if i < 8 then bits x 11 8 else bits x 15 12
    let p := 16 + i * (1 + m)
    if e = 255 then .nan
    else .fin (bits x (p + m) (p + m) = 1) (bits x (p + m - 1) p) ((e : Int) - 127 - z - (m - 1 : Nat)))

/-- floor(log2 |x|) + 127 of a nonzero value, none for zero; an infinity is larger than every finite value (05 R130). -/
def zbExp : Num → Option Int
  | .nan => none
  | .inf _ => some 100000
  | .fin _ m e => if m = 0 then none else some (lead m e + 127)

/-- The largest of some exponents. -/
def maxExp (l : List Num) : Option Int :=
  l.foldl (fun a x => match a, zbExp x with
    | none, b => b
    | some a, none => some a
    | some a, some b => some (if a < b then b else a)) none

/-- 16 values encoded into a ZB block (05 R130): the block and SAT. -/
def encodeZB (t : Nat) (xs : List Num) : Nat × Bool :=
  let m := zbBits t
  if xs.any (· == .nan) then (255, false)
  else
    let e := clampInt (match maxExp xs with | none => 0 | some a => if a < 0 then 0 else a) 0 254
    let zone := fun (l : List Num) => match maxExp l with
      | none => (15 : Int)
      | some ez => clampInt (e - ez) 0 15
    let z0 := zone (xs.take 8)
    let z1 := zone (xs.drop 8)
    let els := ((List.range 16).zip xs).map (fun p =>
      let z := if p.1 < 8 then z0 else z1
      let q := e - 127 - z - (m - 1 : Nat)
      match p.2 with
      | .inf s => (2 ^ m - 1, s, true)
      | .fin s a x =>
        let n := if 40 < lead a x - q && a != 0 then 2 ^ 40 else roundAt 0 s a x q
        if 2 ^ m - 1 < n then (2 ^ m - 1, s, true) else (n, s, false)
      | .nan => (0, false, false))
    let body := (els.foldr (fun x acc => x.1 + (if x.2.1 then 2 ^ m else 0) + 2 ^ (1 + m) * acc) 0)
    (e.toNat + 256 * z0.toNat + 4096 * z1.toNat + 65536 * body, els.any (fun x => x.2.2))

/-- The elements of one memory unit (05 R131). -/
def decodeUnit (t x : Nat) : List Num :=
  if isZB t then decodeZB t x
  else (List.range (unitElems t)).map (fun i => decodeElem t (elemOf x (fmtBits t) i))

/-- Values encoded into one memory unit with RNE, as the engines do: bits, and whether anything saturated (05 R135, R137). -/
def encodeUnit (t : Nat) (xs : List Num) : Nat × Bool :=
  if isZB t then encodeZB t xs
  else
    let es := xs.map (fun x => encodeElem t 0 x)
    (packElems (fmtBits t) (es.map (·.1)), es.any (fun e => e.2.1 || e.2.2))

/-- A conversion the machine supports at all (05 R139). -/
def convOk (src dst : Nat) : Bool :=
  !(dst = 0 && src != 0) && !(isZB src && isIntFmt dst) && !(isZB dst && isIntFmt src)

/-- A small immediate placed in every packed element of a type (05 R133). -/
def immBits (t : Nat) (v : Int) : Nat :=
  let w := elemBits t
  let e := match floatFmt? t with
    | some f => (f.encode 0 (.fin (v < 0) v.natAbs 0)).1
    | none => if isZB t then wrapNat v 32 else wrapNat v (fmtBits t)
  packElems w (List.replicate (if wide t then 1 else fmtElems t) e)

end Sys2Proof
end

