-- ==== Sys2Proof/Machine/Special.lean ====
section
/-! DEFINITION. The special-function group (14 R343): each function approximated in 640-bit fixed point, so that the one
rounding that follows delivers the correctly rounded value (log 20). An exact result is delivered exactly. -/
namespace Sys2Proof

/-- Fraction bits of the fixed-point numbers below. -/
def fixP : Nat := 640
/-- One, in fixed point. -/
def fixOne : Nat := 2 ^ fixP

/-- Sum of z^(2i+1)/(2i+1) from term z^(2i+1): the series of atanh. -/
def atanhGo (z2 : Nat) : Nat → Nat → Nat → Nat → Nat
  | 0, _, _, acc => acc
  | k + 1, i, term, acc => atanhGo z2 k (i + 2) (term * z2 / fixOne) (acc + term / i)

/-- atanh of z between 0 and 1/3. -/
def fixAtanh (z : Nat) : Nat := atanhGo (z * z / fixOne) 240 1 z 0

/-- ln 2 = 2 atanh(1/3). -/
def fixLn2 : Nat := 2 * fixAtanh (fixOne / 3)

/-- Alternating sum of 1/((2i+1) n^(2i+1)): the series of atan(1/n). -/
def atanGo (n2 : Nat) : Nat → Nat → Nat → Int → Int → Int
  | 0, _, _, _, acc => acc
  | k + 1, i, term, sg, acc => atanGo n2 k (i + 2) (term / n2) (-sg) (acc + sg * (term / i : Nat))

/-- atan(1/n). -/
def fixAtanInv (n : Nat) : Int := atanGo (n * n) 300 1 (fixOne / n) 1 0

/-- pi, by Machin's formula. -/
def fixPi : Nat := (16 * fixAtanInv 5 - 4 * fixAtanInv 239).toNat

/-- The exponential series from a term. -/
def expGo (y : Nat) : Nat → Nat → Nat → Nat → Nat
  | 0, _, _, acc => acc
  | k + 1, i, term, acc => expGo y k (i + 1) (term * y / fixOne / i) (acc + term)

/-- e^y for y between 0 and ln 2. -/
def fixExp (y : Nat) : Nat := expGo y 120 1 fixOne 0

/-- The sine series from a term. -/
def sinGo (t2 : Nat) : Nat → Nat → Nat → Int → Int → Int
  | 0, _, _, _, acc => acc
  | k + 1, i, term, sg, acc => sinGo t2 k (i + 2) (term * t2 / fixOne / ((i + 1) * (i + 2))) (-sg) (acc + sg * (term : Int))

/-- sin t for t between 0 and pi/2. -/
def fixSin (t : Nat) : Nat := (sinGo (t * t / fixOne) 80 1 t 1 0).toNat

/-- A fixed-point approximation of an irrational magnitude, times 2^k: its uncertain low bits become a sticky bit. -/
def fixNum (s : Bool) (x : Nat) (k : Int) : Num := .fin s (2 * (x / 2 ^ 40) + 1) (k - (fixP - 40 : Nat) - 1)

/-- A positive value smaller than every representable one. -/
def tinyNum : Num := .fin false 1 (-4000)
/-- The value just below one. -/
def belowOne (s : Bool) : Num := .fin s (2 ^ 300 - 1) (-300)

/-- e^-a for fixed-point a: in fixed point. -/
def fixExpNeg (a : Nat) : Nat :=
  let w := a * fixOne / fixLn2
  fixExp ((fixOne - w % fixOne) * fixLn2 / fixOne) / 2 ^ (w / fixOne + 1)

/-- 1/x (14 R343). -/
def Num.rcp (x : Num) : Num := (Num.fin false 1 0).div x

/-- 1/sqrt x (14 R343). -/
def Num.rsq : Num → Num
  | .nan => .nan
  | .inf s => if s then .nan else .fin false 0 0
  | .fin s m e =>
    if m = 0 then .inf s
    else if s then .nan
    else
      let odd := (e % 2).toNat
      let x := m * 2 ^ odd
      let r := isqrt (2 ^ 600 / x)
      .fin false (2 * r + (if r * r * x = 2 ^ 600 then 0 else 1)) (-((e - odd) / 2) - 300 - 1)

/-- 2^x (14 R343). -/
def Num.exp2 : Num → Num
  | .nan => .nan
  | .inf s => if s then .fin false 0 0 else .inf false
  | .fin s m e =>
    if m = 0 then .fin false 1 0
    else if 9 ≤ lead m e then (if s then tinyNum else .fin false 1 4000)
    else if 0 ≤ e then .fin false 1 (Num.steps s m e 0)
    else
      let k := (-e).toNat
      let n : Int := if s then -(m : Int) else m
      let i := n / (2 ^ k : Nat)
      let f := (n % (2 ^ k : Nat)).toNat
      if f = 0 then .fin false 1 i
      else fixNum false (fixExp (f * 2 ^ (fixP - k) * fixLn2 / fixOne)) i

/-- log2 x (14 R343). -/
def Num.log2 : Num → Num
  | .nan => .nan
  | .inf s => if s then .nan else .inf false
  | .fin s m e =>
    if m = 0 then .inf true
    else if s then .nan
    else
      let l := lead m e
      if m = 2 ^ Sys2Proof.log2 m then .fin (l < 0) l.natAbs 0
      else
        let f := m * 2 ^ (fixP - Sys2Proof.log2 m)
        let z := (f - fixOne) * fixOne / (f + fixOne)
        let t : Int := l * (fixOne : Nat) + (2 * fixAtanh z * fixOne / fixLn2 : Nat)
        fixNum (t < 0) t.natAbs 0

/-- sin(pi r / 2^k) for r below 2^(k+1), in magnitude and sign; `none` is an exact zero. -/
def sinTurn (r k : Nat) : Option Num :=
  let h := 2 ^ k
  let s := h ≤ r
  let r := if s then r - h else r
  let r := if h < 2 * r then h - r else r
  if r = 0 then none
  else if 2 * r = h then some (.fin s 1 0)
  else some (fixNum s (fixSin (fixPi * r / h)) 0)

/-- sin(pi x) (14 R343). -/
def Num.sinpi : Num → Num
  | .nan => .nan
  | .inf _ => .nan
  | .fin s m e =>
    if m = 0 || 0 ≤ e then .fin s 0 0
    else
      let k := (-e).toNat
      match sinTurn (m % 2 ^ (k + 1)) k with
      | none => .fin s 0 0
      | some x => if s then x.neg else x

/-- cos(pi x) (14 R343). -/
def Num.cospi : Num → Num
  | .nan => .nan
  | .inf _ => .nan
  | .fin _ m e =>
    if m = 0 || 0 < e then .fin false 1 0
    else if e = 0 then .fin (m % 2 = 1) 1 0
    else
      let k := (-e).toNat
      (sinTurn ((m + 2 ^ (k - 1)) % 2 ^ (k + 1)) k).getD (.fin false 0 0)

/-- tanh x (14 R343). -/
def Num.tanh : Num → Num
  | .nan => .nan
  | .inf s => .fin s 1 0
  | .fin s m e =>
    if m = 0 then .fin s 0 0
    else if 7 ≤ lead m e then belowOne s
    else
      let a := if 0 ≤ e then m * 2 ^ (fixP + e.toNat) else m * 2 ^ (fixP - (-e).toNat)
      let u := fixExpNeg (2 * a)
      fixNum s ((fixOne - u) * fixOne / (fixOne + u)) 0

/-- 1/(1 + e^-x) (14 R343). -/
def Num.sigm : Num → Num
  | .nan => .nan
  | .inf s => if s then .fin false 0 0 else .fin false 1 0
  | .fin s m e =>
    if m = 0 then .fin false 1 (-1)
    else if 8 ≤ lead m e then (if s then tinyNum else belowOne false)
    else
      let a := if 0 ≤ e then m * 2 ^ (fixP + e.toNat) else m * 2 ^ (fixP - (-e).toNat)
      let u := fixExpNeg a
      fixNum false ((if s then u else fixOne) * fixOne / (fixOne + u)) 0

end Sys2Proof
end

