-- ==== Sys2Proof/Machine/Operands.lean ====
section
/-! DEFINITION. Every operand form: sources read in a type (13 R296; 05 R133; 06 R156), tag checks (05 R133),
destinations written with promotion and tags (06 R158; 05 R134), and packed elements (05 R132). -/
namespace Sys2Proof.Machine

/-- An operand in one lane as raw bits of a lane word or, when `wd`, of a pair; a small immediate is placed in the type. -/
def State.src (s : State) (x : Iss) (o : Opnd) (ty : Nat) (wd : Bool) (l : Nat) : Nat :=
  let v := x.wave
  match o with
  | .s n => if wd then (v.rs2 n).toNat else (v.rs n).toNat
  | .a n => if wd then ((v.ra n).value64 l).toNat else ((v.ra n).value32 l).toNat
  | .v n => if wd then (pairOf (v.rv n l) (v.rv (n + 1) l)).toNat else (v.rv n l).toNat
  | .sp c => if c = 0x50 then l else (s.special v c).toNat
  | .imm i => immBits ty i
  | .lc n => (v.rlc n).toNat
  | _ => 0

/-- An operand read as an unsigned value of n bits, a small immediate sign-extended to them (05 R133). -/
def State.srcU (s : State) (x : Iss) (o : Opnd) (n : Nat) (l : Nat) : Nat :=
  match o with
  | .imm i => wrapNat i n
  | _ => s.src x o tagN32 (n = 64) l

/-- An operand read as a signed 32-bit value (12 R282; 14 R350, R360). -/
def State.srcI (s : State) (x : Iss) (o : Opnd) (l : Nat) : Int := sextNat (s.srcU x o 32 l) 32

/-- An operand in affine arithmetic: BASE and STRIDE (06 R156, R157). -/
def State.srcA (s : State) (x : Iss) (o : Opnd) (wd : Bool) : DWord × Int :=
  match o with
  | .a n => ((x.wave.ra n).base, (x.wave.ra n).stride.toInt)
  | .s n => (if wd then x.wave.rs2 n else sext64 (x.wave.rs n), 0)
  | .imm i => (BitVec.ofInt 64 i, 0)
  | .sp c => if c = 0x50 then (0, 1) else (if wd then zext64 (s.special x.wave c) else sext64 (s.special x.wave c), 0)
  | _ => (0, 0)

/-- Whether every varying operand carries the tag (05 R133). -/
def tagsAre (x : Iss) (ops : List Opnd) (t : Nat) : Bool :=
  ops.all (fun o => match o with
    | .v n => x.wave.rtag n = t
    | _ => true)

/-- The tags of the varying operands. -/
def tagsOf (x : Iss) (ops : List Opnd) : List Nat :=
  ops.filterMap (fun o => match o with
    | .v n => some (x.wave.rtag n)
    | _ => none)

/-- The tag an instruction keeps: that of its varying sources, which must agree, else the type; none where they differ (05 R133). -/
def keptTag (x : Iss) (ops : List Opnd) (t : Nat) : Option Nat :=
  match tagsOf x ops with
  | [] => some t
  | a :: rest => if rest.all (· = a) then some a else none

/-- A varying destination written in some lanes, with its tag; no lane written sets no tag (05 R133, R134; log 11). -/
def Wave.putV (v : Wave) (n : Nat) (wd : Bool) (tag : Nat) (e : Mask) (f : Nat → Nat) : Wave :=
  if e = 0 then v
  else
    let v := (lanesOf e).foldl (fun v l =>
      let r := f l
      let v := v.wv n l (BitVec.ofNat 32 r)
      if wd then v.wv (n + 1) l (BitVec.ofNat 32 (r / 2 ^ 32)) else v) v
    let v := v.wtag n tag
    if wd then v.wtag (n + 1) tagN32 else v

/-- A destination written with values by lane (06 R158, R161): once, from the lowest lane of E, where it speaks for the wave. -/
def State.put (s : State) (x : Iss) (d : Opnd) (wd : Bool) (tag : Nat) (f : Nat → Nat) : State :=
  let r := f (lowestLane x.e)
  match d with
  | .s n => if x.e = 0 then s
    else s.modWave x.w (fun v => if wd then v.ws2 n (BitVec.ofNat 64 r) else v.ws n (BitVec.ofNat 32 r))
  | .a n => if x.e = 0 then s
    else s.modWave x.w (fun v => v.wa n { base := if wd then BitVec.ofNat 64 r else sext64 (BitVec.ofNat 32 r), stride := 0 })
  | .v n => s.modWave x.w (fun v => v.putV n wd tag x.e f)
  | _ => s

/-- A destination written with an affine result (06 R157, R158). -/
def State.putAffine (s : State) (x : Iss) (d : Opnd) (wd : Bool) (tag : Nat) (b : DWord) (st : Int) : State :=
  let a : Affine := { base := b, stride := BitVec.ofInt 32 st }
  match d with
  | .a n => if x.e = 0 then s else s.modWave x.w (fun v => v.wa n a)
  | .v n => s.modWave x.w (fun v => v.putV n wd tag x.e (fun l => if wd then (a.value64 l).toNat else (a.value32 l).toNat))
  | _ => s

/-- A STRIDE that an affine register can hold (06 R157). -/
def strideOk (st : Int) : Bool := -2147483648 ≤ st && st ≤ 2147483647

/-- The lanes of E with a property. -/
def Iss.where_ (x : Iss) (p : Nat → Bool) : Mask := (lanesOf x.e).foldl (fun m l => if p l then m ||| laneBit l else m) 0

/-- How many registers an operand of the type occupies (00 R11). -/
def regsFor (t : Nat) : Nat := if wide t then 2 else 1

/-- The operation performed on each packed element: bits, and whether the zero-divisor or overflow bit is due (05 R132, R145). -/
def mapElems (t : Nat) (f : Nat → Nat → Nat → Nat × Bool × Bool) (a b c : Nat) : Nat × Bool × Bool :=
  let w := elemBits t
  let es := (List.range (if wide t then 1 else fmtElems t)).map (fun i => f (elemOf a w i) (elemOf b w i) (elemOf c w i))
  (packElems w (es.map (·.1)), es.any (fun e => e.2.1), es.any (fun e => e.2.2))

/-- The rounding mode of a rounding opcode (12 R280; 14 R339). -/
def roundMode (x : Iss) (sub : Nat) : Nat := if sub = 7 then bits x.wave.round.toNat 2 0 else sub

/-- A base of an address: uniform pair, affine value64, varying pair; none for a capability register (12 R282; 14 R360). -/
def State.addrBase (s : State) (x : Iss) (a : Opnd) (l : Nat) : DWord := BitVec.ofNat 64 (s.src x a tagN64 true l)

/-- One lane's request through a plain or capability base, at a byte offset from it (12 R282; 01 R39; 14 R360). -/
def State.reqAt (s : State) (x : Iss) (a : Opnd) (off : Int) (size align : Nat) (kind : AccKind) (need : Nat) (paths : List Nat) (l : Nat) : Req :=
  match a with
  | .k n =>
    let c := x.wave.rk n
    let o := BitVec.ofInt 64 off
    { lane := l, ea := c.base + o, size, kind, align, cap := capCheck (x.wave.rktag n) c o size need, paths }
  | _ => { lane := l, ea := s.addrBase x a l + BitVec.ofInt 64 off, size, kind, align, cap := none, paths }

/-- The registers an address base names. -/
def baseRegs (a : Opnd) : Opnd × Nat := (a, 2)

/-- The paths an instruction accepts, as lists. -/
def pathsAll : List Nat := [0, 1, 2, 3, 4, 5, 6, 7, 8, 9, 0xA]
def pathsStore : List Nat := [0, 2, 3, 4, 5, 6, 7, 8, 9, 0xA]
def pathsAtomic : List Nat := [0, 2, 3, 8]

end Sys2Proof.Machine
end

