-- ==== Sys2Proof/Machine/Flags.lean ====
section
/-! DEFINITION. The sticky records and status registers: %dzmask, %iovmask, %wstat, %cancel, %round and their writes
(05 R136, R137, R145; 15 R390-R393). -/
namespace Sys2Proof.Machine

/-- Sticky bits of lanes; a destination that speaks for the wave sets the bit of every lane of G (05 R145; 13 R314). -/
def stickyLanes (x : Iss) (d : Opnd) (m : Mask) : Mask := if m = 0 then 0 else if perWave d then x.g else m

/-- %dzmask and %iovmask bits set (05 R145). -/
def State.sticky (s : State) (x : Iss) (d : Opnd) (dz iov : Mask) : State :=
  let dz := stickyLanes x d dz
  let iov := stickyLanes x d iov
  if dz = 0 && iov = 0 then s
  else s.modWave x.w (fun v => { v with dzmask := v.dzmask ||| dz, iovmask := v.iovmask ||| iov })

/-- SAT of %wstat set (15 R391). -/
def State.setSat (s : State) (w : Nat) (sat : Bool) : State :=
  if sat then s.modWave w (fun v => { v with wstat := v.wstat ||| 1 }) else s

/-- POIS of %wstat set (15 R391). -/
def State.setPois (s : State) (w : Nat) (p : Bool) : State :=
  if p then s.modWave w (fun v => { v with wstat := v.wstat ||| 2 }) else s

/-- %wstat as it reads: OWN and CAND follow the machine (15 R391). -/
def State.readWstat (s : State) (w : Nat) : Word :=
  let v := s.wave w
  let own : Word := if (s.core v.core).owner = some v.unit then 8 else 0
  let cand : Word := if v.cand.isSome then 4 else 0
  (v.wstat &&& 3) ||| own ||| cand

/-- The bits of %cancel that a launch's level, graph and phase give, whenever its waves have started (15 R392). -/
def State.launchCancel (s : State) (n : Nat) : Word :=
  let l := s.launch n
  let c := s.ctx l.vf
  l.cancelBits ||| (if l.graphNode.isSome && c.graph.any (fun g => g.cancelled) then 8 else 0) |||
    (if c.phaseCancelled && l.phase = c.phase then 16 else 0)

/-- %cancel as it reads: bit 0 is the OR of bits 5 to 1 (15 R392); a handler's is that of its pair. -/
def State.readCancel (s : State) (w : Nat) : Word :=
  let v := s.wave w
  let c := (v.cancel ||| (if (s.unit v.unit).cancelled then 2 else 0) ||| s.launchCancel (s.unit v.unit).launch) &&& 0x3E
  c ||| (if c = 0 then 0 else 1)

/-- A status register read (15 R390, R393). -/
def State.readStatus (s : State) (w code : Nat) : Word :=
  let v := s.wave w
  match code with
  | 0 => s.readWstat w
  | 1 => v.dzmask
  | 2 => v.iovmask
  | 3 => v.round
  | 4 => v.gang
  | 5 => s.readCancel w
  | _ => v.fuelctl

/-- A value that %gang refuses with GANGMIS (15 R377). -/
def State.gangBad (s : State) (w : Nat) (g : Word) : Bool :=
  let v := s.wave w
  let n := bits g.toNat 26 24
  let idx := gangMembers g
  bits g.toNat 31 27 != 0 || n = 7 || (List.range 6).any (fun j => n ≤ j && bits g.toNat (4 * j + 3) (4 * j) != 0) ||
  (n != 0 && (!(idx.eraseDups.length = n) || idx.any (fun i => (s.unit v.unit).waves.length ≤ i) || !idx.contains v.idx))

/-- A value that %fuelctl refuses with ILLOP (10 R239). -/
def fuelctlBad (x : Word) : Bool := bits x.toNat 31 16 != 0

/-- A status register written by SWR or WINWR: the fault it is refused with, or the wave after it (15 R390; 05 R136). -/
def State.writeStatus (s : State) (w code : Nat) (x : Word) : Except Code State :=
  match code with
  | 0 => if bits x.toNat 31 4 != 0 then .error Code.illop
    else .ok (s.modWave w (fun v => { v with wstat := (v.wstat &&& ~~~3) ||| (x &&& 3) }))
  | 1 => .ok (s.modWave w (fun v => { v with dzmask := x }))
  | 2 => .ok (s.modWave w (fun v => { v with iovmask := x }))
  | 3 => if 4 < x.toNat then .error Code.illop else .ok (s.modWave w (fun v => { v with round := x }))
  | 4 => if s.gangBad w x then .error Code.gangmis else .ok (s.modWave w (fun v => { v with gang := x }))
  | 6 => if fuelctlBad x then .error Code.illop else .ok (s.modWave w (fun v => { v with fuelctl := x }))
  | _ => .error Code.illop

end Sys2Proof.Machine
end

