-- ==== Sys2Proof/Machine/LiveTable.lean ====
section
/-! DEFINITION. Live tables, and what is kept of a unit saved at a live site (08 R211-R213). -/
namespace Sys2Proof.Machine

/-- Consecutive bytes that the device reads at an address of a context, wherever its pages lie. -/
def State.devSpan (s : State) (vf : Nat) (ea : DWord) (n : Nat) : Option (List Byte) :=
  (List.range n).foldr (fun i acc =>
    match acc, s.devRead vf (ea + BitVec.ofNat 64 i) 1 with
    | some bs, some b => some (BitVec.ofNat 8 b :: bs)
    | _, _ => none) (some [])

/-- An entry of a live table (08 R212). -/
structure LiveEntry where
  site : DWord
  vlive : Nat
  slive : Nat
  alive : Nat
  mlive : Nat
  lc : Bool
  tdead : Bool
  scr : List (Nat × Nat)
deriving DecidableEq, Repr

/-- An entry at an offset of a table, and whether it keeps the rules of 08 R212 for a scratch allocation. -/
def State.liveEntryAt (s : State) (vf : Nat) (table : DWord) (off scratch : Nat) : Option (LiveEntry × Bool) :=
  match s.devSpan vf (table + BitVec.ofNat 64 off) 64 with
  | none => none
  | some bs =>
    let nat := fun (o n : Nat) => leNat ((bs.drop o).take n)
    let nscr := nat 0x36 2
    match s.devSpan vf (table + BitVec.ofNat 64 (nat 0x38 4)) (8 * min nscr 64) with
    | none => none
    | some rs =>
      let scr := (List.range (min nscr 64)).map (fun i => (leNat ((rs.drop (8 * i)).take 4), leNat ((rs.drop (8 * i + 4)).take 4)))
      some ({ site := BitVec.ofNat 64 (nat 0 8), vlive := nat 8 32, slive := nat 0x28 8, alive := nat 0x30 4, mlive := nat 0x34 1
              lc := nat 0x35 1 % 2 = 1, tdead := nat 0x35 1 / 2 % 2 = 1, scr },
        nat 0x34 1 % 2 = 0 && nat 0x35 1 < 4 && nscr ≤ 64 && nat 0x3C 4 = 0 &&
          scr.all (fun (r : Nat × Nat) => r.1 % 16 = 0 && r.2 % 16 = 0 && r.1 + r.2 ≤ scratch))

/-- Whether sites ascend strictly. -/
def sitesAscend : List LiveEntry → Bool
  | a :: b :: t => a.site < b.site && sitesAscend (b :: t)
  | _ => true

/-- The entries of a unit's live table; a table that breaks the rules has none (08 R212). -/
def State.liveEntries (s : State) (u : Nat) : List LiveEntry :=
  let x := s.unit u
  let l := s.launch x.launch
  if l.liveTable = 0 then []
  else match s.devSpan x.vf l.liveTable 64 with
    | none => []
    | some h =>
      let es := (List.range (leNat (h.take 4))).map (fun i => s.liveEntryAt x.vf l.liveTable (64 + 64 * i) x.scratchBytes)
      let got := es.filterMap (fun e => e.bind (fun (p : LiveEntry × Bool) => if p.2 then some p.1 else none))
      if (h.drop 4).all (· = 0) && got.length = es.length && sitesAscend got then got else []

/-- The entry at whose site a wave stands: its barrier has made its acquire there, and it has issued no word since (08 R211). -/
def State.liveSite (s : State) (w : Nat) : Option LiveEntry :=
  let v := s.wave w
  if v.exited || v.trapState != .running || v.park.isSome || v.cand.isSome then none
  else match v.barSite with
    | some (pc, n) => if n = v.wwords then (s.liveEntries v.unit).find? (fun e => e.site = pc) else none
    | none => none

/-- Whether a wave stands at a live site. -/
def State.atLiveSite (s : State) (w : Nat) : Bool := (s.liveSite w).isSome

/-- A set on the leaves through which the device reads a unit's live table: its header, and with one entry or more each entry and its ranges
(01 R30; 08 R211, R212). -/
def State.useTable (s : State) (u : Nat) : State :=
  let x := s.unit u
  let table := (s.launch x.launch).liveTable
  let field := fun (off n : Nat) => ((s.devSpan x.vf (table + BitVec.ofNat 64 off) n).map leNat).getD 0
  (List.range (field 0 4)).foldl (fun s i =>
    let s := s.devUse x.vf (table + BitVec.ofNat 64 (64 + 64 * i)) 64
    s.devUse x.vf (table + BitVec.ofNat 64 (field (64 + 64 * i + 0x38) 4)) (8 * min (field (64 + 64 * i + 0x36) 2) 64)) (s.devUse x.vf table 64)

/-- What a wave saved at a live site keeps of its registers (08 R213). The nest of active loops is kept, so that PCs keep their meaning. -/
def Wave.keepLive (v : Wave) (e : LiveEntry) : Wave :=
  { v with
    v := v.v.filter (fun p => e.vlive.testBit (p.1 / 32)), vtag := v.vtag.filter (fun p => e.vlive.testBit p.1)
    s := v.s.filter (fun p => e.slive.testBit p.1), a := v.a.filter (fun p => e.alive.testBit p.1)
    ktag := v.ktag.filter (fun p => (List.range 4).all (fun i => e.slive.testBit (4 * p.1 + i)))
    masks := v.masks.filter (fun p => e.mlive.testBit p.1), lc := if e.lc then v.lc else [] }

/-- Locations that come back as if never written, with their tags. -/
def State.forget (s : State) (p : Nat → Bool) : State :=
  { s with mem := { s.mem with
      cells := s.mem.cells.filter (fun c => !p c.1), last := s.mem.last.filter (fun c => !p c.1), past := s.mem.past.filter (fun c => !p c.1)
      bad := s.mem.bad.filter (fun k => !p (8 * k)) } }

/-- Buffers of a unit that hold bytes no rule gives, with no capability tag (02 R56; log 9). -/
def State.fillFree (s : State) (u : Nat) (kinds : List Nat) : State :=
  let cells := kinds.flatMap (fun k => (List.range ((s.unit u).bufBytes k)).map (fun o => (locBuf k u o, Config.freshByte s.fresh k o)))
  { s with fresh := s.fresh + 1, mem := { s.mem with cells := tsets unlisted s.mem.cells cells } }

/-- A unit saved at a live site: what its waves' entries do not list is lost (08 R213). Scratch that any of its entries lists is kept,
and tiles unless all its entries let them die; what lost buffers then hold no rule says (log 9). A unit none of whose waves is left has no
entry, and nothing of it is lost. -/
def State.keepLive (s : State) (u : Nat) : State :=
  let x := s.unit u
  let es := x.waves.filterMap s.liveSite
  let s := x.waves.foldl (fun s w => match s.liveSite w with
    | none => s
    | some e => s.modWave w (fun v => v.keepLive e)) s
  if es.isEmpty then s else
  let listed := fun (off : Nat) => es.any (fun e => e.scr.any (fun (r : Nat × Nat) => r.1 ≤ off && off < r.1 + r.2))
  let lo := locScratch u 0
  let s := s.forget (fun a =>
    (lo ≤ a && a < lo + x.scratchBytes && !listed (a - lo)) ||
    (locTag lo ≤ a && a < locTag lo + x.scratchBytes / 16 && !listed (16 * (a - locTag lo))))
  if es.all (fun e => e.tdead) then
    let s := s.modUnit u (fun x => { x with tiles := [] })
    let (i, s) := s.pick 2
    if i = 0 then s
    else (s.forget (fun a => (List.range 3).any (fun k => locBuf k u 0 ≤ a && a < locBuf k u (2 ^ 20)))).fillFree u [0, 1, 2]
  else s

end Sys2Proof.Machine
end

