-- ==== Sys2Proof/Machine/Fetch.lean ====
section
/-! DEFINITION. Fetching clauses, words and interchange records, and choosing what issues
(01 R18, R43, R44; 06 R151-R154; 12 R271-R274, R289-R291; 09 R228). -/
namespace Sys2Proof.Machine

/-- A partition-table entry. -/
def State.part (s : State) (d e : Nat) : Part := tget Part.init (s.die d).parts e
/-- A partition-table entry changed. -/
def State.modPart (s : State) (d e : Nat) (f : Part → Part) : State :=
  s.modDie d (fun x => { x with parts := tset Part.init x.parts e (f (tget Part.init x.parts e)) })

/-- The entry whose range holds a cluster, lent or not (08 R202). -/
def State.ownPart (s : State) (k : Nat) : Option Nat :=
  ((s.die (k / 64)).parts.find? (fun p => p.2.state = 1 && p.2.base ≤ k % 64 && k % 64 ≤ p.2.limit)).map (·.1)

/-- The entry that runs on a cluster: its borrower, else its owner (08 R203). -/
def State.partAt (s : State) (k : Nat) : Option Nat := ((s.cluster k).lentTo).orElse (fun _ => s.ownPart k)

/-- A cluster in no active range runs nothing (08 R202); one that is lent is in its borrower's, whatever its lender's state (08 R203). -/
def State.clusterRuns (s : State) (k : Nat) : Bool :=
  match (s.cluster k).lentTo with
  | some e => (s.part (k / 64) e).state = 1
  | none => (s.ownPart k).isSome

/-- What a fetch of one 64-byte block comes to. -/
inductive BlockRes where
  | ok (ws : List DWord)
  | fault (code : Code)
  | xlate (reason level : Nat)
deriving DecidableEq, Repr

/-- The eight doublewords of the block at a location (00 R9). -/
def Mem.block (m : Mem) (loc : Nat) : List DWord := (List.range 8).map (fun i => BitVec.ofNat 64 (m.nat (loc + 8 * i) 8))

/-- A block as the tables and memory now give it (01 R18, R27; 09 R228). -/
def State.peekBlock (s : State) (vf : Nat) (ea : DWord) : BlockRes :=
  match s.walk vf (restOf ea) with
  | .xlate r l => .xlate r l
  | .leaf level e _ =>
    let loc := leafLoc level e (restOf ea / 64 * 64)
    if !pageOk AccKind.fetch e then .fault Code.prot
    else if s.poisoned loc then .fault Code.poison
    else .ok ((s.memOf vf).block loc)

/-- The checks of a fetch address that precede translation (01 R18, R41). -/
def fetchPathFault (ea : DWord) (aligned : Bool) : Option Code :=
  if pathOf ea = 0xF then some Code.priv
  else if pathOf ea != 0 || !canonical ea then some Code.addrpath
  else if aligned && ea.toNat % 8 != 0 then some Code.align
  else none

/-- The key of a fetch block in a core's fetched copies. -/
def blockKey (vf : Nat) (ea : DWord) : Nat := vf * 2 ^ 60 + ea.toNat / 64

/-- Whether an address lies in a loop's body. -/
def LoopFrame.holds (f : LoopFrame) (ea : DWord) : Bool := f.first ≤ ea && ea < f.after

/-- The block at an address as an active loop of a wave, the innermost that has it, captured it with its body (01 R44). -/
def Wave.captured (v : Wave) (ea : DWord) : Option (List DWord) :=
  v.loops.findSome? (fun f => if f.holds ea then tfind? f.buf (ea.toNat / 64) else none)

/-- A block joins the loop buffers of the active loops whose bodies it lies in, where it is not there yet. -/
def Wave.capture (v : Wave) (ea : DWord) (ws : List DWord) : Wave :=
  { v with loops := v.loops.map (fun f =>
      if f.holds ea && (tfind? f.buf (ea.toNat / 64)).isNone then { f with buf := tins f.buf (ea.toNat / 64) ws } else f) }

/-- A block fetched for a group of a wave. A block that an active loop holds is run as captured until that loop ends (01 R44; 13 R305);
where a copy fetched earlier differs from memory, which one is delivered is the device's choice (log 17). -/
def State.fetchBlock (s : State) (w : Nat) (g : Mask) (ea : DWord) : BlockRes × State :=
  let v := s.wave w
  match v.captured ea with
  | some ws => (.ok ws, s)
  | none =>
    let vf := s.vfOf w
    let afresh := v.replay &&& g != 0
    let key := blockKey vf ea
    let old := if afresh then [] else (tfind? (s.core v.core).icache key).toList.filter (fun ws => s.peekBlock vf ea != .ok ws)
    let (i, s) := s.pick (old.length + 1)
    let got := fun (ws : List DWord) (s : State) => (BlockRes.ok ws, s.modWave w (fun v => v.capture ea ws))
    if i = 0 then
      match s.translate v.core vf (restOf ea) afresh with
      | (.xlate r l, s) => (.xlate r l, s)
      | (.leaf level e _, s) =>
        let loc := leafLoc level e (restOf ea / 64 * 64)
        if !pageOk AccKind.fetch e then (.fault Code.prot, s)
        else if s.poisoned loc then (.fault Code.poison, s)
        else
          let ws := (s.memOf vf).block loc
          got ws (s.modCore v.core (fun c => { c with icache := tins c.icache key ws }))
    else got (old.headD []) s

/-- Lanes inside a clause keep the blocks that its words come from (01 R43). -/
def State.keepCode (s : State) (w : Nat) (g : Mask) (ea : DWord) (ws : List DWord) : State :=
  s.modWave w (fun v => v.modLanes g (fun l => { l with code := tins l.code (ea.toNat / 64) ws }))

/-- A doubleword of a fetch block. -/
def blockWord (ws : List DWord) (ea : DWord) : DWord := ws.getD (ea.toNat / 8 % 8) 0

/-- The bytes of a fetch block from an address to its end. -/
def blockTail (ws : List DWord) (ea : DWord) : List Byte :=
  (ws.flatMap (fun x => leBytes 8 x.toNat)).drop (ea.toNat % 64)

/-- What a group's next word is. -/
inductive Fetched where
  | word (c : Cursor) (i : Instr)
  | fault (code acc : Nat) (ea pc next : DWord)
  | xlate (reason level : Nat) (ea pc next : DWord)
deriving DecidableEq, Repr

/-- A block fetch handed on, or the fault it ends in. -/
def State.withBlock (s : State) (w : Nat) (g : Mask) (ea : DWord) (aligned : Bool) (pc next : DWord)
    (k : List DWord → State → Fetched × State) : Fetched × State :=
  match fetchPathFault ea aligned with
  | some c => (.fault c AccKind.fetch ea pc next, s)
  | none =>
    match s.fetchBlock w g ea with
    | (.ok ws, s) => k ws s
    | (.fault c, s) => (.fault c AccKind.fetch ea pc next, s)
    | (.xlate r l, s) => (.xlate r l ea pc next, s)

/-- The block of a clause's word, as the clause's lanes have it or fetched for them: a block is all old or all new for the whole of a
clause (01 R43). -/
def State.withCode (s : State) (w : Nat) (g : Mask) (ea pc next : DWord) (k : List DWord → State → Fetched × State) : Fetched × State :=
  match tfind? ((s.wave w).lane (lowestLane g)).code (ea.toNat / 64) with
  | some ws => k ws s
  | none => s.withBlock w g ea true pc next (fun ws s => k ws (s.keepCode w g ea ws))

/-- A clause header that 12 R271 refuses. -/
def headerBad (h : DWord) : Bool :=
  let x := h.toNat
  bits x 63 60 != 0xE || bits x 29 0 != 0 || (12 ≤ bits x 43 40 && bits x 43 40 ≤ 14) || (12 ≤ bits x 39 36 && bits x 39 36 ≤ 14)

/-- LEN + 1: the body words of a clause (12 R271). -/
def clauseLen (h : DWord) : Nat := bits h.toNat 59 56 + 1

/-- The body word at an address inside a clause (12 R272, R274). -/
def State.fetchBody (s : State) (w : Nat) (g : Mask) (base hdr pc : DWord) : Fetched × State :=
  let idx := (pc.toNat - base.toNat) / 8 - 1
  let last := idx + 1 ≥ clauseLen hdr
  s.withCode w g pc pc (pc + 8) (fun ws s =>
    let x := (blockWord ws pc).toNat
    let isExpr := x / 2 ^ 63 = 0 && bits x 62 56 = 0x51
    let finish := fun (ext : Option Nat) (s : State) =>
      let two := isExpr && ext.isSome
      let next := if two then pc + 16 else pc + 8
      let lastIn := if two then idx + 2 ≥ clauseLen hdr else last
      let c : Cursor := {
        wave := w, group := g, pc, next, clause := some (base, hdr), modBase := none, lastInClause := lastIn, minor := 0, vvirt := 0, cand := none }
      match issueForm (decodeFields x ext) id with
      | .ok i => (Fetched.word c i, s)
      | .error .badclause => (.fault Code.badclause 0xF 0 pc next, s)
      | .error _ => (.fault Code.illop 0xF 0 pc next, s)
    if isExpr && !last then
      s.withCode w g (pc + 8) pc (pc + 16) (fun ws s => finish (some (blockWord ws (pc + 8)).toNat) s)
    else finish none s)

/-- A module header's doubleword fields that 12 R289 refuses. -/
def moduleBad (id dw1 dw2 dw3 : DWord) : Bool :=
  let x := id.toNat
  let vv := bits dw1.toNat 15 0
  bits x 63 60 != 0xD || bits x 59 56 != 0 || bits x 55 48 != 3 || 1 < bits x 47 40 || bits x 39 32 != 0 ||
  vv % 8 != 0 || 1024 < vv || bits dw1.toNat 63 16 != 0 || dw2 != 0 || dw3 != 0

/-- MINOR and VVIRT of a module, from the first doublewords of its header (12 R289). -/
def infoOf (id dw1 : DWord) : Nat × Nat := (bits id.toNat 47 40, bits dw1.toNat 15 0)

/-- VVIRT of the module whose header lies at an address, as memory now gives it (12 R289). -/
def State.peekVvirt (s : State) (vf : Nat) (base : DWord) : Nat :=
  match s.peekBlock vf (base + 8) with
  | .ok ws => (infoOf 0 (blockWord ws (base + 8))).2
  | _ => 0

/-- The bytes of a varint that begins some bytes (12 R290). -/
def varintLen (bs : List Byte) : Nat := (bs.takeWhile (fun b => 128 ≤ b.toNat)).length + 1

/-- The bytes that a record takes, as its first two say, whatever they hold (12 R290): NEXTPC of one that faults (12 R291). -/
def recordSpan (bs : List Byte) : Nat :=
  let varints := fun (k at_ : Nat) => (List.range k).foldl (fun n _ => n + varintLen (bs.drop n)) at_
  let op := (bs.headD 0).toNat
  if op = 0xFE then varints 1 1
  else if 0x80 ≤ op then 1
  else
    let b1 := (bs.getD 1 0).toNat
    let n := varints 4 2 + 1 + bits b1 4 4
    varints (bits b1 6 6) (varints (bits b1 5 5) n)

/-- What a record decoded from bytes comes to: a word or a fault (12 R290, R294). -/
def recordWord (w : Nat) (g : Mask) (base pc : DWord) (info : Nat × Nat) (r : Except Reject (Instr × Nat)) (span : Nat) : Fetched :=
  match issueForm r (·.1) with
  | .ok (i, n) =>
    let next := pc + BitVec.ofNat 64 n
    if info.1 = 0 && i.since31 then .fault Code.illop 0xF 0 pc next
    else .word {
      wave := w, group := g, pc, next, clause := none, modBase := some base, lastInClause := false, minor := info.1, vvirt := info.2, cand := none } i
  | .error _ => .fault Code.illop 0xF 0 pc (pc + BitVec.ofNat 64 span)

/-- A block of code as a wave's lanes would find it: captured with an active loop's body, else as memory now has it (01 R44; 13 R305). -/
def State.peekCode (s : State) (w : Nat) (ea : DWord) : Option (List DWord) :=
  match (s.wave w).captured ea with
  | some ws => some ws
  | none => match s.peekBlock (s.vfOf w) ea with
    | .ok ws => some ws
    | _ => none

/-- The bytes of a record at an address, from one fetch block or, where `read` finds them short, from two (12 R290); with what is read, the
bytes that the record takes. -/
def State.withRecordBytes {α : Type} (s : State) (w : Nat) (g : Mask) (pc : DWord) (read : List Byte → Except Reject α)
    (k : Except Reject α → Nat → State → Fetched × State) : Fetched × State :=
  s.withBlock w g pc false pc (pc + 1) (fun ws s =>
    let bs := blockTail ws pc
    match read bs with
    | .error .short =>
      let nb := BitVec.ofNat 64 (pc.toNat / 64 * 64 + 64)
      s.withBlock w g nb false pc (pc + 1) (fun ws2 s => k (read (bs ++ blockTail ws2 nb)) (recordSpan (bs ++ blockTail ws2 nb)) s)
    | r =>
      let nb := BitVec.ofNat 64 (pc.toNat / 64 * 64 + 64)
      k r (recordSpan (bs ++ ((s.peekCode w nb).map (fun ws => blockTail ws nb)).getD [])) s)

/-- The record at an address of a module (12 R290). -/
def State.fetchRecord (s : State) (w : Nat) (g : Mask) (base pc : DWord) (info : Nat × Nat) : Fetched × State :=
  s.withRecordBytes w g pc (decodeRecord.decodeRecordFields info.2) (fun r n s => (recordWord w g base pc info r n, s))

/-- A module header fetched and checked, handed on with its MINOR and VVIRT (12 R289). -/
def State.withModule (s : State) (w : Nat) (g : Mask) (base pc : DWord) (k : Nat × Nat → State → Fetched × State) : Fetched × State :=
  s.withBlock w g base true pc (pc + 8) (fun ws s =>
    s.withBlock w g (base + 24) true pc (pc + 8) (fun ws2 s =>
      let at_ := fun (ea : DWord) => if ea.toNat / 64 = base.toNat / 64 then blockWord ws ea else blockWord ws2 ea
      if moduleBad (at_ base) (at_ (base + 8)) (at_ (base + 16)) (at_ (base + 24)) then
        (.fault Code.badclause 0xF 0 pc (pc + 8), s)
      else k (infoOf (at_ base) (at_ (base + 8))) s))

/-- The first word of code that a lane starts or enters at a record: a BLOCK names its module (12 R290, R291). -/
def State.enterRecord (s : State) (w : Nat) (g : Mask) (pc : DWord) (otherwise_ : Code) : Fetched × State :=
  s.withRecordBytes w g pc (decodeRecord 0) (fun r span s =>
    match r with
    | .ok (.blockRecord dist, n) =>
      let base := pc - BitVec.ofNat 64 dist
      s.withModule w g base pc (fun info s =>
        (.word { wave := w, group := g, pc, next := pc + BitVec.ofNat 64 n, clause := none, modBase := some base, lastInClause := false,
                 minor := info.1, vvirt := info.2, cand := none } (.blockRecord dist), s))
    | _ => (.fault otherwise_ 0xF 0 pc (pc + BitVec.ofNat 64 span), s))

/-- The lanes of a group stand at a word, inside its clause or module (06 R151; 09 R218; 12 R289). -/
def State.stand (s : State) (w : Nat) (g : Mask) (pc : DWord) (clause : Option (DWord × DWord)) (modBase : Option DWord)
    (info : Nat × Nat) : State :=
  s.modWave w (fun v => v.modLanes g (fun l =>
    { l with pc, clause, modBase, modInfo := info, enter := false, code := if l.clause = clause then l.code else [] }))

/-- The next word of a group, as the given lane comes to it (12 R272, R274, R289-R291). Where its lanes have come to one body word through two
valid clause headers, that lane's governs them (log 76). -/
def State.fetchFor (s : State) (w : Nat) (g : Mask) (l : Lane) : Fetched × State :=
  match l.clause with
  | some (base, hdr) => s.fetchBody w g base hdr l.pc
  | none =>
    match l.modBase with
    | some base => if l.enter then s.enterRecord w g l.pc Code.illop else s.fetchRecord w g base l.pc l.modInfo
    | none =>
      if l.enter && l.pc.toNat % 8 != 0 && fetchPathFault l.pc false = none then s.enterRecord w g l.pc Code.align
      else s.withBlock w g l.pc true l.pc (l.pc + 8) (fun ws s =>
        let h := blockWord ws l.pc
        if bits h.toNat 63 60 = 0xD then
          s.withModule w g l.pc l.pc (fun info s => (s.stand w g (l.pc + 0x20) none (some l.pc) info).fetchRecord w g l.pc (l.pc + 0x20) info)
        else if !headerBad h then ((s.stand w g (l.pc + 8) (some (l.pc, h)) none (0, 0)).keepCode w g l.pc ws).fetchBody w g l.pc h (l.pc + 8)
        else if l.enter then s.enterRecord w g l.pc Code.badclause
        else (.fault Code.badclause 0xF 0 l.pc (l.pc + 8), s))

/-- Whether the WAIT flags of a clause header are not all clear (12 R271, R273). -/
def Wave.flagsWait (v : Wave) (h : DWord) : Bool :=
  (List.range 12).any (fun i => bits h.toNat (44 + i) (44 + i) = 1 && tget 0 v.flags i != 0)

/-- The header of a valid module at an address: its MINOR and VVIRT (12 R289). -/
def State.peekModule (s : State) (w : Nat) (base : DWord) : Option (Nat × Nat) :=
  match fetchPathFault base true, s.peekCode w base, s.peekCode w (base + 24) with
  | none, some ws, some ws2 =>
    let at_ := fun (ea : DWord) => if ea.toNat / 64 = base.toNat / 64 then blockWord ws ea else blockWord ws2 ea
    if moduleBad (at_ base) (at_ (base + 8)) (at_ (base + 16)) (at_ (base + 24)) then none else some (infoOf (at_ base) (at_ (base + 8)))
  | _, _, _ => none

/-- The BLOCK record at an address of code: the distance that it gives, or that it is none; nothing where it cannot be fetched (12 R290). -/
def State.blockAt (s : State) (w : Nat) (pc : DWord) : Option (Option Nat) :=
  match fetchPathFault pc false, s.peekCode w pc with
  | none, some ws =>
    let nb := BitVec.ofNat 64 (pc.toNat / 64 * 64 + 64)
    let more := (s.peekCode w nb).map (fun ws => blockTail ws nb)
    match decodeRecord 0 (blockTail ws pc ++ more.getD []) with
    | .ok (.blockRecord dist, _) => some (some dist)
    | .error .short => if more.isSome then some none else none
    | _ => some none
  | _, _ => none

/-- Whether a lane that enters code at an address finds a BLOCK record of a valid module there (12 R290, R291). -/
def State.entersBlock (s : State) (w : Nat) (pc : DWord) : Bool :=
  match s.blockAt w pc with
  | some (some dist) => (s.peekModule w (pc - BitVec.ofNat 64 dist)).isSome
  | _ => false

/-- The clause header at an address, as a lane that comes to it would find it. -/
def State.peekHeader (s : State) (w : Nat) (pc : DWord) : Option DWord :=
  if fetchPathFault pc true = none then ((s.peekCode w pc).map (fun ws => blockWord ws pc)).filter (fun h => !headerBad h) else none

/-- A lane inside the clause or module whose header it has come to, if that is a valid one (12 R271, R289). -/
def State.entered (s : State) (w : Nat) (l : Lane) : Lane :=
  if l.clause.isSome || l.modBase.isSome then l
  else match s.peekHeader w l.pc with
    | some h => { l with pc := l.pc + 8, clause := some (l.pc, h), enter := false }
    | none => match s.peekModule w l.pc with
      | some info => { l with pc := l.pc + 0x20, modBase := some l.pc, modInfo := info, enter := false }
      | none => l

/-- What makes two lanes one PC group: the address of the next body word or record (06 R151). A lane at a word that cannot be entered stands
apart, since the fault there is its alone (12 R272, R290). -/
def State.keyOf (s : State) (w : Nat) (l : Lane) : Nat × Nat :=
  let y := s.entered w l
  let enters := s.entersBlock w y.pc
  (y.pc.toNat, if y.clause.isSome then 0 else if (y.enter && enters) || (!y.enter && y.modBase.isSome) then 1 else 2)

/-- Whether a lane is held by its next clause's WAIT flags, or because GAP cycles have not passed since its last issue (06 R151; 12 R271, R273). -/
def State.headWaits (s : State) (w l : Nat) : Bool :=
  let v := s.wave w
  let x := v.lane l
  let holds := fun (h : DWord) => v.flagsWait h || (match x.lastIssue with
    | some c => (s.core v.core).cycles < c + bits h.toNat 35 32
    | none => false)
  match x.clause with
  | some (b, h) => x.pc = b + 8 && holds h
  | none => x.modBase.isNone && ((s.peekHeader w x.pc).map holds).getD false

/-- Whether a lane is waiting (06 R151). -/
def State.laneWaits (s : State) (w l : Nat) : Bool := ((s.wave w).lane l).wait.isSome || s.headWaits w l

/-- The live lanes that wait for nothing. -/
def State.active (s : State) (w : Nat) : Mask :=
  (lanesOf (s.wave w).live).foldl (fun m l => if s.laneWaits w l then m else m ||| laneBit l) 0

/-- The PC groups of a wave among some lanes: key and lanes, each lane in one (06 R151). -/
def State.groups (s : State) (w : Nat) (within : Mask) : List ((Nat × Nat) × Mask) :=
  (lanesOf ((s.wave w).live &&& within)).foldl (fun gs l =>
    let k := s.keyOf w ((s.wave w).lane l)
    if s.laneWaits w l then gs
    else if gs.any (fun g => g.1 = k) then gs.map (fun g => if g.1 = k then (g.1, g.2 ||| laneBit l) else g)
    else gs ++ [(k, laneBit l)]) []

/-- The better of two candidate groups: more lanes, then the lower program counter (06 R152). -/
def betterGroup (a b : (Nat × Nat) × Mask) : (Nat × Nat) × Mask :=
  if laneCount b.2 < laneCount a.2 then a
  else if laneCount a.2 < laneCount b.2 then b
  else if a.1.1 ≤ b.1.1 then a else b

/-- The best of some groups. -/
def bestGroup : List ((Nat × Nat) × Mask) → Option ((Nat × Nat) × Mask)
  | [] => none
  | g :: gs => some (gs.foldl betterGroup g)

/-- The starvation group among the PC groups of a wave, if a lane's count has reached 64 (06 R153). -/
def Wave.starving (v : Wave) (gs : List ((Nat × Nat) × Mask)) : Option ((Nat × Nat) × Mask) :=
  let top := gs.foldl (fun m g => (lanesOf g.2).foldl (fun m l => max m (v.lane l).starve) m) 0
  if top < 64 then none
  else
    (gs.filter (fun g => (lanesOf g.2).any (fun l => (v.lane l).starve = top))).foldl (fun b g => match b with
      | none => some g
      | some h => if g.1.1 < h.1.1 then some g else some h) none

/-- The first group to issue of a wave whose groups `cs` can issue this cycle, or none where the starvation group cannot (06 R152, R153). -/
def State.firstGroup (s : State) (w : Nat) (cs : List ((Nat × Nat) × Mask)) : Option ((Nat × Nat) × Mask) :=
  match (s.wave w).starving (s.groups w (s.wave w).live) with
  | some g => cs.find? (fun c => c.1 = g.1)
  | none => bestGroup cs

/-- The starvation counts after an opportunity in which some lanes issued (06 R153). -/
def Wave.countStarve (v : Wave) (ran issued : Mask) : Wave :=
  v.modLanes (v.live &&& ran) (fun l => { l with starve := l.starve + 1 }) |>.modLanes issued (fun l => { l with starve := 0 })

/-- A wave stands at a blocking point (06 R169; 09 R224). -/
def Wait.blocking : Wait → Bool
  | .mwait _ _ _ _ _ _ _ => true
  | .joinW _ _ _ _ => true
  | .barSyncArrive => true
  | .barArrive => false
  | .barWait => true
  | .abar _ _ _ => true
  | .tlge _ _ _ => true
  | .tlout _ _ => true
  | .hold h => match h with
    | .mown => true
    | .mpass => true
    | .member _ => true
    | .remote _ => true
    | _ => false
  | _ => false

/-- Whether the live lanes of a wave have come to wait at two different SYNCWs (06 R163). -/
def Wave.stuck (v : Wave) : Bool :=
  let ls := (lanesOf v.live).map v.lane
  ls.all (fun l => l.wait = some .syncw) && ls.any (fun l => ls.any (fun m => l.pc != m.pc))

/-- A live lane of a wave has reached a blocking point, or the wave is parked or stuck (06 R149, R163, R169). -/
def State.meetsBlocking (s : State) (w : Nat) : Bool :=
  let v := s.wave w
  (lanesOf v.live).any (fun l => (((v.lane l).wait).map Wait.blocking).getD false) || v.park.isSome || v.stuck

/-- Whether lanes of a wave, or of its handler, are between the steps of a word, which takes its full effect first (03 R82). -/
def State.midSteps (s : State) (w : Nat) : Bool :=
  !(s.wave w).steps.isEmpty || (s.wave w).handler.any (fun h => !(s.wave h).steps.isEmpty)

/-- Whether a cancelled wave must be retired (06 R149; 09 R224). Lanes in candidate mode see the cancel at their own steps (10 R259). -/
def State.retires (s : State) (w : Nat) : Bool :=
  let v := s.wave w
  !v.exited && v.handles.isNone && s.readCancel w != 0 &&
  (v.trapState = .trapped || v.park.isSome || (s.unit v.unit).restoring || (v.cand.isNone && s.meetsBlocking (v.handler.getD w)))

/-- Lanes that the device has let issue (06 R170; log 1). -/
def State.served (s : State) (w : Nat) (g : Mask) : State := s.modWave w (fun v => v.modLanes g (fun l => { l with passed := 0 }))

/-- Whether a wave may issue at all (06 R154; 09 R219; 15 R375; 01 R32); one at a live site of a unit whose slice has ended
issues nothing more (08 R211), nor does one at a word boundary that a STORAGE trap is due to (09 R227, R234). A handler is resident with its
wave (09 R224). -/
def State.canIssue (s : State) (w : Nat) : Bool :=
  let v := s.wave w
  !v.exited && v.live != 0 && v.trapState = .running && v.park.isNone && !(s.unit v.unit).restoring && !s.retires (v.handles.getD w) &&
  !((s.unit v.unit).sliced && s.atLiveSite w) && !(v.storageTrap && v.cand.isNone && v.steps.isEmpty) && v.resident && (s.unit v.unit).resident

/-- The waves that a port of a core serves: even or odd slots, and the core's handler on port 0 (06 R154; 09 R220). -/
def State.portWaves (s : State) (core port : Nat) : List Nat :=
  (s.waves.filter (fun p => p.2.core = core && !p.2.exited && p.2.resident &&
    (if p.2.handles.isSome then port = 0 else p.2.slot % 2 = port))).map (·.1)

/-- The weight of a wave (06 R154; 09 R220). -/
def State.weight (s : State) (w : Nat) : Nat :=
  if (s.wave w).handles.isSome then 15 else max 1 (min 15 (s.launchOf w).qos)

/-- The order of selection among ready waves: greater age, then lower slot (06 R154). -/
def State.selects (s : State) (a b : Nat) : Nat :=
  let x := s.wave a
  let y := s.wave b
  let sx := if x.handles.isSome then 16 else x.slot
  let sy := if y.handles.isSome then 16 else y.slot
  if y.age < x.age || (x.age = y.age && sx ≤ sy) then a else b

/-- Blocking by its own lanes, its park, or its hold for the matrix engine. -/
def State.blockedSelf (s : State) (w : Nat) : Bool :=
  let v := s.wave w
  v.steps.isEmpty && (v.park.isSome || (s.unit v.unit).restoring ||
  (v.cand.isNone && s.active w = 0 && (lanesOf v.live).any (fun l => (((v.lane l).wait).map Wait.blocking).getD false)))

/-- A wave is at a blocking point (06 R169; 09 R224). -/
def State.atBlocking (s : State) (w : Nat) : Bool :=
  let v := s.wave w
  if v.exited then true
  else match v.trapState with
    | .trapped => true
    | .handled => (v.handler.map s.blockedSelf).getD true
    | .running => s.blockedSelf w

/-- A cycle in which a wave issued nothing, in WSTALL (15 R395). -/
def State.stalled (s : State) (w : Nat) : State :=
  s.modWave w (fun v => { v with wstall := if v.live != 0 then v.wstall + 1 else v.wstall })

/-- The PC groups of the waves that a port may serve this cycle: those that may issue, are not in candidate mode, and have not given
up the cycle (13 R308; 12 R271). -/
def State.portGroups (s : State) (core port : Nat) : List (Nat × List ((Nat × Nat) × Mask)) :=
  ((s.portWaves core port).filter (fun w => s.canIssue w && (s.wave w).cand.isNone && !(s.wave w).skipCycle)).map
    (fun w => (w, s.groups w (s.wave w).live))

/-- Whether a lane of a group has been passed over as often as the device may (06 R170; log 1). -/
def Wave.overdue (v : Wave) (g : Mask) : Bool := (lanesOf g).any (fun l => Config.patience < (v.lane l).passed)

/-- Which of a wave's groups can issue this cycle, operands ready and pipe free: the device's choice for each (06 R152). A group found ready
keeps its count until it issues. -/
def State.chooseGroups (s : State) (w : Nat) (gs : List ((Nat × Nat) × Mask)) : List ((Nat × Nat) × Mask) × State :=
  gs.foldl (fun (acc : List ((Nat × Nat) × Mask) × State) g =>
    let (i, s) := acc.2.pick 2
    if i = 0 || (s.wave w).overdue g.2 then (acc.1 ++ [g], s)
    else (acc.1, s.modWave w (fun v => v.modLanes g.2 (fun l => { l with passed := l.passed + 1 })))) ([], s)

/-- The ready waves of a port with their groups that can issue this cycle (06 R152, R154). One group alone is not chosen about: whether it
issues in this cycle or a later one changes only timing. -/
def State.readyGroups (s : State) (core port : Nat) : List (Nat × List ((Nat × Nat) × Mask)) × State :=
  let ws := s.portGroups core port
  let (r, s) := if (ws.flatMap (·.2)).length ≤ 1 then (ws, s)
    else ws.foldl (fun (acc : List (Nat × List ((Nat × Nat) × Mask)) × State) x =>
      let (gs, s) := acc.2.chooseGroups x.1 x.2
      (acc.1 ++ [(x.1, gs)], s)) ([], s)
  (r.filter (fun x => !x.2.isEmpty), s)

/-- The wave that a port selects among the ready ones (06 R154). -/
def State.select (s : State) (rdy : List Nat) : Option Nat :=
  match rdy with
  | [] => none
  | w :: ws => some (ws.foldl s.selects w)

/-- Whether a word is the first of a clause that holds a current reservation (12 R271; 21 R414). -/
def Cursor.opensHeavy (c : Cursor) : Bool :=
  match c.clause with
  | some (b, h) => bits h.toNat 30 30 = 1 && c.pc = b + 8
  | none => false

/-- A clause that asks for a current reservation before its first word: none of its group's lanes has one (12 R271; 21 R414). -/
def wantsReservation (v : Wave) (c : Cursor) : Bool :=
  c.opensHeavy && (lanesOf c.group).all (fun l => (v.lane l).heavy.isNone)

/-- Lanes that have joined a group whose clause has its reservation take part in it (21 R414). -/
def Wave.shareHeavy (v : Wave) (c : Cursor) : Wave :=
  match (lanesOf c.group).findSome? (fun l => (v.lane l).heavy) with
  | some i => if c.opensHeavy then v.modLanes c.group (fun l => if l.heavy.isNone then { l with heavy := some i } else l) else v
  | none => v

/-- A lane stands inside a clause that holds a current reservation: its last word has not issued (21 R414). -/
def Lane.inHeavy (l : Lane) : Bool :=
  match l.clause with
  | some (_, h) => bits h.toNat 30 30 = 1 && (match l.wait with
    | some (.hold _) => true
    | some _ => !l.leaves
    | none => true)
  | none => false

/-- Reservations returned once no live lane stands inside their clauses (21 R414). -/
def State.endReservation (s : State) (w : Nat) : State :=
  let v := s.wave w
  let inside := (lanesOf v.live).filterMap (fun l => if (v.lane l).inHeavy then (v.lane l).heavy else none)
  if v.heavyIds.isEmpty then s
  else
    let s := s.dropHeavy w (v.heavyIds.filter (fun i => !inside.contains i))
    s.modWave w (fun v => v.modLanes 0xFFFFFFFF (fun l => if l.heavy.isSome && !l.inHeavy then { l with heavy := none } else l))

/-- After a word: Y gives up the port's next cycle with the clause's last word (12 R271), and reservations may end. A word some of whose
lanes have their steps to take has not issued its last. -/
def State.wordEnd (s : State) (c : Cursor) : State :=
  let yields := match c.clause with
    | some (_, h) => c.lastInClause && bits h.toNat 31 31 = 1
    | none => false
  if ((s.wave c.wave).stepsOf c.group).isSome then s
  else (s.modWave c.wave (fun v => { v with skipCycle := v.skipCycle || yields })).endReservation c.wave

end Sys2Proof.Machine
end

