-- ==== Sys2Proof/Machine/Control.lean ====
section
/-! DEFINITION. Branches, calls, loops, waits, the unit barrier, and ending lanes (13 R298-R312; 12 R288, R290). -/
namespace Sys2Proof.Machine

/-- The address that B-form offsets count from: the clause header, or the record in a module (12 R282, R290). -/
def Iss.home (x : Iss) : DWord :=
  match x.cur.clause with
  | some (b, _) => b
  | none => x.cur.pc

/-- The target of a B-form offset. -/
def Iss.target (x : Iss) (off : Int) : DWord := x.home + BitVec.ofInt 64 off

/-- Some lanes wait with their operands captured, the rest of the group goes on (06 R151). -/
def State.waitOn (s : State) (x : Iss) (e : Mask) (wt : Wait) : State :=
  (s.advance x.cur (x.g &&& ~~~e)).modWave x.w (fun v => v.modLanes e (fun l =>
    { l with wait := some wt, after := x.cur.next, leaves := x.cur.lastInClause }))

/-- A lane whose wait has ended goes on at the next word. -/
def Lane.resumed (v : Wave) (l : Lane) : Lane :=
  { l with pc := l.after, clause := if l.leaves then none else l.clause, wait := arriveWait v l.after }

/-- Lanes whose wait has ended go on together: their word has retired (06 R151; 07 R183). -/
def State.leaveWait (s : State) (w : Nat) (m : Mask) : State :=
  (s.modWave w (fun v => v.modLanes m (Lane.resumed v))).beginChild w

/-- The lanes that wait as a given lane does, at the same word. -/
def State.waiters (s : State) (w l : Nat) : Mask :=
  let v := s.wave w
  let x := v.lane l
  (lanesOf v.live).foldl (fun m k => if (v.lane k).wait = x.wait && (v.lane k).pc = x.pc then m ||| laneBit k else m) 0

/-- What a lane waits for. -/
def State.waitOf (s : State) (w l : Nat) : Option Wait :=
  let v := s.wave w
  if v.live.getLsbD l then (v.lane l).wait else none

/-- A wave whose waits can end: live, on a core of an active range, neither stopped nor parked nor in candidate mode, no cancel about to
retire it (06 R149, R151; 08 R202; 09 R218; 01 R32; 10 R244). -/
def State.awake (s : State) (w : Nat) : Bool :=
  let v := s.wave w
  !v.exited && v.live != 0 && v.trapState = .running && v.park.isNone && v.cand.isNone && (s.unit v.unit).resident && !(s.unit v.unit).restoring &&
  !s.retires (v.handles.getD w) && s.clusterRuns (clusterOf v.core)

/-- The issue record of lanes that resume, for writing the destination captured at issue. -/
def State.issWait (s : State) (w : Nat) (e : Mask) : Iss :=
  let v := s.wave w
  let l := v.lane (lowestLane e)
  { cur := { wave := w, group := e, pc := l.pc, next := l.after, clause := l.clause, modBase := l.modBase, lastInClause := l.leaves,
             minor := 0, vvirt := 0, cand := none }
    w, wave := v, g := e, e, live := v.live }

/-- Every lane of a set makes a full release into a set (03 R94). -/
def State.releaseLanes (s : State) (w : Nat) (m : Mask) (k : RKey) : State :=
  (lanesOf m).foldl (fun s l => s.fullRelease (.lane w l) k) s

/-- Every lane of a set makes a full acquire of a set (03 R94). -/
def State.acquireLanes (s : State) (w : Nat) (m : Mask) (k : RKey) : State :=
  (lanesOf m).foldl (fun s l => s.fullAcquire (.lane w l) k) s

/-- Every lane of a set makes a full release whose view is handed on (03 R94, R100). -/
def State.releaseLanesView (s : State) (w : Nat) (m : Mask) : View × State :=
  (lanesOf m).foldl (fun (acc : View × State) l => acc.2.releaseView (.lane w l) acc.1) ([], s)

/-- NOP (12 R287). -/
def execNop (w : Full) (s : State) : Host.Outcome State Fault Refusal :=
  s.perform (.nop w) (headF w [] false) (fun _ s => .done s)

/-- A direct target in a module that holds no BLOCK record: ILLOP at the branch's record (12 R290). A target that cannot be fetched is left
to the fetch there. -/
def State.noBlock (s : State) (x : Iss) (target : DWord) : Bool := x.cur.modBase.isSome && s.blockAt x.w target = some none

/-- BRA (13 R299). -/
def execBra (sub : Nat) (cond : Opnd) (off : Int) (s : State) : Host.Outcome State Fault Refusal :=
  s.perform (.bra sub cond off) (Head.plain (if sub = 0 then [] else [(cond, 1)]) false) (fun x s =>
    let c := s.srcU x cond 32 x.lane0
    if s.noBlock x (x.target off) then x.fail Code.illop s
    else if sub = 0 || (sub = 1 && c != 0) || (sub = 2 && c = 0) then s.transfer x ((lanesOf x.g).map (fun l => (l, x.target off)))
    else .done s)

/-- BRC (13 R300). -/
def execBrc (sub : Nat) (cond : Opnd) (off : Int) (s : State) : Host.Outcome State Fault Refusal :=
  s.perform (.brc sub cond off) (Head.plain [] false) (fun x s =>
    let m := match cond with
      | .m n => x.wave.rm x.g n
      | _ => 0
    let taken := x.g &&& (if sub = 0 then m else ~~~m)
    if s.noBlock x (x.target off) then x.fail Code.illop s
    else s.transfer x ((lanesOf taken).map (fun l => (l, x.target off))))

/-- JMPI (13 R301). -/
def execJmpi (w : Full) (s : State) : Host.Outcome State Fault Refusal :=
  s.perform (.jmpi w) (headF w [(w.a, 2)] false) (fun x s =>
    s.transfer x ((lanesOf x.e).map (fun l => (l, BitVec.ofNat 64 (s.src x w.a tagN64 true l)))))

/-- RET (13 R301). -/
def execRet (w : Full) (s : State) : Host.Outcome State Fault Refusal :=
  s.perform (.ret w) (headF w [(w.a, 2)] false) (fun x s =>
    s.transfer x ((lanesOf x.e).map (fun l => (l, BitVec.ofNat 64 (s.src x w.a tagN64 true l)))))

/-- CALL (13 R302): the target is read first; CALL ends its clause, so the next word is a header. -/
def execCall (sub : Nat) (cond link : Opnd) (off : Int) (s : State) : Host.Outcome State Fault Refusal :=
  s.perform (.call sub cond link off) (Head.plain ((link, 2) :: (if sub = 0 then [] else [(cond, 2)])) false) (fun x s =>
    let targets := (lanesOf x.g).map (fun l => (l, if sub = 0 then x.target off else BitVec.ofNat 64 (s.src x cond tagN64 true l)))
    if sub = 0 && s.noBlock x (x.target off) then x.fail Code.illop s
    else match s.transfer x targets with
    | .moved s => .moved (s.put x link true tagN64 (fun _ => x.cur.next.toNat))
    | r => r)

/-- SYNCW (06 R163; 13 R303). -/
def execSyncw (w : Full) (s : State) : Host.Outcome State Fault Refusal :=
  s.perform (.syncw w) (headF w [] false) (fun x s =>
    if x.g = x.live then .done s else .moved (s.waitOn x x.g .syncw))

/-- Every live lane of a wave waits as said, at one word. -/
def State.allWait (s : State) (w : Nat) (wt : Wait) : Bool :=
  let v := s.wave w
  let pc := (v.lane (lowestLane v.live)).pc
  v.live != 0 && (lanesOf v.live).all (fun l => (v.lane l).wait = some wt && (v.lane l).pc = pc)

/-- SYNCW_RELEASE (06 R163). -/
def execSyncwRelease (s : State) : Host.Outcome State Fault Refusal :=
  let w := s.occ.a
  if s.awake w && s.allWait w .syncw then .next (s.leaveWait w (s.wave w).live) else .refused (.notEnabled "SYNCW_RELEASE")

/-- The header address after a clause (12 R272). -/
def clauseAfter (base hdr : DWord) : DWord := base + BitVec.ofNat 64 (8 * (clauseLen hdr + 1))

/-- What LOOP finds of its body: the address after it where it ends a clause, or what its fetches fault with (12 R282); in a module, that a
record of it is one that faults when it is reached, so that the body has no end (12 R290). -/
inductive BodyScan where
  | ends (after last : DWord)
  | endless
  | misplaced
  | fault (code acc : Nat) (ea : DWord)
  | xlate (reason level : Nat) (ea : DWord)
deriving DecidableEq, Repr

/-- The clause headers of a body of n words from an address, fetched in turn (12 R282; 13 R304). -/
def State.scanClauses (s : State) (w : Nat) (g : Mask) : Nat → DWord → Nat → BodyScan × State
  | 0, _, _ => (.misplaced, s)
  | fuel + 1, pos, n =>
    match fetchPathFault pos true with
    | some c => (.fault c AccKind.fetch pos, s)
    | none =>
      match s.fetchBlock w g pos with
      | (.fault c, s) => (.fault c AccKind.fetch pos, s)
      | (.xlate r l, s) => (.xlate r l pos, s)
      | (.ok ws, s) =>
        let h := blockWord ws pos
        if headerBad h then (.fault Code.badclause 0xF 0, s)
        else if n < clauseLen h then (.misplaced, s)
        else if n = clauseLen h then (.ends (clauseAfter pos h) (pos + BitVec.ofNat 64 (8 * n)), s)
        else State.scanClauses s w g fuel (clauseAfter pos h) (n - clauseLen h)

/-- The length of the record at an address of a module, and whether it is an instruction record (12 R290). -/
def recordLen (vvirt : Nat) (bs : List Byte) : Option (Nat × Bool) :=
  match decodeRecord.decodeRecordFields vvirt bs with
  | .ok (.blockRecord _, n) => some (n, false)
  | .ok (.endRecord, _) => none
  | .ok (_, n) => some (n, true)
  | .error _ => if (bs.headD 0xFF).toNat < 128 then some (recordSpan bs, true) else none

/-- The n instruction records of a body from an address (12 R290): each record's blocks are fetched. -/
def State.scanRecords (s : State) (w : Nat) (g : Mask) (vvirt : Nat) : Nat → DWord → Nat → BodyScan × State
  | 0, _, _ => (.misplaced, s)
  | fuel + 1, pos, n =>
    match fetchPathFault pos false with
    | some c => (.fault c AccKind.fetch pos, s)
    | none =>
      match s.fetchBlock w g pos with
      | (.fault c, s) => (.fault c AccKind.fetch pos, s)
      | (.xlate r l, s) => (.xlate r l pos, s)
      | (.ok ws, s) =>
        let nb := BitVec.ofNat 64 (pos.toNat / 64 * 64 + 64)
        let short := match decodeRecord.decodeRecordFields vvirt (blockTail ws pos) with
          | .error .short => true
          | .error _ => (blockTail ws pos).length < recordSpan (blockTail ws pos)
          | .ok _ => false
        let (r2, s) := if !short then (BlockRes.ok [], s)
          else match fetchPathFault nb false with
            | some c => (BlockRes.fault c, s)
            | none => s.fetchBlock w g nb
        match r2 with
        | .fault c => (.fault c AccKind.fetch nb, s)
        | .xlate r l => (.xlate r l nb, s)
        | .ok ws2 =>
          match recordLen vvirt (blockTail ws pos ++ blockTail ws2 nb) with
          | none => (.endless, s)
          | some (len, isInstr) =>
            let next := pos + BitVec.ofNat 64 len
            let n' := if isInstr then n - 1 else n
            if n' = 0 then (.ends next pos, s) else State.scanRecords s w g vvirt fuel next n'

/-- LOOP (13 R304): counters, nesting and placement are judged in this order. -/
def execLoop (lc count : Opnd) (body : Nat) (s : State) : Host.Outcome State Fault Refusal :=
  s.perform (.loop lc count body) (Head.plain [(count, 1)] true) (fun x s =>
    let i := match lc with
      | .lc n => n
      | _ => 0
    let loops := x.wave.loops
    if 3 ≤ loops.length then x.fail Code.loopdepth s
    else if loops.any (fun f => f.lc = i) then x.fail Code.illop s
    else
      let first := match x.cur.clause with
        | some (b, h) => clauseAfter b h
        | none => x.cur.next
      let (r, s) := match x.cur.clause with
        | some _ => s.scanClauses x.w x.g 257 first body
        | none => s.scanRecords x.w x.g x.cur.vvirt 1024 first body
      let enter := fun (after last : DWord) (s : State) =>
        let nested := match loops with
          | f :: _ => after ≤ f.after
          | [] => true
        if !nested || (x.cur.clause.isSome && !x.cur.lastInClause) then x.fail Code.illop s
        else
          let n := s.srcU x count 32 x.lane0
          let s := s.modWave x.w (fun v => v.wlc i (BitVec.ofNat 32 n))
          if n = 0 then .moved (s.modWave x.w (fun v => v.leaveTo x.g after x.cur.modBase))
          else .moved (s.modWave x.w (fun v =>
            { v with loops := { lc := i, first, last, after, body, buf := [] } :: v.loops }.modLanes x.g (fun l =>
              { l with pc := first, clause := none, modBase := x.cur.modBase, enter := false, wait := none })))
      match r with
      | .fault code acc ea => .fault code x.lane0 acc ea s
      | .xlate reason level ea => .park x.lane0 AccKind.fetch reason level ea s
      | .misplaced => x.fail Code.illop s
      | .ends after last => enter after last s
      | .endless => let end_ := ((loops.head?).map (·.after)).getD (BitVec.ofNat 64 (2 ^ 64 - 1)); enter end_ end_ s)

/-- LOOP_END (13 R305): every live lane waits at the innermost loop's end. -/
def execLoopEnd (s : State) : Host.Outcome State Fault Refusal :=
  let w := s.occ.a
  let v := s.wave w
  match v.loops with
  | [] => .refused (.notEnabled "LOOP_END")
  | f :: rest =>
    if s.awake w && (lanesOf v.live).all (fun l => (v.lane l).wait = some .loopEnd) then
      let n := (v.rlc f.lc).toNat
      let base := (v.lane (lowestLane v.live)).modBase
      if n ≤ 1 then .next (s.setWave w (({ v with loops := rest }.wlc f.lc 0).leaveTo v.live f.after base))
      else .next (s.setWave w ((v.wlc f.lc (BitVec.ofNat 32 (n - 1))).modLanes v.live (fun l =>
        { l with pc := f.first, clause := none, enter := false, wait := none })))
    else .refused (.notEnabled "LOOP_END")

/-- LBRK (13 R306). -/
def execLbrk (w : Full) (s : State) : Host.Outcome State Fault Refusal :=
  s.perform (.lbrk w) (headF w [] true) (fun x s =>
    match x.wave.loops with
    | [] => .done s
    | f :: rest => .moved (s.modWave x.w (fun v => ({ v with loops := rest }.wlc f.lc 0).leaveTo x.g f.after x.cur.modBase)))

/-- Lanes that EXIT ends: a handler left without lanes ends as TESCAL with the handled wave's code (13 R307; 09 R223). -/
def State.endLanes (s : State) (x : Iss) (m : Mask) : State :=
  let v := s.wave x.w
  match v.handles with
  | none => if m = 0 then s else s.exitLanes x.w m x.cur.pc .exit
  | some h =>
    let s := s.modWave x.w (fun v => { v with live := v.live &&& ~~~m })
    if (s.wave x.w).live = 0 then s.endHandler x.w (.escal (((s.wave h).trap.map (·.code)).getD 0)) else s

/-- EXIT (13 R307). -/
def execExitI (w : Full) (s : State) : Host.Outcome State Fault Refusal :=
  s.perform (.exitI w) (headF w [] false) (fun x s => .done (s.endLanes x x.e))

/-- EXIT.W (13 R307). -/
def execExitW (w : Full) (s : State) : Host.Outcome State Fault Refusal :=
  s.perform (.exitW w) (headF w [] false) (fun x s => .done (s.endLanes x x.live))

/-- YIELD (13 R308). -/
def execYield (w : Full) (s : State) : Host.Outcome State Fault Refusal :=
  s.perform (.yield w) (headF w [] false) (fun x s => .done (s.modWave x.w (fun v => { v with age := 0, skipCycle := true })))

/-- BKPT (13 R309): taken whenever E is not empty. -/
def execBkpt (w : Full) (s : State) : Host.Outcome State Fault Refusal :=
  s.perform (.bkpt w) (headF w [] false) (fun x s =>
    if x.e = 0 then .done s else .fault Code.bkpt (lowestLane x.e) 0xF 0 s)

/-- TRAP (13 R309). -/
def execTrapI (w : Full) (s : State) : Host.Outcome State Fault Refusal :=
  s.perform (.trapI w) (headF w [] false) (fun x s =>
    if x.e = 0 then .done s else .fault Code.trapsw (lowestLane x.e) 0xF 0 s)

/-- An arrival at the unit barrier by the lanes of a wave (13 R310; 03 R96). -/
def State.barArrive (s : State) (w : Nat) (g : Mask) : State :=
  let u := (s.wave w).unit
  let s := s.releaseLanes w g (.bar u)
  let ph := (s.unit u).barPhase
  let s := s.modWave w (fun v => { v with barArrived := true, barLast := ph, barEver := true })
  s.barJudge u

/-- BAR.WAIT proceeds (13 R310). -/
def State.barPasses (s : State) (w : Nat) : Bool :=
  let v := s.wave w
  (s.unit v.unit).barPhase != v.barLast || !v.barEver

/-- A wave whose barrier has made its acquire, at a BAR word (13 R310; 08 R211); `k` words it has yet to count. -/
def State.barAcquire (s : State) (w : Nat) (g : Mask) (pc : DWord) (k : Nat) : State :=
  (s.acquireLanes w g (.bar (s.wave w).unit)).modWave w (fun v => { v with barSite := some (pc, v.wwords + k) })

/-- BAR.ARRIVE (13 R310): a second arrival in one phase is held. -/
def execBarArrive (w : Full) (s : State) : Host.Outcome State Fault Refusal :=
  s.perform (.barArrive w) (headF w [] true) (fun x s =>
    if x.wave.barArrived then .moved (s.waitOn x x.g .barArrive) else .done (s.barArrive x.w x.g))

/-- BAR.WAIT (13 R310). -/
def execBarWait (w : Full) (s : State) : Host.Outcome State Fault Refusal :=
  s.perform (.barWait w) (headF w [] true) (fun x s =>
    if s.barPasses x.w then .done (s.barAcquire x.w x.g x.cur.pc 1) else .moved (s.waitOn x x.g .barWait))

/-- BAR.SYNC (13 R310). -/
def execBarSync (w : Full) (s : State) : Host.Outcome State Fault Refusal :=
  s.perform (.barSync w) (headF w [] true) (fun x s =>
    if x.wave.barArrived then .moved (s.waitOn x x.g .barSyncArrive)
    else
      let s := s.barArrive x.w x.g
      if s.barPasses x.w then .done (s.barAcquire x.w x.g x.cur.pc 1) else .moved (s.waitOn x x.g .barWait))

/-- BAR_WAIT_RESUME (13 R310). -/
def execBarWaitResume (s : State) : Host.Outcome State Fault Refusal :=
  let w := s.occ.a
  let v := s.wave w
  let m := v.live
  if s.awake w then
    if s.allWait w .barWait && s.barPasses w then
      .next ((s.barAcquire w m v.pcNow 0).leaveWait w m)
    else if s.allWait w .barArrive && !v.barArrived then
      .next ((s.barArrive w m).leaveWait w m)
    else if s.allWait w .barSyncArrive && !v.barArrived then
      let s := s.barArrive w m
      if s.barPasses w then .next ((s.barAcquire w m v.pcNow 0).leaveWait w m)
      else .next (s.modWave w (fun v => v.modLanes m (fun l => { l with wait := some .barWait })))
    else .refused (.notEnabled "BAR_WAIT_RESUME")
  else .refused (.notEnabled "BAR_WAIT_RESUME")

/-- Each lane takes one read step of 4 bytes of a location, and the value goes to the destination (03 R102). -/
def State.mwaitRead (s : State) (w : Nat) (e : Mask) (d : Opnd) (loc : Nat) : State :=
  let x := s.issWait w e
  let readers := match d with
    | .v _ => lanesOf e
    | _ => [lowestLane e]
  let (vals, s) := readers.foldl (fun (acc : List (Nat × Nat) × State) l =>
    let (bs, s) := acc.2.readStep (.lane w l) ((List.range 4).map (loc + ·))
    (acc.1 ++ [(l, leNat (s.maskPoison loc bs))], s)) ([], s)
  let s := s.setPois w ((List.range 4).any (fun i => s.poisoned (loc + i)))
  s.put x d false tagN32 (fun l => ((vals.find? (fun p => p.1 = l)).map (·.2)).getD 0)

/-- A write since a stamp left a 4-byte word different from a value, or it is different now (03 R102). -/
def Mem.differed (m : Mem) (since loc : Nat) (c : Word) : Bool :=
  let locs := (List.range 4).map (loc + ·)
  let times := m.clock :: locs.flatMap (fun x => ((m.versions x).map (·.stamp)).filter (since < ·))
  let at_ := fun (x t : Nat) => ((m.versions x).find? (fun y => y.stamp ≤ t)).getD (m.newest x)
  times.any (fun t => leNat (locs.map (fun x => (at_ x t).val)) != c.toNat)

/-- MWAIT (13 R311; 03 R102): a word that already differs is read at once. -/
def execMwait (w : Full) (s : State) : Host.Outcome State Fault Refusal :=
  s.perform (.mwait w) (headF w [(w.d, 1), (w.a, 2), (w.b, 1)] (perWave w.d)) (fun x s =>
    if x.e = 0 then .done s
    else
      let ea := s.addrBase x w.a (lowestLane x.e)
      s.access x [{ lane := lowestLane x.e, ea, size := 4, kind := AccKind.load, align := 4, cap := none, paths := pathsAtomic }] (fun ps s =>
        s.reach x ps AccKind.load (fun s => match ps with
        | [] => .done s
        | p :: _ =>
          match s.poisonLane ps 4 with
          | some q => .fault Code.poison q.lane AccKind.load q.ea s
          | none =>
            let c := BitVec.ofNat 32 (s.srcU x w.b 32 (lowestLane x.e))
            if (s.memOf (s.vfOf x.w)).nat p.loc 4 != c.toNat then .done (s.mwaitRead x.w x.e w.d p.loc)
            else .moved (s.waitOn x x.e (.mwait x.e w.d s.mem.clock ea p.loc p.tolerant c)))))

/-- MWAIT_WAKE (03 R102); a location that no access reaches any more faults REMOTE (22 R421; log 26). -/
def execMwaitWake (s : State) : Host.Outcome State Fault Refusal :=
  let w := s.occ.a
  match s.waitOf w s.occ.b with
  | some (.mwait e d since ea loc tol c) =>
    let x := s.issWait w e
    if s.awake w && s.cutOff loc then .next (s.takeFault w (x.record Code.remote 1 (lowestLane e) AccKind.load ea))
    else if s.awake w && (s.memOf (s.vfOf w)).differed since loc c then
      if !tol && (List.range 4).any (fun i => s.poisoned (loc + i)) then
        .next (s.takeFault w (x.record Code.poison 1 (lowestLane e) AccKind.load ea))
      else .next ((s.mwaitRead w e d loc).leaveWait w (s.waiters w s.occ.b))
    else .refused (.notEnabled "MWAIT_WAKE")
  | _ => .refused (.notEnabled "MWAIT_WAKE")

/-- WAITT (13 R312): a deadline already reached proceeds at once. -/
def execWaitt (w : Full) (s : State) : Host.Outcome State Fault Refusal :=
  s.perform (.waitt w) (headF w [(w.a, 2)] false) (fun x s =>
    let t := s.addrBase x w.a x.lane0
    if x.e = 0 || t ≤ s.timens (s.vfOf x.w) then .done s else .moved (s.waitOn x x.e (.waitt t)))

/-- WAITT_EXPIRY (13 R312). -/
def execWaittExpiry (s : State) : Host.Outcome State Fault Refusal :=
  let w := s.occ.a
  match s.waitOf w s.occ.b with
  | some (.waitt t) =>
    if s.awake w && t ≤ s.timens (s.vfOf w) then .next (s.leaveWait w (s.waiters w s.occ.b))
    else .refused (.notEnabled "WAITT_EXPIRY")
  | _ => .refused (.notEnabled "WAITT_EXPIRY")

/-- A word whose OP is reserved (12 R286, R288). -/
def execReservedOpcode (w : DWord) (s : State) : Host.Outcome State Fault Refusal :=
  s.perform (.reservedOpcode w) (Head.plain [] false) (fun x s => x.fail Code.illop s)

/-- A BLOCK record that is passed: it has no effect of its own (12 R290). -/
def execBlockRecord (dist : Nat) (s : State) : Host.Outcome State Fault Refusal :=
  s.perform (.blockRecord dist) (Head.plain [] false) (fun _ s => .done s)

/-- The END record: reaching it faults BADCLAUSE (12 R290). -/
def execEndRecord (s : State) : Host.Outcome State Fault Refusal :=
  s.perform .endRecord (Head.plain [] false) (fun x s => x.fail Code.badclause s)

end Sys2Proof.Machine
end

