-- ==== Sys2Proof/Machine/Integer.lean ====
section
/-! DEFINITION. Integer arithmetic, logic, shifts, bit fields, compares, moves and class movement (13 R313-R330; 05 R145, R146; 06 R157). -/
namespace Sys2Proof.Machine

/-- An element read by its type's signedness (13 R297). -/
def elemInt (w : Nat) (signed : Bool) (x : Nat) : Int := if signed then sextNat x w else (x : Nat)

/-- A result that sets no sticky bit. -/
def plainElem (x : Nat) : Nat × Bool × Bool := (x, false, false)

/-- IADD and ISUB of one element: wrapping, saturating signed, saturating unsigned (13 R314). -/
def addElem (w : Nat) (_signed : Bool) (sub x y : Nat) (minus : Bool) : Nat × Bool × Bool :=
  if sub = 0 then plainElem ((x + (if minus then 2 ^ w - y else y)) % 2 ^ w)
  else
    let sg := sub = 1
    let a := elemInt w sg x
    let b := elemInt w sg y
    let t := if minus then a - b else a + b
    let r := if sg then clampInt t (-(2 ^ (w - 1) : Nat)) ((2 ^ (w - 1) : Nat) - 1) else clampInt t 0 ((2 ^ w : Nat) - 1)
    (wrapNat r w, false, r != t)

/-- IDIV of one element (05 R145). -/
def divElem (w : Nat) (signed : Bool) (x y : Nat) : Nat × Bool × Bool :=
  if y = 0 then (2 ^ w - 1, true, false)
  else if signed then
    if x = 2 ^ (w - 1) && y = 2 ^ w - 1 then (x, false, true)
    else plainElem (wrapNat ((sextNat x w).tdiv (sextNat y w)) w)
  else plainElem (x / y)

/-- IREM of one element (05 R145). -/
def remElem (w : Nat) (signed : Bool) (x y : Nat) : Nat × Bool × Bool :=
  if y = 0 then (x, true, false)
  else if signed then
    if x = 2 ^ (w - 1) && y = 2 ^ w - 1 then (0, false, true)
    else plainElem (wrapNat ((sextNat x w).tmod (sextNat y w)) w)
  else plainElem (x % y)

/-- SHL of one element by the low 6 bits of the count (13 R316). -/
def shlElem (w x y : Nat) : Nat := if y % 64 < w then x * 2 ^ (y % 64) % 2 ^ w else 0

/-- ROT of one element, left or right (13 R316). -/
def rotElem (w : Nat) (right : Bool) (x y : Nat) : Nat :=
  let n := y % 64 % w
  let k := if right then (w - n) % w else n
  (x * 2 ^ k + x / 2 ^ (w - k)) % 2 ^ w

/-- BFE on W bits (05 R146). -/
def bfeWord (n : Nat) (signed : Bool) (x off wid : Nat) : Nat :=
  let o := off % 64
  let k := min (wid % 64) (n - o)
  if wid % 64 = 0 || n ≤ o then 0
  else
    let f := x / 2 ^ o % 2 ^ k
    if signed then wrapNat (sextNat f k) n else f

/-- BFI on W bits (05 R146). -/
def bfiWord (n d ins off wid : Nat) : Nat :=
  let o := off % 64
  let k := min (wid % 64) (n - o)
  if wid % 64 = 0 || n ≤ o then d
  else d - d / 2 ^ o % 2 ^ k * 2 ^ o + ins % 2 ^ k * 2 ^ o

/-- An instruction that never computes affine (06 R157). -/
def noAffine (_ : State) (_ : Iss) : DWord × Int := (0, 0)

/-- IADD on affine sources (06 R157). -/
def affAdd (w : Full) (s : State) (x : Iss) : DWord × Int :=
  let a := s.srcA x w.a (wide w.ty)
  let b := s.srcA x w.b (wide w.ty)
  (a.1 + b.1, a.2 + b.2)

/-- ISUB on affine sources (06 R157). -/
def affSub (w : Full) (s : State) (x : Iss) : DWord × Int :=
  let a := s.srcA x w.a (wide w.ty)
  let b := s.srcA x w.b (wide w.ty)
  (a.1 - b.1, a.2 - b.2)

/-- IMUL of an affine and a uniform source (06 R157). -/
def affMul (w : Full) (s : State) (x : Iss) : DWord × Int :=
  let a := s.srcA x w.a (wide w.ty)
  let b := s.srcA x w.b (wide w.ty)
  if w.a.level = 1 then (a.1 * b.1, a.2 * b.1.toInt) else (a.1 * b.1, b.2 * a.1.toInt)

/-- SHL of an affine source by a uniform count (06 R157). -/
def affShl (w : Full) (s : State) (x : Iss) : DWord × Int :=
  let a := s.srcA x w.a (wide w.ty)
  let k := (s.srcA x w.b (wide w.ty)).1.toNat % 64
  (a.1 <<< k, a.2 * (2 ^ k : Nat))

/-- The effect of an integer arithmetic instruction, element by element (13 R297, R313, R314). -/
def intBody (w : Full) (srcs : List Opnd) (cls : ClsPol) (aff : State → Iss → DWord × Int)
    (f : Nat → Bool → Nat → Nat → Nat → Nat × Bool × Bool) (x : Iss) (s : State) : Res :=
  let wd := wide w.ty
  if !intGroup w.ty then x.fail Code.fmtuns s
  else if !tagsAre x srcs w.ty then x.fail Code.fmtmis s
  else if x.e = 0 then .done s
  else if computedLevel cls w = 1 then
    let r := aff s x
    if strideOk r.2 then .done (s.putAffine x w.d wd w.ty r.1 r.2) else x.fail Code.aovf s
  else
    let r := fun l => mapElems w.ty (f (elemBits w.ty) (!isUnsignedFmt w.ty)) (s.src x w.a w.ty wd l) (s.src x w.b w.ty wd l) (s.src x w.c w.ty wd l)
    .done ((s.put x w.d wd w.ty (fun l => (r l).1)).sticky x w.d (x.where_ (fun l => (r l).2.1)) (x.where_ (fun l => (r l).2.2)))

/-- The head of an instruction whose operands are all of its type. -/
def headT (w : Full) (srcs : List Opnd) : Head :=
  headF w ((w.d, regsFor w.ty) :: srcs.map (fun o => (o, regsFor w.ty))) (perWave w.d)

/-- An instruction of the integer arithmetic group. -/
def intOp (i : Instr) (w : Full) (srcs : List Opnd) (cls : ClsPol) (aff : State → Iss → DWord × Int)
    (f : Nat → Bool → Nat → Nat → Nat → Nat × Bool × Bool) (s : State) : Host.Outcome State Fault Refusal :=
  s.perform i (headT w srcs) (intBody w srcs cls aff f)

/-- The effect of a bitwise instruction: any type, which sets the width (13 R315). -/
def bitBody (w : Full) (srcs : List Opnd) (f : Nat → Nat → Nat → Nat) (x : Iss) (s : State) : Res :=
  let wd := wide w.ty
  match keptTag x srcs w.ty with
  | none => x.fail Code.fmtmis s
  | some t => .done (s.put x w.d wd t (fun l => f (if wd then 64 else 32) (s.src x w.a w.ty wd l) (s.src x w.b w.ty wd l)))

/-- A bitwise instruction. -/
def bitOp (i : Instr) (w : Full) (srcs : List Opnd) (f : Nat → Nat → Nat → Nat) (s : State) : Host.Outcome State Fault Refusal :=
  s.perform i (headT w srcs) (bitBody w srcs f)

/-- BFE and BFI: 32- and 64-bit integers; offset and width are single registers whose tags are not checked (13 R317; 05 R133; log 13). -/
def fieldOp (i : Instr) (w : Full) (also : List Opnd) (f : Nat → Nat → Nat → Nat → Nat → Nat) (s : State) : Host.Outcome State Fault Refusal :=
  let wd := wide w.ty
  s.perform i (headF w [(w.d, regsFor w.ty), (w.a, regsFor w.ty), (w.b, 1), (w.c, 1)] (perWave w.d)) (fun x s =>
    if !wordInts w.ty then x.fail Code.fmtuns s
    else if !tagsAre x (w.a :: also) w.ty then x.fail Code.fmtmis s
    else .done (s.put x w.d wd w.ty (fun l =>
      f (if wd then 64 else 32) (s.src x w.a w.ty wd l) (s.srcU x w.b 32 l) (s.srcU x w.c 32 l) (s.src x w.d w.ty wd l))))

/-- The bit-count instructions (13 R318). -/
def countOp (i : Instr) (w : Full) (f : Nat → Nat → Nat) (s : State) : Host.Outcome State Fault Refusal :=
  let wd := wide w.ty
  s.perform i (headF w [(w.d, regsFor w.ty), (w.a, regsFor w.ty)] (perWave w.d)) (fun x s =>
    if !wordInts w.ty then x.fail Code.fmtuns s
    else if !tagsAre x [w.a] w.ty then x.fail Code.fmtmis s
    else .done (s.put x w.d wd w.ty (fun l => f (if wd then 64 else 32) (s.src x w.a w.ty wd l))))

/-- IADD (13 R313, R314; 06 R157). -/
def execIadd (w : Full) (s : State) : Host.Outcome State Fault Refusal :=
  intOp (.iadd w) w [w.a, w.b] .add (affAdd w) (fun ew sg x y _ => addElem ew sg w.sub x y false) s

/-- ISUB (13 R313, R314; 06 R157). -/
def execIsub (w : Full) (s : State) : Host.Outcome State Fault Refusal :=
  intOp (.isub w) w [w.a, w.b] .add (affSub w) (fun ew sg x y _ => addElem ew sg w.sub x y true) s

/-- IMUL (13 R313; 06 R157). -/
def execImul (w : Full) (s : State) : Host.Outcome State Fault Refusal :=
  intOp (.imul w) w [w.a, w.b] .mul (affMul w) (fun ew _ x y _ => plainElem (x * y % 2 ^ ew)) s

/-- IMULH (13 R313). -/
def execImulh (w : Full) (s : State) : Host.Outcome State Fault Refusal :=
  intOp (.imulh w) w [w.a, w.b] .join noAffine (fun ew sg x y _ => plainElem (wrapNat (elemInt ew sg x * elemInt ew sg y / (2 ^ ew : Nat)) ew)) s

/-- IMAD (13 R313). -/
def execImad (w : Full) (s : State) : Host.Outcome State Fault Refusal :=
  intOp (.imad w) w [w.a, w.b, w.c] .join noAffine (fun ew _ x y z => plainElem ((x * y + z) % 2 ^ ew)) s

/-- IDIV (13 R313; 05 R145). -/
def execIdiv (w : Full) (s : State) : Host.Outcome State Fault Refusal :=
  intOp (.idiv w) w [w.a, w.b] .join noAffine (fun ew sg x y _ => divElem ew sg x y) s

/-- IREM (13 R313; 05 R145). -/
def execIrem (w : Full) (s : State) : Host.Outcome State Fault Refusal :=
  intOp (.irem w) w [w.a, w.b] .join noAffine (fun ew sg x y _ => remElem ew sg x y) s

/-- INEG (13 R313). -/
def execIneg (w : Full) (s : State) : Host.Outcome State Fault Refusal :=
  intOp (.ineg w) w [w.a] .join noAffine (fun ew _ x _ _ => plainElem ((2 ^ ew - x) % 2 ^ ew)) s

/-- IABS (13 R313). -/
def execIabs (w : Full) (s : State) : Host.Outcome State Fault Refusal :=
  intOp (.iabs w) w [w.a] .join noAffine (fun ew sg x _ _ => plainElem (wrapNat (elemInt ew sg x).natAbs ew)) s

/-- IMIN (13 R313). -/
def execImin (w : Full) (s : State) : Host.Outcome State Fault Refusal :=
  intOp (.imin w) w [w.a, w.b] .join noAffine (fun ew sg x y _ => plainElem (if elemInt ew sg y < elemInt ew sg x then y else x)) s

/-- IMAX (13 R313). -/
def execImax (w : Full) (s : State) : Host.Outcome State Fault Refusal :=
  intOp (.imax w) w [w.a, w.b] .join noAffine (fun ew sg x y _ => plainElem (if elemInt ew sg x < elemInt ew sg y then y else x)) s

/-- AND (13 R315). -/
def execAndI (w : Full) (s : State) : Host.Outcome State Fault Refusal :=
  bitOp (.andI w) w [w.a, w.b] (fun _ x y => Nat.land x y) s

/-- OR (13 R315). -/
def execOrI (w : Full) (s : State) : Host.Outcome State Fault Refusal :=
  bitOp (.orI w) w [w.a, w.b] (fun _ x y => Nat.lor x y) s

/-- XOR (13 R315). -/
def execXorI (w : Full) (s : State) : Host.Outcome State Fault Refusal :=
  bitOp (.xorI w) w [w.a, w.b] (fun _ x y => Nat.xor x y) s

/-- ANDN (13 R315). -/
def execAndn (w : Full) (s : State) : Host.Outcome State Fault Refusal :=
  bitOp (.andn w) w [w.a, w.b] (fun n x y => Nat.land x (2 ^ n - 1 - y)) s

/-- NOT (13 R315). -/
def execNotI (w : Full) (s : State) : Host.Outcome State Fault Refusal :=
  bitOp (.notI w) w [w.a] (fun n x _ => 2 ^ n - 1 - x) s

/-- SHL (13 R316; 06 R157). -/
def execShl (w : Full) (s : State) : Host.Outcome State Fault Refusal :=
  intOp (.shl w) w [w.a, w.b] .shl (affShl w) (fun ew _ x y _ => plainElem (shlElem ew x y)) s

/-- SHR (13 R316). -/
def execShr (w : Full) (s : State) : Host.Outcome State Fault Refusal :=
  intOp (.shr w) w [w.a, w.b] .join noAffine (fun _ _ x y _ => plainElem (x / 2 ^ (y % 64))) s

/-- SAR (13 R316). -/
def execSar (w : Full) (s : State) : Host.Outcome State Fault Refusal :=
  intOp (.sar w) w [w.a, w.b] .join noAffine (fun ew _ x y _ => plainElem (wrapNat (sextNat x ew / (2 ^ (y % 64) : Nat)) ew)) s

/-- ROT (13 R316). -/
def execRot (w : Full) (s : State) : Host.Outcome State Fault Refusal :=
  intOp (.rot w) w [w.a, w.b] .join noAffine (fun ew _ x y _ => plainElem (rotElem ew (w.sub = 1) x y)) s

/-- BFE (13 R317; 05 R146). -/
def execBfe (w : Full) (s : State) : Host.Outcome State Fault Refusal :=
  fieldOp (.bfe w) w [] (fun n x o k _ => bfeWord n (w.sub = 1) x o k) s

/-- BFI (13 R317; 05 R146): D is read and written. -/
def execBfi (w : Full) (s : State) : Host.Outcome State Fault Refusal :=
  fieldOp (.bfi w) w [w.d] (fun n x o k d => bfiWord n d x o k) s

/-- POPC (13 R318). -/
def execPopc (w : Full) (s : State) : Host.Outcome State Fault Refusal :=
  countOp (.popc w) w (fun n x => popCount n x) s

/-- CLZ (13 R318). -/
def execClz (w : Full) (s : State) : Host.Outcome State Fault Refusal :=
  countOp (.clz w) w (fun n x => clz n x) s

/-- CTZ (13 R318). -/
def execCtz (w : Full) (s : State) : Host.Outcome State Fault Refusal :=
  countOp (.ctz w) w (fun n x => ctz n x) s

/-- BREV (13 R318). -/
def execBrev (w : Full) (s : State) : Host.Outcome State Fault Refusal :=
  countOp (.brev w) w (fun n x => revBits n x) s

/-- The condition of ICMP on words of n bits (13 R319). -/
def icmpCond (sub n x y : Nat) : Bool :=
  match sub with
  | 0 => x = y
  | 1 => x != y
  | 2 => sextNat x n < sextNat y n
  | 3 => sextNat x n ≤ sextNat y n
  | 4 => sextNat y n < sextNat x n
  | 5 => sextNat y n ≤ sextNat x n
  | 6 => x < y
  | 7 => x ≤ y
  | 8 => y < x
  | _ => y ≤ x

/-- A mask destination written in the lanes of E (06 R162). -/
def State.putMask (s : State) (x : Iss) (d : Opnd) (p : Nat → Bool) : State :=
  match d with
  | .m n => s.modWave x.w (fun v => v.wm n x.e (x.where_ p))
  | _ => s

/-- ICMP (13 R319). -/
def execIcmp (w : Full) (s : State) : Host.Outcome State Fault Refusal :=
  let wd := wide w.ty
  s.perform (.icmp w) (headF w [(w.a, regsFor w.ty), (w.b, regsFor w.ty)] false) (fun x s =>
    if !(wordInts w.ty || w.ty = 15) then x.fail Code.fmtuns s
    else if !tagsAre x [w.a, w.b] w.ty then x.fail Code.fmtmis s
    else .done (s.putMask x w.d (fun l => icmpCond w.sub (if wd then 64 else 32) (s.src x w.a w.ty wd l) (s.src x w.b w.ty wd l))))

/-- ISEL (13 R320). -/
def execIsel (w : Full) (s : State) : Host.Outcome State Fault Refusal :=
  let wd := wide w.ty
  let k := regsFor w.ty
  s.perform (.isel w) (headF w [(w.d, k), (w.a, k), (w.b, k)] false) (fun x s =>
    match keptTag x [w.a, w.b] w.ty with
    | none => x.fail Code.fmtmis s
    | some t =>
      let m := match w.c with
        | .m n => x.wave.rm x.g n
        | _ => 0
      .done (s.put x w.d wd t (fun l => if m.getLsbD l then s.src x w.a w.ty wd l else s.src x w.b w.ty wd l)))

/-- d = src(A) under 06 R158 (13 R321). -/
def moveBody (w : Full) (x : Iss) (s : State) : Res :=
  let wd := wide w.ty
  match keptTag x [w.a] w.ty with
  | none => x.fail Code.fmtmis s
  | some t =>
    if w.a.level = 1 then
      let r := s.srcA x w.a wd
      .done (s.putAffine x w.d wd t r.1 r.2)
    else .done (s.put x w.d wd t (fun l => s.src x w.a w.ty wd l))

/-- MOV and PROM (13 R321). -/
def moveOp (i : Instr) (w : Full) (s : State) : Host.Outcome State Fault Refusal :=
  s.perform i (headT w [w.a]) (moveBody w)

/-- MOV (13 R321). -/
def execMovI (w : Full) (s : State) : Host.Outcome State Fault Refusal := moveOp (.movI w) w s

/-- PROM (13 R321). -/
def execProm (w : Full) (s : State) : Host.Outcome State Fault Refusal := moveOp (.prom w) w s

/-- MOVI (13 R322; 12 R282). -/
def execMovi (d : Opnd) (ty : Nat) (imm : Word) (s : State) : Host.Outcome State Fault Refusal :=
  s.perform (.movi d ty imm) (Head.plain [(d, 1)] (perWave d)) (fun x s => .done (s.put x d false ty (fun _ => imm.toNat)))

/-- Elements of a lane value converted between formats (13 R323; 14 R345): bits, SAT, and the overflow record. -/
def convertLane (src dst rm : Nat) (ftz : Bool) (x : Nat) : Nat × Bool × Bool :=
  let ns := if wide src then 1 else fmtElems src
  let nd := if wide dst then 1 else fmtElems dst
  let es := (List.range nd).map (fun i =>
    if i < ns then
      let n := (decodeElem src (elemOf x (elemBits src) i)).flush (ftz && src = 23)
      let (b, sat, iov) := encodeElem dst rm n
      ((if ftz && b / 2 ^ 23 % 256 = 0 then b / 2 ^ 31 * 2 ^ 31 else b), sat, iov)
    else (0, false, false))
  (packElems (elemBits dst) (es.map (·.1)), es.any (fun e => e.2.1), es.any (fun e => e.2.2))

/-- The literal source type of a conversion (12 R276). -/
def litOf : Opnd → Nat
  | .s n => n
  | _ => 0

/-- CVTI and FCVT (13 R323; 14 R345). -/
def convertOp (i : Instr) (w : Full) (dstOk : Nat → Bool) (s : State) : Host.Outcome State Fault Refusal :=
  let src := litOf w.b
  let dst := w.ty
  s.perform i (headF w [(w.d, regsFor dst), (w.a, regsFor src)] (perWave w.d)) (fun x s =>
    if !dstOk dst || !(intGroup src || floatGroup src || convGroup src) || !convOk src dst then x.fail Code.fmtuns s
    else if !tagsAre x [w.a] src then x.fail Code.fmtmis s
    else if x.e = 0 then .done s
    else
      let r := fun l => convertLane src dst (roundMode x w.sub) (w.m5 && dst = 23) (s.src x w.a src (wide src) l)
      let s' := s.put x w.d (wide dst) dst (fun l => (r l).1)
      .done ((s'.sticky x w.d 0 (x.where_ (fun l => (r l).2.2))).setSat x.w (x.where_ (fun l => (r l).2.1) != 0)))

/-- CVTI (13 R323). -/
def execCvti (w : Full) (s : State) : Host.Outcome State Fault Refusal := convertOp (.cvti w) w intGroup s

/-- LEA (13 R324; 06 R157). -/
def execLea (w : Full) (s : State) : Host.Outcome State Fault Refusal :=
  let wd := wide w.ty
  let k := regsFor w.ty
  s.perform (.lea w) (headF w [(w.d, k), (w.a, k), (w.b, k), (w.c, 1)] (perWave w.d)) (fun x s =>
    if !(w.ty = tagN32 || w.ty = tagN64) then x.fail Code.fmtuns s
    else if !tagsAre x [w.a, w.b] w.ty then x.fail Code.fmtmis s
    else if x.e = 0 then .done s
    else
      let sh := s.srcU x w.c 32 (lowestLane x.e) % 64
      if computedLevel .lea w = 1 then
        let a := s.srcA x w.a wd
        let b := s.srcA x w.b wd
        .done (s.putAffine x w.d wd w.ty (a.1 + (b.1 <<< sh)) a.2)
      else .done (s.put x w.d wd w.ty (fun l => s.src x w.a w.ty wd l + s.src x w.b w.ty wd l * 2 ^ sh)))

/-- PICKL (13 R325): any lane of the source, live or not. -/
def execPickl (w : Full) (s : State) : Host.Outcome State Fault Refusal :=
  let wd := wide w.ty
  s.perform (.pickl w) (headF w [(w.d, regsFor w.ty), (w.a, regsFor w.ty), (w.b, 1)] true) (fun x s =>
    let lane := s.srcU x w.b 32 x.lane0 % 32
    .done (s.put x w.d wd w.ty (fun _ => s.src x w.a w.ty wd lane)))

/-- BASE and STRIDE that a varying value over the live lanes forms, if it does (13 R326). -/
def affineFit (n : Nat) (ls : List Nat) (f : Nat → Nat) : Option (DWord × Int) :=
  match ls with
  | [] => none
  | [l0] => some (BitVec.ofInt 64 (sextNat (f l0) n), 0)
  | l0 :: l1 :: _ =>
    let diff := sextNat (wrapNat ((f l1 : Int) - f l0) n) n
    let step : Int := (l1 - l0 : Nat)
    if diff % step != 0 then none
    else
      let st := diff / step
      let b := wrapNat ((f l0 : Int) - st * l0) n
      if !strideOk st || !ls.all (fun l => wrapNat ((b : Int) + st * l) n = f l) then none
      else some (BitVec.ofInt 64 (sextNat b n), st)

/-- VTOA (13 R326). -/
def execVtoa (w : Full) (s : State) : Host.Outcome State Fault Refusal :=
  let wd := wide w.ty
  s.perform (.vtoa w) (headF w [(w.d, 1), (w.a, regsFor w.ty)] true) (fun x s =>
    if !(w.ty = tagN32 || w.ty = tagN64) then x.fail Code.fmtuns s
    else if x.e = 0 then .done s
    else match affineFit (if wd then 64 else 32) (lanesOf x.live) (fun l => s.src x w.a w.ty wd l) with
      | some r => .done (s.putAffine x w.d wd w.ty r.1 r.2)
      | none => x.fail Code.aovf s)

/-- MKAFF (13 R327). -/
def execMkaff (w : Full) (s : State) : Host.Outcome State Fault Refusal :=
  s.perform (.mkaff w) (headF w [(w.d, 1), (w.a, if w.m5 then 2 else 1), (w.b, 1)] true) (fun x s =>
    let st := s.srcI x w.b x.lane0
    .done (s.putAffine x w.d w.m5 w.ty (s.srcA x w.a w.m5).1 st))

/-- ABASE (13 R327). -/
def execAbase (w : Full) (s : State) : Host.Outcome State Fault Refusal :=
  s.perform (.abase w) (headF w [(w.d, if w.m5 then 2 else 1), (w.a, 1)] true) (fun x s =>
    .done (s.put x w.d w.m5 w.ty (fun _ => (s.srcA x w.a w.m5).1.toNat)))

/-- ASTRIDE (13 R327). -/
def execAstride (w : Full) (s : State) : Host.Outcome State Fault Refusal :=
  s.perform (.astride w) (headF w [(w.d, 1), (w.a, 1)] true) (fun x s =>
    .done (s.put x w.d false tagN32 (fun _ => wrapNat (s.srcA x w.a w.m5).2 32)))

/-- VRDX (13 R330). -/
def execVrdx (w : Full) (s : State) : Host.Outcome State Fault Refusal :=
  let wd := wide w.ty
  let k := regsFor w.ty
  s.perform (.vrdx w) (headF w [(w.d, k), (w.a, k), (w.b, 1)] false) (fun x s =>
    let base := match w.a with
      | .v n => n
      | _ => 0
    let reg := fun l => base + k * s.srcU x w.b 32 l
    let vn := max (s.footOf x.w).vregs x.cur.vvirt
    match (lanesOf x.e).find? (fun l => vn < reg l + k) with
    | some l => .fault Code.regidx l 0xF 0 s
    | none =>
      let t := x.wave.rtag (reg (lowestLane x.e))
      if !(lanesOf x.e).all (fun l => x.wave.rtag (reg l) = t) then x.fail Code.fmtmis s
      else .done (s.put x w.d wd t (fun l => s.src x (.v (reg l)) w.ty wd l)))

/-- VWRX (13 R330): each lane writes its own lane of the register it names. -/
def execVwrx (w : Full) (s : State) : Host.Outcome State Fault Refusal :=
  let wd := wide w.ty
  let k := regsFor w.ty
  s.perform (.vwrx w) (headF w [(w.d, k), (w.a, k), (w.b, 1)] false) (fun x s =>
    let base := match w.d with
      | .v n => n
      | _ => 0
    let reg := fun l => base + k * s.srcU x w.b 32 l
    let vn := max (s.footOf x.w).vregs x.cur.vvirt
    match (lanesOf x.e).find? (fun l => vn < reg l + k) with
    | some l => .fault Code.regidx l 0xF 0 s
    | none =>
      let t := match w.a with
        | .v n => x.wave.rtag n
        | _ => tagN32
      .done (s.modWave x.w (fun v => (lanesOf x.e).foldl (fun v l => v.putV (reg l) wd t (laneBit l) (fun l => s.src x w.a w.ty wd l)) v)))

end Sys2Proof.Machine
end

