-- ==== Sys2Proof/Machine/MaskCap.lean ====
section
/-! DEFINITION. Mask instructions and capability instructions (13 R328-R335; 01 R35-R40). -/
namespace Sys2Proof.Machine

/-- A mask source; m0 reads as G (06 R162). -/
def Iss.mask (x : Iss) : Opnd → Mask
  | .m n => x.wave.rm x.g n
  | _ => 0

/-- The mask logic instructions (13 R328). -/
def maskOp (i : Instr) (w : Full) (f : Mask → Mask → Mask) (s : State) : Host.Outcome State Fault Refusal :=
  s.perform i (headF w [] false) (fun x s => .done (s.putMask x w.d (fun l => (f (x.mask w.a) (x.mask w.b)).getLsbD l)))

/-- MAND (13 R328). -/
def execMand (w : Full) (s : State) : Host.Outcome State Fault Refusal := maskOp (.mand w) w (fun a b => a &&& b) s

/-- MOR (13 R328). -/
def execMor (w : Full) (s : State) : Host.Outcome State Fault Refusal := maskOp (.mor w) w (fun a b => a ||| b) s

/-- MXOR (13 R328). -/
def execMxor (w : Full) (s : State) : Host.Outcome State Fault Refusal := maskOp (.mxor w) w (fun a b => a ^^^ b) s

/-- MNOT (13 R328). -/
def execMnot (w : Full) (s : State) : Host.Outcome State Fault Refusal := maskOp (.mnot w) w (fun a _ => ~~~a) s

/-- MANDN (13 R328). -/
def execMandn (w : Full) (s : State) : Host.Outcome State Fault Refusal := maskOp (.mandn w) w (fun a b => a &&& ~~~b) s

/-- A word computed from a mask, to a uniform or varying destination tagged N32 (13 R329). -/
def maskWord (i : Instr) (w : Full) (f : Iss → Nat) (s : State) : Host.Outcome State Fault Refusal :=
  s.perform i (headF w [(w.d, 1)] (perWave w.d)) (fun x s => .done (s.put x w.d false tagN32 (fun _ => f x)))

/-- MPOPC (13 R329). -/
def execMpopc (w : Full) (s : State) : Host.Outcome State Fault Refusal :=
  maskWord (.mpopc w) w (fun x => popCount 32 (x.mask w.a).toNat) s

/-- MFFS (13 R329). -/
def execMffs (w : Full) (s : State) : Host.Outcome State Fault Refusal :=
  maskWord (.mffs w) w (fun x => ctz 32 (x.mask w.a).toNat) s

/-- MTOS (13 R329). -/
def execMtos (w : Full) (s : State) : Host.Outcome State Fault Refusal :=
  maskWord (.mtos w) w (fun x => (x.mask w.a).toNat) s

/-- MLIVE (13 R329). -/
def execMlive (w : Full) (s : State) : Host.Outcome State Fault Refusal :=
  maskWord (.mlive w) w (fun x => x.live.toNat) s

/-- STOM (13 R329): bit l of a uniform a, or whether an affine or varying a is nonzero in lane l. A varying source's tag is not checked (log 75). -/
def execStom (w : Full) (s : State) : Host.Outcome State Fault Refusal :=
  s.perform (.stom w) (headF w [(w.a, 1)] false) (fun x s =>
    .done (s.putMask x w.d (fun l =>
      if w.a.level = 0 then (s.srcU x w.a 32 l).testBit l else s.srcU x w.a 32 l != 0)))

/-- The capability register an operand names. -/
def capNum : Opnd → Nat
  | .k n => n
  | _ => 0

/-- An instruction that derives a capability from a tagged one (13 R331-R333; 01 R36, R37). -/
def capOp (i : Instr) (w : Full) (regs : List (Opnd × Nat)) (f : State → Iss → CapBits → Except Code CapBits) (s : State) :
    Host.Outcome State Fault Refusal :=
  s.perform i (headF w ((w.d, 4) :: (w.a, 4) :: regs) true) (fun x s =>
    if x.e = 0 then .done s
    else if !x.wave.rktag (capNum w.a) then x.fail Code.captag s
    else match f s x (x.wave.rk (capNum w.a)) with
      | .error c => x.fail c s
      | .ok c => .done (s.modWave x.w (fun v => v.wk (capNum w.d) c true)))

/-- CNARROW (13 R331). -/
def execCnarrow (w : Full) (s : State) : Host.Outcome State Fault Refusal :=
  capOp (.cnarrow w) w [(w.b, 2), (w.c, 2)] (fun s x c =>
    let off := s.addrBase x w.b x.lane0
    let len := (s.addrBase x w.c x.lane0).toNat
    if c.length < off.toNat || c.length - off.toNat < len then .error Code.capbnd
    else .ok (capOf (c.base + off) len c.perms c.fmt c.pitch)) s

/-- CPERM (13 R332). -/
def execCperm (w : Full) (s : State) : Host.Outcome State Fault Refusal :=
  capOp (.cperm w) w [(w.b, 1)] (fun s x c =>
    .ok (capOf c.base c.length (Nat.land c.perms (s.srcU x w.b 32 x.lane0 % 256)) c.fmt c.pitch)) s

/-- CFMT (13 R333). -/
def execCfmt (w : Full) (s : State) : Host.Outcome State Fault Refusal :=
  capOp (.cfmt w) w [(w.b, 1), (w.c, 1)] (fun s x c =>
    .ok (capOf c.base c.length c.perms (s.srcU x w.b 32 x.lane0 % 32) (s.srcU x w.c 32 x.lane0 % 2048))) s

/-- CGET (13 R334): the tag is not checked. -/
def execCget (w : Full) (s : State) : Host.Outcome State Fault Refusal :=
  let pair := w.sub < 2
  s.perform (.cget w) (headF w [(w.d, if pair then 2 else 1), (w.a, 4)] true) (fun x s =>
    let c := x.wave.rk (capNum w.a)
    let r := match w.sub with
      | 0 => c.base.toNat
      | 1 => c.length
      | 2 => c.perms
      | 3 => c.fmt
      | _ => c.pitch
    .done (s.put x w.d pair tagN32 (fun _ => r)))

/-- CTAG (13 R334). -/
def execCtag (w : Full) (s : State) : Host.Outcome State Fault Refusal :=
  s.perform (.ctag w) (headF w [(w.d, 1), (w.a, 4)] true) (fun x s =>
    .done (s.put x w.d false tagN32 (fun _ => if x.wave.rktag (capNum w.a) then 1 else 0)))

/-- The head of an M-form word. -/
def headM (w : MForm) (regs : List (Opnd × Nat)) (uni : Bool) : Head :=
  { pn := w.pn, pm := w.pm, fs := w.fs, regs, uni, handler := 0 }

/-- A capability read by a lane: its bits and the tag that came with them (01 R40; 03 R78). The tag of a poisoned sector of a tolerant
page, whose bytes read as zeros, is the granule's or clear: no rule says (01 R29; log 59). -/
def State.readCap (s : State) (ag : Agent) (p : Place) : CapBits × Bool × State :=
  let locs := (List.range 16).map (p.loc + ·)
  let ro := pathOf p.ea = 1
  let (r, s') := if ro then s.readOnlyWrites ag locs else s.readWrites ag locs
  let tag := s.granTag (if ro then [] else (s.agent ag).queue) p.loc r
  let (i, s') := s'.pick (if tag && s.poisoned p.loc then 2 else 1)
  (BitVec.ofNat 128 (leNat (s.maskPoison p.loc (r.map (·.1)))), tag && i = 0, s')

/-- CLD (13 R335): the lowest lane of E reads 16 bytes and the granule's tag. -/
def execCld (w : MForm) (s : State) : Host.Outcome State Fault Refusal :=
  s.perform (.cld w) (headM w [(w.d, 4), (w.a, 2), (w.b, 1)] true) (fun x s =>
    if x.e = 0 then .done s
    else
      let l := lowestLane x.e
      let off := s.srcI x w.b l + w.off * 16
      s.access x [s.reqAt x w.a off 16 16 AccKind.cld 9 pathsAll l] (fun ps s =>
        match ps with
        | [] => .done s
        | p :: _ =>
          s.consume x ps 16 AccKind.cld (fun s =>
            let (c, tag, s) := s.readCap (.lane x.w l) p
            .done (s.modWave x.w (fun v => v.wk (capNum w.d) c tag)))))

/-- CST (13 R335): each lane of E writes the 16 bytes and sets the granule's tag. -/
def execCst (w : MForm) (s : State) : Host.Outcome State Fault Refusal :=
  s.perform (.cst w) (headM w [(w.d, 4), (w.a, 2), (w.b, 1)] false) (fun x s =>
    let reqs := (lanesOf x.e).map (fun l => s.reqAt x w.a (s.srcI x w.b l + w.off * 16) 16 16 AccKind.cst 10 pathsStore l)
    s.access x reqs (fun ps s =>
      let (i, s) := s.newId
      let c := x.wave.rk (capNum w.d)
      let tag := x.wave.rktag (capNum w.d)
      .done (ps.foldl (fun s p =>
        let bytes := (List.range 16).map (fun j => (p.loc + j, c.extractLsb' (8 * j) 8)) ++
          (if keepsTag p.loc then [(locTag p.loc, if tag then 1 else 0)] else [])
        s.queueWrite (.lane x.w p.lane) bytes i p.ea x.cur.pc 5) s)))

end Sys2Proof.Machine
end

