-- ==== Sys2Proof/Machine/Float.lean ====
section
/-! DEFINITION. Floating-point arithmetic, conversion, dot products and expressions, and pair words (14 R337-R350; 12 R283-R285; 05 R135-R139). -/
namespace Sys2Proof.Machine

/-- One element of a floating-point instruction: inputs flushed, the exact value rounded once (14 R338). -/
def fltElem (t rm : Nat) (ftz : Bool) (f : Nat → Num → Num → Num → Num) (a b c : Nat) : Nat × Bool × Bool :=
  plainElem (roundF t rm ftz (f rm (readF t ftz a) (readF t ftz b) (readF t ftz c)))

/-- The effect of a floating-point instruction, element by element (14 R338). -/
def fltBody (w : Full) (srcs : List Opnd) (ok : Nat → Bool) (rm : Iss → Nat) (f : Nat → Num → Num → Num → Num)
    (x : Iss) (s : State) : Res :=
  let wd := wide w.ty
  if !ok w.ty then x.fail Code.fmtuns s
  else if !tagsAre x srcs w.ty then x.fail Code.fmtmis s
  else .done (s.put x w.d wd w.ty (fun l =>
    (mapElems w.ty (fltElem w.ty (rm x) w.m5 f) (s.src x w.a w.ty wd l) (s.src x w.b w.ty wd l) (s.src x w.c w.ty wd l)).1))

/-- The rounding of a word's SUB (12 R280). -/
def bySub (w : Full) (x : Iss) : Nat := roundMode x w.sub
/-- No rounding takes place: the exact selections (14 R341). -/
def exactRound (_ : Iss) : Nat := 0
/-- The rounding of %round (14 R343). -/
def byRound (x : Iss) : Nat := roundMode x 7

/-- The types of the special-function group and of EXPR: FP16, BF16 and FP32 (14 R343, R349). -/
def shortFloat (t : Nat) : Bool := floatGroup t && !wide t

def fAdd (rm : Nat) (a b _ : Num) : Num := a.add rm b
def fSub (rm : Nat) (a b _ : Num) : Num := a.add rm b.neg
def fMul (_ : Nat) (a b _ : Num) : Num := a.mul b
def fFma (rm : Nat) (a b c : Num) : Num := (a.mul b).add rm c
def fMin (_ : Nat) (a b _ : Num) : Num := a.min b
def fMax (_ : Nat) (a b _ : Num) : Num := a.max b
def fAbs (_ : Nat) (a _ _ : Num) : Num := a.abs
def fNeg (_ : Nat) (a _ _ : Num) : Num := a.neg

/-- FADD (14 R339, R340). -/
def execFadd (w : Full) (s : State) : Host.Outcome State Fault Refusal :=
  s.perform (.fadd w) (headT w [w.a, w.b]) (fltBody w [w.a, w.b] floatGroup (bySub w) fAdd)

/-- FSUB (14 R339, R340). -/
def execFsub (w : Full) (s : State) : Host.Outcome State Fault Refusal :=
  s.perform (.fsub w) (headT w [w.a, w.b]) (fltBody w [w.a, w.b] floatGroup (bySub w) fSub)

/-- FMUL (14 R339, R340). -/
def execFmul (w : Full) (s : State) : Host.Outcome State Fault Refusal :=
  s.perform (.fmul w) (headT w [w.a, w.b]) (fltBody w [w.a, w.b] floatGroup (bySub w) fMul)

/-- FFMA (14 R339, R340). -/
def execFfma (w : Full) (s : State) : Host.Outcome State Fault Refusal :=
  s.perform (.ffma w) (headT w [w.a, w.b, w.c]) (fltBody w [w.a, w.b, w.c] floatGroup (bySub w) fFma)

/-- FDIV (14 R339, R340). -/
def execFdiv (w : Full) (s : State) : Host.Outcome State Fault Refusal :=
  s.perform (.fdiv w) (headT w [w.a, w.b]) (fltBody w [w.a, w.b] floatGroup (bySub w) (fun _ a b _ => a.div b))

/-- FSQRT (14 R339, R340). -/
def execFsqrt (w : Full) (s : State) : Host.Outcome State Fault Refusal :=
  s.perform (.fsqrt w) (headT w [w.a]) (fltBody w [w.a] floatGroup (bySub w) (fun _ a _ _ => a.sqrt))

/-- FMIN (14 R341). -/
def execFmin (w : Full) (s : State) : Host.Outcome State Fault Refusal :=
  s.perform (.fmin w) (headT w [w.a, w.b]) (fltBody w [w.a, w.b] floatGroup exactRound fMin)

/-- FMAX (14 R341). -/
def execFmax (w : Full) (s : State) : Host.Outcome State Fault Refusal :=
  s.perform (.fmax w) (headT w [w.a, w.b]) (fltBody w [w.a, w.b] floatGroup exactRound fMax)

/-- FABS (14 R341). -/
def execFabs (w : Full) (s : State) : Host.Outcome State Fault Refusal :=
  s.perform (.fabs w) (headT w [w.a]) (fltBody w [w.a] floatGroup exactRound fAbs)

/-- FNEG (14 R341). -/
def execFneg (w : Full) (s : State) : Host.Outcome State Fault Refusal :=
  s.perform (.fneg w) (headT w [w.a]) (fltBody w [w.a] floatGroup exactRound fNeg)

/-- FRCP (14 R343; log 20). -/
def execFrcp (w : Full) (s : State) : Host.Outcome State Fault Refusal :=
  s.perform (.frcp w) (headT w [w.a]) (fltBody w [w.a] shortFloat byRound (fun _ a _ _ => a.rcp))

/-- FRSQ (14 R343; log 20). -/
def execFrsq (w : Full) (s : State) : Host.Outcome State Fault Refusal :=
  s.perform (.frsq w) (headT w [w.a]) (fltBody w [w.a] shortFloat byRound (fun _ a _ _ => a.rsq))

/-- FEXP2 (14 R343; log 20). -/
def execFexp2 (w : Full) (s : State) : Host.Outcome State Fault Refusal :=
  s.perform (.fexp2 w) (headT w [w.a]) (fltBody w [w.a] shortFloat byRound (fun _ a _ _ => a.exp2))

/-- FLOG2 (14 R343; log 20). -/
def execFlog2 (w : Full) (s : State) : Host.Outcome State Fault Refusal :=
  s.perform (.flog2 w) (headT w [w.a]) (fltBody w [w.a] shortFloat byRound (fun _ a _ _ => a.log2))

/-- FSINPI (14 R343; log 20). -/
def execFsinpi (w : Full) (s : State) : Host.Outcome State Fault Refusal :=
  s.perform (.fsinpi w) (headT w [w.a]) (fltBody w [w.a] shortFloat byRound (fun _ a _ _ => a.sinpi))

/-- FCOSPI (14 R343; log 20). -/
def execFcospi (w : Full) (s : State) : Host.Outcome State Fault Refusal :=
  s.perform (.fcospi w) (headT w [w.a]) (fltBody w [w.a] shortFloat byRound (fun _ a _ _ => a.cospi))

/-- FTANH (14 R343; log 20). -/
def execFtanh (w : Full) (s : State) : Host.Outcome State Fault Refusal :=
  s.perform (.ftanh w) (headT w [w.a]) (fltBody w [w.a] shortFloat byRound (fun _ a _ _ => a.tanh))

/-- FSIGM (14 R343; log 20). -/
def execFsigm (w : Full) (s : State) : Host.Outcome State Fault Refusal :=
  s.perform (.fsigm w) (headT w [w.a]) (fltBody w [w.a] shortFloat byRound (fun _ a _ _ => a.sigm))

/-- FRND (14 R344). -/
def execFrnd (w : Full) (s : State) : Host.Outcome State Fault Refusal :=
  s.perform (.frnd w) (headT w [w.a]) (fltBody w [w.a] floatGroup (bySub w) (fun rm a _ _ => a.integral rm))

/-- The condition of FCMP (14 R342). -/
def fcmpCond (sub : Nat) (x y : Num) : Bool :=
  let u := x = .nan || y = .nan
  match sub with
  | 0 => x.eq y
  | 1 => u || !x.eq y
  | 2 => x.lt y
  | 3 => x.lt y || x.eq y
  | 4 => y.lt x
  | 5 => y.lt x || x.eq y
  | 6 => !u
  | _ => u

/-- FCMP (14 R342). -/
def execFcmp (w : Full) (s : State) : Host.Outcome State Fault Refusal :=
  let wd := wide w.ty
  s.perform (.fcmp w) (headF w [(w.a, regsFor w.ty), (w.b, regsFor w.ty)] false) (fun x s =>
    if !(w.ty = 23 || w.ty = 24) then x.fail Code.fmtuns s
    else if !tagsAre x [w.a, w.b] w.ty then x.fail Code.fmtmis s
    else .done (s.putMask x w.d (fun l =>
      fcmpCond w.sub (readF w.ty w.m5 (s.src x w.a w.ty wd l)) (readF w.ty w.m5 (s.src x w.b w.ty wd l)))))

/-- FCVT (14 R345; 13 R323). -/
def execFcvt (w : Full) (s : State) : Host.Outcome State Fault Refusal :=
  convertOp (.fcvt w) w (fun t => floatGroup t || convGroup t) s

/-- RETAG (14 R346). -/
def execRetag (w : Full) (s : State) : Host.Outcome State Fault Refusal :=
  s.perform (.retag w) (headT w [w.a]) (fun x s =>
    .done (s.put x w.d (wide w.ty) w.ty (fun l => s.src x w.a w.ty (wide w.ty) l)))

/-- FCLASS (14 R347). -/
def execFclass (w : Full) (s : State) : Host.Outcome State Fault Refusal :=
  let wd := wide w.ty
  s.perform (.fclass w) (headF w [(w.d, 1), (w.a, regsFor w.ty)] (perWave w.d)) (fun x s =>
    if !floatGroup w.ty then x.fail Code.fmtuns s
    else if !tagsAre x [w.a] w.ty then x.fail Code.fmtmis s
    else .done (s.put x w.d false tagN32 (fun l =>
      let a := s.src x w.a w.ty wd l
      if fmtElems w.ty = 2 then classify w.ty (elemOf a 16 0) + 2 ^ 16 * classify w.ty (elemOf a 16 1) else classify w.ty a)))

/-- The second register of a pair (14 R348). -/
def secondOf : Opnd → Opnd
  | .v n => .v (n + 1)
  | .s n => .s (n + 1)
  | o => o

/-- A term of a zero sum is -0. -/
def negZero : Num → Bool
  | .fin s m _ => s && m = 0
  | _ => false

/-- The exact sum of three terms; an exact zero is -0 when all are -0 or the mode is RDN (14 R348). -/
def dotNum (rm : Nat) (p q c : Num) : Num :=
  match (p.add rm q).add rm c with
  | .fin s m e => if m = 0 then .fin (rm = 3 || (negZero p && negZero q && negZero c)) 0 0 else .fin s m e
  | x => x

/-- DOTP (14 R348). -/
def execDotp (w : Full) (s : State) : Host.Outcome State Fault Refusal :=
  let t := w.ty
  let a' := secondOf w.a
  let b' := secondOf w.b
  s.perform (.dotp w) (headF w [(w.d, 1), (w.a, 2), (w.b, 2), (w.c, 1)] (perWave w.d)) (fun x s =>
    if !(shortFloat t || (6 ≤ t && t ≤ 11)) then x.fail Code.fmtuns s
    else if !tagsAre x [w.a, a', w.b, b', w.c] t then x.fail Code.fmtmis s
    else .done (s.put x w.d false t (fun l =>
      let n := elemBits t
      let at_ := fun o i => elemOf (s.src x o t false l) n i
      packElems n ((List.range (fmtElems t)).map (fun i =>
        if floatGroup t then
          let f := fun o => readF t w.m5 (at_ o i)
          roundF t (bySub w x) w.m5 (dotNum (bySub w x) ((f w.a).mul (f w.b)) ((f a').mul (f b')) (f w.c))
        else
          let f := fun o => elemInt n (!isUnsignedFmt t) (at_ o i)
          wrapNat (f w.a * f w.b + f a' * f b' + f w.c) n)))))

/-- One token of an EXPR program on a stack of type values; a pushed input is read as any input is, flushed under .FTZ, and a NaN
stands as the canonical one (14 R338, R349; 05 R128). -/
def exprStep (t rm : Nat) (ftz : Bool) (ins : List Nat) (st : List Nat) (tok : Nat) : List Nat :=
  let num := readF t ftz
  let out := fun (x : Num) => roundF t rm ftz x
  match tok, st with
  | 5, y :: x :: r => out ((num x).add rm (num y)) :: r
  | 6, y :: x :: r => out ((num x).add rm (num y).neg) :: r
  | 7, y :: x :: r => out ((num x).mul (num y)) :: r
  | 8, z :: y :: x :: r => out (((num x).mul (num y)).add rm (num z)) :: r
  | 9, y :: x :: r => out ((num x).min (num y)) :: r
  | 10, y :: x :: r => out ((num x).max (num y)) :: r
  | 11, x :: r => out (num x).neg :: r
  | 12, x :: r => out (num x).abs :: r
  | 13, x :: r => out (num x).rcp :: r
  | 14, x :: r => out (num x).exp2 :: r
  | 15, x :: r => out (num x).relu :: r
  | k, st => out (num (ins.getD (k - 1) 0)) :: st

/-- EXPR (14 R349; 12 R283). An input that the word does not supply names s0 and is not read. -/
def execExpr (w : Full) (in3 : Opnd) (tokens : List Nat) (s : State) : Host.Outcome State Fault Refusal :=
  let ins := [w.a, w.b, w.c, in3]
  s.perform (.expr w in3 tokens) (headF w ((w.d, 1) :: (w.a, 1) :: ([w.b, w.c, in3].filter (· != .s 0)).map (fun o => (o, 1))) (perWave w.d)) (fun x s =>
    if !shortFloat w.ty then x.fail Code.fmtuns s
    else if !tagsAre x ins w.ty then x.fail Code.fmtmis s
    else .done (s.put x w.d false w.ty (fun l =>
      let n := elemBits w.ty
      packElems n ((List.range (fmtElems w.ty)).map (fun i =>
        let vals := ins.map (fun o => elemOf (s.src x o w.ty false l) n i)
        ((exprProgram tokens).foldl (exprStep w.ty (bySub w x) w.m5 vals) []).headD 0)))))

/-- FSCALE (14 R350): n is one signed word for all elements. -/
def execFscale (w : Full) (s : State) : Host.Outcome State Fault Refusal :=
  let wd := wide w.ty
  s.perform (.fscale w) (headF w [(w.d, regsFor w.ty), (w.a, regsFor w.ty), (w.b, 1)] (perWave w.d)) (fun x s =>
    if !floatGroup w.ty then x.fail Code.fmtuns s
    else if !tagsAre x [w.a] w.ty then x.fail Code.fmtmis s
    else .done (s.put x w.d wd w.ty (fun l =>
      (mapElems w.ty (fltElem w.ty (bySub w x) w.m5 (fun _ a _ _ => a.scale (s.srcI x w.b l))) (s.src x w.a w.ty wd l) 0 0).1)))

/-- A pair slot as the full form of its operation (12 R285). -/
def slotFull (p : Slot) : Full :=
  let un := popUnary p.pop
  { sub := if 0x10 ≤ p.pop && p.pop ≤ 0x12 then 7 else 0, d := p.d, a := if un then p.b else p.d, b := if un then .s 0 else p.b
    c := .s 0, pn := false, pm := 0, fs := 0, m5 := false, ty := p.ty }

/-- The register operands of a slot. -/
def slotSrcs (p : Slot) : List Opnd := if popUnary p.pop then [p.b] else [p.d, p.b]

/-- The effect of a pair slot: that of its full-form instruction (12 R284, R285). -/
def slotBody (p : Slot) (x : Iss) (s : State) : Res :=
  let w := slotFull p
  let srcs := slotSrcs p
  match p.pop with
  | 0x00 => .done s
  | 0x01 => intBody w srcs .add (affAdd w) (fun n sg a b _ => addElem n sg 0 a b false) x s
  | 0x02 => intBody w srcs .add (affSub w) (fun n sg a b _ => addElem n sg 0 a b true) x s
  | 0x03 => intBody w srcs .mul (affMul w) (fun n _ a b _ => plainElem (a * b % 2 ^ n)) x s
  | 0x04 => bitBody w srcs (fun _ a b => Nat.land a b) x s
  | 0x05 => bitBody w srcs (fun _ a b => Nat.lor a b) x s
  | 0x06 => bitBody w srcs (fun _ a b => Nat.xor a b) x s
  | 0x07 => intBody w srcs .shl (affShl w) (fun n _ a b _ => plainElem (shlElem n a b)) x s
  | 0x08 => intBody w srcs .join noAffine (fun _ _ a b _ => plainElem (a / 2 ^ (b % 64))) x s
  | 0x09 => intBody w srcs .join noAffine (fun n _ a b _ => plainElem (wrapNat (sextNat a n / (2 ^ (b % 64) : Nat)) n)) x s
  | 0x0A => intBody w srcs .join noAffine (fun n sg a b _ => plainElem (if elemInt n sg b < elemInt n sg a then b else a)) x s
  | 0x0B => intBody w srcs .join noAffine (fun n sg a b _ => plainElem (if elemInt n sg a < elemInt n sg b then b else a)) x s
  | 0x0C => moveBody w x s
  | 0x0D => intBody w srcs .join noAffine (fun n _ a _ _ => plainElem ((2 ^ n - a) % 2 ^ n)) x s
  | 0x0E => bitBody w srcs (fun n a _ => 2 ^ n - 1 - a) x s
  | 0x10 => fltBody w srcs floatGroup byRound fAdd x s
  | 0x11 => fltBody w srcs floatGroup byRound fSub x s
  | 0x12 => fltBody w srcs floatGroup byRound fMul x s
  | 0x13 => fltBody w srcs floatGroup exactRound fMin x s
  | 0x14 => fltBody w srcs floatGroup exactRound fMax x s
  | 0x15 => fltBody w srcs floatGroup exactRound fAbs x s
  | 0x16 => fltBody w srcs floatGroup exactRound fNeg x s
  | _ => moveBody w x s

/-- A slot with the faults of its full-form instruction in the order of 06 R168. -/
def slotRun (p : Slot) (x : Iss) (s : State) : Res :=
  if p.pop = 0 then .done s
  else if p.illclass then x.fail Code.illclass s
  else if !(p.d :: slotSrcs p).all (fun o => regOk (s.footOf x.w) x.cur.vvirt (o, regsFor p.ty)) then x.fail Code.regidx s
  else if perWave p.d && x.diverges then x.fail Code.udiverge s
  else slotBody p x s

/-- A pair word (12 R284, R285): both slots read before either writes; where either faults neither takes effect. -/
def execPairWord (p q : Slot) (s : State) : Host.Outcome State Fault Refusal :=
  s.perform (.pairWord p q) (Head.plain [] false) (fun x s =>
    match slotRun p x s with
    | .done s1 => match slotRun q x s1 with
      | .fault code lane acc ea _ => .fault code lane acc ea s
      | r => r
    | r => r)

end Sys2Proof.Machine
end

