-- ==== Sys2Proof/Machine/CrossLane.lean ====
section
/-! DEFINITION. Cross-lane instructions (14 R351-R355; 05 R147). -/
namespace Sys2Proof.Machine

/-- The issue record with other lanes' registers as they stood before any word of this opportunity (14 R351; 06 R152). -/
def State.asStood (s : State) (x : Iss) : Iss :=
  match s.opp with
  | some o => if o.wave = x.w then { x with wave := { x.wave with v := o.v, vtag := o.vtag } } else x
  | none => x

/-- The lane SHFL reads (14 R352). -/
def shflLane (sub n l : Nat) : Nat :=
  match sub with
  | 0 => n % 32
  | 1 => if n ≤ l then l - n else l
  | 2 => if l + n ≤ 31 then l + n else l
  | _ => Nat.xor l (n % 32)

/-- SHFL (14 R352): with a varying index and an A that is not varying, R352 gives d the type and 05 R133 the index's tag; which is the device's
choice (log 68). -/
def execShfl (w : Full) (s : State) : Host.Outcome State Fault Refusal :=
  let wd := wide w.ty
  s.perform (.shfl w) (headF w [(w.d, regsFor w.ty), (w.a, regsFor w.ty), (w.b, 1)] false) (fun x s =>
    match keptTag x [w.a, w.b] w.ty with
    | none => x.fail Code.fmtmis s
    | some k =>
      let (i, s) := s.pick (if isVarying w.b && !isVarying w.a then 2 else 1)
      let t := if isVarying w.a || i = 1 then k else w.ty
      let old := s.asStood x
      .done (s.put x w.d wd t (fun l => s.src old w.a w.ty wd (shflLane w.sub (s.srcU x w.b 32 l) l))))

/-- VOTE (14 R353). -/
def execVote (w : Full) (s : State) : Host.Outcome State Fault Refusal :=
  s.perform (.vote w) (headF w [(w.d, 1), (w.a, 1)] (perWave w.d)) (fun x s =>
    let old := s.asStood x
    let cond := fun l => match w.a with
      | .m n => (x.wave.rm x.g n).getLsbD l
      | _ => s.srcU old w.a 32 l != 0
    let yes := x.where_ cond
    let r := match w.sub with
      | 0 => if yes = 0 then 0 else 1
      | 1 => if yes = x.e then 1 else 0
      | _ => yes.toNat
    .done (s.put x w.d false tagN32 (fun _ => r)))

/-- One step of a reduction on packed elements (05 R147; 14 R354). -/
def redOp (sub t rm : Nat) (ftz : Bool) (a b : Nat) : Nat :=
  let n := elemBits t
  let sg := !isUnsignedFmt t
  (mapElems t (fun x y _ =>
    match sub with
    | 0 => plainElem ((x + y) % 2 ^ n)
    | 1 => plainElem (if elemInt n sg y < elemInt n sg x then y else x)
    | 2 => plainElem (if elemInt n sg x < elemInt n sg y then y else x)
    | 3 => plainElem (Nat.land x y)
    | 4 => plainElem (Nat.lor x y)
    | 5 => plainElem (Nat.xor x y)
    | 6 => fltElem t rm ftz fAdd x y 0
    | 7 => fltElem t rm ftz fMin x y 0
    | _ => fltElem t rm ftz fMax x y 0) a b 0).1

/-- The identity of a reduction in every packed element (05 R147). -/
def redIdentity (sub t : Nat) : Nat :=
  let n := elemBits t
  let sg := !isUnsignedFmt t
  let e := match sub with
    | 1 => if sg then 2 ^ (n - 1) - 1 else 2 ^ n - 1
    | 2 => if sg then 2 ^ (n - 1) else 0
    | 3 => 2 ^ n - 1
    | 6 => (encodeElem t 0 (.fin true 0 0)).1
    | 7 => (encodeElem t 0 (.inf false)).1
    | 8 => (encodeElem t 0 (.inf true)).1
    | _ => 0
  packElems n (List.replicate (if wide t then 1 else fmtElems t) e)

/-- An input of a floating reduction, flushed under .FTZ (14 R354). -/
def redInput (sub t : Nat) (ftz : Bool) (x : Nat) : Nat :=
  if sub < 6 || !ftz then x else if x / 2 ^ 23 % 256 = 0 then x / 2 ^ 31 * 2 ^ 31 else x % 2 ^ (if wide t then 64 else 32)

/-- The pairwise tree of VRED: the result is x[0] (05 R147). -/
def treeReduce (op : Nat → Nat → Nat) (xs : List Nat) : Nat :=
  ([16, 8, 4, 2, 1].foldl (fun (x : List Nat) d => (List.range d).map (fun i => op (x.getD i 0) (x.getD (i + d) 0))) xs).headD 0

/-- The scan of VSCAN, inclusive (05 R147). -/
def treeScan (op : Nat → Nat → Nat) (xs : List Nat) : List Nat :=
  [16, 8, 4, 2, 1].foldl (fun (x : List Nat) d =>
    (List.range 32).map (fun i => if d ≤ i then op (x.getD (i - d) 0) (x.getD i 0) else x.getD i 0)) xs

/-- The 32 lane values of a reduction: lanes outside E give the identity (14 R354). -/
def State.redLanes (s : State) (x : Iss) (w : Full) : List Nat :=
  let old := s.asStood x
  (List.range 32).map (fun l =>
    if x.e.getLsbD l then redInput w.sub w.ty w.m5 (s.src old w.a w.ty (wide w.ty) l) else redIdentity w.sub w.ty)

/-- The checks that VRED and VSCAN share, then their effect (14 R354). -/
def redBody (w : Full) (f : Iss → State → (Nat → Nat → Nat) → Nat → Nat) (x : Iss) (s : State) : Res :=
  if !(if w.sub < 6 then intGroup w.ty else floatGroup w.ty) then x.fail Code.fmtuns s
  else if !tagsAre x [w.a] w.ty then x.fail Code.fmtmis s
  else
    let g := f x s (redOp w.sub w.ty (byRound x) (w.m5 && w.ty = 23))
    .done (s.put x w.d (wide w.ty) w.ty g)

/-- VRED (14 R354; 05 R147). -/
def execVred (w : Full) (s : State) : Host.Outcome State Fault Refusal :=
  s.perform (.vred w) (headT w [w.a]) (redBody w (fun x s op =>
    let r := treeReduce op (s.redLanes x w)
    fun _ => r))

/-- VSCAN (14 R354; 05 R147). A NaN that no step touches keeps its payload, as R147's scheme leaves it, though R128 says that payloads are not
propagated (log 75). -/
def execVscan (w : Full) (s : State) : Host.Outcome State Fault Refusal :=
  s.perform (.vscan w) (headT w [w.a]) (redBody w (fun x s op =>
    let r := treeScan op (s.redLanes x w)
    fun l => if litOf w.b = 1 then (if l = 0 then redIdentity w.sub w.ty else r.getD (l - 1) 0) else r.getD l 0))

/-- MATCH (14 R355). -/
def execMatchI (w : Full) (s : State) : Host.Outcome State Fault Refusal :=
  let wd := wide w.ty
  s.perform (.matchI w) (headF w [(w.d, 1), (w.a, regsFor w.ty)] false) (fun x s =>
    let old := s.asStood x
    let v := (List.range 32).map (fun l => s.src old w.a w.ty wd l)
    .done (s.put x w.d false tagN32 (fun l => (x.where_ (fun j => v.getD j 0 = v.getD l 0)).toNat)))

end Sys2Proof.Machine
end

