-- ==== Sys2Proof/Machine/MemoryOps.lean ====
section
/-! DEFINITION. Loads, stores, prefetch, atomics, cache maintenance (14 R356-R362, R369, R370; 03 R80, R82, R92). -/
namespace Sys2Proof.Machine

/-- The access size of LD and ST (12 R282). -/
def accSize (w : MForm) : Nat := if w.sub = 1 then 1 else if w.sub = 2 then 2 else if wide w.ty then 8 else 4

/-- The lanes that perform a load: the lowest lane of E for a destination that speaks for the wave (03 R82; 14 R357). -/
def loadLanes (x : Iss) (d : Opnd) : List Nat :=
  if x.e = 0 then [] else match d with
    | .v _ => lanesOf x.e
    | _ => [lowestLane x.e]

/-- The offset of one lane from the base: index, plus OFF10 in units of the access size (12 R282). -/
def State.offM (s : State) (x : Iss) (w : MForm) (size l : Nat) : Int := s.srcI x w.b l + w.off * size

/-- The read steps of a load, in lane order: lane and value (03 R80; 14 R357). -/
def State.loadSteps (s : State) (w : Nat) (ps : List Place) (n : Nat) : List (Nat × Nat) × State :=
  ps.foldl (fun (acc : List (Nat × Nat) × State) p =>
    let locs := (List.range n).map (p.loc + ·)
    let ag := Agent.lane w p.lane
    let (bs, s) := if pathOf p.ea = 1 then acc.2.readOnly ag locs else acc.2.readStep ag locs
    (acc.1 ++ [(p.lane, leNat (s.maskPoison p.loc bs))], s)) ([], s)

/-- The value of a lane in a list of lanes and values. -/
def valOf (vals : List (Nat × Nat)) (l : Nat) : Nat := ((vals.find? (fun p => p.1 = l)).map (·.2)).getD 0

/-- A loaded byte or half extended by its type (14 R357). -/
def extendLoad (w : MForm) (size v : Nat) : Nat :=
  if w.sub != 0 && (w.ty = 10 || w.ty = 15) then wrapNat (sextNat v (8 * size)) 32 else v

/-- LD (14 R357). -/
def execLd (w : MForm) (s : State) : Host.Outcome State Fault Refusal :=
  let size := accSize w
  let k := if size = 8 then 2 else 1
  s.perform (.ld w) (headM w [(w.d, k), (w.a, 2), (w.b, 1)] (perWave w.d)) (fun x s =>
    let reqs := (loadLanes x w.d).map (fun l => s.reqAt x w.a (s.offM x w size l) size size AccKind.load 1 pathsAll l)
    s.access x reqs (fun ps s => s.consume x ps size AccKind.load (fun s =>
      let (vals, s) := s.loadSteps x.w ps size
      .done (s.put x w.d (size = 8) w.ty (fun l => extendLoad w size (valOf vals l))))))

/-- ST (14 R358): each lane of E takes one write step. -/
def execSt (w : MForm) (s : State) : Host.Outcome State Fault Refusal :=
  let size := accSize w
  let k := if size = 8 then 2 else 1
  s.perform (.st w) (headM w [(w.d, k), (w.a, 2), (w.b, 1)] false) (fun x s =>
    let reqs := (lanesOf x.e).map (fun l => s.reqAt x w.a (s.offM x w size l) size size AccKind.store 2 pathsStore l)
    s.access x reqs (fun ps s =>
      let (i, s) := s.newId
      .done (ps.foldl (fun s p =>
        s.queueWrite (.lane x.w p.lane) (plainWrite p.loc size (s.src x w.d w.ty (size = 8) p.lane)) i p.ea x.cur.pc) s)))

/-- The 64-byte line that holds an address. -/
def lineOf (ea : DWord) : DWord := BitVec.ofNat 64 (ea.toNat / 64 * 64)

/-- A request for the line that holds a lane's address (14 R359). -/
def State.lineReq (s : State) (x : Iss) (a : Opnd) (off : Int) (kind : AccKind) (paths : List Nat) (l : Nat) : Req :=
  match a with
  | .k n =>
    let c := x.wave.rk n
    let ea := lineOf (c.base + BitVec.ofInt 64 off)
    { lane := l, ea, size := 64, kind, align := 0, cap := capCheck (x.wave.rktag n) c (ea - c.base) 64 1, paths }
  | _ => { lane := l, ea := lineOf (s.addrBase x a l + BitVec.ofInt 64 off), size := 64, kind, align := 0, cap := none, paths }

/-- PFETCH (14 R359): its checks are all that shows. -/
def execPfetch (w : MForm) (s : State) : Host.Outcome State Fault Refusal :=
  s.perform (.pfetch w) (headM w [(w.a, 2), (w.b, 1)] false) (fun x s =>
    let reqs := (lanesOf x.e).map (fun l => s.lineReq x w.a (s.offM x w 64 l) AccKind.prefetch pathsAll l)
    s.access x reqs (fun _ s => .done s))

/-- The types an ATOM operation accepts (14 R360). -/
def atomTypeOk (sub t : Nat) : Bool :=
  match sub with
  | 8 => wordInts t || t = 23 || t = 24
  | 11 => t = 23 || t = 24
  | _ => wordInts t

/-- The new value of an ATOM (14 R360). -/
def atomNew (sub t o b : Nat) : Nat :=
  let n := if wide t then 64 else 32
  match sub with
  | 0 => (o + b) % 2 ^ n
  | 1 => if sextNat b n < sextNat o n then b else o
  | 2 => if sextNat o n < sextNat b n then b else o
  | 3 => min o b
  | 4 => max o b
  | 5 => Nat.land o b
  | 6 => Nat.lor o b
  | 7 => Nat.xor o b
  | 8 => b
  | 9 => if b ≤ o then 0 else o + 1
  | 10 => if o = 0 || b < o then b else o - 1
  | _ => roundF t 0 false ((readF t false o).add 0 (readF t false b))

/-- The atomic step of one lane and the old value, 0 where a tolerant page's sector is poisoned (03 R92; 14 R360-R362). -/
def State.atomOne (w n : Nat) (f : Nat → Nat → Option Nat) (l loc : Nat) (s : State) : Nat × State :=
  let bad := s.poisoned loc
  let (o, s) := s.atomicStep (.lane w l) loc n (fun o => f l (if bad then 0 else o))
  (if bad then 0 else o, s)

/-- The old values given to the destination: each lane's own, or that of the first step for a uniform one (14 R362). -/
def oldFor (d : Opnd) (vals : List (Nat × Nat)) (l : Nat) : Nat :=
  match d with
  | .v _ => valOf vals l
  | _ => ((vals.head?).map (·.2)).getD 0

/-- The registers an atomic's destination names. -/
def destRegs (d : Opnd) (k : Nat) : List (Opnd × Nat) :=
  match d with
  | .imm _ => []
  | _ => [(d, k)]

/-- ATOM (14 R360, R362; 03 R92). -/
def execAtom (w : Full) (s : State) : Host.Outcome State Fault Refusal :=
  let size := if wide w.ty then 8 else 4
  let k := regsFor w.ty
  s.perform (.atom w) (headF w (destRegs w.d k ++ [(w.a, 2), (w.b, k), (w.c, 1)]) (perWave w.d)) (fun x s =>
    if !atomTypeOk w.sub w.ty then x.fail Code.fmtuns s
    else if (x.wave.stepsOf x.g).isNone && !tagsAre x [w.b] w.ty then x.fail Code.fmtmis s
    else
      let reqs := (lanesOf x.e).map (fun l => s.reqAt x w.a (s.srcI x w.c l) size size AccKind.atomic 4 pathsAtomic l)
      s.steppedAccess x (.atom w) reqs size AccKind.atomic
        (State.atomOne x.w size (fun l o => some (atomNew w.sub w.ty o (s.src x w.b w.ty (wide w.ty) l))))
        (fun vals s => .done (s.put x w.d (wide w.ty) w.ty (oldFor w.d vals))))

/-- ATCAS (14 R361, R362; 03 R92). -/
def execAtcas (w : Full) (s : State) : Host.Outcome State Fault Refusal :=
  let size := if wide w.ty then 8 else 4
  let k := regsFor w.ty
  s.perform (.atcas w) (headF w (destRegs w.d k ++ [(w.a, 2), (w.b, k), (w.c, k)]) (perWave w.d)) (fun x s =>
    if !(wordInts w.ty || w.ty = 23 || w.ty = 24) then x.fail Code.fmtuns s
    else if (x.wave.stepsOf x.g).isNone && !tagsAre x [w.b, w.c] w.ty then x.fail Code.fmtmis s
    else
      let reqs := (lanesOf x.e).map (fun l => s.reqAt x w.a 0 size size AccKind.atomic 4 pathsAtomic l)
      s.steppedAccess x (.atcas w) reqs size AccKind.atomic
        (State.atomOne x.w size (fun l o => if o = s.src x w.b w.ty (wide w.ty) l then some (s.src x w.c w.ty (wide w.ty) l) else none))
        (fun vals s => .done (s.put x w.d (wide w.ty) w.ty (oldFor w.d vals))))

/-- CFLUSH (14 R369): no value that an agent can read changes. -/
def execCflush (w : Full) (s : State) : Host.Outcome State Fault Refusal :=
  s.perform (.cflush w) (headF w [(w.a, 2), (w.c, 1)] false) (fun x s =>
    let reqs := (lanesOf x.e).map (fun l => s.lineReq x w.a (s.srcI x w.c l) AccKind.load [0, 1, 7, 8] l)
    s.access x reqs (fun _ s => .done s))

/-- Fetched copies of blocks that overlap a range are discarded in a core (14 R370). -/
def CoreSt.discard (c : CoreSt) (vf lo n : Nat) : CoreSt :=
  { c with icache := c.icache.filter (fun p => !(vf * 2 ^ 60 + lo / 64 ≤ p.1 && p.1 ≤ vf * 2 ^ 60 + (lo + n - 1) / 64)) }

/-- ICINV (14 R370; 01 R44): once per issue. -/
def execIcinv (w : Full) (s : State) : Host.Outcome State Fault Refusal :=
  s.perform (.icinv w) (headF w [(w.a, 2), (w.b, 1)] true) (fun x s =>
    if x.e = 0 then .done s
    else
      let l := lowestLane x.e
      let ea := s.addrBase x w.a l
      match fetchPathFault ea false with
      | some c => .fault c l 0xF ea s
      | none =>
        let n := s.srcU x w.b 32 l
        if n = 0 then .done s
        else
          let vf := s.vfOf x.w
          .done (s.cores.foldl (fun s p => s.modCore p.1 (fun c => c.discard vf ea.toNat n)) s))

end Sys2Proof.Machine
end

