-- ==== Sys2Proof/Machine/Sync.lean ====
section
/-! DEFINITION. Fences, sync objects, the binding table and arrival barriers (14 R363-R368; 03 R84-R90, R94, R101; 04 R117). -/
namespace Sys2Proof.Machine

/-- The wave's fence set reaches every lane of a fence when the last of them has published, so that its lanes order each other (03 R89, R93). -/
def State.fenceMeet (s : State) (w : Nat) (e : Mask) : State := (lanesOf e).foldl (fun s l => s.fullAcquire (.lane w l) (.fence 0 w)) s

/-- FENCE (14 R363; 03 R82, R89). -/
def execFence (w : Full) (s : State) : Host.Outcome State Fault Refusal :=
  s.perform (.fence w) (headF w [] false) (fun x s =>
    let ls := match x.wave.stepsOf x.g with
      | some t => t.left
      | none => (lanesOf x.e).map (fun l => (l, 0))
    s.laneSteps x (.fence w) ls [] (fun l _ s => (0, s.fenceStep x.w l w.sub)) (fun _ s => .done (s.fenceMeet x.w x.e)))

/-- FENCE.PATH (14 R363; 03 R90). -/
def execFencePath (w : Full) (s : State) : Host.Outcome State Fault Refusal :=
  s.perform (.fencePath w) (headF w [] false) (fun x s =>
    .done ((lanesOf x.e).foldl (fun s l => s.fencePathStep (.lane x.w l)) s))

/-- The same location for each lane of E: a request at a uniform address (14 R364). -/
def State.uniReqs (s : State) (x : Iss) (a : Opnd) (size align : Nat) (kind : AccKind) (paths : List Nat) : List Req :=
  (lanesOf x.e).map (fun l => { lane := l, ea := s.addrBase x a l, size, kind, align, cap := none, paths })

/-- ACQ by one lane (03 R87): its word is a sync object's from then on (03 R84). -/
def State.acqStep (s : State) (ag : Agent) (loc : Nat) : Nat × State :=
  let (v, s) := s.atomicStep ag loc 8 (fun _ => none)
  (v, (s.relMerge (.sync loc) []).fullAcquire ag (.sync loc))

/-- ACQ (14 R364; 03 R87): a destination that speaks for the wave takes the value read by the lowest lane of E. -/
def execAcq (w : Full) (s : State) : Host.Outcome State Fault Refusal :=
  s.perform (.acq w) (headF w [(w.d, if w.m5 then 2 else 1), (w.a, 2)] (perWave w.d)) (fun x s =>
    s.steppedAccess x (.acq w) (s.uniReqs x w.a 8 8 AccKind.load [0]) 8 AccKind.load
      (fun l loc s => let (v, t) := s.acqStep (.lane x.w l) loc; (if s.poisoned loc then 0 else v, t))
      (fun vals s => .done (s.put x w.d w.m5 w.ty (fun l => valOf vals (if isVarying w.d then l else lowestLane x.e)))))

/-- The physical runs of a bound region: the pages that now translate (03 R85; 01 R23). -/
def State.regionRuns (s : State) (vf base len : Nat) : List (Nat × Nat) :=
  (List.range (len / 65536 + 2)).filterMap (fun i =>
    let page := (base / 65536 + i) * 65536
    let lo := max base page
    let hi := min (base + len) (page + 65536)
    if hi ≤ lo then none
    else match s.walk vf lo with
      | .leaf level e _ => some (leafLoc level e lo, hi - lo)
      | .xlate _ _ => none)

/-- The location of the data that a location, or the granule of a capability tag, belongs to. -/
def dataLoc (loc : Nat) : Nat := if 2 ^ 96 ≤ loc then (loc - 2 ^ 96) * 16 else loc

/-- Whether a bound object's word is the word at a location: an address names it that equals the one given or maps to it (03 R78, R84). -/
def State.sameObject (s : State) (vf obj loc : Nat) (ea : DWord) : Bool :=
  obj = ea.toNat || (match s.walk vf obj with
    | .leaf level e _ => leafLoc level e obj = loc
    | .xlate _ _ => false)

/-- The runs of every region bound to the object at a location (03 R85, R86; log 15). -/
def State.boundRuns (s : State) (vf : Nat) (ea : DWord) (loc : Nat) : List (Nat × Nat) :=
  ((s.ctx vf).bindings.filter (fun b => s.sameObject vf b.2.2 loc ea)).flatMap (fun b => s.regionRuns vf b.1 b.2.1)

/-- The words that REL and ACQ have used as sync objects. -/
def State.usedObjects (s : State) : List Nat := s.rels.filterMap (fun p => match p.1 with
  | .sync loc => some loc
  | _ => none)

/-- The words of the objects that any context has bound, those that REL and ACQ have used, and the one at a location: no part of a release
set (03 R84). -/
def State.objectRuns (s : State) (loc : Nat) : List (Nat × Nat) :=
  (loc :: s.usedObjects).map (fun a => (a, 8)) ++ s.ctxs.flatMap (fun c => c.2.bindings.filterMap (fun b => match s.walk c.1 b.2.2 with
    | .leaf level e _ => some (leafLoc level e b.2.2, 8)
    | .xlate _ _ => none))

/-- Whether a location lies in some runs. -/
def inRuns (rs : List (Nat × Nat)) (loc : Nat) : Bool := rs.any (fun r => r.1 ≤ dataLoc loc && dataLoc loc < r.1 + r.2)

/-- REL by one lane, of the regions bound at this moment (03 R86). One that another package or host does not take fails as a store does
(09 R227; 22 R421). -/
def State.relStep (s : State) (vf : Nat) (ag : Agent) (ea pc : DWord) (loc : Nat) (v : Nat) : State :=
  let runs := s.boundRuns vf ea loc
  let objs := s.objectRuns loc
  let s := s.drainWhere ag (fun y => (loc ≤ y && y < loc + 8) || inRuns runs y)
  let s := s.relMerge (.sync loc) ((s.agent ag).view.filter (fun p => inRuns runs p.1 && !inRuns objs p.1))
  let t := s.storeOrFail ag (plainWrite loc 8 v) ea pc
  if s.cutOff loc then t else t.viewLatest ag ((List.range 8).map (loc + ·))

/-- REL (14 R365; 03 R86). -/
def execRelI (w : Full) (s : State) : Host.Outcome State Fault Refusal :=
  s.perform (.relI w) (headF w [(w.a, 2), (w.b, if w.m5 then 2 else 1)] false) (fun x s =>
    let one := fun (l loc : Nat) (s : State) =>
      (0, s.relStep (s.vfOf x.w) (.lane x.w l) (s.addrBase x w.a l) x.cur.pc loc (s.srcU x w.b (if w.m5 then 64 else 32) l))
    match x.wave.stepsOf x.g with
    | some t => s.laneSteps x (.relI w) t.left t.vals one (fun _ s => .done s)
    | none => s.access x (s.uniReqs x w.a 8 8 AccKind.store [0]) (fun ps s =>
        s.laneSteps x (.relI w) (ps.map (fun p => (p.lane, p.loc))) [] one (fun _ s => .done s)))

/-- The checks of an address on path 0x0 that is not translated: PRIV, ADDRPATH, ALIGN (03 R84, R85; 01 R41). -/
def plainPathFault (ea : DWord) (n align : Nat) : Option Code :=
  if pathOf ea = 0xF then some Code.priv
  else if pathOf ea != 0 || !canonical ea || 2 ^ 55 < ea.toNat + n then some Code.addrpath
  else if ea.toNat % align != 0 then some Code.align
  else none

/-- Whether a new region meets a bound one, or the table is full (03 R85). -/
def Ctx.bindOverlap (c : Ctx) (base len : Nat) : Bool :=
  256 ≤ c.bindings.length || c.bindings.any (fun b => base < b.1 + b.2.1 && b.1 < base + len)

/-- BIND (14 R366; 03 R85). -/
def execBindI (w : Full) (s : State) : Host.Outcome State Fault Refusal :=
  s.perform (.bindI w) (headF w [(w.a, 2), (w.b, if w.m5 then 2 else 1), (w.c, 2)] true) (fun x s =>
    if x.e = 0 then .done s
    else
      let l := lowestLane x.e
      let base := s.addrBase x w.a l
      let obj := s.addrBase x w.c l
      let len := s.srcU x w.b (if w.m5 then 64 else 32) l
      let vf := s.vfOf x.w
      match plainPathFault obj 8 8 with
      | some c => .fault c l 0xF obj s
      | none => match plainPathFault base len 64 with
        | some c => .fault c l 0xF base s
        | none =>
          if len % 64 != 0 || len < 64 then .fault Code.align l 0xF base s
          else if (s.ctx vf).bindOverlap base.toNat len then .fault Code.bindovl l 0xF base s
          else .done (s.modCtx vf (fun c => { c with bindings := c.bindings ++ [(base.toNat, len, obj.toNat)] })))

/-- UNBIND (14 R366; 03 R85). -/
def execUnbind (w : Full) (s : State) : Host.Outcome State Fault Refusal :=
  s.perform (.unbind w) (headF w [(w.a, 2)] true) (fun x s =>
    if x.e = 0 then .done s
    else
      let base := (s.addrBase x w.a (lowestLane x.e)).toNat
      .done (s.modCtx (s.vfOf x.w) (fun c => { c with bindings := c.bindings.filter (fun b => b.1 != base) })))

/-- An arrival barrier's 128 bits after an arrival of b bytes (04 R117). -/
def arriveNew (o b : Nat) : Nat :=
  let exp := o % 2 ^ 32
  let arr := (o / 2 ^ 32 % 2 ^ 32 + b) % 2 ^ 32
  let ph := o / 2 ^ 64 % 2 ^ 32
  let top := o / 2 ^ 96
  if exp ≤ arr then
    exp + 2 ^ 32 * (arr - exp) + 2 ^ 64 * ((ph + 1) % 2 ^ 32) + 2 ^ 96 * (if exp ≤ arr - exp then Nat.lor top 1 else top)
  else exp + 2 ^ 32 * arr + 2 ^ 64 * ph + 2 ^ 96 * top

/-- An arrival barrier's 128 bits after INIT (04 R117; 14 R367). -/
def initNew (o n : Nat) : Nat := n % 2 ^ 32 + 2 ^ 64 * (o / 2 ^ 64 % 2 ^ 32) + 2 ^ 96 * (o / 2 ^ 96 / 2 * 2)

/-- An arrival by an agent whose release into the barrier's set has been made (03 R101; 04 R117). Where it changes PHASE, a wait that
observes the change acquires what was released until then (log 61). -/
def State.abarArriveAt (s : State) (ag : Agent) (loc b : Nat) : State :=
  let (o, s) := s.atomicStep ag loc 16 (fun o => some (arriveNew o b))
  if o / 2 ^ 64 % 2 ^ 32 != arriveNew o b / 2 ^ 64 % 2 ^ 32 then s.relSet (.abarPhase loc) (s.rel (.abar loc)) else s

/-- The barrier that an ABAR form names, handed on with the lowest lane of E (14 R367). -/
def State.withBarrier (s : State) (x : Iss) (a : Opnd) (k : Nat → Nat → State → Res) : Res :=
  if x.e = 0 then .done s
  else
    let l := lowestLane x.e
    s.access x [{ lane := l, ea := s.addrBase x a l, size := 16, kind := AccKind.atomic, align := 16, cap := none, paths := [2] }] (fun ps s =>
      match ps with
      | p :: _ => k l p.loc s
      | [] => .done s)

/-- ABAR.INIT (14 R367). -/
def execAbarInit (w : Full) (s : State) : Host.Outcome State Fault Refusal :=
  s.perform (.abarInit w) (headF w [(w.a, 2), (w.b, 1)] true) (fun x s =>
    s.withBarrier x w.a (fun l loc s =>
      .done (s.atomicStep (.lane x.w l) loc 16 (fun o => some (initNew o (s.srcU x w.b 32 l)))).2))

/-- ABAR.ARRIVE (14 R367; 03 R101). -/
def execAbarArrive (w : Full) (s : State) : Host.Outcome State Fault Refusal :=
  s.perform (.abarArrive w) (headF w [(w.a, 2), (w.b, 1)] true) (fun x s =>
    s.withBarrier x w.a (fun l loc s =>
      .done ((s.releaseLanes x.w x.e (.abar loc)).abarArriveAt (.lane x.w l) loc (s.srcU x w.b 32 l))))

/-- ABAR.WAIT (14 R368; 03 R101). -/
def execAbarWait (w : Full) (s : State) : Host.Outcome State Fault Refusal :=
  s.perform (.abarWait w) (headF w [(w.a, 2), (w.b, 1)] false) (fun x s =>
    s.withBarrier x w.a (fun l loc s =>
      let p := s.srcU x w.b 32 l
      let s := s.abarWaiters loc 1
      if s.mem.abarPhase loc != p then .done ((s.abarWaiters loc (2 ^ 16 - 1)).acquireLanes x.w x.e (.abarPhase loc))
      else .moved (s.waitOn x x.e (.abar x.e loc (BitVec.ofNat 32 p)))))

/-- ABAR_WAIT_RESUME (14 R368). -/
def execAbarWaitResume (s : State) : Host.Outcome State Fault Refusal :=
  let w := s.occ.a
  match s.waitOf w s.occ.b with
  | some (.abar e loc p) =>
    if s.awake w && s.mem.abarPhase loc != p.toNat then
      .next (((s.abarWaiters loc (2 ^ 16 - 1)).acquireLanes w e (.abarPhase loc)).leaveWait w (s.waiters w s.occ.b))
    else .refused (.notEnabled "ABAR_WAIT_RESUME")
  | _ => .refused (.notEnabled "ABAR_WAIT_RESUME")

/-- ABAR.TEST (14 R368). -/
def execAbarTest (w : Full) (s : State) : Host.Outcome State Fault Refusal :=
  s.perform (.abarTest w) (headF w [(w.d, 1), (w.a, 2), (w.b, 1)] (perWave w.d)) (fun x s =>
    s.withBarrier x w.a (fun l loc s =>
      let yes := s.mem.abarPhase loc != s.srcU x w.b 32 l
      let s := if yes then s.acquireLanes x.w x.e (.abarPhase loc) else s
      .done (s.put x w.d false tagN32 (fun _ => if yes then 1 else 0))))

end Sys2Proof.Machine
end

