-- ==== Sys2Proof/Machine/Candidate.lean ====
section
/-! DEFINITION. Candidate mode: CRUN, the candidate words, retiring, and the Vestibule (10; 09 R229, R230). -/
namespace Sys2Proof.Machine

/-- Left rotation of 64 bits. -/
def rotl64 (x : DWord) (n : Nat) : DWord := x.rotateLeft n

/-- A varying pair in one lane. -/
def Wave.rv2 (v : Wave) (n l : Nat) : DWord := pairOf (v.rv n l) (v.rv (n + 1) l)
/-- A varying pair written in one lane. -/
def Wave.wv2 (v : Wave) (n l : Nat) (x : DWord) : Wave := (v.wv n l (loWord x)).wv (n + 1) l (hiWord x)

/-- Bits hi..lo of a word replaced. -/
def setBits (x : Word) (hi lo n : Nat) : Word :=
  BitVec.ofNat 32 (x.toNat - bits x.toNat hi lo * 2 ^ lo + n % 2 ^ (hi - lo + 1) * 2 ^ lo)

/-- Candidate register c_i of a lane (10 R242). -/
def Wave.cReg (v : Wave) (l i : Nat) : Word := v.rv (248 + i) l
/-- The control word of a lane (10 R242). -/
def Wave.ctl (v : Wave) (l : Nat) : Word := v.rv 247 l
/-- The index of a lane's next candidate word. -/
def Wave.cPc (v : Wave) (l : Nat) : Nat := bits (v.ctl l).toNat 5 0
/-- A lane that is running a candidate. -/
def Wave.cAct (v : Wave) (l : Nat) : Bool := bits (v.ctl l).toNat 31 31 = 1
/-- A lane's fuel left (10 R242). -/
def Wave.cLeft (v : Wave) (l : Nat) : Nat := bits (v.rv 246 l).toNat 15 0

/-- A namespace assigned to a context on a die (10 R252). -/
def State.nsAssigned (s : State) (die vf n : Nat) : Bool :=
  match tfind? (s.die die).spaces n with
  | some e => n < 16 && e.active && e.vf = vf
  | none => false

/-- One step on a namespace (10 R253): whether the signature was present, and the namespace after it. -/
def Namespace.step (e : Namespace) (sig : BitVec 128) (insert : Bool) : Bool × Namespace :=
  let k := sig.toNat % 2 ^ e.logsets
  let st := e.stamp + 1
  if e.entries.any (fun x => x.set = k && x.sig = sig) then
    (true, { e with stamp := st, entries := e.entries.map (fun x => if x.set = k && x.sig = sig then { x with stamp := st } else x) })
  else if !insert then (false, { e with stamp := st })
  else
    let mine := e.entries.filter (fun x => x.set = k)
    let low := mine.foldl (fun m x => min m x.stamp) st
    let kept := if mine.length < 16 then e.entries else e.entries.filter (fun x => !(x.set = k && x.stamp = low))
    (false, { e with stamp := st, entries := kept ++ [{ set := k, sig, stamp := st }] })

/-- One Vestibule step of a die's namespace. -/
def State.vestStep (s : State) (die n : Nat) (sig : BitVec 128) (insert : Bool) : Bool × State :=
  let e := tget Namespace.init (s.die die).spaces n
  let (hit, e) := e.step sig insert
  (hit, s.modDie die (fun d => { d with spaces := tset Namespace.init d.spaces n e }))

/-- The fold of 10 R249. -/
def Wave.fold (v : Wave) (l : Nat) (w : DWord) : Wave :=
  (v.wv2 242 l (rotl64 (v.rv2 242 l) 13 ^^^ w)).wv2 244 l (rotl64 (v.rv2 244 l + w) 31)

/-- The seal of 10 R249: sig1 above sig0. -/
def sealSig (h0 h1 : DWord) : BitVec 128 := (h1 + rotl64 h0 41) ++ (h0 ^^^ rotl64 h1 17)

/-- The outcome codes (10 R248). -/
def Outc.ok : Nat := 0
def Outc.duplicate : Nat := 1
def Outc.fuel : Nat := 2
def Outc.divzero : Nat := 3
def Outc.oob : Nat := 4
def Outc.runoff : Nat := 5
def Outc.illegal : Nat := 6
def Outc.outlimit : Nat := 7
def Outc.abort : Nat := 8

/-- The wave leaves candidate mode; its run's captured operands stay, for a debugger to show the records it wrote (10 R244; 16 R398). -/
def Wave.candLeave (v : Wave) : Wave := { v with cand := none, ran := v.cand.map (fun c => { c with exLocs := [], outLocs := [], lanes := [] }) }

/-- The wave leaves candidate mode once no lane runs; a cancelled wave is retired instead (10 R244, R259). -/
def State.candFinish (s : State) (w : Nat) (c : CandRun) : State :=
  let v := s.wave w
  if (lanesOf c.enabled).any v.cAct then s
  else
    let s := s.setWave w v.candLeave
    if s.readCancel w = 0 then s else s.exitLanes w v.live v.pcNow .cancelled

/-- A lane retires (10 R250, R251), in one action; its record is written where its run holds a translation for it (09 R229). -/
def State.candRetire (s : State) (w l : Nat) (c : CandRun) (code : Nat) : State :=
  let v := s.wave w
  let die := dieOf v.core
  let sig := sealSig (v.rv2 242 l) (v.rv2 244 l)
  let (code, s) :=
    if code = Outc.ok && c.ns != 0xFF && bits (v.ctl l).toNat 13 13 = 0 then
      if s.nsAssigned die (s.vfOf w) c.ns then
        let (hit, s) := s.vestStep die c.ns sig (!c.qonly)
        (if hit then Outc.duplicate else Outc.ok, s)
      else (Outc.abort, s)
    else (code, s)
  let ctl := (v.ctl l &&& 0x7FFFFFFF) ||| 0x40000000
  let s := s.modWave w (fun v =>
    ((((v.wv2 242 l (sig.extractLsb' 0 64)).wv2 244 l (sig.extractLsb' 64 64)).wv 247 l ctl).wv c.vd l (BitVec.ofNat 32 code)))
  match if c.norec then none else c.outLocs[l]? with
  | none => s
  | some loc =>
    let f := (v.rv 246 l).toNat
    let words : List Nat := [(v.rv2 240 l).toNat,
      code + 256 * bits (v.ctl l).toNat 23 20 + 65536 * v.cPc l + 2 ^ 32 * (bits f 31 16 - bits f 15 0),
      (sig.extractLsb' 0 64).toNat, (sig.extractLsb' 64 64).toNat]
    let s := s.modWave w (fun v => { v with cand := v.cand.map (fun c => { c with wrote := c.wrote ||| laneBit l }) })
    let (i, s) := s.newId
    ((List.range 4).zip words).foldl (fun s p => s.queueWrite (.lane w l) (plainWrite (loc + 8 * p.1) 8 p.2) i
      (c.outcomes + BitVec.ofNat 64 (32 * l + 8 * p.1)) c.pc) s

/-- The outcome records of a run as some lane would write them (10 R241). -/
def CandRun.outReqs (c : CandRun) (l : Nat) : List Req :=
  if c.norec then [] else (List.range 32).map (fun i =>
    { lane := l, ea := c.outcomes + BitVec.ofNat 64 (32 * i), size := 32, kind := AccKind.store, align := 32, cap := none, paths := [0, 2] })

/-- A run that is to end while it holds no translations: its outcome records are translated for that, where they can be (09 R229). -/
def State.outcomesAnew (s : State) (w : Nat) (c : CandRun) : CandRun × State :=
  if c.norec || !c.outLocs.isEmpty then (c, s)
  else
    let v := s.wave w
    match s.checkAccess v.core (s.vfOf w) v.unit v.sb (c.outReqs (lowestLane v.live)) with
    | (.ok ps, s) => ({ c with outLocs := ps.map (fun p => p.loc) }, s)
    | (_, s) => (c, s)

/-- A lane retires, and the run ends with its last lane. -/
def State.candStop (s : State) (w l : Nat) (c : CandRun) (code : Nat) : State := (s.candRetire w l c code).candFinish w c

/-- Read steps that skip the queue, one per doubleword (10 R256). -/
def State.readWords8 (s : State) (ag : Agent) (loc n : Nat) : List Byte × State :=
  (List.range n).foldl (fun (acc : List Byte × State) i =>
    let (bs, s) := acc.2.readSkip ag ((List.range 8).map (loc + 8 * i + ·))
    (acc.1 ++ bs, s)) ([], s)

/-- Little-endian words of some bytes. -/
def wordsOf (bs : List Byte) : List Word := (List.range (bs.length / 4)).map (fun i => BitVec.ofNat 32 (leNat ((bs.drop (4 * i)).take 4)))

/-- start_example(e) of 10 R243: false where the example is poisoned, and where it is in memory that no access reaches (log 26). -/
def State.startExample (s : State) (w l : Nat) (c : CandRun) (e : Nat) : Bool × State :=
  let s := s.modWave w (fun v => v.wv 247 l (setBits (setBits (setBits (v.ctl l) 23 20 e) 26 24 0) 5 0 0))
  let loc := c.exLocs.getD e 0
  if s.cutOff loc then (false, s)
  else if (List.range 32).any (fun i => s.poisoned (loc + i)) then (false, s.setPois w true)
  else
    let (bs, s) := s.readWords8 (.lane w l) loc 4
    let ins := wordsOf bs
    let (i, s) := s.newId
    let u := (s.wave w).unit
    let s := (List.range 32).foldl (fun s k =>
      s.queueWrite (.lane w l) (plainWrite (locScratch u (c.sandbox + 256 * l + 8 * k)) 8 0) i) s
    (true, s.modWave w (fun v =>
      let v := (List.range 8).foldl (fun (v : Wave) k => v.wv (248 + k) l (if k < 4 then ins.getD k 0 else 0)) v
      { v with cand := v.cand.map (fun c =>
          { c with lanes := tins c.lanes l { (tfind? c.lanes l).getD { words := [], inputs := [] } with inputs := ins } }) }))

/-- Whether a candidate record's fields let it run (10 R235). -/
def recordUsable (bs : List Byte) : Bool :=
  let b := fun (i : Nat) => (bs.getD i 0).toNat
  1 ≤ b 8 && b 8 ≤ 60 && b 11 / 2 = 0 && leNat ((bs.drop 12).take 4) = 0

/-- The first n words of a record (10 R235). -/
def recordWords (bs : List Byte) (n : Nat) : List Word := wordsOf ((bs.drop 16).take (4 * n))

/-- LEN and ND of a record, as the control word holds them (10 R242). -/
def recordCtl (bs : List Byte) : Nat := (bs.getD 8 0).toNat % 64 * 2 ^ 14 + (bs.getD 11 0).toNat % 2 * 2 ^ 13

/-- A candidate's start (10 R243). Where the record cannot be used the spec gives the fuel word and the fold state no value (log 10). -/
def State.candStart (s : State) (w l : Nat) (c : CandRun) (idx : Word) : State :=
  let v := s.wave w
  let ea := c.gallery + BitVec.ofNat 64 (256 * idx.toNat)
  let place := if pathOf ea = 9 && canonical ea then s.window v.unit v.sb ea 256 else .bad
  let unusable := fun (id : DWord) (ctl : Nat) (s : State) =>
    let (i0, s) := s.draw
    let (i1, s) := s.draw
    let (i2, s) := s.draw
    let (i3, s) := s.draw
    let (i4, s) := s.draw
    let f := Config.freeWord i4
    let s := s.modWave w (fun v =>
      ((((v.wv2 240 l id).wv2 242 l (pairOf (Config.freeWord i0) (Config.freeWord i1))).wv2 244 l (pairOf (Config.freeWord i2) (Config.freeWord i3))).wv
        247 l (BitVec.ofNat 32 (2 ^ 31 + ctl))).wv 246 l (BitVec.ofNat 32 (bits f.toNat 15 0 * 65537)))
    s.candRetire w l c Outc.illegal
  match place with
  | .at_ loc =>
    let bad := fun (lo n : Nat) => (List.range n).any (fun i => s.poisoned (loc + lo + i))
    let (bs, s) := s.readWords8 (.lane w l) loc 32
    let id := if bad 0 64 then 0 else BitVec.ofNat 64 (leNat (bs.take 8))
    if bad 0 256 then unusable id (if bad 0 64 then 0 else recordCtl bs) (s.setPois w true)
    else if !recordUsable bs then unusable id (recordCtl bs) s
    else
      let fuelx := leNat ((bs.drop 9).take 2)
      let cap := bits (s.wave w).fuelctl.toNat 15 0
      let a := if fuelx = 0 then c.fuel else fuelx
      let a := if cap = 0 then a else min a cap
      let s := s.modWave w (fun v =>
        let v := ((((v.wv2 240 l id).wv2 242 l 0x5A5A5A5A5A5A5A5A).wv2 244 l 0x3C3C3C3C3C3C3C3C).wv 247 l (BitVec.ofNat 32 (2 ^ 31 + recordCtl bs))).wv
          246 l (BitVec.ofNat 32 (a * 65536 + a))
        { v with cand := v.cand.map (fun c => { c with lanes := tins c.lanes l { words := recordWords bs (bs.getD 8 0).toNat, inputs := [] } }) })
      match s.startExample w l c 0 with
      | (true, s) => s
      | (false, s) => s.candRetire w l c Outc.illegal
  | _ => unusable 0 0 s

/-- A run of requests, one per record of 32 bytes (10 R241; 09 R229). -/
def recordReqs (lane : Nat) (base : DWord) (n : Nat) (kind : AccKind) (paths : List Nat) : List Req :=
  (List.range n).map (fun i => { lane, ea := base + BitVec.ofNat 64 (32 * i), size := 32, kind, align := 32, cap := none, paths })

/-- The candidate index of a lane (10 R240). -/
def State.candIndex (s : State) (x : Iss) (a : Opnd) (l : Nat) : Word := BitVec.ofNat 32 (s.src x a tagN32 false l)

/-- The tags a CRUN sets (10 R242). -/
def Wave.candTags (v : Wave) (vd : Nat) : Wave :=
  (([240, 242, 244].foldl (fun (v : Wave) n => v.wtag n tagN64) ((List.range 16).foldl (fun (v : Wave) i => v.wtag (240 + i) tagN32) v))).wtag vd tagN32

/-- Candidate mode entered (10 R242-R244); a CRUN that enables no lane runs none, and leaves it at once. -/
def State.candEnter (s : State) (x : Iss) (c : CandRun) (startLane : Nat → State → State) : State :=
  let s := s.modWave x.w (fun v => { v.candTags c.vd with cand := some c, sb := c.sandbox })
  if lanesOf x.e = [] then s.modWave x.w Wave.candLeave
  else ((lanesOf x.e).foldl (fun s l => startLane l s) s).candFinish x.w c

/-- The run descriptor as a lane reads it, in four doublewords: its bytes, the lane after its read steps, and the state with no step taken
but what the device drew for them; a CRUN that faults takes none (10 R241; 03 R83). -/
def State.readDescriptor (s : State) (w l loc : Nat) : List Byte × AgentSt × State :=
  let (bs, t) := (List.range 4).foldl (fun (acc : List Byte × State) i =>
    let (b, s) := acc.2.readStep (.lane w l) ((List.range 8).map (loc + 8 * i + ·))
    (acc.1 ++ b, s)) ([], s)
  (bs, t.agent (.lane w l), { s with fresh := t.fresh, nextId := t.nextId })

/-- CRUN (10 R240-R244): its checks in the order of R241. -/
def execCrun (w : Full) (s : State) : Host.Outcome State Fault Refusal :=
  let vd := match w.d with
    | .v n => n
    | _ => 0
  let high := fun (o : Opnd) => match o with
    | .v n => 240 ≤ n
    | _ => false
  s.perform (.crun w) (headF w [(w.d, 1), (w.a, 1), (w.b, 2)] false) (fun x s =>
    let l := lowestLane x.live
    let ea := s.addrBase x w.b l
    if (s.footOf x.w).vregs < 256 || high w.d || high w.a then x.fail Code.regidx s
    else if x.g != x.live then x.fail Code.candmode s
    else if !tagsAre x [w.a] tagN32 then x.fail Code.fmtmis s
    else s.access x (recordReqs l ea 1 AccKind.load [0, 2]) (fun ps s => s.reach x ps AccKind.load (fun s =>
      let loc := ((ps.head?).map (fun p => p.loc)).getD 0
      let index := (lanesOf x.e).foldl (fun (m : SMap Word) k => tset 0 m k (s.candIndex x w.a k)) []
      let blank : CandRun := {
        vd, enabled := x.e, fuel := 0, nex := 1, ns := 0xFF, qonly := false, norec := true, sandbox := x.wave.sb, pc := x.cur.pc, desc := ea, gallery := 0,
        examples := 0, outcomes := 0, index, exLocs := [], outLocs := [], wrote := 0, lanes := [] }
      if (List.range 32).any (fun i => s.poisoned (loc + i)) then
        .done ((s.setPois x.w true).candEnter x blank (fun k s => s.candStart x.w k blank 0))
      else
        let (bs, reader, s) := s.readDescriptor x.w l loc
        let nat := fun (o n : Nat) => leNat ((bs.drop o).take n)
        let exa := BitVec.ofNat 64 (nat 0 8)
        let oca := BitVec.ofNat 64 (nat 8 8)
        let gal := BitVec.ofNat 64 (nat 16 8)
        let nex := nat 24 1
        let ns := nat 25 1
        let flags := nat 26 2
        let sandbox := nat 30 2
        let bad := fun (code : Code) (a : DWord) (s : State) => Res.fault code l 0xF a s
        if nex = 0 || 16 < nex || 4 ≤ flags then bad Code.illop 0 s
        else if ns != 0xFF && !s.nsAssigned (dieOf x.wave.core) (s.vfOf x.w) ns then bad Code.addrpath 0 s
        else if pathOf gal = 0xF then bad Code.priv gal s
        else if pathOf gal != 9 || !canonical gal then bad Code.addrpath gal s
        else if gal.toNat % 256 != 0 then bad Code.align gal s
        else s.access x (recordReqs l exa nex AccKind.load [0, 9]) (fun exs s =>
          let outs := if flags / 2 % 2 = 1 then [] else recordReqs l oca 32 AccKind.store [0, 2]
          s.access x outs (fun os s =>
            if sandbox % 256 != 0 then bad Code.align 0 s
            else if (s.unit x.wave.unit).scratchBytes < sandbox + 8192 then bad Code.addrpath 0 s
            else
              let c : CandRun := { blank with
                fuel := nat 28 2, nex, ns, qonly := flags % 2 = 1, norec := flags / 2 % 2 = 1, sandbox, gallery := gal
                examples := exa, outcomes := oca, exLocs := exs.map (fun p => p.loc), outLocs := os.map (fun p => p.loc) }
              .done ((s.setAgent (.lane x.w l) reader).candEnter x c (fun k s => s.candStart x.w k c (tget 0 index k))))))))

/-- What a candidate word comes to. -/
inductive CRes where
  /-- a register receives a value, and PC advances -/
  | val (d : Nat) (x : Word) (s : State)
  /-- PC advances -/
  | go (s : State)
  /-- a taken branch -/
  | jump (target : Int) (s : State)
  /-- the lane retires; the word has no other effect -/
  | stop (code : Nat)
  /-- HALT -/
  | halt

/-- One candidate word of one lane (10 R246, R247): fuel, then the word; without a candidate lane it has no meaning. -/
def State.candWord (s : State) (cost : Nat) (body : Nat → Nat → CandRun → State → CRes) : Host.Outcome State Fault Refusal :=
  match s.cur.bind (fun c => c.cand.map (fun l => (c.wave, l))) with
  | none => .refused .noIssuer
  | some (w, l) =>
    match (s.wave w).cand with
    | none => .refused .noIssuer
    | some c =>
      let v := s.wave w
      if v.cLeft l < cost then .next (s.candStop w l c Outc.fuel)
      else
        let s := s.setWave w { v.wv 246 l (v.rv 246 l - BitVec.ofNat 32 cost) with wcand := v.wcand + 1 }
        let setPc := fun (n : Nat) (s : State) => s.modWave w (fun v => v.wv 247 l (setBits (v.ctl l) 5 0 n))
        match body w l c s with
        | .val d x s => .next (setPc (v.cPc l + 1) (s.modWave w (fun v => v.wv (248 + d) l x)))
        | .go s => .next (setPc (v.cPc l + 1) s)
        | .stop code => .next (s.candStop w l c code)
        | .jump t s' =>
          if t < 0 || (bits (v.ctl l).toNat 19 14 : Int) ≤ t then .next (s.candStop w l c Outc.runoff) else .next (setPc t.toNat s')
        | .halt =>
          let ex := bits (v.ctl l).toNat 23 20
          let s := if bits (v.ctl l).toNat 26 24 = 0 then s.modWave w (fun v => v.fold l (BitVec.ofNat 64 (ex * 2 ^ 40 + 0xFF * 2 ^ 32))) else s
          if ex + 1 = c.nex then .next (s.candStop w l c Outc.ok)
          else match s.startExample w l c (ex + 1) with
            | (true, s) => .next s
            | (false, s) => .next (s.candStop w l c Outc.illegal)

/-- A candidate word whose effect is d = f(a, b, imm) (10 R246). -/
def State.candAlu (s : State) (c : CWord) (f : Word → Word → Int → Word) : Host.Outcome State Fault Refusal :=
  s.candWord 1 (fun w l _ s => .val c.d (f ((s.wave w).cReg l c.a) ((s.wave w).cReg l c.b) c.imm) s)

/-- A branch of a candidate (10 R246). -/
def State.candBranch (s : State) (c : CWord) (p : Word → Word → Bool) : Host.Outcome State Fault Refusal :=
  s.candWord 1 (fun w l _ s =>
    if p ((s.wave w).cReg l c.a) ((s.wave w).cReg l c.b) then .jump (((s.wave w).cPc l : Int) + c.imm) s else .go s)

/-- The location of a sandbox word that LD or ST names, if it is inside (10 R246). -/
def State.sandboxWord (s : State) (w l : Nat) (r : CandRun) (c : CWord) : Option Nat :=
  let j := ((s.wave w).cReg l c.a).toInt + c.imm
  if j < 0 || 63 < j then none else some (locScratch (s.wave w).unit (r.sandbox + 256 * l + 4 * j.toNat))

def execCandHalt (_c : CWord) (s : State) : Host.Outcome State Fault Refusal := s.candWord 1 (fun _ _ _ _ => .halt)
def execCandAdd (c : CWord) (s : State) : Host.Outcome State Fault Refusal := s.candAlu c (fun a b _ => a + b)
def execCandSub (c : CWord) (s : State) : Host.Outcome State Fault Refusal := s.candAlu c (fun a b _ => a - b)
def execCandMul (c : CWord) (s : State) : Host.Outcome State Fault Refusal := s.candAlu c (fun a b _ => a * b)
/-- DIV (10 R246): the quotient truncates toward zero. -/
def execCandDiv (c : CWord) (s : State) : Host.Outcome State Fault Refusal :=
  s.candWord 4 (fun w l _ s =>
    let b := (s.wave w).cReg l c.b
    if b = 0 then .stop Outc.divzero else .val c.d (BitVec.ofInt 32 (((s.wave w).cReg l c.a).toInt.tdiv b.toInt)) s)
/-- REM (10 R246): the remainder has the dividend's sign. -/
def execCandRem (c : CWord) (s : State) : Host.Outcome State Fault Refusal :=
  s.candWord 4 (fun w l _ s =>
    let b := (s.wave w).cReg l c.b
    if b = 0 then .stop Outc.divzero else .val c.d (BitVec.ofInt 32 (((s.wave w).cReg l c.a).toInt.tmod b.toInt)) s)
def execCandAnd (c : CWord) (s : State) : Host.Outcome State Fault Refusal := s.candAlu c (fun a b _ => a &&& b)
def execCandOr (c : CWord) (s : State) : Host.Outcome State Fault Refusal := s.candAlu c (fun a b _ => a ||| b)
def execCandXor (c : CWord) (s : State) : Host.Outcome State Fault Refusal := s.candAlu c (fun a b _ => a ^^^ b)
def execCandShl (c : CWord) (s : State) : Host.Outcome State Fault Refusal := s.candAlu c (fun a b _ => a <<< (b.toNat % 32))
def execCandShr (c : CWord) (s : State) : Host.Outcome State Fault Refusal := s.candAlu c (fun a b _ => a >>> (b.toNat % 32))
def execCandSar (c : CWord) (s : State) : Host.Outcome State Fault Refusal := s.candAlu c (fun a b _ => a.sshiftRight (b.toNat % 32))
def execCandMin (c : CWord) (s : State) : Host.Outcome State Fault Refusal := s.candAlu c (fun a b _ => if a.slt b then a else b)
def execCandMax (c : CWord) (s : State) : Host.Outcome State Fault Refusal := s.candAlu c (fun a b _ => if a.slt b then b else a)
def execCandSlt (c : CWord) (s : State) : Host.Outcome State Fault Refusal := s.candAlu c (fun a b _ => if a.slt b then 1 else 0)
def execCandSeq (c : CWord) (s : State) : Host.Outcome State Fault Refusal := s.candAlu c (fun a b _ => if a = b then 1 else 0)
def execCandAddi (c : CWord) (s : State) : Host.Outcome State Fault Refusal := s.candAlu c (fun a _ i => a + BitVec.ofInt 32 i)
def execCandMuli (c : CWord) (s : State) : Host.Outcome State Fault Refusal := s.candAlu c (fun a _ i => a * BitVec.ofInt 32 i)
def execCandAndi (c : CWord) (s : State) : Host.Outcome State Fault Refusal := s.candAlu c (fun a _ i => a &&& BitVec.ofInt 32 i)
def execCandLi (c : CWord) (s : State) : Host.Outcome State Fault Refusal := s.candAlu c (fun _ _ i => BitVec.ofInt 32 i)
def execCandLis (c : CWord) (s : State) : Host.Outcome State Fault Refusal := s.candAlu c (fun _ _ i => BitVec.ofInt 32 i <<< 15)
def execCandNeg (c : CWord) (s : State) : Host.Outcome State Fault Refusal := s.candAlu c (fun a _ _ => -a)
def execCandAbs (c : CWord) (s : State) : Host.Outcome State Fault Refusal := s.candAlu c (fun a _ _ => if a.slt 0 then -a else a)
/-- LD (10 R246, R256); an uncorrectable word ends the candidate (09 R230). -/
def execCandLd (c : CWord) (s : State) : Host.Outcome State Fault Refusal :=
  s.candWord 1 (fun w l r s =>
    match s.sandboxWord w l r c with
    | none => .stop Outc.oob
    | some loc =>
      if s.mem.badWord loc 4 then .stop Outc.illegal
      else
        let (bs, s) := s.readStep (.lane w l) ((List.range 4).map (loc + ·))
        .val c.d (BitVec.ofNat 32 (leNat bs)) s)
/-- ST (10 R246, R256). -/
def execCandSt (c : CWord) (s : State) : Host.Outcome State Fault Refusal :=
  s.candWord 1 (fun w l r s =>
    match s.sandboxWord w l r c with
    | none => .stop Outc.oob
    | some loc =>
      let (i, s) := s.newId
      .go (s.queueWrite (.lane w l) (plainWrite loc 4 ((s.wave w).cReg l c.b).toNat) i))
/-- LDX (10 R246). -/
def execCandLdx (c : CWord) (s : State) : Host.Outcome State Fault Refusal :=
  s.candWord 1 (fun _ l r s =>
    if c.imm < 0 || 7 < c.imm then .stop Outc.oob
    else .val c.d ((((tfind? r.lanes l).map (fun (x : CandLane) => x.inputs)).getD []).getD c.imm.toNat 0) s)
def execCandBeq (c : CWord) (s : State) : Host.Outcome State Fault Refusal := s.candBranch c (fun a b => a = b)
def execCandBne (c : CWord) (s : State) : Host.Outcome State Fault Refusal := s.candBranch c (fun a b => a != b)
def execCandBlt (c : CWord) (s : State) : Host.Outcome State Fault Refusal := s.candBranch c (fun a b => a.slt b)
def execCandBge (c : CWord) (s : State) : Host.Outcome State Fault Refusal := s.candBranch c (fun a b => !a.slt b)
def execCandJmp (c : CWord) (s : State) : Host.Outcome State Fault Refusal := s.candBranch c (fun _ _ => true)
/-- OUT (10 R246, R249). -/
def execCandOut (c : CWord) (s : State) : Host.Outcome State Fault Refusal :=
  s.candWord 1 (fun w l _ s =>
    let v := s.wave w
    let k := bits (v.ctl l).toNat 26 24
    if k = 4 then .stop Outc.outlimit
    else
      let v' := v.fold l (BitVec.ofNat 64 (bits (v.ctl l).toNat 23 20 * 2 ^ 40 + k * 2 ^ 32 + (v.cReg l c.a).toNat))
      .go (s.setWave w (v'.wv 247 l (setBits (v'.ctl l) 26 24 (k + 1)))))
def execCandSel (c : CWord) (s : State) : Host.Outcome State Fault Refusal :=
  s.candWord 1 (fun w l _ s =>
    let v := s.wave w
    .val c.d (if v.cReg l c.d != 0 then v.cReg l c.a else v.cReg l c.b) s)
def execCandClz (c : CWord) (s : State) : Host.Outcome State Fault Refusal := s.candAlu c (fun a _ _ => BitVec.ofNat 32 (clz 32 a.toNat))
def execCandPopc (c : CWord) (s : State) : Host.Outcome State Fault Refusal := s.candAlu c (fun a _ _ => BitVec.ofNat 32 (popCount 32 a.toNat))
/-- A reserved candidate operation (10 R246). -/
def execCandIllegal (_op : Nat) (_c : CWord) (s : State) : Host.Outcome State Fault Refusal := s.candWord 1 (fun _ _ _ _ => .stop Outc.illegal)

/-- The next step of a candidate lane (10 R247): retired before its word, or the word it executes. -/
def State.candNext (s : State) (w l : Nat) : Option (State ⊕ Instr) :=
  match (s.wave w).cand with
  | none => none
  | some c =>
    let v := s.wave w
    if !c.enabled.getLsbD l || !v.cAct l then none
    else if s.readCancel w != 0 then some (.inl (s.candStop w l c Outc.abort))
    else if bits (v.ctl l).toNat 19 14 ≤ v.cPc l then some (.inl (s.candStop w l c Outc.runoff))
    else some (.inr (decodeCand ((((tfind? c.lanes l).map (fun (x : CandLane) => x.words)).getD []).getD (v.cPc l) 0).toNat))

/-- A namespace operand's value, if it is assigned to the context on the issuing die (10 R254). -/
def State.nsOperand (s : State) (x : Iss) (o : Opnd) : Option Nat :=
  let n := s.srcU x o 32 x.lane0
  if s.nsAssigned (dieOf x.wave.core) (s.vfOf x.w) n then some n else none

/-- VSTI and VSTQ (10 R254, R255). -/
def State.vestBody (s : State) (x : Iss) (w : Full) (insert : Bool) : Res :=
  match w.a with
  | .v n =>
    if x.wave.rtag n != tagN64 || x.wave.rtag (n + 2) != tagN64 then x.fail Code.fmtmis s
    else match s.nsOperand x w.b with
      | none => x.fail Code.addrpath s
      | some ns =>
        let (vals, s) := (lanesOf x.e).foldl (fun (acc : List (Nat × Nat) × State) l =>
          let (hit, s) := acc.2.vestStep (dieOf x.wave.core) ns (x.wave.rv2 (n + 2) l ++ x.wave.rv2 n l) insert
          (acc.1 ++ [(l, if hit then 1 else 0)], s)) ([], s)
        .done (s.put x w.d false tagN32 (valOf vals))
  | _ => .done s

/-- VSTI (10 R254). -/
def execVsti (w : Full) (s : State) : Host.Outcome State Fault Refusal :=
  s.perform (.vsti w) (headF w [(w.d, 1), (w.a, 4), (w.b, 1)] false) (fun x s => s.vestBody x w true)

/-- VSTQ (10 R254). -/
def execVstq (w : Full) (s : State) : Host.Outcome State Fault Refusal :=
  s.perform (.vstq w) (headF w [(w.d, 1), (w.a, 4), (w.b, 1)] false) (fun x s => s.vestBody x w false)

/-- VSTC (10 R254): one step that clears the namespace. -/
def execVstc (w : Full) (s : State) : Host.Outcome State Fault Refusal :=
  s.perform (.vstc w) (headF w [(w.a, 1)] true) (fun x s =>
    match s.nsOperand x w.a with
    | none => x.fail Code.addrpath s
    | some ns => if x.e = 0 then .done s else .done (s.modDie (dieOf x.wave.core) (fun d =>
          let e := tget Namespace.init d.spaces ns
          { d with spaces := tset Namespace.init d.spaces ns { e with stamp := e.stamp + 1, entries := [] } })))

end Sys2Proof.Machine
end

