-- ==== Sys2Proof/Machine/Clock.lean ====
section
/-! DEFINITION. The clock of a cluster and the pace of collectives (21 R407-R409, R411, R416-R419). -/
namespace Sys2Proof.Machine

/-- The ceiling of an interval's class (21 R408). -/
def ClusterSt.ceiling (c : ClusterSt) : Nat := if c.matrixHeavy then 1750 else 2000

/-- The boost limit: in the first step down the lower of 1.8 GHz and the clock then, 1.6 GHz where boost is denied or not granted
(21 R409, R411, R413). -/
def ClusterSt.boostCap (c : ClusterSt) : Nat :=
  if c.stepDue.isSome then c.stepCap else if c.denied || !c.granted then 1600 else 2000

/-- The lowest limit in force, in steps of 50 MHz and not below 0.8 GHz (21 R407, R409). -/
def ClusterSt.target (c : ClusterSt) : Nat :=
  if c.pinned then 800
  else max 800 (min (min c.ceiling c.boostCap) (min (min c.throttleMhz c.thermalMhz) (c.pace.getD 2000)) / 50 * 50)

/-- Whether the other limits of a cluster allow a clock above 1.6 GHz (21 R413, R418). -/
def ClusterSt.wantsBoost (c : ClusterSt) : Bool :=
  !c.denied && c.stepDue.isNone && !c.hot && !c.pinned && 1600 < min (min c.ceiling c.throttleMhz) (min c.thermalMhz (c.pace.getD 2000))

/-- A clock that moves: the 20 us count of the refill begins when it comes down to 1.6 GHz or below, and boost is seen above that
(21 R410, R412). -/
def ClusterSt.runAt (c : ClusterSt) (now mhz : Nat) : ClusterSt :=
  { c with mhz, boostSeen := c.boostSeen || 1600 < mhz, refillFrom := if 1600 < c.mhz && mhz ≤ 1600 then now else c.refillFrom }

/-- The clock that a cluster's limits give: a rail switch holds it, and the low rail allows 1.2 GHz at most; an idle cluster stands at
1.2 GHz (21 R407, R409). -/
def ClusterSt.clockFor (c : ClusterSt) (idle : Bool) : Nat :=
  if c.switching then c.mhz else if c.railHigh && !idle then c.target else min c.target 1200

/-- The first boost after an interval without begins an interval of 5 us, whose class is fixed from what the one it cuts short has seen; `held`
says whether a matrix engine of the cluster holds a reservation then (21 R408, R410; log 67). -/
def ClusterSt.beginBoost (c : ClusterSt) (now : Nat) (idle held : Bool) : ClusterSt :=
  if 1600 < c.clockFor idle && c.mhz ≤ 1600 && !c.boostSeen then { c with intervalAt := now, matrixHeavy := c.matrixSeen, matrixSeen := held } else c

/-- The clock moved to its lowest limit (21 R409). A request for boost keeps its age, and one that is no longer made is forgotten (21 R413). -/
def ClusterSt.reclock (c : ClusterSt) (now : Nat) (idle held : Bool) : ClusterSt :=
  let want := c.wantsBoost && !idle
  let c := { c with granted := c.granted && want, requestedAt := if want && !c.granted then some (c.requestedAt.getD now) else none }
  let c := c.beginBoost now idle held
  c.runAt now (c.clockFor idle)

/-- Whether a cluster is limited by R411, R416 or R418, which withdraws boost from a hot one, and so reports its clock to the exchange
(21 R419). -/
def ClusterSt.limited (c : ClusterSt) : Bool :=
  c.denied || c.stepDue.isSome || c.pinned || c.hot || c.throttleMhz < c.ceiling || c.thermalMhz < c.ceiling

/-- Whether a matrix engine of a cluster holds a current reservation (21 R408). -/
def State.matrixHeld (s : State) (k : Nat) : Bool := s.units.any (fun p => clusterOf p.2.core = k && (p.2.ctx 7).ops.any (fun o => o.reserved))

/-- The lower of two reported clocks. -/
def lowerClock : Option Nat → Option Nat → Option Nat
  | none, b => b
  | a, none => a
  | some a, some b => some (min a b)

/-- The exchange of clocks with a collective entry (21 R419): the pace after it, from the lowest of the clocks that limited members have
reported, the member's own among them. A member without a pace counts as paced at 2.0 GHz, and what it reported last counts as changed
when its pace last changed, if ever (log 37). -/
def ClusterSt.takePace (c : ClusterSt) (now : Nat) (lowest : Option Nat) (held : Bool) : ClusterSt :=
  let c := match lowest with
    | none => { c with pace := none }
    | some x =>
      let p := c.pace.getD 2000
      if 10 * (max x p - min x p) > p && (c.paceAt = 0 || 20000 ≤ now - c.paceAt) then { c with pace := some x, paceAt := now } else c
  c.reclock now false held

end Sys2Proof.Machine
end

