-- ==== Sys2Proof/Machine/Tile.lean ====
section
/-! DEFINITION. Tile descriptors, the tile table and its events, and the tile instructions (02 R58-R66; 15 R373, R374; 05 R140-R141). -/
namespace Sys2Proof.Machine

/-- A tile descriptor's fields (02 R58); `off` is in bytes. -/
structure TileGeom where
  buf : Nat
  off : Nat
  rows : Nat
  cols : Nat
  fmt : Nat
  planes : Nat
deriving DecidableEq, Repr

/-- The fields of a descriptor (02 R58). -/
def geomOf (d : DWord) : TileGeom :=
  let x := d.toNat
  { buf := bits x 63 62, off := bits x 59 40 * 64, rows := bits x 39 32 + 1, cols := bits x 31 24 + 1, fmt := bits x 23 19, planes := bits x 18 14 }

/-- The natural plane count of a format (05 R126, R127, R129). -/
def naturalPlanes (t : Nat) : Nat :=
  match floatFmt? t with
  | some f => f.mbits + 1
  | none => if isZB t then zbBits t + 1 else if t ≤ 2 then 1 else fmtBits t

/-- The effective plane count (02 R60). -/
def TileGeom.p (g : TileGeom) : Nat := if g.planes = 0 then naturalPlanes g.fmt else g.planes
/-- The bytes of a group record (02 R60, R61). -/
def TileGeom.recBytes (g : TileGeom) : Nat := 4 + 2 * g.p
/-- The bytes of an accumulator element (02 R60). -/
def TileGeom.accBytes (g : TileGeom) : Nat := if g.fmt = 24 then 8 else 4
/-- The K dimension (02 R59). -/
def TileGeom.k (g : TileGeom) : Nat := if g.buf = 1 then g.cols else g.rows

/-- A tile's size in bytes, a multiple of 64 (02 R60). -/
def TileGeom.size (g : TileGeom) : Nat :=
  let n := match g.buf with
    | 0 => g.cols * (g.rows / 16) * g.recBytes
    | 1 => g.rows * (g.cols / 16) * g.recBytes
    | _ => g.rows * g.cols * g.accBytes
  (n + 63) / 64 * 64

/-- A descriptor that TCFG refuses (02 R59). -/
def UnitSt.descBad (u : UnitSt) (d : DWord) : Bool :=
  let g := geomOf d
  g.buf = 3 || bits d.toNat 61 60 != 0 || bits d.toNat 13 0 != 0 ||
  (if g.buf = 2 then !(g.fmt = 23 || g.fmt = 10 || g.fmt = 24) || g.planes != 0 else naturalPlanes g.fmt < g.planes || g.k % 16 != 0) ||
  u.bufBytes g.buf < g.off + g.size

/-- PEND: a copy, gather or collective context has an operation outstanding (02 R64). -/
def UnitSt.pend (u : UnitSt) : Bool := (List.range 7).any (fun e => (u.ctx e).iss != (u.ctx e).cnt)

/-- The status word of a tile (02 R64). -/
def UnitSt.tileStatus (u : UnitSt) (t : Nat) : Nat :=
  let x := u.tile t
  let st := match x.state with
    | .empty => 0
    | .filling => 1
    | .ready => 2
    | .draining => 3
  let b := fun (p : Bool) (k : Nat) => if p then 2 ^ k else 0
  st * 2 ^ 30 + b x.cfg 29 + b u.pend 28 + b x.inv 27 + b x.ovf 26 + b x.err 25 + x.readers % 64 * 2 ^ 19 + x.kstep % 32 * 2 ^ 8 + x.entry % 64

/-- What a tile answers to an event (02 R65, R66). -/
inductive Verdict where
  | go
  | wait
  | bad (code : Code)
deriving DecidableEq, Repr

/-- The rows of 02 R65 and the rule of R66. -/
def UnitSt.verdict (u : UnitSt) (t : Nat) (use : TileUse) : Verdict :=
  if u.foot.tiles ≤ t then .bad Code.tilecfg
  else
    let x := u.tile t
    match x.state with
    | .filling => .wait
    | .draining => .wait
    | .ready => if x.readers = 0 || use = .twait || use = .mmaAB then .go else .wait
    | .empty =>
      match use with
      | .tcfg => .go
      | .trel => .go
      | _ =>
        if !x.cfg then .bad Code.tilecfg
        else match use with
          | .tzero => .go
          | .fill => .go
          | .drain => .bad Code.tileempty
          | _ => if u.pend then .wait else .bad Code.tileempty

/-- A tile after an event that its row allows (02 R65). -/
def Tile.apply (x : Tile) : TileUse → Tile
  | .tcfg => { x with state := .empty, cfg := true, inv := false, ovf := false, err := false, kstep := 0 }
  | .trel => { x with state := .empty }
  | .tzero => { x with state := .ready, inv := false, ovf := false }
  | .twait => x
  | .mmaAB => { x with readers := x.readers + 1 }
  | .mmaD => { x with state := .filling, kstep := 0 }
  | .fill => { x with state := .filling }
  | .drain => { x with state := .draining }

/-- A tile of a unit after an event. -/
def UnitSt.tileEvent (u : UnitSt) (t : Nat) (use : TileUse) : UnitSt := u.setTile t ((u.tile t).apply use)

/-- The uses an instruction makes of its tiles, judged together: a wait of any holds it, whatever the others say (02 R65). -/
def UnitSt.judge (u : UnitSt) (uses : List (Nat × TileUse)) : Verdict :=
  let vs := uses.map (fun p => u.verdict p.1 p.2)
  if vs.contains .wait then .wait else (vs.find? (· != .go)).getD .go

/-- Whether an operation of a tile's unit or its group that has filled the tile is to fill it again (18 R401; log 60). -/
def State.refilled (s : State) (u t : Nat) : Bool :=
  (s.mates u).any (fun y => (List.range 7).any (fun e => ((s.unit y).ctx e).ops.any (fun o => s.refills y e o (u, t))))

/-- The uses an instruction makes of its tiles, judged together; a matrix operation waits also for what one operation still fills
(02 R65, R66; 18 R401; log 60). -/
def State.judgeTiles (s : State) (u : Nat) (uses : List (Nat × TileUse)) : Verdict :=
  if uses.any (fun p => (p.2 = .mmaAB || p.2 = .mmaD) && s.refilled u p.1) then .wait else (s.unit u).judge uses

/-- The number of a tile operand. -/
def tileNum : Opnd → Nat
  | .t n => n
  | _ => 0

/-- A tile instruction: the tile number, then its own check, then the tile's row (15 R373, R374). -/
def State.onTile (s : State) (x : Iss) (t : Nat) (use : TileUse) (bad : Bool) (k : State → Res) : Res :=
  let u := s.unit x.wave.unit
  if x.e = 0 then .done s
  else if u.foot.tiles ≤ t || bad then x.fail Code.tilecfg s
  else match u.verdict t use with
    | .wait => .held (.tile [(t, use)]) s
    | .bad c => x.fail c s
    | .go => k (s.modUnit x.wave.unit (fun u => u.tileEvent t use))

/-- TCFG (15 R373, R374; 02 R59, R65). -/
def execTcfg (w : Full) (s : State) : Host.Outcome State Fault Refusal :=
  s.perform (.tcfg w) (headF w [(w.a, 2)] true).notHandler (fun x s =>
    let t := tileNum w.d
    let d := s.addrBase x w.a x.lane0
    s.onTile x t .tcfg ((s.unit x.wave.unit).descBad d) (fun s =>
      .done (s.modUnit x.wave.unit (fun u => u.setTile t { u.tile t with desc := d }))))

/-- TREL (15 R374; 02 R65). -/
def execTrel (w : Full) (s : State) : Host.Outcome State Fault Refusal :=
  s.perform (.trel w) (headF w [] true).notHandler (fun x s => s.onTile x (tileNum w.a) .trel false (fun s => .done s))

/-- TZERO (15 R374; 02 R65): its bytes are written granule by granule, then every lane of E releases into the tile's set (03 R97). -/
def execTzero (w : Full) (s : State) : Host.Outcome State Fault Refusal :=
  s.perform (.tzero w) (headF w [] true).notHandler (fun x s =>
    let t := tileNum w.a
    s.onTile x t .tzero false (fun s =>
      let u := x.wave.unit
      let g := geomOf ((s.unit u).tile t).desc
      let (i, s) := s.newId
      let ag := Agent.lane x.w (lowestLane x.e)
      let s := (List.range (g.size / 16)).foldl (fun s j => s.queueWrite ag (plainWrite (locBuf g.buf u (g.off + 16 * j)) 16 0) i) s
      .done (s.releaseLanes x.w x.e (.tile u t))))

/-- TWAIT (15 R374; 02 R65, R66): each lane of E makes the full acquire of 03 R97. -/
def execTwait (w : Full) (s : State) : Host.Outcome State Fault Refusal :=
  s.perform (.twait w) (headF w [] false) (fun x s =>
    let t := tileNum w.a
    s.onTile x t .twait false (fun s => .done (s.acquireLanes x.w x.e (.tile x.wave.unit t))))

/-- TSTAT (15 R374; 02 R64). -/
def execTstat (w : Full) (s : State) : Host.Outcome State Fault Refusal :=
  s.perform (.tstat w) (headF w [(w.d, 1)] (perWave w.d)) (fun x s =>
    let u := s.unit x.wave.unit
    let t := tileNum w.a
    if x.e = 0 then .done s
    else if u.foot.tiles ≤ t then x.fail Code.tilecfg s
    else .done (s.put x w.d false tagN32 (fun _ => u.tileStatus t)))

/-- Lanes whose hold ends issue their word again (06 R151). -/
def State.endHold (s : State) (w : Nat) (m : Mask) : State :=
  s.modWave w (fun v => v.modLanes m (fun l => { l with wait := none }))

/-- TILE_WAIT_RESUME (02 R65, R66): the word is judged again. -/
def execTileWaitResume (s : State) : Host.Outcome State Fault Refusal :=
  let w := s.occ.a
  match s.waitOf w s.occ.b with
  | some (.hold (.tile uses)) =>
    if s.awake w && s.judgeTiles (s.wave w).unit uses != .wait then .next (s.endHold w (s.waiters w s.occ.b))
    else .refused (.notEnabled "TILE_WAIT_RESUME")
  | _ => .refused (.notEnabled "TILE_WAIT_RESUME")

/-- A group record's elements as signed magnitudes with their exponent, none for a NaN group (02 R61; 05 R140). A zero has no sign here
(log 62). -/
def readGroup (g : TileGeom) (bs : List Byte) : Option (List Int × Int) :=
  let n := leNat bs
  let e := n % 256
  if e = 255 then none
  else
    let sign := n / 2 ^ 16 % 2 ^ 16
    let p := g.p
    let vals := (List.range 16).map (fun i =>
      let m := (List.range p).foldl (fun m q => 2 * m + (if n.testBit (32 + 16 * q + i) then 1 else 0)) 0
      if sign.testBit i then -(m : Int) else (m : Int))
    let x : Int := if isIntFmt g.fmt && g.fmt != 14 && g.fmt != 15 then (naturalPlanes g.fmt : Int) - p else (e : Int) - 127 - ((p : Int) - 1)
    some (vals, x)

/-- A group record from its exponent, signs and magnitudes; planes from `keep` on are zero (02 R61; 05 R141; 04 R113). -/
def packGroup (p keep e : Nat) (els : List (Bool × Nat)) : Nat :=
  let sign := ((List.range 16).zip els).foldl (fun a x => if x.2.1 then a + 2 ^ x.1 else a) 0
  let planes := (List.range (min p keep)).foldl (fun a q =>
    a + 2 ^ (32 + 16 * q) * ((List.range 16).zip els).foldl (fun b x => if x.2.2.testBit (p - 1 - q) then b + 2 ^ x.1 else b) 0) 0
  e + 2 ^ 16 * sign + planes

/-- A fill's group record: the record's number and whether it is a NaN group (05 R141). `raw` holds the 16 elements in the
tile's format, or for a ZB format the one block. -/
def fillGroup (t p keep : Nat) (raw : List Nat) : Nat × Bool :=
  let pn := naturalPlanes t
  let cut := fun (m : Nat) => m / 2 ^ (pn - p)
  let nanGroup := (255, true)
  match floatFmt? t with
  | some f =>
    let el := raw.map (fun x =>
      let e := x / 2 ^ f.mbits % 2 ^ f.ebits
      let m := x % 2 ^ f.mbits
      (decide (x / f.signBit % 2 = 1), max e 1, if e = 0 then m else 2 ^ f.mbits + m, decodeElem t x))
    if el.any (fun x => match x.2.2.2 with
      | .fin _ _ _ => false
      | _ => true) then nanGroup
    else
      let ex := fun (e : Nat) => (e : Int) - f.bias + 127
      let g0 := el.foldl (fun (g : Int) x => if x.2.2.1 = 0 then g else if g < ex x.2.1 then ex x.2.1 else g) 0
      if 254 < g0 then nanGroup
      else
        let g := if g0 != 0 && g0 < 1 then 1 else g0
        (packGroup p keep g.toNat (el.map (fun x => (x.1, if x.2.2.1 = 0 then 0 else cut (x.2.2.1 / 2 ^ (g - ex x.2.1).toNat)))), false)
  | none =>
    if isZB t then
      let b := raw.headD 0
      let m := zbBits t
      let e := bits b 7 0
      if e = 255 then nanGroup
      else
        let z := fun (i : Nat) => if i < 8 then bits b 11 8 else bits b 15 12
        let mag := fun (i : Nat) => bits b (16 + i * (1 + m) + m - 1) (16 + i * (1 + m))
        let sgn := fun (i : Nat) => bits b (16 + i * (1 + m) + m) (16 + i * (1 + m) + m) = 1
        let nz := (List.range 16).filter (fun i => mag i != 0)
        match nz.map z with
        | [] => (packGroup p keep 0 ((List.range 16).map (fun i => (sgn i, 0))), false)
        | a :: as =>
          let zmin := as.foldl min a
          let g := e - zmin
          (packGroup p keep g ((List.range 16).map (fun i => (sgn i, cut (2 * mag i / 2 ^ (g + z i - e))))), false)
    else
      let el := raw.map (fun x => decodeElem t x)
      let e := if t = 14 || t = 15 then 127 else 0
      (packGroup p keep e (el.map (fun x => match x with
        | .fin s m _ => (s, cut m)
        | _ => (false, 0))), false)

end Sys2Proof.Machine
end

