-- ==== Sys2Proof/Machine/EngineOps.lean ====
section
/-! DEFINITION. Operations of engine contexts: granule access, issue, completion, faults, discards and current reservations
(03 R78, R100; 04 R105, R120-R125; 21 R414, R415). -/
namespace Sys2Proof.Machine

/-- n bytes from a location, cut at the 16-byte granules: (location, count) in turn. -/
def granules (loc n : Nat) : List (Nat × Nat) :=
  (List.range (n / 16 + 2)).filterMap (fun i =>
    let g := (loc / 16 + i) * 16
    let lo := max loc g
    let hi := min (loc + n) (g + 16)
    if hi ≤ lo then none else some (lo, hi - lo))

/-- An engine's read: each granule in one step (03 R78). -/
def State.readGran (s : State) (ag : Agent) (loc n : Nat) : List Byte × State :=
  (granules loc n).foldl (fun (acc : List Byte × State) g =>
    let (bs, s) := acc.2.readStep ag ((List.range g.2).map (g.1 + ·))
    (acc.1 ++ bs, s)) ([], s)

/-- An engine's write: each granule in one step (03 R78). -/
def State.writeGran (s : State) (ag : Agent) (loc : Nat) (bs : List Byte) (instr : Nat) (ea : DWord := 0) (pc : DWord := 0) : State :=
  (granules loc bs.length).foldl (fun s g =>
    s.queueWrite ag (plainBytes g.1 ((bs.drop (g.1 - loc)).take g.2)) instr (ea + BitVec.ofNat 64 (g.1 - loc)) pc) s

/-- Operations issued and not complete (04 R105). -/
def EngCtx.outstanding (c : EngCtx) : Nat := (c.iss - c.cnt).toNat

/-- An operation joins a context: the issuing lanes' start set is its view (04 R105; 03 R100). -/
def State.issueOp (s : State) (u e wave : Nat) (kind : OpKind) (start : View) : State :=
  s.modUnit u (fun x =>
    let c := x.ctx e
    let n := c.iss + 1
    x.setEng e { c with iss := n, ops := c.ops ++ [{
      num := n.toNat, kind, wave, phase := .queued, entry := 0, loop := none, row := 0, got := [], reserved := false, requested := false, round := none
      moved := [], filled := [], arrived := 0, slot := none, afresh := false, stops := false, seen := [], ag := AgentSt.start start }] })

/-- The operation that a context performs: the oldest (04 R105). -/
def UnitSt.headOp (u : UnitSt) (e : Nat) : Option Op := (u.ctx e).ops.head?

/-- An operation changed. -/
def State.modOp (s : State) (u e n : Nat) (f : Op → Op) : State :=
  s.modUnit u (fun x => x.setEng e { x.ctx e with ops := (x.ctx e).ops.map (fun o => if o.num = n then f o else o) })

/-- Whether a unit's engines run: it is on its core, or has exited and not been released, and its cluster is in an active range
(04 R124; 02 R68; 08 R202). -/
def State.enginesRun (s : State) (u : Nat) : Bool :=
  let x := s.unit u
  (x.resident || x.ended) && !x.released && x.saved.isNone && s.clusterRuns (clusterOf x.core)

/-- Whose request goes first of those made at one time: the lower core's, then contexts e0 to e7 before clauses (21 R415). -/
def State.rank (s : State) : Requester → Nat
  | .op u e _ => (s.unit u).core * 16 + e
  | .clause w _ => (s.wave w).core * 16 + 8

/-- A request joins its cluster's queue: last, or, as the device's cycles may fall together in one tick, before later-ranked ones of the
tick (21 R415). -/
def State.addRequest (s : State) (k units : Nat) (who : Requester) : State :=
  let r : CurReq := { who, units, since := s.pkg.ticks }
  let q := (s.cluster k).requests
  let n := (q.reverse.takeWhile (fun x => x.since = r.since && s.rank who < s.rank x.who)).length
  let (i, s) := s.pick (n + 1)
  s.modCluster k (fun c => { c with requests := q.take (q.length - i) ++ r :: q.drop (q.length - i) })

/-- A request of an operation for current (21 R415). -/
def State.requestCurrent (s : State) (u e n units : Nat) : State :=
  (s.addRequest (clusterOf (s.unit u).core) units (.op u e n)).modOp u e n (fun o => { o with requested := true })

/-- A reservation returned, or its request withdrawn (04 R125; 21 R414). -/
def State.returnCurrent (s : State) (u e n units : Nat) : State :=
  match ((s.unit u).ctx e).op? n with
  | none => s
  | some o =>
    let s := s.modCluster (clusterOf (s.unit u).core) (fun c => { c with
      requests := c.requests.filter (fun r => r.who != .op u e n)
      unitsFree := if o.reserved then c.unitsFree + units else c.unitsFree })
    s.modOp u e n (fun o => { o with reserved := false, requested := false })

/-- The units of current an operation's macro-operation takes (21 R414). -/
def Op.units (o : Op) : Nat :=
  match o.kind with
  | .mma _ _ _ _ _ _ => 24
  | .chain _ _ => if entryKind ((tfind? o.seen o.entry).getD []) = 6 then 6 else 4

/-- The tiles that an operation has moved go back: filling to EMPTY, draining to READY; a pending slot empties (04 R121; log 16). -/
def State.undoEntry (s : State) (o : Op) : State :=
  let s := o.moved.foldl (fun s (p : Nat × Nat) => s.modUnit p.1 (fun x =>
    let t := x.tile p.2
    x.setTile p.2 { t with state := if t.state = .filling then .empty else .ready })) s
  match o.slot with
  | none => s
  | some k => s.modWave o.wave (fun v => { v with landing := tset Landing.init v.landing k { tget Landing.init v.landing k with state := .empty } })

/-- A matrix operation gives its tiles back; `ok` where it completed (15 R381; 04 R121). -/
def UnitSt.mmaRelease (u : UnitSt) (td tb : Nat) (tas : List Nat) (ok : Bool) : UnitSt :=
  let dec := fun (u : UnitSt) (t : Nat) => u.setTile t { u.tile t with readers := (u.tile t).readers - 1 }
  let u := tas.foldl dec (dec u tb)
  u.setTile td { u.tile td with state := if ok then .ready else .empty, kstep := 0 }

/-- Waves of a unit whose hold of one kind ends. -/
def State.endHolds (s : State) (u : Nat) (h : Hold) : State :=
  (s.unit u).waves.foldl (fun s w => s.modWave w (fun v => v.modLanes v.live (fun l =>
    if l.wait = some (.hold h) then { l with wait := none } else l))) s

/-- An operation completes: full release into the timeline set, then CNT (04 R105; 03 R100). A waiting MPASS is judged again (15 R375). -/
def State.completeOp (s : State) (u e n : Nat) : State :=
  let s := s.fullRelease (.op u e n) (.timeline u e)
  let s := s.modUnit u (fun x => x.setEng e { x.ctx e with cnt := BitVec.ofNat 64 n, ops := (x.ctx e).ops.filter (fun o => o.num != n) })
  let s := if e = 7 && ((s.unit u).ctx 7).outstanding = 0 then s.endHolds u .mpass else s
  s.releaseGroup u

/-- The collective group a collective entry names: its key in the package's table (04 R115). -/
def State.groupKey (s : State) (u : Nat) (d : List DWord) : Nat := (s.unit u).vf * 2 ^ 32 + bits (dw d 6) 63 32

/-- What a member contributes to the round that its group stands at (04 R115; log 22). -/
def State.contribute (s : State) (key : Nat) (g : CollGroup) (rows : List (List Byte)) (clock : Option Nat) (failed : Bool) : State :=
  s.setPkg { s.pkg with
    groups := tins s.pkg.groups key { g with round := g.round + 1 }
    shares := { key, round := g.round, rows, clock, failed } :: s.pkg.shares }

/-- An operation that ends at a collective entry without having contributed: its member fails (04 R115). -/
def State.memberFails (s : State) (u : Nat) (o : Op) : State :=
  match tfind? o.seen o.entry, o.round with
  | some d, none =>
    if o.phase = .queued || entryKind d != 6 then s
    else match tfind? s.pkg.groups (s.groupKey u d) with
      | some g => if g.usable then s.contribute (s.groupKey u d) g [] none true else s
      | none => s
  | _, _ => s

/-- Everything an operation holds is given back, and it completes without further effect (04 R121, R124). -/
def State.abandonOp (s : State) (u e : Nat) (o : Op) : State :=
  let s := (s.returnCurrent u e o.num o.units).memberFails u o
  let s := s.undoEntry o
  let s := match o.kind with
    | .mma _ td tb ms _ _ => s.modUnit u (fun x => x.mmaRelease td tb (ms.map (fun (p : Nat × Nat) => p.2)) false)
    | .chain _ _ => s
  s.completeOp u e o.num

/-- A fault joins a context's fault word, and escalates where the unit has ended (04 R120, R123). -/
def State.recordFault (s : State) (u e n code entry core : Nat) : State :=
  let x := s.unit u
  let f := (x.ctx e).fault
  let f' : DWord := if bits f.toNat 63 63 = 1 then f ||| BitVec.ofNat 64 (2 ^ 62)
    else BitVec.ofNat 64 (2 ^ 63 + code * 2 ^ 48 + entry % 4096 * 2 ^ 36 + core % 4 * 2 ^ 32 + n % 2 ^ 32)
  let s := s.modUnit u (fun x => x.setEng e { x.ctx e with fault := f' })
  if x.ended then s.escalate x.launch code (x.core / 4 * 4 + core % 4) e (n % 2 ^ 32) else s

/-- A FAULTING OPERATION (04 R121): the fault word first, its tiles back, then its completion. -/
def State.engineFault (s : State) (u e : Nat) (o : Op) (code core : Nat) : State :=
  let s := s.recordFault u e o.num code o.entry core
  s.abandonOp u e o

/-- ENGINE_LIMIT_RESUME (04 R105). -/
def execEngineLimitResume (s : State) : Host.Outcome State Fault Refusal :=
  let w := s.occ.a
  match s.waitOf w s.occ.b with
  | some (.hold (.engineLimit e)) =>
    if s.awake w && ((s.unit (s.wave w).unit).ctx e).outstanding < 16 then .next (s.endHold w (s.waiters w s.occ.b))
    else .refused (.notEnabled "ENGINE_LIMIT_RESUME")
  | _ => .refused (.notEnabled "ENGINE_LIMIT_RESUME")

/-- A request by a matrix engine (21 R408). -/
def Requester.isMatrix : Requester → Bool
  | .op _ e _ => e = 7
  | .clause _ _ => false

/-- A granted reservation told to who asked for it; a held clause issues again (21 R414, R415; 12 R271). -/
def State.grantTo (s : State) : Requester → State
  | .op u e n => s.modOp u e n (fun o => { o with reserved := true })
  | .clause w i => s.modWave w (fun (v : Wave) => v.modLanes v.live (fun (l : Lane) =>
      if l.heavy = some i && l.wait = some (.hold .reservation) then { l with wait := none } else l))

/-- CURRENT_RESERVATION_GRANT (21 R415): the oldest request, once its units are free; none starts while the rails switch (21 R407), nor
where the cluster is in no active range (08 R202). -/
def execCurrentReservationGrant (s : State) : Host.Outcome State Fault Refusal :=
  let k := s.occ.a
  let c := s.cluster k
  match c.requests with
  | [] => .refused (.notEnabled "CURRENT_RESERVATION_GRANT")
  | r :: rest =>
    if r.units ≤ c.unitsFree && !c.switching && s.clusterRuns k then .next ((s.setCluster k { c with
        requests := rest, unitsFree := c.unitsFree - r.units, matrixSeen := c.matrixSeen || r.who.isMatrix }).grantTo r.who)
    else .refused (.notEnabled "CURRENT_RESERVATION_GRANT")

end Sys2Proof.Machine
end

