-- ==== Sys2Proof/Machine/Matrix.lean ====
section
/-! DEFINITION. Matrix ownership, gangs, and the matrix operations (15 R375-R381; 05 R140-R144; 02 R65-R68; 09 R227). -/
namespace Sys2Proof.Machine

/-- Whether the entry of the MOWN queue still waits: a restored unit, or a unit with a wave held in MOWN (15 R375). -/
def State.mownWaits (s : State) (u : Nat) : Bool :=
  (s.unit u).restoring || (s.unit u).waves.any (fun w => (lanesOf (s.wave w).live).any (fun l =>
    ((s.wave w).lane l).wait = some (.hold .mown)))

/-- GANG (15 R377): a value it refuses leaves %gang unchanged. -/
def execGang (w : Full) (s : State) : Host.Outcome State Fault Refusal :=
  s.perform (.gang w) (headF w [(w.a, 1)] true) (fun x s =>
    if x.e = 0 then .done s
    else match s.writeStatus x.w 4 (BitVec.ofNat 32 (s.srcU x w.a 32 (lowestLane x.e))) with
      | .error c => .fault c (lowestLane x.e) 0xF 0 s
      | .ok s => .done s)

/-- MOWN (15 R375). -/
def execMown (w : Full) (s : State) : Host.Outcome State Fault Refusal :=
  s.perform (.mown w) (headF w [] true).notHandler (fun x s =>
    let u := x.wave.unit
    let c := s.core x.wave.core
    if x.e = 0 then .done s
    else if !(s.unit u).hasCtx 7 then x.fail Code.engown s
    else if c.owner = some u then .done s
    else if c.owner.isNone && !c.mowners.any s.mownWaits then
      .done (s.setCore x.wave.core { c with owner := some u, mowners := [] })
    else .held .mown (s.setCore x.wave.core { c with mowners := if c.mowners.contains u then c.mowners else c.mowners ++ [u] }))

/-- MOWN_GRANT (15 R375): the free engine goes to the oldest that waits; in a cluster of no active range nothing goes on (08 R202). -/
def execMownGrant (s : State) : Host.Outcome State Fault Refusal :=
  let k := s.occ.a
  let c := s.core k
  match c.owner, c.mowners.filter s.mownWaits, s.clusterRuns (clusterOf k) with
  | none, u :: rest, true =>
    let s := s.setCore k { c with owner := some u, mowners := rest }
    .next ((s.modUnit u (fun x => { x with restoring := false })).endHolds u .mown)
  | _, _, _ => .refused (.notEnabled "MOWN_GRANT")

/-- MPASS (15 R375): it waits for the unit's operations on e7, then the engine is free for MOWN_GRANT. -/
def execMpass (w : Full) (s : State) : Host.Outcome State Fault Refusal :=
  s.perform (.mpass w) (headF w [] true).notHandler (fun x s =>
    let u := x.wave.unit
    if x.e = 0 || (s.core x.wave.core).owner != some u then .done s
    else if ((s.unit u).ctx 7).outstanding != 0 then .held .mpass s
    else .done (s.dropOwner x.wave.core u))

/-- A format whose plane form is an integer's at its natural plane count (05 R140, R143). -/
def TileGeom.exactInt (g : TileGeom) : Bool := isIntFmt g.fmt && g.fmt != 14 && g.fmt != 15 && naturalPlanes g.fmt ≤ g.p

/-- Checks 2 to 7 of 15 R379: the K-groups to perform, or the fault. `sub` is 0 MMA, 1 MMA.CKS, 3 MSTEP. -/
def UnitSt.matrixCheck (u : UnitSt) (sub g td ta tb : Nat) (r : Word) : Except Code (Nat × Nat) :=
  if [td, ta, tb].any (fun t => u.foot.tiles ≤ t || !(u.tile t).cfg) then .error Code.tilecfg
  else
    let d := geomOf (u.tile td).desc
    let a := geomOf (u.tile ta).desc
    let b := geomOf (u.tile tb).desc
    let kg := a.cols / 16
    let (c0, cn) := if sub = 3 then (bits r.toNat 7 0, bits r.toNat 15 8) else (0, kg)
    let extra := if sub = 1 then 1 else 0
    if d.buf != 2 || a.buf != 1 || b.buf != 0 || a.rows != 16 || b.rows != a.cols || 64 < b.cols ||
        d.rows != 16 * g + extra || d.cols != b.cols + extra || (sub = 3 && (cn = 0 || kg < c0 + cn || bits r.toNat 31 16 != 0)) then
      .error Code.tilecfg
    else if d.fmt = 10 && !(a.exactInt && b.exactInt) then .error Code.fmtmis
    else .ok (c0, cn)

/-- The uses a matrix operation makes of its tiles: tB and tD once, each member's tA (02 R65). -/
def matrixUses (td tb : Nat) (tas : List Nat) : List (Nat × TileUse) :=
  (td, .mmaD) :: (tb, .mmaAB) :: tas.map (fun t => (t, .mmaAB))

/-- A matrix operation issues (15 R381): its start set, its tiles, its number. -/
def State.matrixIssue (s : State) (u sub td tb : Nat) (members : List (Nat × Mask × Nat)) (c0 cn : Nat) : State :=
  let (v, s) := members.foldl (fun (acc : View × State) m => (lanesOf m.2.1).foldl (fun (acc : View × State) l =>
    acc.2.releaseView (.lane m.1 l) acc.1) acc) ([], s)
  let tas := members.map (fun m => m.2.2)
  let s := s.modUnit u (fun x => (matrixUses td tb tas).foldl (fun (x : UnitSt) (p : Nat × TileUse) => x.tileEvent p.1 p.2) x)
  s.issueOp u 7 ((members.head?.map (fun m => m.1)).getD 0) (.mma sub td tb (members.map (fun m => (m.1, m.2.2))) c0 cn) v

/-- MMA, MMA.CKS and MSTEP at issue (15 R379-R381): alone, or to the gang latch, where a wave of the gang that has exited is a mismatch. A word
that has been held makes checks 2 to 7 again. -/
def State.matrixBody (s : State) (x : Iss) (sub : Nat) (w : Full) (r : Word) : Res :=
  let u := x.wave.unit
  let n := bits x.wave.gang.toNat 26 24
  let g := if n = 0 then 1 else n
  let (td, ta, tb) := (tileNum w.d, tileNum w.a, tileNum w.b)
  if x.e = 0 then .done s
  else if !(x.wave.lane x.lane0).again && (!(s.unit u).hasCtx 7 || (s.core x.wave.core).owner != some u) then x.fail Code.engown s
  else match (s.unit u).matrixCheck sub g td ta tb r with
    | .error c => x.fail c s
    | .ok (c0, cn) =>
      if 2 ≤ g && (s.unit u).waves.any (fun k => (s.wave k).exited && (gangMembers x.wave.gang).contains (s.wave k).idx) then
        x.fail Code.gangmis s
      else if 2 ≤ g then
        let h : LatchEntry := { wave := x.w, lanes := x.e, op := if sub = 3 then 0x74 else 0x73, sub, td, ta, tb, r, flag := flagOf x.cur w.fs }
        .held .gangLatch (s.modUnit u (fun y => { y with latch := y.latch.filter (fun k => k.wave != x.w) ++ [h] }))
      else match s.judgeTiles u (matrixUses td tb [ta]) with
        | .wait => .held (.tile (matrixUses td tb [ta])) s
        | .bad c => x.fail c s
        | .go =>
          if 16 ≤ ((s.unit u).ctx 7).outstanding then .held (.engineLimit 7) s
          else .done (s.matrixIssue u sub td tb [(x.w, x.e, ta)] c0 cn)

/-- MMA (15 R378-R381). -/
def execMma (w : Full) (s : State) : Host.Outcome State Fault Refusal :=
  s.perform (.mma w) (headF w [] true).notHandler (fun x s => s.matrixBody x 0 w 0)

/-- MMA.CKS (15 R378-R381; 05 R144). -/
def execMmaCks (w : Full) (s : State) : Host.Outcome State Fault Refusal :=
  s.perform (.mmaCks w) (headF w [] true).notHandler (fun x s => s.matrixBody x 1 w 0)

/-- MSTEP (15 R378-R381). -/
def execMstep (w : Full) (s : State) : Host.Outcome State Fault Refusal :=
  s.perform (.mstep w) (headF w [(w.c, 1)] true).notHandler (fun x s =>
    s.matrixBody x 3 w (BitVec.ofNat 32 (s.srcU x w.c 32 (lowestLane x.e))))

/-- The members of a gang all of whose waves are at the latch, with the gang's value; none while some are missing (15 R380). A member whose
%gang has come to name no wave is compared with those that name it (15 R397; log 20). -/
def State.latchFull (s : State) (u : Nat) : Option (Word × List LatchEntry) :=
  (s.unit u).latch.findSome? (fun h =>
    let g := (s.wave h.wave).gang
    let hs := s.gangEntries u g
    if gangMembers g = [] then
      let hs := (s.unit u).latch.filter (fun k => k = h || (gangMembers (s.wave k.wave).gang = []) || k ∈ s.latchNaming u (s.wave h.wave).idx)
      if hs.length = 1 then none else some (g, hs)
    else if (gangMembers g).all (fun i => hs.any (fun k => (s.wave k.wave).idx = i)) then some (g, hs) else none)

/-- Members' operations that the latch does not match (15 R380). -/
def State.latchClash (s : State) (g : Word) (hs : List LatchEntry) : Bool :=
  match hs with
  | [] => false
  | a :: _ => gangMembers g = [] ||
    hs.any (fun h => (s.wave h.wave).gang != g || h.op != a.op || h.sub != a.sub || h.td != a.td || h.tb != a.tb || h.r != a.r)

/-- The members in gang order. -/
def State.gangOrder (s : State) (g : Word) (hs : List LatchEntry) : List LatchEntry :=
  (gangMembers g).filterMap (fun i => hs.find? (fun h => (s.wave h.wave).idx = i))

/-- A gang's members leave the latch: their words have issued (15 R381; 12 R273; 15 R395). -/
def State.latchLeave (s : State) (u : Nat) (hs : List LatchEntry) : State :=
  let s := s.modUnit u (fun x => { x with latch := x.latch.filter (fun h => !hs.contains h) })
  hs.foldl (fun s h =>
    let g := maskWhere (fun l => (s.waitOf h.wave l) = some (.hold .gangLatch))
    let now := (s.core (s.wave h.wave).core).cycles
    let s := s.modWave h.wave (fun v => { v.modLanes g (fun l => { l with lastIssue := some now, flag := h.flag, again := false }) with
      wwords := v.wwords + 1
      flags := if h.flag = 15 then v.flags else tset 0 v.flags h.flag 1 })
    s.leaveWait h.wave g) s

/-- The members of a complete gang that wait in tile states: present, alike and checked (15 R380, R381; 02 R66). -/
def State.gangTileWait (s : State) (u : Nat) : List LatchEntry :=
  match s.latchFull u with
  | none => []
  | some (g, hs) =>
    let ms := s.gangOrder g hs
    match ms.head? with
    | none => []
    | some a =>
      let checked := ms.all (fun h => ((s.unit u).matrixCheck a.sub ms.length h.td h.ta h.tb h.r).toOption.isSome)
      if !s.latchClash g hs && checked && s.judgeTiles u (matrixUses a.td a.tb (ms.map (·.ta))) = .wait then hs else []

/-- Waits in tile states (02 R66), those of a gang's members at the latch among them (15 R381). -/
def State.inTileWait (s : State) (w : Nat) : Bool :=
  let v := s.wave w
  (lanesOf v.live).any (fun l => match (v.lane l).wait with
    | some (.hold (.tile _)) => true
    | some (.hold .gangLatch) => (s.gangTileWait v.unit).any (·.wave = w)
    | _ => false)

/-- GANG_LATCH_MATCH (15 R380, R381): the members compared, their checks repeated, and one operation issued for the gang. -/
def execGangLatchMatch (s : State) : Host.Outcome State Fault Refusal :=
  let u := s.occ.a
  let x := s.unit u
  match s.latchFull u with
  | none => .refused (.notEnabled "GANG_LATCH_MATCH")
  | some (g, hs) =>
    let ms := s.gangOrder g hs
    if !hs.all (fun h => s.awake h.wave) then .refused (.notEnabled "GANG_LATCH_MATCH")
    else if s.latchClash g hs then .next (s.latchFault u Code.gangmis hs)
    else match ms.head? with
      | none => .refused (.notEnabled "GANG_LATCH_MATCH")
      | some a =>
        let checks := ms.map (fun h => x.matrixCheck a.sub ms.length h.td h.ta h.tb h.r)
        match checks.findSome? (fun c => match c with
            | .error c => some c
            | .ok _ => none) with
        | some c => .next (s.latchFault u c hs)
        | none =>
          let (c0, cn) := (checks.head?.bind (fun c => c.toOption)).getD (0, 0)
          match s.judgeTiles u (matrixUses a.td a.tb (ms.map (·.ta))) with
          | .wait => .refused (.notEnabled "GANG_LATCH_MATCH")
          | .bad c => .next (s.latchFault u c hs)
          | .go =>
            if 16 ≤ (x.ctx 7).outstanding then .refused (.notEnabled "GANG_LATCH_MATCH")
            else
              let s := s.matrixIssue u a.sub a.td a.tb (ms.map (fun h => (h.wave, h.lanes, h.ta))) c0 cn
              .next (s.latchLeave u hs)

/-- A group as the engine holds it: signed magnitudes and their exponent, or none for a NaN group (05 R140, R142). -/
abbrev Group := Option (List Int × Int)

/-- A group's elements as exact values (05 R140, R144). -/
def groupNums (g : Group) : List Num :=
  match g with
  | none => List.replicate 16 .nan
  | some (vs, x) => vs.map (fun v => .fin (v < 0) v.natAbs x)

/-- The exact sum of products of two groups (05 R142). -/
def groupDot (a b : Group) : Num :=
  match a, b with
  | some (va, xa), some (vb, xb) =>
    let t := ((va.zip vb).map (fun p => p.1 * p.2)).foldl (· + ·) 0
    .fin (t < 0) t.natAbs (xa + xb)
  | _, _ => .nan

/-- The exact sum of some values. -/
def sumNums (l : List Num) : Num := l.foldl (Num.add 0) (.fin false 0 0)
/-- The exact sum of products of values: NaN for an infinity times zero, or for infinities of both signs (05 R144; log 62). -/
def dotNums (a b : List Num) : Num := sumNums ((a.zip b).map (fun p => p.1.mul p.2))

/-- RNE32 of 05 R144; exact for an S32 accumulator. -/
def rne32 (fmt : Nat) (x : Num) : Num := if fmt = 10 then x else decodeElem 23 (encodeElem 23 0 x).1

/-- The update of one element by an exact addend (05 R142): its bits, none where an S32 element has no stated value, and OVF. -/
def accUpdate (fmt o : Nat) (x : Num) : Option Nat × Bool :=
  match x with
  | .nan => (if fmt = 10 then none else some (encodeElem fmt 0 .nan).1, false)
  | .inf _ => (some (encodeElem fmt 0 ((decodeElem fmt o).add 0 x)).1, false)
  | .fin s m e =>
    if m = 0 then (some o, false)
    else if fmt = 10 then
      let t := sextNat o 32 + Num.steps s m e 0
      (some (wrapNat t 32), t < -2147483648 || 2147483647 < t)
    else (some (encodeElem fmt 0 ((decodeElem fmt o).add 0 x)).1, false)

/-- The addend of element (i, q) of a product of m rows and n columns, checksum row and column included (05 R142, R144). -/
def groupAddend (fmt m n : Nat) (a b : List Group) (cks : Bool) : Nat → Nat → Num :=
  let an := a.map groupNums
  let bn := b.map groupNums
  let col := if cks then (List.range 16).map (fun k => rne32 fmt (sumNums (an.map (fun r => r.getD k .nan)))) else []
  let row := if cks then (List.range 16).map (fun k => rne32 fmt (sumNums (bn.map (fun r => r.getD k .nan)))) else []
  fun i q =>
    if i < m && q < n then groupDot (a.getD i none) (b.getD q none)
    else if i < m then dotNums (an.getD i []) row
    else if q < n then dotNums col (bn.getD q [])
    else dotNums col row

/-- Group records read by the matrix engine, one granule a step, and whether a word of one is bad (02 R60; 03 R78; 09 R227). -/
def State.readRecs (s : State) (ag : Agent) (u : Nat) (g : TileGeom) (kg c count : Nat) : List Group × Bool × State :=
  (List.range count).foldl (fun (acc : List Group × Bool × State) i =>
    let loc := locBuf g.buf u (g.off + (i * kg + c) * g.recBytes)
    let (bs, s) := acc.2.2.readGran ag loc g.recBytes
    let bad := s.mem.badWord loc g.recBytes
    (acc.1 ++ [if bad then none else readGroup g bs], acc.2.1 || bad, s)) ([], false, s)

/-- Granules that changed, written each in one step (03 R78). -/
def State.writeChanged (s : State) (ag : Agent) (loc : Nat) (old new : List Byte) (instr : Nat) : State :=
  (granules loc new.length).foldl (fun s g =>
    let b := (new.drop (g.1 - loc)).take g.2
    if b = (old.drop (g.1 - loc)).take g.2 then s else s.queueWrite ag (plainBytes g.1 b) instr) s

/-- One K-group of a matrix operation (15 R381; 05 R142, R144). -/
def State.mmaGroup (s : State) (u n sub td tb : Nat) (members : List (Nat × Nat)) (c0 c : Nat) : State :=
  let x := s.unit u
  let ag := Agent.op u 7 n
  let d := geomOf (x.tile td).desc
  let b := geomOf (x.tile tb).desc
  let kg := b.rows / 16
  let (as, badA, s) := members.foldl (fun (acc : List Group × Bool × State) m =>
    let (r, bad, s) := acc.2.2.readRecs ag u (geomOf (x.tile m.2).desc) kg c 16
    (acc.1 ++ r, acc.2.1 || bad, s)) ([], false, s)
  let (bs, badB, s) := s.readRecs ag u b kg c b.cols
  let s := if badA || badB then s.recordFault u 7 n Code.storage 0 x.core else s
  let loc := locBuf 2 u d.off
  let (old, s) := s.readGran ag loc (d.rows * d.cols * d.accBytes)
  let add := groupAddend d.fmt (16 * members.length) b.cols as bs (sub = 1)
  let (new, ovf, s) := (List.range (d.rows * d.cols)).foldl (fun (acc : List Byte × Bool × State) k =>
    let o := leNat ((old.drop (k * d.accBytes)).take d.accBytes)
    let (r, ov) := accUpdate d.fmt o (add (k / d.cols) (k % d.cols))
    let (v, s) := match r with
      | some v => (v, acc.2.2)
      | none =>
        let (i, s) := acc.2.2.draw
        ((Config.freeWord i).toNat, s)
    (acc.1 ++ leBytes d.accBytes v, acc.2.1 || ov, s)) ([], false, s)
  let (i, s) := s.newId
  let s := s.writeChanged ag loc old new i
  s.modUnit u (fun y =>
    let t := y.tile td
    { y.setTile td { t with ovf := t.ovf || ovf, kstep := c + 1 - c0 } with
      umma := y.umma + (max ((members.map (fun m => (geomOf (y.tile m.2).desc).p)).foldl max 0) b.p + 1) / 2 * members.length })

/-- K-groups still to do of an operation, in order, from the one its tD's KSTEP records (02 R68; 15 R381). -/
def UnitSt.groupsLeft (u : UnitSt) (td c0 cn : Nat) : List Nat :=
  let k := (u.tile td).kstep
  (List.range (cn - k)).map (fun i => c0 + k + i)

/-- K-groups of a matrix operation performed: a free number of those left, so that other agents step between them (03 R76; 15 R381). -/
def State.mmaGroups (s : State) (u n sub td tb : Nat) (members : List (Nat × Nat)) (c0 cn : Nat) : State :=
  let left := (s.unit u).groupsLeft td c0 cn
  let (i, s) := s.pick left.length
  (left.take (i + 1)).foldl (fun s c => s.mmaGroup u n sub td tb members c0 c) s

/-- MMA_COMPLETE (15 R381): first the current reservation, then, once it is held, K-groups, and with the last of them the completion. -/
def execMmaComplete (s : State) : Host.Outcome State Fault Refusal :=
  let u := s.occ.a
  match (s.unit u).headOp 7 with
  | none => .refused (.notEnabled "MMA_COMPLETE")
  | some o =>
    match o.kind, o.phase with
    | .mma sub td tb ms c0 cn, .running =>
      if !s.enginesRun u then .refused (.notEnabled "MMA_COMPLETE")
      else if !o.requested then .next (s.requestCurrent u 7 o.num 24)
      else if !o.reserved then .refused (.notEnabled "MMA_COMPLETE")
      else
        let s := s.mmaGroups u o.num sub td tb ms c0 cn
        if !((s.unit u).groupsLeft td c0 cn).isEmpty then .next s
        else
        let s := s.modUnit u (fun x => x.mmaRelease td tb (ms.map (fun m => m.2)) true)
        let s := s.fullRelease (.op u 7 o.num) (.tile u td)
        let s := s.returnCurrent u 7 o.num 24
        .next (s.completeOp u 7 o.num)
    | _, _ => .refused (.notEnabled "MMA_COMPLETE")

end Sys2Proof.Machine
end

