-- ==== Sys2Proof/Machine/Engine.lean ====
section
/-! DEFINITION. Command chains: issue, entries, transfers, arrivals, and the timeline instructions
(04 R104-R125; 15 R382-R385; 03 R97, R100, R101; 02 R55, R65; 01 R29). -/
namespace Sys2Proof.Machine

/-- The checks of a chain issue (04 R104, R107; 15 R382): the fault, if any, and the address it names. -/
def State.chainFault (s : State) (x : Iss) (e : Nat) (ea : DWord) (cap : Opnd) : Option (Code × DWord) :=
  if !(s.unit x.wave.unit).hasCtx e then some (Code.engown, 0)
  else if pathOf ea = 0xF then some (Code.priv, ea)
  else if pathOf ea != 2 || !canonical ea then some (Code.addrpath, ea)
  else if ea.toNat % 64 != 0 then some (Code.align, ea)
  else match cap with
    | .k n =>
      if !x.wave.rktag n then some (Code.captag, 0)
      else if Nat.land (x.wave.rk n).perms 0x10 = 0 then some (Code.capperm, 0)
      else none
    | _ => none

/-- The number of an engine operand. -/
def engNum : Opnd → Nat
  | .e n => n
  | _ => 0

/-- The capability an issue captures (04 R107). -/
def capOperand (x : Iss) : Opnd → Option CapBits
  | .k n => some (x.wave.rk n)
  | _ => none

/-- CGO, GGO and XGO (15 R382; 04 R105, R107). -/
def State.chainBody (s : State) (x : Iss) (w : Full) : Res :=
  let e := engNum w.a
  let u := x.wave.unit
  let l := lowestLane x.e
  let ea := s.addrBase x w.b l
  if x.e = 0 then .done s
  else match s.chainFault x e ea w.c with
    | some (c, a) => .fault c l 0xF a s
    | none =>
      if 16 ≤ ((s.unit u).ctx e).outstanding then .held (.engineLimit e) s
      else
        let (v, s) := (lanesOf x.e).foldl (fun (acc : View × State) l => acc.2.releaseView (.lane x.w l) acc.1) ([], s)
        .done (s.issueOp u e x.w (.chain ea (capOperand x w.c)) v)

/-- The registers a chain issue names. -/
def chainRegs (w : Full) : List (Opnd × Nat) := [(w.b, 2), (w.c, 1)]

/-- CGO (15 R382). -/
def execCgo (w : Full) (s : State) : Host.Outcome State Fault Refusal :=
  s.perform (.cgo w) (headF w (chainRegs w) true).notHandler (fun x s => s.chainBody x w)

/-- GGO (15 R382). -/
def execGgo (w : Full) (s : State) : Host.Outcome State Fault Refusal :=
  s.perform (.ggo w) (headF w (chainRegs w) true).notHandler (fun x s => s.chainBody x w)

/-- XGO (15 R382). -/
def execXgo (w : Full) (s : State) : Host.Outcome State Fault Refusal :=
  s.perform (.xgo w) (headF w (chainRegs w) true).notHandler (fun x s => s.chainBody x w)

/-- The steps added to D1 and D2 by the loop an operation repeats (04 R111). -/
def Op.steps (o : Op) : Int × Int :=
  match o.loop with
  | some l => (l.rep * l.sstep, l.rep * l.dstep)
  | none => (0, 0)

/-- A doubleword that is an address, stepped modulo 2^64 (04 R111). -/
def stepped (x : Nat) (step : Int) : DWord := BitVec.ofNat 64 x + BitVec.ofInt 64 step

/-- An operation past its current entry or repetition (04 R111). -/
def Op.advance (o : Op) : Op :=
  let o := { o with row := 0, got := [], reserved := false, requested := false, round := none, moved := [], arrived := 0, slot := none, afresh := false, phase := .running }
  match o.loop with
  | none => { o with entry := o.entry + 1 }
  | some l =>
    if o.entry + 1 < l.at_ then { o with entry := o.entry + 1 }
    else if l.rep < l.count then { o with entry := l.at_ - l.span, loop := some { l with rep := l.rep + 1 } }
    else { o with entry := l.at_ + 1, loop := none }

/-- Why a row or an entry cannot go on. -/
inductive EngStop where
  | fault (code core : Nat)
  | park (ea : DWord) (acc reason level : Nat)
  | wait
deriving DecidableEq, Repr

/-- The paths that an engine's kind may read and write: the typed buffers as 02 R55 marks them, else as 01 R14. -/
def engPaths (e : Nat) (write : Bool) : List Nat :=
  if e ≤ 3 then (if write then pathsStore else pathsAll)
  else if e = 6 then [2, 6]
  else if write then [0, 2, 3, 5, 7, 8, 9, 0xA] else [0, 1, 2, 3, 7, 8, 9, 0xA]

/-- The check of a row against the captured capability (04 R107). -/
def Op.capFault (o : Op) (k : AccKind) (ea : DWord) (n : Nat) : Option Code :=
  match o.kind with
  | .chain _ (some c) =>
    if [0, 1, 3, 7, 8, 9].contains (pathOf ea) then capCheck true c (ea - c.base) n (if k.writes then 2 else 1) else none
  | _ => none

/-- A row cut at 64 KiB pages where its path is translated. -/
def pagePieces (ea : DWord) (n : Nat) : List (DWord × Nat) :=
  if translated (pathOf ea) then
    let a := ea.toNat % 65536
    (List.range ((a + n + 65535) / 65536)).filterMap (fun i =>
      let lo := max a (65536 * i)
      let hi := min (a + n) (65536 * (i + 1))
      if hi ≤ lo then none else some (ea + BitVec.ofNat 64 (lo - a), hi - lo))
  else [(ea, n)]

/-- A row's places once its checks have passed, each with its length (01 R41; 04 R107, R122; 02 R55). A REPLAY has its first access walk
afresh (01 R33). A read of another package or a host faults REMOTE where it is cut off, or where its target reports a failure, as the event's
occasion says (09 R227; 22 R421; log 26); a write that fails does so when it drains. -/
def State.engPlaces (s : State) (u rcv e : Nat) (o : Op) (k : AccKind) (align : Nat) (ea : DWord) (n : Nat) :
    Except EngStop (List (Place × Nat)) × State :=
  if n = 0 then (.ok [], s)
  else
    let x := s.unit u
    let cap := o.capFault k ea n
    let ps := pagePieces ea n
    let reqs : List Req := ps.map (fun p =>
      { lane := 0, ea := p.1, size := p.2, kind := k, align, cap, paths := engPaths e k.writes })
    let (c, s) := s.checkAccess x.core x.vf rcv (s.wave o.wave).sb reqs o.afresh
    match c with
    | .ok places =>
      if !k.writes && places.any (fun p => s.cutOff p.loc || (s.occ.c % 2 = 1 && isRemote p.loc)) then (.error (.fault Code.remote x.core), s)
      else (.ok (places.zip (ps.map (fun p => p.2))), s.modOp u e o.num (fun o => { o with afresh := false }))
    | .fault code _ _ => (.error (.fault code (s.unit rcv).core), s)
    | .xlate _ a acc reason level => (.error (.park a acc reason level), s)
    | .waitMember _ => (.error .wait, s)

/-- A row read by an engine: poison and bad words as 09 R227, R228 say. -/
def State.engRead (s : State) (u e : Nat) (o : Op) (align : Nat) (ea : DWord) (n : Nat) : Except EngStop (List Byte) × State :=
  let core := (s.unit u).core
  match s.engPlaces u u e o AccKind.engineRead align ea n with
  | (.error x, s) => (.error x, s)
  | (.ok ps, s) =>
    if ps.any (fun p => !p.1.tolerant && (List.range p.2).any (fun i => s.poisoned (p.1.loc + i))) then
      (.error (.fault Code.poison core), s)
    else if ps.any (fun p => s.mem.badWord p.1.loc p.2) then (.error (.fault Code.storage core), s)
    else
      let (bs, s) := ps.foldl (fun (acc : List Byte × State) p =>
        let (bs, s) := acc.2.readGran (.op u e o.num) p.1.loc p.2
        (acc.1 ++ s.maskPoison p.1.loc bs, s)) ([], s)
      (.ok bs, s)

/-- Bytes counted in UENG (15 R395). -/
def State.countBytes (s : State) (u n : Nat) : State := s.modUnit u (fun x => { x with ueng := x.ueng + n })

/-- ENTRY and OPNUM as fault records give an engine's place (09 R225). -/
def Op.where_ (o : Op) : DWord := BitVec.ofNat 64 (o.entry % 4096 * 2 ^ 32 + o.num % 2 ^ 32)

/-- A row written by an engine into one receiver. -/
def State.engWrite (s : State) (u rcv e : Nat) (o : Op) (ea : DWord) (bs : List Byte) : Except EngStop Unit × State :=
  match s.engPlaces u rcv e o AccKind.engineWrite 0 ea bs.length with
  | (.error x, s) => (.error x, s)
  | (.ok ps, s) =>
    let (i, s) := s.newId
    let (_, s) := ps.foldl (fun (acc : List Byte × State) p =>
      (acc.1.drop p.2, acc.2.writeGran (.op u e o.num) p.1.loc (acc.1.take p.2) i p.1.ea o.where_)) (bs, s)
    (.ok (), s.countBytes u bs.length)

def entSfmt (d : List DWord) : Nat := bits (dw d 0) 55 51
def entDfmt (d : List DWord) : Nat := bits (dw d 0) 50 46
def entRows (d : List DWord) : Nat := bits (dw d 3) 63 32
def entSize (d : List DWord) : Nat := bits (dw d 3) 31 0
/-- A gather entry that is a landing transfer (04 R118). -/
def isLanding (d : List DWord) : Bool := entryKind d = 1 && bits (dw d 7) 63 63 = 1

/-- The elements of a row, and its bytes at a memory destination (04 R112); none where the row size does not fit, or the elements of a
conversion in memory are no whole number of destination units (log 62). -/
def rowShape (d : List DWord) : Option (Nat × Nat) :=
  let (st, dt) := tileSides d
  let sf := entSfmt d
  let df := entDfmt d
  let n := entSize d
  match st, dt with
  | some _, some _ => some (n, 0)
  | none, some _ => if n % unitBytes sf = 0 then some (n / unitBytes sf * unitElems sf, 0) else none
  | some _, none => if n % unitBytes df = 0 then some (n / unitBytes df * unitElems df, n) else none
  | none, none =>
    if sf = df then some (0, n)
    else
      let k := n / unitBytes sf * unitElems sf
      if n % unitBytes sf = 0 && k % unitElems df = 0 then some (k, k / unitElems df * unitBytes df) else none

/-- What is wrong with the barriers of an entry that arrives, and the core to name: a receiver's where it lies beyond that receiver's scratch
(04 R117, R120). -/
def State.barrierFaults (s : State) (u : Nat) (rs : List Nat) (d : List DWord) : List (Code × Nat) :=
  if bits (dw d 0) 40 40 = 0 then []
  else rs.filterMap (fun r => match s.barrierAt r d with
    | .error c => some (c, if c = Code.addrpath then (s.unit r).core else (s.unit u).core)
    | .ok _ => none)

/-- A format whose sums a collective forms (04 R115). -/
def sumFmt (t : Nat) : Bool := (floatFmt? t).isSome || t = 10

/-- The rank of this package and virtual function in a group (22 R426). -/
def CollGroup.rank (g : CollGroup) (vf : Nat) : Nat := g.members.findIdx (fun m => m = (Config.packageNumber, vf))

/-- What is wrong with the rows of an entry, its receivers and its barriers (04 R112, R113, R116, R117, R120). -/
def State.rowFaults (s : State) (u : Nat) (d : List DWord) : List (Code × Nat) :=
  let (st, dt) := tileSides d
  let sf := entSfmt d
  let df := entDfmt d
  let here := fun (c : Code) (p : Bool) => if p then [(c, (s.unit u).core)] else []
  here Code.chain (sf != df && ((onBuffer (dw d 1) && st.isNone) || (onBuffer (dw d 2) && dt.isNone))) ++
  (match rowShape d with
    | none => here Code.chain true
    | some (_, out) => here Code.chain (dt.isNone && 1 < entRows d && bits (dw d 4) 31 0 < out)) ++
  here Code.fmtuns (st.isNone && !(dt.isNone && sf = df) && !convOk sf df) ++
  (match s.receivers u d with
    | .error c => here c true
    | .ok rs => s.barrierFaults u rs d)

/-- A path that a collective entry may not name: CHAIN by 04 R115, and ADDRPATH by 02 R55 where it is one of the typed buffers. -/
def collPathFaults (path : Nat) : List Code :=
  if path = 2 || path = 6 then [] else if path = 4 || path = 5 then [Code.chain, Code.addrpath] else [Code.chain]

/-- What is wrong with a moving entry before its tiles are looked at, each fault with the core to name (04 R110, R112, R113, R115-R118, R120;
02 R55). An all-gather is judged by D3's rows, though it writes those of every member (log 63). -/
def State.entryFaults (s : State) (u : Nat) (d : List DWord) : List (Code × Nat) :=
  let k := entryKind d
  let (st, dt) := tileSides d
  let op := bits (dw d 6) 7 0
  let mc := bits (dw d 0) 59 56 != 0
  let here := fun (c : Code) (p : Bool) => if p then [(c, (s.unit u).core)] else []
  if k = 6 then
    here Code.chain (mc || 4 < op) ++
    (collPathFaults (bits (dw d 1) 63 60) ++ collPathFaults (bits (dw d 2) 63 60)).flatMap (fun c => here c true) ++
    (match tfind? s.pkg.groups (s.groupKey u d) with
      | none => here Code.chain true
      | some g => here Code.chain (3 ≤ op && entRows d % g.members.length != 0)) ++
    here Code.fmtuns ((op = 1 || op = 3) && !sumFmt (entDfmt d)) ++ s.rowFaults u d
  else if isLanding d then
    here Code.chain (dw d 2 != 0 || bits (dw d 0) 38 38 = 1 || mc || 32 < entRows d || (rowShape d).all (fun r => r.2 != 4 && r.2 != 8)) ++
    here Code.fmtuns (entSfmt d != entDfmt d && !convOk (entSfmt d) (entDfmt d)) ++ s.barrierFaults u [u] d
  else
    here Code.chain (mc && !(bits (dw d 2) 63 60 = 2 || dt.isSome)) ++
    here Code.addrpath (k = 1 && (st.isSome || dt.any (fun _ => bits (dw d 2) 63 60 != 5))) ++ s.rowFaults u d

/-- One of several faults of an entry: the rules give no order among them, and the device records which it finds (04 R110, R120; log 62). -/
def State.faultOneOf (s : State) (u e : Nat) (o : Op) (l : List (Code × Nat)) : State :=
  let (i, s) := s.pick l.eraseDups.length
  match l.eraseDups[i]? with
  | none => s
  | some (c, core) => s.engineFault u e o c core

/-- A tile side of an entry: descriptor, first row and column (04 R113). -/
structure TileSide where
  unit : Nat
  tile : Nat
  geom : TileGeom
  row : Int
  col : Nat

/-- The coordinate of a tile side (04 R111, R113). -/
def State.tileSide (s : State) (u t : Nat) (coord : Nat) (step : Int) : TileSide :=
  { unit := u, tile := t, geom := geomOf ((s.unit u).tile t).desc, row := (bits coord 47 32 : Nat) + step, col := bits coord 15 0 }

/-- A tile side that R113 refuses, for `nr` rows of `nc` elements. -/
def TileSide.bad (t : TileSide) (coord nr nc : Nat) : Bool :=
  bits coord 63 60 != 4 + t.geom.buf || bits coord 59 48 != 0 || bits coord 31 16 != 0 ||
  (nr != 0 && nc != 0 && (t.row < 0 || (t.geom.rows : Int) < t.row + nr || t.geom.cols < t.col + nc))

/-- A fill that R113 refuses: format, planes, or a K range that is not whole groups. -/
def TileSide.badFill (t : TileSide) (d : List DWord) (nr nc : Nat) : Bool :=
  let zpad := bits (dw d 0) 39 39 = 1
  let k0 : Int := if t.geom.buf = 1 then t.col else t.row
  let kn := if t.geom.buf = 1 then nc else nr
  entDfmt d != t.geom.fmt ||
  (t.geom.buf != 2 && (t.geom.p < bits (dw d 0) 45 41 || (nr != 0 && nc != 0 && (k0 % 16 != 0 || (kn % 16 != 0 && !zpad)))))

/-- The rows an entry writes at its destination: a collective's all-gather and reduce-scatter differ (04 R115). -/
def destRows (d : List DWord) (members : Nat) : Nat :=
  if entryKind d = 6 then
    match bits (dw d 6) 7 0 with
    | 2 => members * entRows d
    | 3 => entRows d / members
    | _ => entRows d
  else entRows d

/-- What is wrong with an entry's tiles once it has reached them (04 R113). -/
def State.tileFaults (s : State) (u : Nat) (o : Op) (d : List DWord) (members : Nat) : List (Code × Nat) :=
  let (st, dt) := tileSides d
  let ne := ((rowShape d).getD (0, 0)).1
  let src := st.toList.flatMap (fun t =>
    let y := s.tileSide u t (dw d 1) o.steps.1
    (if y.bad (dw d 1) (entRows d) ne then [(Code.chain, (s.unit u).core)] else []) ++
    (if !convOk y.geom.fmt (entDfmt d) then [(Code.fmtuns, (s.unit u).core)] else []))
  let dst := dt.toList.flatMap (fun t => ((s.receivers u d).toOption.getD []).filterMap (fun r =>
    let y := s.tileSide r t (dw d 2) o.steps.2
    if y.bad (dw d 2) (destRows d members) ne || y.badFill d (destRows d members) ne then some (Code.chain, (s.unit r).core) else none))
  src ++ dst

/-- Whether an entry drains and fills one tile of its own unit (02 R65; log 16). -/
def State.inPlace (s : State) (u : Nat) (d : List DWord) : Bool :=
  let (st, dt) := tileSides d
  st.isSome && st = dt && ((s.receivers u d).toOption.getD []).contains u

/-- The tiles an entry moves when the engine reaches it (02 R65): fills of each receiver, then the drain. A tile that is drained and filled
is judged as drained and becomes FILLING. -/
def State.entryTiles (s : State) (u : Nat) (d : List DWord) : List (Nat × Nat × TileUse) :=
  let (st, dt) := tileSides d
  let both := s.inPlace u d
  (dt.map (fun t => (((s.receivers u d).toOption.getD []).filter (fun r => !(both && r = u))).map (fun r => (r, t, TileUse.fill)))).getD [] ++
  (st.map (fun t => (u, t, TileUse.drain))).toList

/-- A tile moved by an entry that reaches it. -/
def UnitSt.entryMoves (x : UnitSt) (t : Nat) (use : TileUse) (both : Bool) : UnitSt :=
  let x := x.tileEvent t use
  if both && use = .drain then x.setTile t { x.tile t with state := .filling } else x

/-- Elements in bytes of a memory side (05 R131). -/
def decodeRow (t : Nat) (bs : List Byte) : List Num :=
  (List.range (bs.length / unitBytes t)).flatMap (fun i => decodeUnit t (leNat ((bs.drop (i * unitBytes t)).take (unitBytes t))))

/-- Bytes of elements at a memory side, with RNE, and whether any saturated (05 R130, R131, R137). -/
def encodeRow (t : Nat) (xs : List Num) : List Byte × Bool :=
  (List.range (xs.length / unitElems t)).foldl (fun (acc : List Byte × Bool) i =>
    let (b, sat) := encodeUnit t ((xs.drop (i * unitElems t)).take (unitElems t))
    (acc.1 ++ leBytes (unitBytes t) b, acc.2 || sat)) ([], false)

/-- SAT of the wave that issued an operation, unless it has exited (15 R391). -/
def State.engSat (s : State) (o : Op) (sat : Bool) : State := if (s.wave o.wave).exited then s else s.setSat o.wave sat

/-- One group record of a tile, and whether a word of it is bad. -/
def State.readRec (s : State) (ag : Agent) (t : TileSide) (idx : Nat) : Group × Bool × State :=
  let loc := locBuf t.geom.buf t.unit (t.geom.off + idx * t.geom.recBytes)
  let (bs, s) := s.readGran ag loc t.geom.recBytes
  (readGroup t.geom bs, s.mem.badWord loc t.geom.recBytes, s)

/-- n elements of a tile row from a column (02 R60-R62; 05 R140). -/
def State.readTileRow (s : State) (ag : Agent) (t : TileSide) (row n : Nat) : Except Code (List Num) × State :=
  let g := t.geom
  let kg := g.k / 16
  if n = 0 then (.ok [], s)
  else if g.buf = 2 then
    let loc := locBuf 2 t.unit (g.off + (row * g.cols + t.col) * g.accBytes)
    let (bs, s) := s.readGran ag loc (n * g.accBytes)
    (if s.mem.badWord loc (n * g.accBytes) then .error Code.storage
      else .ok ((List.range n).map (fun i => decodeElem g.fmt (leNat ((bs.drop (i * g.accBytes)).take g.accBytes)))), s)
  else
    let idxs := if g.buf = 1 then (List.range ((t.col + n + 15) / 16 - t.col / 16)).map (fun c => row * kg + t.col / 16 + c)
      else (List.range n).map (fun j => (t.col + j) * kg + row / 16)
    let (gs, bad, s) := idxs.foldl (fun (acc : List Group × Bool × State) i =>
      let (r, b, s) := acc.2.2.readRec ag t i
      (acc.1 ++ [r], acc.2.1 || b, s)) ([], false, s)
    let xs := if g.buf = 1 then ((gs.flatMap groupNums).drop (t.col % 16)).take n
      else gs.map (fun r => (groupNums r).getD (row % 16) .nan)
    (if bad then .error Code.storage else .ok xs, s)

/-- A source row: bytes to be copied unchanged, or elements. -/
inductive RowData where
  | raw (bs : List Byte)
  | nums (xs : List Num)

/-- The bytes of source row r of a memory side (04 R112, R114). -/
def State.readSource (s : State) (u e : Nat) (o : Op) (d : List DWord) (r : Nat) : Except EngStop (List Byte) × State :=
  let base := stepped (dw d 1) o.steps.1
  if entryKind d = 1 then
    match s.engRead u e o 4 (BitVec.ofNat 64 (dw d 6 + 4 * r)) 4 with
    | (.error x, s) => (.error x, s)
    | (.ok bs, s) => s.engRead u e o 0 (base + BitVec.ofNat 64 (leNat bs * bits (dw d 4) 63 32)) (entSize d)
  else s.engRead u e o 0 (base + BitVec.ofNat 64 (r * bits (dw d 4) 63 32)) (entSize d)

/-- A row of a memory side as the entry takes it: unchanged, or as elements (04 R112). -/
def rowOf (d : List DWord) (bs : List Byte) : RowData :=
  if (tileSides d).2.isNone && entSfmt d = entDfmt d then .raw bs else .nums (decodeRow (entSfmt d) bs)

/-- A row in the destination's memory form (04 R112), and whether an element saturated. -/
def RowData.bytes (x : RowData) (df : Nat) : List Byte × Bool :=
  match x with
  | .raw bs => (bs, false)
  | .nums xs => encodeRow df xs

/-- A row as elements of the destination's format. -/
def RowData.elems (x : RowData) (df : Nat) : List Num :=
  match x with
  | .raw bs => decodeRow df bs
  | .nums xs => xs

/-- Bytes at several places, each granule written in one step (15 R374). -/
def State.writeCells (s : State) (ag : Agent) (cells : List (Nat × List Byte)) (instr : Nat) : State :=
  let flat := cells.flatMap (fun c => ((List.range c.2.length).zip c.2).map (fun p => (c.1 + p.1, p.2)))
  let gs := (flat.map (fun p => p.1 / 16)).eraseDups
  gs.foldl (fun s g => s.queueWrite ag (flat.filter (fun p => p.1 / 16 = g)) instr) s

/-- Elements of a K-group as a tile's record, completed with zeros: record bytes, a NaN group, and saturation (05 R137, R141; 04 R113). A
zero has no B1 encoding; its record holds magnitude 0. -/
def fillRecord (g : TileGeom) (planes : Nat) (xs : List Num) : List Byte × Bool × Bool :=
  let xs := if g.fmt = 0 then xs else xs ++ List.replicate (16 - xs.length) (Num.fin false 0 0)
  let (raw, sat) :=
    if isZB g.fmt then
      let (b, sat) := encodeZB g.fmt xs
      ([b], sat)
    else
      let es := xs.map (fun x => encodeElem g.fmt 0 x)
      (es.map (fun e => e.1), es.any (fun e => e.2.1 || e.2.2))
  let (r, nan) := fillGroup g.fmt g.p (if planes = 0 then g.p else planes) raw
  (leBytes g.recBytes r, nan, sat)

/-- Rows of elements written into a tile (02 R60; 05 R141): a run of rows from `row`, which for weights is one K-group. INV is set where a
record is a NaN group or an accumulator's element is NaN or an infinity (02 R64). -/
def State.fillRows (s : State) (u e : Nat) (o : Op) (d : List DWord) (t : TileSide) (row : Nat) (xss : List (List Num)) : State :=
  let g := t.geom
  let kg := g.k / 16
  let planes := bits (dw d 0) 45 41
  let recs : List (Nat × List Num) :=
    if g.buf = 1 then
      let xs := xss.headD []
      (List.range ((xs.length + 15) / 16)).map (fun c => (row * kg + t.col / 16 + c, (xs.drop (16 * c)).take 16))
    else
      let n := (xss.headD []).length
      (List.range n).map (fun j => ((t.col + j) * kg + row / 16, xss.map (fun xs => xs.getD j (.fin false 0 0))))
  let (cells, nan, sat) : List (Nat × List Byte) × Bool × Bool :=
    if g.buf = 2 then
      let es := (xss.headD []).map (fun x => encodeElem g.fmt 0 x)
      ([(locBuf 2 t.unit (g.off + (row * g.cols + t.col) * g.accBytes), es.flatMap (fun x => leBytes g.accBytes x.1))],
        es.any (fun x => match decodeElem g.fmt x.1 with
          | .fin _ _ _ => false
          | _ => true), es.any (fun x => x.2.1 || x.2.2))
    else recs.foldl (fun (acc : List (Nat × List Byte) × Bool × Bool) r =>
      let (bs, nan, sat) := fillRecord g planes r.2
      (acc.1 ++ [(locBuf g.buf t.unit (g.off + r.1 * g.recBytes), bs)], acc.2.1 || nan, acc.2.2 || sat)) ([], false, false)
  let (i, s) := s.newId
  let s := s.writeCells (.op u e o.num) cells i
  let s := s.countBytes u ((cells.map (fun c => c.2.length)).foldl (· + ·) 0)
  let s := if nan then s.modUnit t.unit (fun x => x.setTile t.tile { x.tile t.tile with inv := true }) else s
  s.engSat o sat

/-- How many rows an entry moves before it can be suspended: the rows of one K-group for a fill of weights, else one (04 R124). -/
def rowsAtOnce (d : List DWord) : Nat :=
  if (tileSides d).2.isSome && bits (dw d 2) 63 60 = 4 then 16 else 1

/-- Rows of a memory side read in turn, after those an earlier attempt has read: a row that stops does not undo them (04 R122). -/
def State.fetchRows (s : State) (u e n : Nat) (d : List DWord) (first : Nat) : Nat → Option EngStop × State
  | 0 => (none, s)
  | left + 1 =>
    match ((s.unit u).ctx e).op? n with
    | none => (none, s)
    | some o =>
      match s.readSource u e o d (first + o.got.length) with
      | (.error x, s) => (some x, s)
      | (.ok bs, s) => State.fetchRows (s.modOp u e n (fun o => { o with got := o.got ++ [bs] })) u e n d first left

/-- Rows of a tile side read in turn. -/
def State.drainRows (s : State) (u e : Nat) (o : Op) (d : List DWord) (t first k : Nat) : Except EngStop (List RowData) × State :=
  let y := s.tileSide u t (dw d 1) o.steps.1
  (List.range k).foldl (fun (acc : Except EngStop (List RowData) × State) i =>
    match acc with
    | (.error x, s) => (.error x, s)
    | (.ok rows, s) =>
      match s.readTileRow (.op u e o.num) y (y.row.toNat + first + i) ((rowShape d).getD (0, 0)).1 with
      | (.error c, s) => (.error (.fault c (s.unit u).core), s)
      | (.ok xs, s) => (.ok (rows ++ [.nums xs]), s)) (.ok [], s)

/-- k source rows of an entry from a first one (04 R112-R114). -/
def State.readRows (s : State) (u e n : Nat) (d : List DWord) (first k : Nat) : Except EngStop (List RowData) × State :=
  match ((s.unit u).ctx e).op? n with
  | none => (.ok [], s)
  | some o =>
    match (tileSides d).1 with
    | some t => s.drainRows u e o d t first k
    | none =>
      match s.fetchRows u e n d first (k - o.got.length) with
      | (some x, s) => (.error x, s)
      | (none, s) => (.ok ((((((s.unit u).ctx e).op? n).map (fun o => o.got)).getD []).map (rowOf d)), s)

/-- A row of bytes written to each receiver in turn (04 R116). -/
def State.writeAll (s : State) (u e : Nat) (o : Op) (ea : DWord) (bs : List Byte) : List Nat → Except EngStop Unit × State
  | [] => (.ok (), s)
  | r :: rs =>
    match s.engWrite u r e o ea bs with
    | (.error x, s) => (.error x, s)
    | (.ok _, s) => State.writeAll s u e o ea bs rs

/-- Rows put at the destination of an entry, from destination row r (04 R112-R116). -/
def State.putRows (s : State) (u e : Nat) (o : Op) (d : List DWord) (r : Nat) (rows : List RowData) : Except EngStop Unit × State :=
  let rs := ((s.receivers u d).toOption).getD []
  match (tileSides d).2 with
  | some t => (.ok (), rs.foldl (fun s rcv =>
      let y := s.tileSide rcv t (dw d 2) o.steps.2
      s.fillRows u e o d y (y.row.toNat + r) (rows.map (fun x => x.elems (entDfmt d)))) s)
  | none =>
    match rows with
    | [] => (.ok (), s)
    | x :: _ =>
      let (bs, sat) := x.bytes (entDfmt d)
      (s.engSat o sat).writeAll u e o (stepped (dw d 2) o.steps.2 + BitVec.ofNat 64 (r * bits (dw d 4) 31 0)) bs rs

/-- The rows of an entry still to move, one suspension unit after another, until something stops them (04 R111, R124). -/
def State.runRows (s : State) (u e n : Nat) (d : List DWord) : Nat → Option EngStop × State
  | 0 => (none, s)
  | fuel + 1 =>
    match ((s.unit u).ctx e).op? n with
    | none => (none, s)
    | some o =>
      if entRows d ≤ o.row || entSize d = 0 then (none, s)
      else
        let k := min (rowsAtOnce d) (entRows d - o.row)
        match s.readRows u e n d o.row k with
        | (.error x, s) => (some x, s)
        | (.ok rows, s) =>
          match s.putRows u e o d o.row rows with
          | (.error x, s) => (some x, s)
          | (.ok _, s) => State.runRows (s.modOp u e n (fun o => { o with row := o.row + k, got := [] })) u e n d fuel

/-- The receivers whose barriers an entry has yet to arrive at, where it asks for arrivals (04 R117). -/
def State.barriersLeft (s : State) (u : Nat) (o : Op) (d : List DWord) : List Nat :=
  if bits (dw d 0) 40 40 = 0 then [] else (((s.receivers u d).toOption).getD []).drop o.arrived

/-- Arrivals of an entry at some receivers' barriers, one after another (04 R117; 03 R101). -/
def State.arriveAt (s : State) (u e n : Nat) (d : List DWord) (rs : List Nat) : State :=
  (rs.foldl (fun s r => match s.barrierAt r d with
    | .ok loc => (s.fullRelease (.op u e n) (.abar loc)).abarArriveAt (.op u e n) loc (entRows d * entSize d)
    | .error _ => s) s).modOp u e n (fun o => { o with arrived := o.arrived + rs.length })

/-- The arrivals of an entry that has moved its bytes, as many as the device makes in one step, and whether they are its last: each is a
step of its own for other agents (03 R75, R101; 04 R117). Among the receivers of a multicast the rules give no order: every receiver's bytes
are written before the first arrival, and arrivals come in ascending order of receiver (log 74). -/
def State.arriveSome (s : State) (u e : Nat) (o : Op) (d : List DWord) : Bool × State :=
  let rs := s.barriersLeft u o d
  let (i, s) := s.pick rs.length
  (rs.length ≤ i + 1, s.arriveAt u e o.num d (rs.take (i + 1)))

/-- A loop entry performed (04 R111). -/
def Op.loopEntry (o : Op) (d : List DWord) : Op :=
  let c := bits (dw d 6) 63 32
  let n := bits (dw d 6) 31 0
  if c = 0 then o.advance
  else
    let l : ChainLoop := { at_ := o.entry, rep := 1, count := c, span := n, sstep := sextNat (bits (dw d 7) 63 32) 32
                           dstep := sextNat (bits (dw d 7) 31 0) 32 }
    { o with loop := some l, entry := o.entry - n }

/-- Every operation of a context abandoned, the oldest first (04 R124). -/
def State.abandonAll (s : State) (u e : Nat) : State := ((s.unit u).ctx e).ops.foldl (fun s o => s.abandonOp u e o) s

/-- An entry completes: its tiles, its reservation, and the next entry (02 R65; 03 R97; 04 R111); an operation whose unit a cancel has
retired stops there (04 R124). -/
def State.finishEntry (s : State) (u e n : Nat) : State :=
  match ((s.unit u).ctx e).op? n with
  | none => s
  | some o =>
    let filled := o.moved.filter (fun p => ((s.unit p.1).tile p.2).state = .filling)
    let s := filled.foldl (fun s (p : Nat × Nat) => s.fullRelease (.op u e n) (.tile p.1 p.2)) s
    let s := o.moved.foldl (fun s (p : Nat × Nat) => s.modUnit p.1 (fun x => x.setTile p.2 { x.tile p.2 with state := .ready })) s
    let s := s.returnCurrent u e n o.units
    let s := s.modOp u e n (fun o => { o.advance with filled := o.filled ++ filled })
    if o.stops then s.abandonAll u e else s

/-- An entry whose bytes are moved makes its arrivals, and completes with the last of them (04 R111, R117). -/
def State.passEntry (s : State) (u e : Nat) (o : Op) (d : List DWord) : State :=
  let (last, s) := s.arriveSome u e o d
  if last then s.finishEntry u e o.num else s

/-- An operation parked for XLATE at its row (04 R122; 09 R226); with no queue placed it faults at once. -/
def State.parkOp (s : State) (u e : Nat) (o : Op) (ea : DWord) (acc reason level : Nat) : State :=
  let x := s.unit u
  if (s.ctx x.vf).mgmt.fqsize = 0 then s.engineFault u e o Code.xlate x.core
  else
    let s := s.modOp u e o.num (fun o => { o with phase := .parked none })
    s.postFault x.vf {
      kind := 2, code := Code.xlate, reason := reason + 4 * level, access := acc, core := x.core, slot := e, lane := 0xFF
      lid := (s.launch x.launch).lid, addr := ea, pc := o.where_
      subject := .op u e o.num }

/-- What stopped an entry, done to its operation; one whose unit a cancel has retired waits for nothing more (04 R124). -/
def State.stopEntry (s : State) (u e n : Nat) (x : EngStop) : State :=
  match ((s.unit u).ctx e).op? n with
  | none => s
  | some o =>
    match x with
    | .fault code core => s.engineFault u e o code core
    | .park ea acc reason level => if o.stops then s.abandonAll u e else s.parkOp u e o ea acc reason level
    | .wait => if o.stops then s.abandonAll u e else s

/-- The entry that an operation stands at, read when first reached, or the fault of reading it (04 R110, R111). -/
def State.entryNow (s : State) (u e : Nat) (o : Op) : Except Code (List DWord) × State :=
  match tfind? o.seen o.entry with
  | some d => (.ok d, s)
  | none =>
    match s.readEntry u e o o.entry with
    | (.error c, s) => (.error c, s)
    | (.ok d, s) =>
      let s := s.modOp u e o.num (fun o => { o with seen := tins o.seen o.entry d })
      (if entryBad e o.entry (tins o.seen o.entry d) d then .error Code.chain else .ok d, s)

/-- A running chain operation at the head of a context, handed on with its entry (04 R105, R111). -/
def State.atEntry (s : State) (row : String) (k : State → Nat → Nat → Op → Except Code (List DWord) → Host.Outcome State Fault Refusal) :
    Host.Outcome State Fault Refusal :=
  let u := s.occ.a
  let e := s.occ.b
  match (s.unit u).headOp e with
  | none => .refused (.notEnabled row)
  | some o =>
    if o.phase != .running || !s.enginesRun u || e = 7 then .refused (.notEnabled row)
    else
      let (d, s) := s.entryNow u e o
      k s u e ((((s.unit u).ctx e).op? o.num).getD o) d

/-- A landing slot written (04 R118). -/
def Wave.putSlot (v : Wave) (k : Nat) (lb : Landing) : Wave := { v with landing := tset Landing.init v.landing k lb }

/-- The tiles of an entry moved, each as its row allows; those that could not be, with the core to name (02 R65; 04 R120). -/
def State.moveTiles (s : State) (u : Nat) (o : Op) (d : List DWord) : State × List (Nat × Nat) × List (Verdict × Nat) :=
  ((s.entryTiles u d).filter (fun t => !o.moved.contains (t.1, t.2.1))).foldl
    (fun (acc : State × List (Nat × Nat) × List (Verdict × Nat)) t =>
      let (s, moved, stops) := acc
      match (s.unit t.1).verdict t.2.1 t.2.2 with
      | .go => (s.modUnit t.1 (fun x => x.entryMoves t.2.1 t.2.2 (s.inPlace u d)), moved ++ [(t.1, t.2.1)], stops)
      | v => (s, moved, stops ++ [(v, (s.unit t.1).core)])) (s, o.moved, [])

/-- The engine reaches a moving entry (02 R65; 04 R116, R118, R125): receivers, tiles and slot, then the request for current; none where
it can do nothing yet. -/
def State.reachEntry (s : State) (u e : Nat) (o : Op) (d : List DWord) : Option State :=
  if !(s.entryFaults u d).isEmpty then some (s.faultOneOf u e o (s.entryFaults u d))
  else
    let rs := ((s.receivers u d).toOption).getD []
    let slot := dw d 7 % 8
    let usable := entryKind d != 6 || ((tfind? s.pkg.groups (s.groupKey u d)).map (fun g => g.usable)).getD false
    if !rs.all (fun r => (s.unit r).begun) || !usable then none
    else
      let (s', moved, stops) := s.moveTiles u o d
      let s' := s'.modOp u e o.num (fun o => { o with moved })
      let o' := { o with moved }
      let bad := stops.filterMap (fun x => match x.1 with
        | .bad c => some (c, x.2)
        | _ => none)
      if !bad.isEmpty then some (s'.faultOneOf u e o' bad)
      else
        if !stops.isEmpty then (if moved.length = o.moved.length then none else some s')
        else if isLanding d then
          if o.slot != some slot && (tget Landing.init (s.wave o.wave).landing slot).state != .empty then none
          else
            let s' := s'.modWave o.wave (fun v => v.putSlot slot { Landing.init with state := .pending })
            some ((s'.modOp u e o.num (fun o => { o with slot := some slot })).requestCurrent u e o.num o'.units)
        else some (s'.requestCurrent u e o.num o'.units)

/-- A landing transfer's rows that the device reads in one step; the slot has them once all are read (04 R118, R122; 03 R75). -/
def State.landRows (s : State) (u e : Nat) (o : Op) (d : List DWord) : Option EngStop × State :=
  let total := if entSize d = 0 then 0 else entRows d
  let (i, s) := s.pick (total - o.got.length)
  match s.fetchRows u e o.num d 0 (min (i + 1) (total - o.got.length)) with
  | (some x, s) => (some x, s)
  | (none, s) =>
    let got := ((((s.unit u).ctx e).op? o.num).map (fun o => o.got)).getD []
    if got.length < total then (none, s)
    else
      let bs := got.map (fun r => (rowOf d r).bytes (entDfmt d))
      let slot := dw d 7 % 8
      let s := (s.engSat o (bs.any (fun b => b.2))).modWave o.wave (fun v => v.putSlot slot {
        state := .pending, rows := bs.map (fun b => BitVec.ofNat 64 (leNat b.1)), rowBytes := ((rowShape d).getD (0, 4)).2, dfmt := entDfmt d })
      (none, s.modOp u e o.num (fun o => { o with phase := .landing slot }))

/-- Rows of an entry moved in one step: the device chooses how many (03 R75, R100; log 16). -/
def State.someRows (s : State) (u e : Nat) (o : Op) (d : List DWord) : Option EngStop × State :=
  let (i, s) := s.pick ((entRows d - o.row + rowsAtOnce d - 1) / rowsAtOnce d)
  s.runRows u e o.num d (i + 1)

/-- Whether a copy or gather entry has no row left to move. -/
def Op.rowsDone (o : Op) (d : List DWord) : Bool := entRows d ≤ o.row || entSize d = 0

/-- A moving entry of copy or gather kind, once it holds its reservation (04 R112-R118). -/
def State.moveEntry (s : State) (u e : Nat) (o : Op) (d : List DWord) : Option State :=
  let rs := ((s.receivers u d).toOption).getD []
  if !rs.all (fun r => (s.unit r).begun) then none
  else if !(s.tileFaults u o d 1).isEmpty then some (s.faultOneOf u e o (s.tileFaults u o d 1))
  else
    let (stop, s') := if isLanding d then s.landRows u e o d else s.someRows u e o d
    let o' := (((s'.unit u).ctx e).op? o.num).getD o
    match stop with
    | some .wait => if !o.stops && o'.row = o.row && o'.got.length = o.got.length then none else some (s'.stopEntry u e o.num .wait)
    | some x => some (s'.stopEntry u e o.num x)
    | none => some (if !isLanding d && o'.rowsDone d then s'.passEntry u e o' d else s')

/-- A copy or gather entry in its stages: reached, then performed with its reservation (04 R111, R125). -/
def State.stageEntry (s : State) (row : String) (u e : Nat) (o : Op) (d : List DWord) : Host.Outcome State Fault Refusal :=
  match if !o.requested then s.reachEntry u e o d else if o.reserved then s.moveEntry u e o d else none with
  | some t => .next t
  | none => .refused (.notEnabled row)

/-- COPY_ENTRY (04 R110, R112, R113, R116); it also takes the entries that no kind can perform. -/
def execCopyEntry (s : State) : Host.Outcome State Fault Refusal :=
  s.atEntry "COPY_ENTRY" (fun s u e o d => match d with
    | .error c => .next (s.engineFault u e o c (s.unit u).core)
    | .ok d => if entryKind d = 0 then s.stageEntry "COPY_ENTRY" u e o d else .refused (.notEnabled "COPY_ENTRY"))

/-- GATHER_ENTRY (04 R114, R118). -/
def execGatherEntry (s : State) : Host.Outcome State Fault Refusal :=
  s.atEntry "GATHER_ENTRY" (fun s u e o d => match d with
    | .ok d => if entryKind d = 1 then s.stageEntry "GATHER_ENTRY" u e o d else .refused (.notEnabled "GATHER_ENTRY")
    | .error _ => .refused (.notEnabled "GATHER_ENTRY"))

/-- LANDING_TRANSFER_COMPLETE (04 R118). -/
def execLandingTransferComplete (s : State) : Host.Outcome State Fault Refusal :=
  let u := s.occ.a
  let e := s.occ.b
  match (s.unit u).headOp e with
  | none => .refused (.notEnabled "LANDING_TRANSFER_COMPLETE")
  | some o =>
    match o.phase, tfind? o.seen o.entry with
    | .landing k, some d =>
      if s.enginesRun u then
        let s := if o.arrived != 0 then s else s.modWave o.wave (fun v => v.putSlot k { tget Landing.init v.landing k with state := .full })
        .next (s.passEntry u e o d)
      else .refused (.notEnabled "LANDING_TRANSFER_COMPLETE")
    | _, _ => .refused (.notEnabled "LANDING_TRANSFER_COMPLETE")

/-- LOOP_ENTRY (04 R111). -/
def execLoopEntry (s : State) : Host.Outcome State Fault Refusal :=
  s.atEntry "LOOP_ENTRY" (fun s u e o d => match d with
    | .ok d =>
      if entryKind d = 2 then .next (s.modOp u e o.num (fun o => o.loopEntry d))
      else .refused (.notEnabled "LOOP_ENTRY")
    | .error _ => .refused (.notEnabled "LOOP_ENTRY"))

/-- COND_ENTRY (04 R110, R111; 03 R100, R101). -/
def execCondEntry (s : State) : Host.Outcome State Fault Refusal :=
  s.atEntry "COND_ENTRY" (fun s u e o d => match d with
    | .ok d =>
      if entryKind d != 3 then .refused (.notEnabled "COND_ENTRY")
      else match s.condSet u e o d with
        | .error c => .next (s.engineFault u e o c (s.unit u).core)
        | .ok none => .refused (.notEnabled "COND_ENTRY")
        | .ok (some k) => .next ((s.fullAcquire (.op u e o.num) k).modOp u e o.num Op.advance)
    | .error _ => .refused (.notEnabled "COND_ENTRY"))

/-- ARRIVE_ONLY_ENTRY (04 R109, R116, R117). -/
def execArriveOnlyEntry (s : State) : Host.Outcome State Fault Refusal :=
  s.atEntry "ARRIVE_ONLY_ENTRY" (fun s u e o d => match d with
    | .ok d =>
      if entryKind d != 4 then .refused (.notEnabled "ARRIVE_ONLY_ENTRY")
      else match s.receivers u d with
        | .error c => .next (s.engineFault u e o c (s.unit u).core)
        | .ok rs =>
          if !(s.barrierFaults u rs d).isEmpty then .next (s.faultOneOf u e o (s.barrierFaults u rs d))
          else if rs.all (fun r => (s.unit r).begun) then
            let (last, s) := s.arriveSome u e o d
            .next (if last then s.modOp u e o.num Op.advance else s)
          else .refused (.notEnabled "ARRIVE_ONLY_ENTRY")
    | .error _ => .refused (.notEnabled "ARRIVE_ONLY_ENTRY"))

/-- A row that a member outside this package contributes, in the destination's format (log 22). -/
def remoteRow (key rank round row n : Nat) : List Byte :=
  (List.range n).map (fun i => Config.remoteShare key rank round (row * n + i))

/-- The sum of two rows, each element rounded once, and whether one saturated (04 R115; 05 R137). -/
def addRows (df : Nat) (a b : List Num) : List Num × Bool :=
  let xs := (a.zip b).map (fun p =>
    if df = 10 then
      match p.1, p.2 with
      | .fin s m e, .fin t n f =>
        let v := sextNat (wrapNat (Num.steps s m e 0 + Num.steps t n f 0) 32) 32
        (Num.fin (v < 0) v.natAbs 0, false)
      | x, _ => (x, false)
    else
      let y := encodeElem df 0 (p.1.add 0 p.2)
      (decodeElem df y.1, y.2.1 || y.2.2))
  (xs.map (fun x => x.1), xs.any (fun x => x.2))

/-- Rows summed in rank order (04 R115). -/
def sumRows (df : Nat) (rows : List (List Byte)) : RowData × Bool :=
  match rows.map (decodeRow df) with
  | [] => (.nums [], false)
  | a :: as =>
    let (xs, sat) := as.foldl (fun (acc : List Num × Bool) b =>
      let (xs, sat) := addRows df acc.1 b
      (xs, acc.2 || sat)) (a, false)
    (.nums xs, sat)

/-- The rows of a collective's destination, from every member's rows in rank order, and whether a sum saturated (04 R115). -/
def collectiveRows (op df rank root rows : Nat) (srcs : List (List (List Byte))) : List (RowData × Bool) :=
  let n := srcs.length
  let sl := rows / n
  let row := fun (m r : Nat) => (srcs.getD m []).getD r []
  let whole := fun (m r : Nat) => (RowData.raw (row m r), false)
  let sum := fun (r : Nat) => sumRows df ((List.range n).map (fun m => row m r))
  match op with
  | 0 => (List.range rows).map (whole root)
  | 1 => (List.range rows).map sum
  | 2 => (List.range (n * rows)).map (fun i => whole (i / rows) (i % rows))
  | 3 => (List.range sl).map (fun i => sum (rank * sl + i))
  | _ => (List.range (n * sl)).map (fun i => whole (i / sl) (rank * sl + i % sl))

/-- Result rows put one after another, from the row the operation stands at (04 R122). -/
def State.putList (s : State) (u e : Nat) (o : Op) (d : List DWord) : List (RowData × Bool) → Option EngStop × State
  | [] => (none, s)
  | x :: xs =>
    let r := ((((s.unit u).ctx e).op? o.num).map (fun o => o.row)).getD 0
    match (s.engSat o x.2).putRows u e o d r [x.1] with
    | (.error y, s) => (some y, s)
    | (.ok _, s) => State.putList (s.modOp u e o.num (fun o => { o with row := o.row + 1 })) u e o d xs

/-- The rows a collective entry counts (04 R112, R115). -/
def collRows (d : List DWord) : Nat := if entSize d = 0 then 0 else entRows d

/-- The bytes of a row as members exchange it, in the destination's format (04 R115). -/
def collRowBytes (d : List DWord) : Nat :=
  let (st, dt) := tileSides d
  let (ne, out) := (rowShape d).getD (0, 0)
  if dt.isSome || st.isSome then ne / unitElems (entDfmt d) * unitBytes (entDfmt d) else out

/-- The source rows of a collective entry that the device reads in one step; all of them read, they are the member's contribution, with its
clock where it is limited (04 R115; 21 R419). Every member's source is read, a broadcast's other than ROOT's too, and a contribution is
converted to DFMT, rounded, before it is summed (log 63). -/
def State.collGive (s : State) (u e : Nat) (o : Op) (d : List DWord) (g : CollGroup) : Option EngStop × State :=
  let df := entDfmt d
  let rows := collRows d
  let send := fun (s : State) (xs : List RowData) =>
    let bs := xs.map (fun x => x.bytes df)
    let c := s.cluster (clusterOf (s.unit u).core)
    let s := (s.engSat o (bs.any (fun b => b.2))).contribute (s.groupKey u d) g (bs.map (fun b => b.1)) (if c.limited then some c.mhz else none) false
    s.modOp u e o.num (fun o => { o with round := some (g.round, false), got := [] })
  match (tileSides d).1 with
  | some t =>
    match s.drainRows u e o d t 0 rows with
    | (.error x, s) => (some x, s)
    | (.ok xs, s) => (none, send s xs)
  | none =>
    let (i, s) := s.pick (rows - o.got.length)
    match s.fetchRows u e o.num d 0 (min (i + 1) (rows - o.got.length)) with
    | (some x, s) => (some x, s)
    | (none, s) =>
      let got := ((((s.unit u).ctx e).op? o.num).map (fun o => o.got)).getD []
      (none, if got.length < rows then s else send s (got.map (rowOf d)))

/-- A member's contribution to a round: outside this package a free one, failed where no port to its package is up (22 R421; log 22), here
the share it has made; none where it has not. -/
def State.shareOf (s : State) (d : List DWord) (key : Nat) (g : CollGroup) (round rank : Nat) : Option Share :=
  let rows := collRows d
  let free := (List.range rows).map (fun r => remoteRow key rank round r (collRowBytes d))
  let m := g.members.getD rank (0, 0)
  if m.1 = Config.packageNumber then
    (s.pkg.shares.find? (fun x => x.key = m.2 * 2 ^ 32 + key % 2 ^ 32 && x.round = round)).map (fun x =>
      if x.rows.length = rows && x.rows.all (fun r => r.length = collRowBytes d) then x else { x with rows := free })
  else some { key, round, rows := free, clock := Config.remotePace key round, failed := !s.linked m.1 }

/-- The contributions to a round in rank order. `bad` has a bit for each rank of which a failure is reported: such a member outside this
package has failed, and one here that has not contributed is absent (04 R115). -/
def State.sharesOf (s : State) (u : Nat) (d : List DWord) (g : CollGroup) (round bad : Nat) : List (Option Share) :=
  let key := s.groupKey u d
  (List.range g.members.length).map (fun m =>
    let x := s.shareOf d key g round m
    if bad.testBit m && m != g.rank (s.unit u).vf && ((g.members.getD m (0, 0)).1 != Config.packageNumber || x.isNone) then
      some { key, round, rows := [], clock := none, failed := true }
    else x)

/-- A collective entry whose member has contributed: with every member's contribution, the clocks of those that have not failed are
exchanged, and the result rows put, as many as the device chooses in one step; a failed member is REMOTE; none while a member's contribution
is missing (04 R115; 21 R419). -/
def State.collTake (s : State) (u e : Nat) (o : Op) (d : List DWord) (g : CollGroup) (round : Nat) (paced : Bool) (bad : Nat) : Option State :=
  let core := (s.unit u).core
  let shares := s.sharesOf u d g round bad
  let root := bits (dw d 6) 15 8
  let op := bits (dw d 6) 7 0
  let got := shares.filterMap id
  let ok := got.filter (fun x => !x.failed)
  if shares.any Option.isNone || (bad != 0 && ok.length = got.length) then none
  else
    let s := if paced then s else
      (s.modCluster (clusterOf core) (fun c =>
        c.takePace s.pkg.ticks (ok.foldl (fun a x => lowerClock a x.clock) none) (s.matrixHeld (clusterOf core)))).modOp u e o.num
        (fun o => { o with round := some (round, true) })
    if ok.length < got.length || (op = 0 && g.members.length ≤ root) then some (s.engineFault u e o Code.remote core)
    else
    let all := if collRows d = 0 then [] else collectiveRows op (entDfmt d) (g.rank (s.unit u).vf) root (collRows d) (got.map (fun x => x.rows))
    let left := all.drop o.row
    let (i, s) := s.pick left.length
    some (match s.putList u e o d (left.take (i + 1)) with
      | (some x, s) => s.stopEntry u e o.num x
      | (none, s) => if left.length ≤ i + 1 then s.passEntry u e o d else s)

/-- A collective entry with its reservation (04 R115; 21 R419): members outside this package, or here that have not contributed, may be
absent or fail, as the event's occasion says rank by rank. -/
def State.runCollective (s : State) (u e : Nat) (o : Op) (d : List DWord) (g : CollGroup) : Option State :=
  let bad := s.tileFaults u o d g.members.length
  if !bad.isEmpty then some (s.faultOneOf u e o bad)
  else match o.round with
    | some (r, paced) => s.collTake u e o d g r paced s.occ.c
    | none =>
      if s.occ.c != 0 then none
      else match s.collGive u e o d g with
      | (some x, s) => some (s.stopEntry u e o.num x)
      | (none, s) => some s

/-- COLLECTIVE_ENTRY (04 R115; 22 R426). -/
def execCollectiveEntry (s : State) : Host.Outcome State Fault Refusal :=
  s.atEntry "COLLECTIVE_ENTRY" (fun s u e o d => match d with
    | .ok d =>
      if entryKind d != 6 then .refused (.notEnabled "COLLECTIVE_ENTRY")
      else match (if !o.requested then s.reachEntry u e o d
        else if !o.reserved then none
        else match tfind? s.pkg.groups (s.groupKey u d) with
          | some g => s.runCollective u e o d g
          | none => some (s.engineFault u e o Code.chain (s.unit u).core)) with
        | some t => .next t
        | none => .refused (.notEnabled "COLLECTIVE_ENTRY")
    | .error _ => .refused (.notEnabled "COLLECTIVE_ENTRY"))

/-- END_ENTRY (04 R111; 03 R100). -/
def execEndEntry (s : State) : Host.Outcome State Fault Refusal :=
  s.atEntry "END_ENTRY" (fun s u e o d => match d with
    | .ok d => if entryKind d = 5 then .next (s.completeOp u e o.num) else .refused (.notEnabled "END_ENTRY")
    | .error _ => .refused (.notEnabled "END_ENTRY"))

/-- ENGINE_OPERATION_START (04 R105, R111, R121; 03 R97, R100): its view is the start set it acquires. -/
def execEngineOperationStart (s : State) : Host.Outcome State Fault Refusal :=
  let u := s.occ.a
  let e := s.occ.b
  match (s.unit u).headOp e with
  | none => .refused (.notEnabled "ENGINE_OPERATION_START")
  | some o =>
    if o.phase != .queued || !s.enginesRun u then .refused (.notEnabled "ENGINE_OPERATION_START")
    else if bits ((s.unit u).ctx e).fault.toNat 63 63 = 1 then .next (s.abandonOp u e o)
    else
      let s := s.modOp u e o.num (fun o => { o with phase := .running })
      match o.kind with
      | .mma _ td tb ms _ _ =>
        .next ((td :: tb :: ms.map (fun (m : Nat × Nat) => m.2)).foldl (fun s t => s.fullAcquire (.op u e o.num) (.tile u t)) s)
      | .chain _ _ =>
        match s.readEntry u e o 0 with
        | (.error c, s) => .next (s.engineFault u e o c (s.unit u).core)
        | (.ok d, s) =>
          let s := s.modOp u e o.num (fun o => { o with seen := tins o.seen 0 d })
          if entryBad e 0 [] d then .next (s.engineFault u e o Code.chain (s.unit u).core) else .next s

/-- An operation suspended with its unit (04 R124): at a row or K-group boundary that the device chooses; its request is withdrawn. -/
def State.suspendOp (s : State) (u e : Nat) : State :=
  match (s.unit u).headOp e with
  | none => s
  | some o =>
    let s := if !o.reserved || o.phase != .running then s
      else match o.kind with
        | .mma sub td tb ms c0 cn =>
          let left := (s.unit u).groupsLeft td c0 cn
          let (i, s) := s.pick (left.length + 1)
          (left.take i).foldl (fun s c => s.mmaGroup u o.num sub td tb ms c0 c) s
        | .chain _ _ =>
          match tfind? o.seen o.entry with
          | none => s
          | some d =>
            if entryKind d = 6 || isLanding d || !(s.tileFaults u o d 1).isEmpty then s
            else
              let (i, s) := s.pick ((entRows d - o.row) / rowsAtOnce d + 1)
              (s.runRows u e o.num d i).2
    s.returnCurrent u e o.num o.units

/-- Whether an operation is inside an entry (04 R124): rows have been read or moved, its member has contributed, or the device has begun
with its reservation. -/
def State.midEntry (s : State) (o : Op) : Bool × State :=
  let (i, s) := s.pick 2
  match o.kind, o.phase with
  | .chain _ _, .landing _ => (true, s)
  | .chain _ _, .running => (o.arrived != 0 || (o.reserved && (o.row != 0 || !o.got.isEmpty || o.round.isSome || i = 1)), s)
  | _, _ => (false, s)

/-- A cancel that retires a unit: an operation in progress stops at its next entry boundary, the others are discarded (04 R124). -/
def State.discardOps (s : State) (u : Nat) : State :=
  (List.range 8).foldl (fun s e =>
    match (s.unit u).headOp e with
    | none => s
    | some o =>
      let (mid, s) := s.midEntry o
      if mid then s.modOp u e o.num (fun o => { o with stops := true }) else s.abandonAll u e) s

/-- What a timeline instruction finds of its context. -/
def State.onContext (s : State) (x : Iss) (a : Opnd) (k : Nat → Nat → EngCtx → Res) : Res :=
  let e := engNum a
  let u := x.wave.unit
  if x.e = 0 then .done s
  else if !(s.unit u).hasCtx e then x.fail Code.engown s
  else k u e ((s.unit u).ctx e)

/-- TLGE (15 R383; 04 R106; 03 R100). -/
def execTlge (w : Full) (s : State) : Host.Outcome State Fault Refusal :=
  s.perform (.tlge w) (headF w [(w.b, 2)] false) (fun x s =>
    s.onContext x w.a (fun u e c =>
      let v := s.srcU x w.b 64 (lowestLane x.e)
      if v ≤ c.cnt.toNat then .done (s.acquireLanes x.w x.e (.timeline u e))
      else .moved (s.waitOn x x.e (.tlge x.e e (BitVec.ofNat 64 v)))))

/-- TLGE_RESUME (04 R106). -/
def execTlgeResume (s : State) : Host.Outcome State Fault Refusal :=
  let w := s.occ.a
  match s.waitOf w s.occ.b with
  | some (.tlge m e v) =>
    let u := (s.wave w).unit
    if s.awake w && v ≤ ((s.unit u).ctx e).cnt then
      .next ((s.acquireLanes w m (.timeline u e)).leaveWait w (s.waiters w s.occ.b))
    else .refused (.notEnabled "TLGE_RESUME")
  | _ => .refused (.notEnabled "TLGE_RESUME")

/-- TLOUT (15 R383; 04 R106). -/
def execTlout (w : Full) (s : State) : Host.Outcome State Fault Refusal :=
  s.perform (.tlout w) (headF w [(w.b, 1)] false) (fun x s =>
    s.onContext x w.a (fun _ e c =>
      let k := s.srcU x w.b 32 (lowestLane x.e)
      if c.outstanding ≤ k then .done s else .moved (s.waitOn x x.e (.tlout e (BitVec.ofNat 32 k)))))

/-- TLOUT_RESUME (04 R106). -/
def execTloutResume (s : State) : Host.Outcome State Fault Refusal :=
  let w := s.occ.a
  match s.waitOf w s.occ.b with
  | some (.tlout e k) =>
    if s.awake w && ((s.unit (s.wave w).unit).ctx e).outstanding ≤ k.toNat then .next (s.leaveWait w (s.waiters w s.occ.b))
    else .refused (.notEnabled "TLOUT_RESUME")
  | _ => .refused (.notEnabled "TLOUT_RESUME")

/-- TLRD (15 R383). -/
def execTlrd (w : Full) (s : State) : Host.Outcome State Fault Refusal :=
  s.perform (.tlrd w) (headF w [(w.d, 2)] (perWave w.d)) (fun x s =>
    s.onContext x w.a (fun _ _ c => .done (s.put x w.d true tagN64 (fun _ => c.cnt.toNat))))

/-- TLISS (15 R383). -/
def execTliss (w : Full) (s : State) : Host.Outcome State Fault Refusal :=
  s.perform (.tliss w) (headF w [(w.d, 2)] (perWave w.d)) (fun x s =>
    s.onContext x w.a (fun _ _ c => .done (s.put x w.d true tagN64 (fun _ => c.iss.toNat))))

/-- TLFLT (15 R383, R384; 04 R120). -/
def execTlflt (w : Full) (s : State) : Host.Outcome State Fault Refusal :=
  s.perform (.tlflt w) (headF w [(w.d, 2)] true) (fun x s =>
    s.onContext x w.a (fun u e c =>
      .done ((s.put x w.d true tagN64 (fun _ => c.fault.toNat)).modUnit u (fun y => y.setEng e { y.ctx e with fault := 0 }))))

/-- A gather operation that a wave itself issued and that is not complete (04 R119). -/
def State.ownGathers (s : State) (w : Nat) : Bool :=
  [4, 5].any (fun e => ((s.unit (s.wave w).unit).ctx e).ops.any (fun o => o.wave = w))

/-- A full slot committed to a varying register (04 R119). -/
def Wave.commitSlot (v : Wave) (d k : Nat) (g : Mask) : Wave :=
  let lb := tget Landing.init v.landing k
  let v := ((lanesOf g).filter (fun l => l < lb.rows.length)).foldl (fun (v : Wave) l =>
    let x := lb.rows.getD l 0
    if lb.rowBytes = 8 then (v.wv d l (loWord x)).wv (d + 1) l (hiWord x) else v.wv d l (loWord x)) v
  (if lb.rowBytes = 8 then (v.wtag d lb.dfmt).wtag (d + 1) tagN32 else v.wtag d lb.dfmt).putSlot k Landing.init

/-- The number of a literal or register operand. -/
def opndNum : Opnd → Nat
  | .s n => n
  | .v n => n
  | _ => 0

/-- COMMIT (15 R385; 04 R119). -/
def execCommit (w : Full) (s : State) : Host.Outcome State Fault Refusal :=
  s.perform (.commit w) (headF w [(w.d, 1)] false).notHandler (fun x s =>
    let k := opndNum w.b % 8
    let lb := tget Landing.init x.wave.landing k
    match lb.state with
    | .pending => .held (.commitSlot k) s
    | .empty => if s.ownGathers x.w then .held (.commitSlot k) s else x.fail Code.chain s
    | .full =>
      if lb.rowBytes = 8 && !regOk (s.footOf x.w) x.cur.vvirt (w.d, 2) then x.fail Code.regidx s
      else .done (s.modWave x.w (fun v => v.commitSlot (opndNum w.d) k x.g)))

/-- COMMIT_RESUME (04 R119): the word is judged again. -/
def execCommitResume (s : State) : Host.Outcome State Fault Refusal :=
  let w := s.occ.a
  match s.waitOf w s.occ.b with
  | some (.hold (.commitSlot k)) =>
    let lb := tget Landing.init (s.wave w).landing k
    if s.awake w && (lb.state = .full || (lb.state = .empty && !s.ownGathers w)) then .next (s.endHold w (s.waiters w s.occ.b))
    else .refused (.notEnabled "COMMIT_RESUME")
  | _ => .refused (.notEnabled "COMMIT_RESUME")

end Sys2Proof.Machine
end

