-- ==== Sys2Proof/Machine/Context.lean ====
section
/-! DEFINITION. Work of a context on the cores of a die: footprints, frames and deque regions, resources, starting waves,
scrubs, cancel, graphs, and teardown (02 R56, R73, R74; 06 R148-R150, R167; 07 R171-R188; 08 R199-R210; 09 R232, R233). -/
namespace Sys2Proof.Machine

/-- A footprint from its eight bytes (07 R172). -/
def Foot.ofDW (d : DWord) : Foot :=
  let n := d.toNat
  { vregs := bits n 15 0, sregs := bits n 23 16, aregs := bits n 31 24, scratch := bits n 47 32, tiles := bits n 55 48, engines := bits n 63 56 }

/-- The limits of 06 R164 and 07 R172. -/
def Foot.ok (f : Foot) : Bool :=
  f.vregs ≤ 256 && f.vregs % 8 = 0 && f.sregs ≤ 64 && f.aregs ≤ 32 && f.scratch ≤ 512 && f.tiles ≤ 64

/-- The bytes of a frame (07 R171). -/
def Frame.bytes (f : Frame) : List Byte :=
  leBytes 8 f.entry.toNat ++ leBytes 8 f.join.toNat ++ ((List.range 8).flatMap (fun i => leBytes 4 (f.args.getD i 0).toNat)) ++
  leBytes 8 f.foot.toNat ++ leBytes 1 f.depth ++ leBytes 1 f.flags ++ leBytes 2 f.parent ++ leBytes 4 f.seq.toNat

/-- A frame from its bytes, under the device's own name for it (07 R171, R173). -/
def Frame.ofBytes (bs : List Byte) (id : Nat) : Frame :=
  let nat := fun (o n : Nat) => leNat ((bs.drop o).take n)
  { entry := BitVec.ofNat 64 (nat 0 8), join := BitVec.ofNat 64 (nat 8 8)
    args := (List.range 8).map (fun i => BitVec.ofNat 32 (nat (16 + 4 * i) 4)), foot := BitVec.ofNat 64 (nat 48 8)
    depth := nat 56 1, flags := nat 57 1, parent := nat 58 2, seq := BitVec.ofNat 32 (nat 60 4), id }

/-- The virtual function that runs on a core. -/
def State.vfAt (s : State) (core : Nat) : Option Nat :=
  (s.partAt (clusterOf core)).map (fun e => (s.part (dieOf core) e).vf)

/-- The cores of a partition, borrowed ones among them. -/
def State.partCores (s : State) (d e : Nat) : List Nat :=
  ((List.range 64).filter (fun k => s.partAt (64 * d + k) = some e)).flatMap (fun k => (List.range 4).map (fun i => 256 * d + 4 * k + i))

/-- Launches of a partition in flight (08 R190). -/
def State.inFlight (s : State) (d e : Nat) : Nat := (s.launches.filter (fun p => !p.2.complete && p.2.die = d && p.2.part = e)).length

/-- Launches of a context in flight (22 R423). -/
def State.ctxInFlight (s : State) (vf : Nat) : Nat := (s.launches.filter (fun p => !p.2.complete && p.2.vf = vf)).length

/-! Deque regions (07 R181-R183). -/

/-- Address of a core's region in a launch's spill area (07 R182). -/
def Launch.region (l : Launch) (core : Nat) : DWord := l.spill + BitVec.ofNat 64 (0x10000 + core * l.dqBytes)
/-- Frame slots of a region (07 R182). -/
def Launch.slots (l : Launch) : Nat := l.dqBytes / 64 - 1

/-- A set on the leaves of a region's control block and of some of its frames, by their places in ring order, as the device reads them
(01 R30; 07 R183). -/
def State.useRegion (s : State) (n core head : Nat) (ks : List Nat) : State :=
  let l := s.launch n
  ks.foldl (fun s k => s.devUse l.vf (l.region core + BitVec.ofNat 64 (64 + 64 * ((head + k) % max 1 l.slots))) 64)
    (if l.regions.contains core then s.devUse l.vf (l.region core) 64 else s)

/-- HEAD and COUNT of a region; one that the device has not set up is empty (07 R182). -/
def State.regionCtl (s : State) (n core : Nat) : Nat × Nat :=
  let l := s.launch n
  if l.regions.contains core then
    (((s.devRead l.vf (l.region core) 4).getD 0) % max 1 l.slots, min l.slots ((s.devRead l.vf (l.region core + 4) 4).getD 0))
  else (0, 0)

/-- Whether a region's control block reads poison (09 R232). -/
def State.regionPoison (s : State) (n core : Nat) : Bool :=
  let l := s.launch n
  l.regions.contains core && s.devPlace l.vf (l.region core).toNat true false = .poison

/-- The number under which the device keeps the name of the frame in a slot of a region (07 R173, R182). -/
def regionSlot (n core slot : Nat) : Nat := (n * 1024 + core) * 16384 + slot

/-- The frames of a region, oldest first. A slot that the device has not filled holds a frame of no name. -/
def State.regionFrames (s : State) (n core : Nat) : List Frame :=
  let l := s.launch n
  let (h, c) := s.regionCtl n core
  (List.range c).map (fun i =>
    let k := (h + i) % max 1 l.slots
    Frame.ofBytes (leBytes 64 ((s.devRead l.vf (l.region core + BitVec.ofNat 64 (64 + 64 * k)) 64).getD 0))
      ((tfind? s.spilled (regionSlot n core k)).getD (2 ^ 64 + regionSlot n core k)))

/-- Whether a slot of a region holds a frame already. -/
def State.slotHolds (s : State) (n core slot : Nat) (f : Frame) : Bool :=
  let l := s.launch n
  tfind? s.spilled (regionSlot n core slot) = some f.id &&
    s.devRead l.vf (l.region core + BitVec.ofNat 64 (64 + 64 * slot)) 64 = some (leNat f.bytes)

/-- A region written: the frames from HEAD in ring order that do not lie there yet, then the control block (07 R182). -/
def State.setRegion (s : State) (n core head : Nat) (fs : List Frame) : State :=
  let l := s.launch n
  let s := ((List.range fs.length).zip fs).foldl (fun s (p : Nat × Frame) =>
    let k := (head + p.1) % max 1 l.slots
    if s.slotHolds n core k p.2 then s else
    let s := s.devWrite l.vf (l.region core + BitVec.ofNat 64 (64 + 64 * k)) p.2.bytes
    { s with spilled := tins s.spilled (regionSlot n core k) p.2.id }) s
  let s := s.devWrite l.vf (l.region core) (leBytes 4 head ++ leBytes 4 fs.length ++ leBytes 4 l.slots ++ List.replicate 52 0)
  s.modLaunch n (fun l => { l with regions := if l.regions.contains core then l.regions else core :: l.regions })

/-- Frames appended at the newest end of the regions of their launches, oldest first (07 R183). -/
def State.regionPush (s : State) (core : Nat) (q : QFrame) : State :=
  let h := (s.regionCtl q.launch core).1
  (s.useRegion q.launch core h []).setRegion q.launch core h (s.regionFrames q.launch core ++ [q.frame])

/-- A frame put at the oldest end of its region (07 R186). -/
def State.regionUnder (s : State) (core : Nat) (q : QFrame) : State :=
  let k := max 1 (s.launch q.launch).slots
  let h := (s.regionCtl q.launch core).1
  (s.useRegion q.launch core h []).setRegion q.launch core ((h + k - 1) % k) (q.frame :: s.regionFrames q.launch core)

/-- The launches of a context with frames in a core's regions (07 R181). -/
def State.regionLaunches (s : State) (vf core : Nat) : List Nat :=
  (s.launches.filter (fun p => p.2.vf = vf && !p.2.complete && (s.regionCtl p.1 core).2 != 0)).map (·.1)

/-- Whether a core's logical deque is empty for a context (07 R184). -/
def State.dequeEmpty (s : State) (vf core : Nat) : Bool := (s.core core).deque.isEmpty && (s.regionLaunches vf core).isEmpty

/-- Frames of a launch that a core owns (07 R182). -/
def State.framesOwned (s : State) (n core : Nat) : Nat :=
  let c := s.core core
  (c.deque.filter (fun q => q.launch = n)).length + (c.pending.filter (fun q => q.launch = n)).length + (s.regionCtl n core).2

/-! Resources of a core (08 R199, R200). -/

/-- What a placement takes on its core: wave slots, varying registers in eights, scratch and tile-table entries. -/
structure Span where
  core : Nat
  wslot : Nat
  waves : Nat
  vbase : Nat
  vlen : Nat
  scrbase : Nat
  scratch : Nat
  tbase : Nat
  tiles : Nat
deriving DecidableEq, Repr

/-- Two ranges meet. -/
def meets (a n b m : Nat) : Bool := n != 0 && m != 0 && a < b + m && b < a + n

/-- Two placements take a resource in common. -/
def Span.overlaps (a b : Span) : Bool :=
  a.core = b.core && (meets a.wslot a.waves b.wslot b.waves || meets a.vbase a.vlen b.vbase b.vlen ||
    meets a.scrbase a.scratch b.scrbase b.scratch || meets a.tbase a.tiles b.tbase b.tiles)

/-- What a unit holds: its slots and registers while it runs, its tiles while operations may name them, its scratch until its release
(02 R68, R69; 07 R176). -/
def UnitSt.span (u : UnitSt) : Option Span :=
  if u.released || u.saved.isSome then none
  else
    let on := u.resident && !u.ended
    let n := if on then u.waves.length else 0
    some { core := u.core, wslot := u.wslot, waves := n, vbase := u.vbase, vlen := n * u.pregs, scrbase := u.scrbase,
           scratch := u.foot.scratch, tbase := u.tbase, tiles := if u.tilesFreed then 0 else u.foot.tiles }

/-- A bind record's fields (08 R198). -/
structure BindRec where
  launch : Nat
  op : Nat
  members : Nat
  first : Nat
  count : Nat
  step : Nat
  cluster : Nat
  core : Nat
  wslot : Nat
  tbase : Nat
  vbase : Nat
  pregs : Nat
  scrbase : Nat
  save : Nat
  reservedZero : Bool
deriving DecidableEq, Repr

/-- A record of a die's slot table (08 R197, R198). -/
def DieSt.bindRec (d : DieSt) (i : Nat) : BindRec :=
  let nat := fun (o n : Nat) => leNat ((List.range n).map (fun k => tget 0 d.slotTable (32 * i + o + k)))
  { launch := nat 0 2, op := nat 2 1, members := nat 3 1, first := nat 4 4, count := nat 8 4, step := nat 12 4, cluster := nat 16 1
    core := nat 17 1, wslot := nat 18 1, tbase := nat 19 1, vbase := nat 20 2, pregs := nat 22 1, scrbase := nat 24 2, save := nat 28 4
    reservedZero := nat 23 1 = 0 && nat 26 2 = 0 }

/-- The core that a record names. -/
def BindRec.coreOn (r : BindRec) (die : Nat) : Nat := 256 * die + 4 * r.cluster + r.core

/-- The records of a group, from its leader: index and record (08 R198, R199). A record whose MEMBERS leads no group stands alone. -/
def DieSt.bindGroup (d : DieSt) (i : Nat) : List (Nat × BindRec) :=
  let m := (d.bindRec i).members
  (List.range (if 2 ≤ m && m ≤ 4 then m else 1)).map (fun j => (i + j, d.bindRec (i + j)))

/-- Whether a record's group names a whole saved unit or group, each member at its core position (08 R199; 02 R70). -/
def State.restores (s : State) (grp : List (Nat × BindRec)) (n : Nat) : Bool :=
  grp.all (fun p =>
    let x := s.unit p.2.save
    x.saved.isSome && x.launch = n && (match x.group with
      | none => grp.length = 1
      | some (_, m) => m = p.2.core && (s.mates p.2.save).all (fun y => grp.any (fun q => q.2.save = y))))

/-- The resources that a record names for a unit of a launch (08 R199). -/
def BindRec.span (r : BindRec) (die waves : Nat) (f : Foot) : Span :=
  { core := r.coreOn die, wslot := r.wslot, waves, vbase := r.vbase, vlen := waves * r.pregs, scrbase := r.scrbase,
    scratch := f.scratch, tbase := r.tbase, tiles := f.tiles }

/-- Waves and footprint of what a record places: its launch's units, or the saved unit (08 R200). -/
def State.bindShape (s : State) (r : BindRec) (n : Nat) : Nat × Foot :=
  if r.op = 2 then ((s.unit r.save).waves.length, (s.unit r.save).foot) else ((s.launch n).waves, (s.launch n).foot)

/-- Resources held by the committed records of a die but one group's (08 R199). -/
def State.bindSpans (s : State) (die except_ : Nat) : List Span :=
  ((s.die die).binds.filter (fun p => p.2.leader != except_)).filterMap (fun p =>
    let r := (s.die die).bindRec p.1
    if r.op = 3 then none
    else
      let (w, f) := s.bindShape r p.2.launch
      some (r.span die w f))

/-- Resources held by units on a core. -/
def State.unitSpans (s : State) (core : Nat) : List Span := (s.units.filterMap (fun p => p.2.span)).filter (fun x => x.core = core)

/-- The lowest place of n consecutive units below a capacity that meets none of some ranges. -/
def firstFit (cap n : Nat) (used : List (Nat × Nat)) : Option Nat :=
  (List.range (cap + 1 - n)).find? (fun b => used.all (fun u => !meets b n u.1 u.2))

/-- The waves that hold a slot and registers of a core: an exited wave's are free (07 R183). -/
def State.slotHolders (s : State) (core : Nat) : List Wave :=
  (s.waves.map (·.2)).filter (fun v => v.core = core && v.resident && !v.exited && v.handles.isNone)

/-- A child's place on a core at a wave slot: the slot and the footprint are free (07 R183). A committed record holds its
placement against other records only, and waits for it to be free (08 R199, R200). -/
def State.childSpan (s : State) (core slot : Nat) (f : Foot) : Option Span :=
  let used := s.unitSpans core
  let held := s.slotHolders core
  match firstFit 256 (f.vregs / 8) (held.map (fun v => ((s.unit v.unit).vbase + v.idx * (s.unit v.unit).pregs, (s.unit v.unit).pregs))),
      firstFit 512 f.scratch (used.map (fun x => (x.scrbase, x.scratch))), firstFit 64 f.tiles (used.map (fun x => (x.tbase, x.tiles))) with
  | some v, some sc, some t =>
    if slot < 16 && held.all (fun v => v.slot != slot) then
      some { core, wslot := slot, waves := 1, vbase := v, vlen := f.vregs / 8, scrbase := sc, scratch := f.scratch, tbase := t, tiles := f.tiles }
    else none
  | _, _, _ => none

/-! The backing store (06 R165; 08 R210). -/

/-- The bytes of a unit's registers that lie in the backing store, beyond the physical ones of its waves (06 R165; 12 R291). -/
def State.spillRoom (s : State) (u : Nat) : Nat :=
  let x := s.unit u
  if x.saved.isNone && x.resident && !x.ended then x.waves.length * (max x.foot.vregs (s.launch x.launch).vvirt - 8 * x.pregs) * 128 else 0

/-- What a unit takes of its launch's backing store: its saved state, or its spilled registers (08 R210). -/
def State.storeRoom (s : State) (u : Nat) : Nat := if (s.unit u).saved.isSome then s.roomOf u else s.spillRoom u

/-- The bytes of a launch's backing store in use (08 R210). -/
def State.storeUsed (s : State) (n : Nat) : Nat := ((s.units.filter (fun p => p.2.launch = n)).map (fun p => s.storeRoom p.1)).foldl (· + ·) 0

/-- Whether a launch's backing store is too small for what is put there (08 R210). -/
def State.storeFull (s : State) (n : Nat) : Bool := (s.launch n).bsBytes < s.storeUsed n

/-- The address of a launch's backing store (07 R182). -/
def Launch.store (l : Launch) : DWord := l.spill + BitVec.ofNat 64 (65536 + 1024 * l.dqBytes)

/-- n bytes of one page of a launch's backing store, in bytes that the device's layout gives them: no rule says which (06 R165; 08 R210; log 24). -/
def State.storePage (s : State) (n off len : Nat) : State :=
  let l := s.launch n
  let ea := l.store + BitVec.ofNat 64 off
  match s.devPlace l.vf ea.toNat false true with
  | .at_ loc =>
    let (k, s) := s.draw
    (s.devTouch l.vf ea.toNat true).storeNow (plainBytes loc ((List.range len).map (fun o => Config.freshByte k 4 o))) (s.keyIndex l.vf)
  | _ => s

/-- Bytes of a launch's backing store written by the device, page by page, at a place of its layout's (06 R165; 08 R210; log 24). -/
def State.writeSomewhere (s : State) (n len align : Nat) : State :=
  let room := (s.launch n).bsBytes
  let (i, s) := s.pick ((room - len) / align + 1)
  let lo := align * i
  let hi := min (lo + len) room
  (List.range (len / 65536 + 2)).foldl (fun s k =>
    let a := max lo (65536 * (lo / 65536 + k))
    let b := min hi (65536 * (lo / 65536 + k + 1))
    if b ≤ a then s else s.storePage n a (b - a)) s

/-- A unit's state written to its launch's backing store, somewhere (08 R210; log 24). -/
def State.writeStore (s : State) (u : Nat) : State := s.writeSomewhere (s.unit u).launch (s.roomOf u) 65536

/-- The registers of a wave that lie in the backing store lost: they hold what no rule gives (06 R165). -/
def State.scrambleWave (s : State) (w : Nat) : State :=
  let u := (s.wave w).unit
  let x := s.unit u
  let lo := if x.saved.isSome then 0 else 8 * x.pregs
  let hi := max x.foot.vregs (s.launch x.launch).vvirt
  let s := (List.range (hi - lo)).foldl (fun s i =>
    let (t, s) := s.draw
    (List.range 32).foldl (fun s l =>
      let (k, s) := s.draw
      s.modWave w (fun v => v.wv (lo + i) l (Config.freeWord k)))
      (s.modWave w (fun v => v.wtag (lo + i) ((Config.freeWord t).toNat % 32)))) s
  if x.saved.isNone then s
  else
    let (k, s) := s.draw
    let s := { s with fresh := s.fresh + 167 }
    let free := fun (i : Nat) => Config.freeWord (k + 1 + i)
    s.modWave w (fun v =>
      let v := (List.range x.foot.sregs).foldl (fun (v : Wave) i => v.ws i (free i)) v
      let v := (List.range x.foot.aregs).foldl (fun (v : Wave) i =>
        v.wa i { base := pairOf (free (64 + 3 * i)) (free (65 + 3 * i)), stride := free (66 + 3 * i) }) v
      { v with masks := (List.range 7).foldl (fun m i => tset 0 m (i + 1) (free (160 + i))) v.masks })

/-- Whether some locations lie in a launch's backing store (07 R182). -/
def State.inStore (s : State) (n : Nat) (locs : List Nat) : Bool :=
  let l := s.launch n
  (List.range (l.bsBytes / 65536)).any (fun i => match s.devPlace l.vf (l.store + BitVec.ofNat 64 (65536 * i)).toNat false true with
    | .at_ loc => locs.any (fun a => loc ≤ a && a < loc + 65536)
    | _ => false)

/-- Locations written since a stamp. -/
def Mem.since (m : Mem) (stamp : Nat) : List Nat := (m.last.filter (fun p => stamp < p.2.1)).map (·.1)

/-- A write by others into the backing store of a launch, where registers or saved units of it lie, changes those of the launch that the
device's layout places there: it changes them or not as no rule says (06 R165; log 24). -/
def State.storeWritten (s : State) (stamp : Nat) : State :=
  let users := (s.units.filter (fun p => s.storeRoom p.1 != 0)).map (·.1)
  if users.isEmpty then s
  else
    let locs := s.mem.since stamp
    users.foldl (fun s u =>
      if locs.isEmpty || !s.inStore (s.unit u).launch locs then s
      else
        let (i, s) := s.pick 2
        if i = 0 then s else (s.unit u).waves.foldl (fun s w => s.scrambleWave w) s) s

/-- How many of a wave's registers that lie in the backing store differ between two states of it: values or tags (06 R165). -/
def virtualChanges (lo hi : Nat) (v v' : Wave) : Nat :=
  ((List.range (hi - lo)).filter (fun i => v.rtag (lo + i) != v'.rtag (lo + i) || (List.range 32).any (fun l => v.rv (lo + i) l != v'.rv (lo + i) l))).length

/-- The bytes of registers that lie in the backing store follow the registers: where a unit's placement has come to have such registers all of
them are written there, and then each one that has changed, somewhere (06 R165; log 24). -/
def State.storeFollows (s0 s : State) : State :=
  (s.units.filter (fun p => s.spillRoom p.1 != 0)).foldl (fun s (p : Nat × UnitSt) =>
    let x := p.2
    let hi := max x.foot.vregs (s.launch x.launch).vvirt
    let before := s0.unit p.1
    if s0.spillRoom p.1 = 0 || before.core != x.core || before.pregs != x.pregs then s.writeSomewhere x.launch (s.spillRoom p.1) 128
    else x.waves.foldl (fun s w =>
      (List.range (virtualChanges (8 * x.pregs) hi (s0.wave w) (s.wave w))).foldl (fun s _ => s.writeSomewhere x.launch 128 128) s) s) s

/-! Fresh allocations and scrubs (02 R56, R73). -/

/-- Bytes of a unit's block of a buffer on its core: kind 0 weights, 1 activations, 2 accumulators, 3 scratchpad. -/
def UnitSt.blockBase (u : UnitSt) (kind : Nat) : Nat :=
  match kind with
  | 0 => 12288 * u.tbase
  | 1 => 6144 * u.tbase
  | 2 => 4096 * u.tbase
  | _ => 256 * u.scrbase

/-- Cells of a unit's buffer, by their place on the core, with whether each is a capability tag. -/
def State.blockCells (s : State) (y kind : Nat) : List (Nat × Byte) :=
  let lo := locBuf kind y 0
  let x := s.unit y
  (s.mem.cells.filter (fun c => lo ≤ c.1 && c.1 < lo + x.bufBytes kind)).map (fun c => (c.1 - lo + x.blockBase kind, c.2))

/-- The capability tags of a unit's scratchpad cells, by granule on the core. -/
def State.blockTags (s : State) (y : Nat) : List (Nat × Byte) :=
  let x := s.unit y
  let lo := locTag (locBuf 3 y 0)
  (s.mem.cells.filter (fun c => lo ≤ c.1 && c.1 < lo + x.scratchBytes / 16)).map (fun c => (c.1 - lo + x.blockBase 3 / 16, c.2))

/-- An allocation that holds what earlier units of the context left in its place on the core (02 R73). -/
def State.inherit (s : State) (u : Nat) : State :=
  let x := s.unit u
  let old := (s.units.filter (fun p => p.1 != u && (p.2.released || p.2.tilesFreed) && p.2.core = x.core && p.2.vf = x.vf)).map (·.1)
  let cells := old.flatMap (fun y => (List.range (if (s.unit y).released then 4 else 3)).flatMap (fun k =>
    (s.blockCells y k).filterMap (fun c =>
      if x.blockBase k ≤ c.1 && c.1 < x.blockBase k + x.bufBytes k then some (locBuf k u (c.1 - x.blockBase k), c.2) else none)))
  let tags := (old.filter (fun y => (s.unit y).released)).flatMap (fun y => (s.blockTags y).filterMap (fun c =>
    if x.blockBase 3 / 16 ≤ c.1 && c.1 < (x.blockBase 3 + x.scratchBytes) / 16 then
      some (locTag (locBuf 3 u 0) + (c.1 - x.blockBase 3 / 16), c.2) else none))
  { s with mem := { s.mem with cells := tsets unlisted s.mem.cells (cells ++ tags) } }

/-- A unit's places of scratch and of tiles on its core. -/
def UnitSt.place (x : UnitSt) : Nat × Nat × Nat × Nat := (x.scrbase, x.foot.scratch, x.tbase, x.foot.tiles)

/-- Whether a place holds the zeros of the core's last scrub: no unit has had any of it since (02 R73). -/
def CoreSt.scrubbedAt (c : CoreSt) (p : Nat × Nat × Nat × Nat) : Bool :=
  match c.used with
  | none => false
  | some l => l.all (fun q => !meets p.1 p.2.1 q.1 q.2.1 && !meets p.2.2.1 p.2.2.2 q.2.2.1 q.2.2.2)

/-- A unit has had its places on a core. -/
def CoreSt.use (c : CoreSt) (p : Nat × Nat × Nat × Nat) : CoreSt :=
  { c with used := c.used.map (fun l => if l.contains p then l else p :: l) }

/-- What a fresh allocation holds: the zeros of a scrub; else what earlier units of the context left in its place, zeros, or bytes that
no rule gives, by the device's choice (02 R56, R73; log 9). -/
def State.leftover (s : State) (u : Nat) : State :=
  let x := s.unit u
  let c := s.core x.core
  let s := s.modCore x.core (fun c => c.use x.place)
  if c.scrubbedAt x.place then s
  else
    let (i, s) := s.pick 3
    if i = 0 then s
    else if i = 1 then s.fillFree u [0, 1, 2, 3]
    else s.inherit u

/-- A scrub zeroes what units have left on a core (02 R73). -/
def State.scrubbed (s : State) (core : Nat) : State :=
  let old := (s.units.filter (fun p => p.2.released && p.2.core = core)).map (·.1)
  let gone := fun (a : Nat) => old.any (fun y => (List.range 4).any (fun k => locBuf k y 0 ≤ a && a < locBuf k y (2 ^ 20)) ||
    (locTag (locBuf 3 y 0) ≤ a && a < locTag (locBuf 3 y (2 ^ 20))))
  { s with mem := { s.mem with cells := s.mem.cells.filter (fun c => !gone c.1) } }

/-- Whether nothing of any unit is held on a core. -/
def State.coreIdle (s : State) (core : Nat) : Bool :=
  !s.units.any (fun p => !p.2.released && p.2.saved.isNone && p.2.core = core) && (s.core core).newel.isNone

/-- A core readied for a context: at once where it was the context's or nobody's, else by a scrub that begins (02 R73). -/
def State.claimCore (s : State) (core vf : Nat) : State :=
  let c := s.core core
  if c.ctx = some vf || c.ctx.isNone then s.setCore core { c with ctx := some vf, away := false }
  else if c.scrub.isNone && s.coreIdle core then s.setCore core { c with scrub := some vf, scrubAt := s.pkg.ticks }
  else s

/-! Waves at their start (06 R167). -/

/-- A wave at its start: its lanes stand before the first clause, their views as given; `enter` where they may start at a BLOCK record, as
a task frame's ENTRY allows (12 R291). -/
def startWave (u idx core slot : Nat) (pc : DWord) (m7 : Mask) (start : View) (enter : Bool) : Wave :=
  { Wave.blank with
    unit := u, idx, core, slot, resident := true, live := 0xFFFFFFFF, exited := false
    lanes := (List.range 32).map (fun l => (l, { Lane.init with pc, enter, ag := AgentSt.start start }))
    masks := tset 0 [] 7 m7 }

/-! Cancel (06 R149). -/

/-- The handler of a wave ends with it, or the wave leaves the queue for the Newel slot (09 R224). -/
def State.dropHandler (s : State) (w : Nat) : State :=
  let v := s.wave w
  let s := match v.handler with
    | none => s
    | some h => (((s.dropPark h).dropReservation h).leaveBarriers h 0xFFFFFFFF).modWave h (fun x => { x with live := 0, exited := true, handles := none, steps := [] })
  let s := s.modCore v.core (fun c => { c with
    newel := if v.handler.isSome && c.newel = v.handler then none else c.newel
    newelQueue := c.newelQueue.filter (· != w) })
  s.modWave w (fun v => { v with handler := none, trapState := .running, trap := none, storageTrap := false })

/-- A wave retired by a cancel (06 R149; 10 R259; 04 R124). -/
def State.retireWave (s : State) (w : Nat) : State :=
  let v := s.wave w
  if v.exited then s
  else
    let s := match v.cand with
      | none => s
      | some c =>
        let (c, s) := s.outcomesAnew w c
        (lanesOf c.enabled).foldl (fun s l => if (s.wave w).cAct l then s.candRetire w l c Outc.abort else s) s
    let s := ((s.dropPark w).dropHandler w).beginChild w
    let pc := (s.wave w).pcNow
    let s := s.exitLanes w (s.wave w).live pc .cancelled
    if (s.unit v.unit).ended then (s.discardOps v.unit).releaseGroup v.unit else s

/-- The cancel bit of a level set in a unit's waves and their handlers; evicted units, and parked waves, are retired at once, those with lanes
between the steps of a word by CANCEL_RETIRE after it (06 R149), and
the join-object updates held for an evicted unit are performed in its scratchpad (07 R176). -/
def State.cancelUnit (s : State) (u bit : Nat) : State :=
  let x := s.unit u
  if x.ended then s
  else
    let s := s.modUnit u (fun x => { x with cancelled := x.cancelled || bit = 1 })
    let mark := fun (s : State) (w : Nat) => s.modWave w (fun v => { v with cancel := v.cancel ||| BitVec.ofNat 32 (2 ^ bit) })
    let s := x.waves.foldl (fun s w => match (s.wave w).handler with
      | none => mark s w
      | some h => mark (mark s w) h) s
    let isPending := x.child.isSome && (s.core x.core).pending.any (fun q => x.child.any (fun f => f.id = q.frame.id))
    if x.saved.isSome then
      let s := x.waves.foldl (fun s w => s.retireWave w) s
      let s := s.modUnit u (fun x => { x with saved := none })
      let mine := s.held.filter (fun j => pathOf j.join = 2 && s.handleUnit j.vf (bits j.join.toNat 59 44) = some u)
      (mine.foldl State.joinUpdate { s with held := s.held.filter (fun j => !mine.contains j) }).releaseGroup u
    else x.waves.foldl (fun s w => if (isPending || (s.wave w).park.isSome) && !s.midSteps w then s.retireWave w else s) s

/-- A frame retired before its child has started counts as the child's exit (06 R149; 07 R188). -/
def State.retireFrame (s : State) (core : Nat) (q : QFrame) : State :=
  let vf := (s.launch q.launch).vf
  let s := { s with frames := tdel s.frames q.frame.id }
  if q.frame.join = 0 then s.launchDown q.launch
  else
    let (id, s) := s.newId
    s.joinUpdate { id, vf, launch := q.launch, join := q.frame.join, code := none, core, pc := q.frame.entry, seq := none, view := [] }

/-- Frames of a launch leave every deque, region and pending list (07 R188). -/
def State.retireFrames (s : State) (n : Nat) : State :=
  let s := (s.launch n).regions.foldl (fun s core =>
    let fs := s.regionFrames n core
    if fs.isEmpty then s
    else
      let s := s.useRegion n core (s.regionCtl n core).1 (List.range fs.length)
      fs.foldl (fun s f => s.retireFrame core { frame := f, launch := n }) (s.setRegion n core 0 [])) s
  s.cores.foldl (fun s (p : Nat × CoreSt) =>
    let started := fun (s : State) (q : QFrame) => s.units.any (fun y => y.2.child.any (fun f => f.id = q.frame.id) && !y.2.ended)
    let mine := p.2.deque.filter (fun q => q.launch = n) ++ p.2.pending.filter (fun q => q.launch = n && !started s q)
    if mine.isEmpty then s
    else
      let s := s.modCore p.1 (fun c => { c with
        deque := c.deque.filter (fun q => q.launch != n), pending := c.pending.filter (fun q => q.launch != n || started s q) })
      mine.foldl (fun s q => s.retireFrame p.1 q) s) s

/-- CANCEL of a launch: bit 2 for its own level, 3 for its graph's, 4 for its phase's (06 R149; 15 R392). -/
def State.cancelLaunch (s : State) (n bit : Nat) : State :=
  let l := s.launch n
  if l.complete then s
  else
    let total := l.ux * l.uy * l.uz
    let s := s.modLaunch n (fun l => { l with
      cancelled := true, cancelBits := l.cancelBits ||| BitVec.ofNat 32 (2 ^ bit), counter := l.counter - (total - l.placed), placed := total })
    let us := (s.units.filter (fun p => p.2.launch = n && !p.2.released)).map (·.1)
    let s := us.foldl (fun s u => s.cancelUnit u bit) s
    s.retireFrames n

/-! Graphs (06 R148; 08 R206-R208). -/

/-- Fields of a node's descriptor that the device keeps: offsets of HEAD, TAIL, READY, LIVE and TAKEN (08 R206). -/
def State.nodeAddr (s : State) (vf node : Nat) : DWord := (s.ctx vf).mgmt.gtbase + BitVec.ofNat 64 (64 * node)

/-- A field of a node's descriptor. -/
def State.nodeField (s : State) (vf node off n : Nat) : Nat := (s.devRead vf (s.nodeAddr vf node + BitVec.ofNat 64 off) n).getD 0

/-- A field of a node's descriptor written by the device. -/
def State.setNode (s : State) (vf node off n x : Nat) : State := s.devWrite vf (s.nodeAddr vf node + BitVec.ofNat 64 off) (leBytes n x)

/-- A difference of two of a queue's 32-bit counts (08 R207). -/
def countDiff (a b : Nat) : Nat := (a + 2 ^ 32 - b % 2 ^ 32) % 2 ^ 32

/-- The graph of a context; the first launch or record that names it creates it, and it counts in its phase (06 R148; log 14). -/
def State.withGraph (s : State) (vf : Nat) (completion : DWord) (lid : Nat) : State :=
  match (s.ctx vf).graph with
  | some _ => s
  | none => s.modCtx vf (fun c => { c with phaseCnt := c.phaseCnt + 1, graph := some {
      counter := 0, completion, lid, faultCnt := 0, firstFault := none, cancelled := false, batches := [], readySince := [], expired := [] } })

/-- The nodes of a graph whose queues hold ready records not yet taken (08 R207). -/
def Graph.nodes (g : Graph) : List Nat := (g.readySince.map (fun p => p.1 / 2 ^ 32)).eraseDups

/-- The graph of a context changed. -/
def State.modGraph (s : State) (vf : Nat) (f : Graph → Graph) : State := s.modCtx vf (fun c => { c with graph := c.graph.map f })

/-- Whether a graph has completed: no queue holds ready records, no node launch is in flight and its counter is 0 (08 R208). -/
def State.graphOver (s : State) (vf : Nat) (g : Graph) : Bool :=
  let nodes := List.range (s.ctx vf).mgmt.gtnodes.toNat
  let ready := !g.cancelled && (g.nodes.any (fun k => nodes.contains k && s.nodeField vf k 0x20 4 != s.nodeField vf k 0x28 4))
  !(ready || g.batches.any (fun b => !b.finished) || g.counter != 0)

/-- A graph gone from its context, whose phase no longer counts it. -/
def State.dropGraph (s : State) (vf : Nat) : State := s.modCtx vf (fun c => { c with graph := none, phaseCnt := c.phaseCnt - 1 })

/-- A graph that has completed writes its record (08 R208). -/
def State.graphJudge (s : State) (vf : Nat) : State :=
  match (s.ctx vf).graph with
  | none => s
  | some g =>
    if !s.graphOver vf g then s
    else
      let s := s.dropGraph vf
      if g.completion = 0 then s
      else
        let (t, s) := (s.timens vf, s)
        s.writeCompletion vf g.completion (completionWord true (g.faultCnt != 0) g.cancelled false ((g.firstFault.map (·.1)).getD 0) 0)
          (completionBytes g.faultCnt g.firstFault g.lid t)

/-- A failure that a node counts in its graph's completion record (08 R208). -/
def State.graphFault (s : State) (vf code : Nat) : State :=
  let s := s.modGraph vf (fun g => { g with
    faultCnt := (g.faultCnt + 1) % 2 ^ 32, firstFault := if g.firstFault.isNone then some (code, 0, 0xFF, 0) else g.firstFault })
  match (s.ctx vf).graph with
  | none => s
  | some g =>
    if g.completion = 0 then s
    else s.writeCompletion vf g.completion (completionWord false true g.cancelled false ((g.firstFault.map (·.1)).getD 0) 0)
      (completionBytes g.faultCnt g.firstFault 0 0)

/-- The records of a node's queue that no launch has taken are retired (06 R149); HEAD passes them once no batch is left before them. -/
def State.retireRecords (s : State) (vf node : Nat) : State :=
  let tail := s.nodeField vf node 0x1C 4
  let left := countDiff tail (s.nodeField vf node 0x28 4)
  let s := (s.setNode vf node 0x20 4 tail).setNode vf node 0x28 4 tail
  let s := if ((s.ctx vf).graph.map (fun g => g.batches.all (fun b => b.node != node))).getD true then s.setNode vf node 0x18 4 tail else s
  s.modGraph vf (fun g => { g with counter := g.counter - left })

/-- CANCEL of a context's graph: its launches, and the records not yet taken (06 R149). -/
def State.cancelGraph (s : State) (vf bit : Nat) : State :=
  match (s.ctx vf).graph with
  | none => s
  | some _ =>
    let s := s.modGraph vf (fun g => { g with cancelled := true })
    let ns := (s.launches.filter (fun p => p.2.vf = vf && p.2.graphNode.isSome && !p.2.complete)).map (·.1)
    let s := ns.foldl (fun s n => s.cancelLaunch n bit) s
    let nodes := ((s.ctx vf).graph.map Graph.nodes).getD []
    (nodes.foldl (fun s k => s.retireRecords vf k) s).graphJudge vf

/-- CANCEL of a context's current phase (06 R149): its launches, those that wait to begin among them. -/
def State.cancelPhase (s : State) (vf : Nat) : State :=
  let s := s.modCtx vf (fun c => { c with phaseCancelled := true, heldRecs := c.heldRecs.map (fun l =>
    if l.phase = c.phase then { l with cancelled := true, placed := l.ux * l.uy * l.uz } else l) })
  let s := s.cancelGraph vf 4
  let ns := (s.launches.filter (fun p => p.2.vf = vf && p.2.phase = (s.ctx vf).phase && !p.2.complete)).map (·.1)
  ns.foldl (fun s n => s.cancelLaunch n 4) s

/-! Teardown (09 R232, R233; 02 R74). -/

/-- Current units that some operations and clauses hold in a cluster, asked for by units of a set. -/
def State.unitCurrent (s : State) (us ws : List Nat) (k : Nat) : Nat :=
  (us.filter (fun u => clusterOf (s.unit u).core = k)).foldl (fun n u =>
    (List.range 8).foldl (fun n e => ((s.unit u).ctx e).ops.foldl (fun n o => if o.reserved then n + o.units else n) n) n) 0 +
  8 * (ws.filter (fun w => clusterOf (s.wave w).core = k)).foldl (fun n w => n + ((s.wave w).heavyIds.filter (fun i =>
    !(s.cluster k).requests.any (fun r => r.who = .clause w i))).length) 0

/-- Everything that some units and waves hold on their cores is given back, and they are gone without further effect (09 R233). -/
def State.removeUnits (s : State) (us : List Nat) : State :=
  let ws := (s.waves.filter (fun p => us.contains p.2.unit)).map (·.1)
  let clusters := s.clusters.map (fun p => (p.1, { p.2 with
    unitsFree := p.2.unitsFree + s.unitCurrent us ws p.1
    requests := p.2.requests.filter (fun r => match r.who with
      | .op u _ _ => !us.contains u
      | .clause w _ => !ws.contains w) }))
  let cores := s.cores.map (fun p => (p.1, { p.2 with
    newel := p.2.newel.bind (fun h => if ws.contains h then none else some h)
    newelQueue := p.2.newelQueue.filter (fun w => !ws.contains w)
    owner := p.2.owner.bind (fun u => if us.contains u then none else some u)
    mowners := p.2.mowners.filter (fun u => !us.contains u) }))
  { s with clusters, cores, waves := s.waves.filter (fun p => !ws.contains p.1), units := s.units.filter (fun p => !us.contains p.1) }

/-- A committed bind record cleared (08 R200). -/
def State.clearBind (s : State) (die i : Nat) : State :=
  s.modDie die (fun d => { d with slotTable := tset 0 d.slotTable (32 * i + 2) 0, binds := tdel d.binds i })

/-- The committed records of some launches cleared. -/
def State.clearBinds (s : State) (p : Launch → Bool) : State :=
  s.dies.foldl (fun s (d : Nat × DieSt) => d.2.binds.foldl (fun s (b : Nat × Bind) =>
    if p (s.launch b.2.launch) then s.clearBind d.1 b.1 else s) s) s

/-- The physical runs of this package's memory that the tables of a context map, walked through the levels left from a table (01 R23-R26). -/
def State.runsFrom (s : State) (m : Mem) : Nat → Nat → Nat → List (Nat × Nat)
  | 0, _, _ => []
  | fuel + 1, level, table =>
    let idx := ((m.cells.filter (fun c => table ≤ c.1 && c.1 < table + 65536)).map (fun c => (c.1 - table) / 8)).eraseDups
    idx.flatMap (fun i =>
      let e := m.nat (table + 8 * i) 8
      if s.poisoned (table + 8 * i) then []
      else match pteKind e level with
        | .table mc pa => s.runsFrom m fuel (level + 1) (locPA mc pa)
        | .leaf =>
          let loc := leafLoc level e 0
          if isRemote loc then [] else [(loc, 2 ^ leafShift level)]
        | _ => [])

/-- The physical runs of this package's memory that a context maps (01 R23; 22 R423). -/
def State.mappedRuns (s : State) (vf : Nat) : List (Nat × Nat) :=
  let root := (s.ctx vf).mgmt.root.toNat
  let pa := bits root 51 16 * 65536
  if classFits (bits root 57 55) pa then s.runsFrom (s.memOf vf) 3 1 (locPA (bits root 57 55) pa) else []

/-- TEARDOWN of a context (09 R232, R233; 02 R74). -/
def State.teardown (s : State) (vf cause : Nat) : State :=
  let c := s.ctx vf
  if c.state = .torn then s
  else
    let mine := fun (n : Nat) => (s.launch n).vf = vf
    let tornRuns := s.mappedRuns vf
    let s := s.clearBinds (fun l => l.vf = vf)
    let cores := s.cores.map (fun p => (p.1, { p.2 with
      deque := p.2.deque.filter (fun q => !mine q.launch), pending := p.2.pending.filter (fun q => !mine q.launch), seq := tdel p.2.seq vf }))
    let s := { s with cores, held := s.held.filter (fun h => h.vf != vf), failed := s.failed.filter (fun p => p.1 != vf) }
    let s := s.removeUnits ((s.units.filter (fun p => p.2.vf = vf)).map (·.1))
    let launches := s.launches.map (fun p => (p.1, if p.2.vf = vf then { p.2 with complete := true, counter := 0 } else p.2))
    let s := { s with launches, mem := s.mem.eraseKey (s.keyIndex vf) }
    let busyPf := c.shoot.any (fun r => r.win = .pf)
    let s := if busyPf then { s with pf := { s.pf with cmdstat := 4 } } else s
    s.modCtx vf (fun c => { c with
      mgmt := if c.shoot.any (fun r => r.win != .pf) then { c.mgmt with cmdstat := 4 } else c.mgmt
      rejects := c.rejects + BitVec.ofNat 32 c.rung.length, rung := [], slotBusy := 0, heldRecs := [], frecs := [], fwaiting := []
      handles := [], graph := none, phaseCnt := 0, state := .torn, cause, tornTime := s.pkg.ticks, tornRuns, reported := false, keyed := false, shoot := [] })

end Sys2Proof.Machine
end

