-- ==== Sys2Proof/Machine/Task.lean ====
section
/-! DEFINITION. SPAWN, JOIN, and the deque units of the cores (07 R171-R188; 20 R406). -/
namespace Sys2Proof.Machine

/-- The handle of a wave, as WAITER and s9 of a trap record show it; 0 is none (07 R174; 09 R220). -/
def waveHandle (w : Nat) : Word := BitVec.ofNat 32 (w + 1)

/-- The join object that a frame names, checked as a 16-byte atomic access (07 R178): its location, if it names one. -/
def State.frameObject (s : State) (x : Iss) (join : DWord) (k : Option Nat → State → Res) : Res :=
  if join = 0 then k none s
  else
    let l := lowestLane x.e
    s.access x [{ lane := l, ea := join, size := 16, kind := AccKind.atomic, align := 16, cap := none, paths := [0, 2] }] (fun ps s =>
      s.consume x ps 16 AccKind.atomic (k ((ps.head?).map (fun p => p.loc))))

/-- The lowest UNIT handle that no unit of the context holds (07 R176). -/
def Ctx.freeHandle (c : Ctx) : Option Nat := (List.range (c.handles.length + 1)).find? (fun h => h < 65536 && !c.handles.contains h)

/-- A push: the frame at the head, and the 16 oldest of 33 written to their regions (07 R183). -/
def State.pushFrame (s : State) (core vf : Nat) (q : QFrame) : State :=
  let d := q :: (s.core core).deque
  if d.length ≤ 32 then s.modCore core (fun c => { c with deque := d })
  else
    let s := s.modCore core (fun c => { c with deque := d.take 17 })
    if (d.drop 17).any (fun q => s.regionPoison q.launch core) then s.teardown vf 3
    else (d.drop 17).reverse.foldl (fun s q => s.regionPush core q) s

/-- The effect of SPAWN once its checks have passed (07 R178). -/
def State.spawnChild (s : State) (x : Iss) (f : Frame) (loc : Option Nat) : State :=
  let u := x.wave.unit
  let y := s.unit u
  let core := x.wave.core
  let n := y.launch
  let scratch := f.join != 0 && pathOf f.join = 2
  let (start, s) := s.releaseLanesView x.w x.g
  let s := match loc with
    | none => s
    | some a => (s.atomicStep (.lane x.w (lowestLane x.e)) a 4 (fun o => some ((o + 1) % 2 ^ 32))).2
  let s := s.modLaunch n (fun l => { l with counter := l.counter + 1 })
  let h := if scratch then (y.handle.orElse (fun _ => (s.ctx y.vf).freeHandle)).getD 0 else 0
  let s := if scratch then
      (s.modUnit u (fun y => { y with handle := some h, childJoins := y.childJoins + 1 })).modCtx y.vf (fun c =>
        { c with handles := if y.handle.isSome then c.handles else c.handles ++ [h] })
    else s
  let seq : Word := tget 0 (s.core core).seq y.vf
  let s := s.modCore core (fun c => { c with seq := tset 0 c.seq y.vf (seq + 1) })
  let (id, s) := s.newId
  let f := { f with
    id
    join := if scratch then BitVec.ofNat 64 (2 * 2 ^ 60 + h * 2 ^ 44 + f.join.toNat % 2 ^ 17) else f.join
    depth := y.depth + 1, flags := f.flags / 2 % 4 * 2, parent := core, seq }
  let s := s.relMerge (.frame id) start
  let s := { s with frames := tins s.frames id { launch := n, x := y.x, y := y.y, z := y.z, scrUnit := if scratch then some u else none } }
  s.pushFrame core y.vf { frame := f, launch := n }

/-- SPAWN (07 R171-R178). A footprint within its limits fits an empty core of the steal domain, which holds the core itself. -/
def execSpawn (w : Full) (s : State) : Host.Outcome State Fault Refusal :=
  let k := match w.a with
    | .s n => n
    | _ => 0
  s.perform (.spawn w) (headF w [(w.a, 16)] true) (fun x s =>
    if x.e = 0 then .done s
    else
      let y := s.unit x.wave.unit
      let f := Frame.ofBytes ((List.range 16).flatMap (fun i => leBytes 4 (x.wave.rs (k + i)).toNat)) 0
      if y.depth = 15 then x.fail Code.spawndepth s
      else if !(Foot.ofDW f.foot).ok then x.fail Code.spawnfoot s
      else s.frameObject x f.join (fun loc s =>
        if f.join != 0 && pathOf f.join = 2 && y.handle.isNone && (s.ctx y.vf).freeHandle.isNone then x.fail Code.spawnfoot s
        else if (s.launch y.launch).slots < s.framesOwned y.launch x.wave.core + 1 + 16 then x.fail Code.spawnfoot s
        else .done (s.spawnChild x f loc)))

/-- JOIN passes: every lane acquires the object's set, then FAULTS is read (07 R180). -/
def State.joinPass (s : State) (x : Iss) (d : Opnd) (loc : Nat) : State :=
  let s := s.acquireLanes x.w x.e (.joinObj loc)
  let (bs, s) := s.readStep (.lane x.w (lowestLane x.e)) ((List.range 4).map (loc + 8 + ·))
  s.put x d false tagN32 (fun _ => leNat (s.maskPoison (loc + 8) bs))

/-- JOIN (07 R180): one that waits writes WAITER (07 R174), for which it asks for R alone, and leaves D as it is (log 77). -/
def execJoinI (w : Full) (s : State) : Host.Outcome State Fault Refusal :=
  s.perform (.joinI w) (headF w [(w.d, 1), (w.a, 2)] true) (fun x s =>
    if x.e = 0 then .done s
    else
      let l := lowestLane x.e
      let ea := s.addrBase x w.a l
      s.access x [{ lane := l, ea, size := 16, kind := AccKind.load, align := 16, cap := none, paths := [0, 2] }] (fun ps s =>
        s.consume x ps 16 AccKind.load (fun s =>
          let loc := ((ps.head?).map (fun p => p.loc)).getD 0
          if (s.memOf (s.vfOf x.w)).nat loc 4 = 0 then .done (s.joinPass x w.d loc)
          else .moved ((s.storeNow (plainWrite (loc + 4) 4 (waveHandle x.w).toNat) (s.keyIndex (s.vfOf x.w))).waitOn x x.e (.joinW x.e w.d ea loc)))))

/-- JOIN_RESUME (07 R180): COUNT reads 0 at the backing store; an object that no access reaches any more faults REMOTE (22 R421; log 26). -/
def execJoinResume (s : State) : Host.Outcome State Fault Refusal :=
  let w := s.occ.a
  match s.waitOf w s.occ.b with
  | some (.joinW e d ea loc) =>
    if s.awake w && s.cutOff loc then
      .next (s.takeFault w ((s.issWait w e).record Code.remote 1 (lowestLane e) AccKind.load ea))
    else if s.awake w && (s.memOf (s.vfOf w)).nat loc 4 = 0 then .next ((s.joinPass (s.issWait w e) d loc).leaveWait w (s.waiters w s.occ.b))
    else .refused (.notEnabled "JOIN_RESUME")
  | _ => .refused (.notEnabled "JOIN_RESUME")

/-- Whether a core holds a context or can be given to it (02 R73). -/
def State.coreFor (s : State) (core vf : Nat) : Bool :=
  let c := s.core core
  s.vfAt core = some vf && (s.ctx vf).state = .active && !c.away && c.scrub.isNone && (c.ctx = some vf || c.ctx.isNone)

/-- Whether a core's partition is between a slice end and its next slice (20 R406). -/
def State.sliceOver (s : State) (core : Nat) : Bool :=
  match s.partAt (clusterOf core) with
  | some e => (s.part (dieOf core) e).sliceEnd.isSome
  | none => true

/-- Whether dispatchers of a core take work for a context: none between a slice end and the next slice, nor once the core leaves (20 R406; 08 R203). -/
def State.takesWork (s : State) (core vf : Nat) : Bool :=
  s.coreFor core vf && (s.cluster (clusterOf core)).reclaiming.isNone && !s.sliceOver core

/-- The physical registers, in eights, that a child may be given of those its footprint declares: as its launch's backing store has room
for the others (06 R165; 08 R210). -/
def State.childPregs (s : State) (n : Nat) (f : Foot) : List Nat :=
  let l := s.launch n
  (List.range (f.vregs / 8 + 1)).filter (fun p => (max f.vregs l.vvirt - 8 * p) * 128 + s.storeUsed n ≤ l.bsBytes || p = f.vregs / 8)

/-- A context whose launch's backing store has no room for what has been put there is torn down (08 R210; 09 R232). -/
def State.checkStore (s : State) (n : Nat) : State := if s.storeFull n then s.teardown (s.launch n).vf 2 else s

/-- A child starts from its frame (07 R179): it is pending until its first word issues or it faults (07 R183). -/
def State.startChild (s : State) (q : QFrame) (sp : Span) : State :=
  let f := q.frame
  let vf := (s.launch q.launch).vf
  let foot := Foot.ofDW f.foot
  let info : FrameInfo := (tfind? s.frames f.id).getD { launch := q.launch, x := 0, y := 0, z := 0, scrUnit := none }
  let (u, s) := s.newId
  let (w, s) := s.newId
  let ps := s.childPregs q.launch foot
  let (i, s) := s.pick ps.length
  let s := s.modCore sp.core (fun c => { c with ctx := some vf, pending := q :: c.pending })
  let s := s.setUnit u { UnitSt.blank with
    launch := q.launch, vf, x := info.x, y := info.y, z := info.z, depth := f.depth, waves := [w], foot
    core := sp.core, wslot := sp.wslot, vbase := sp.vbase, pregs := ps.reverse.getD i sp.vlen, scrbase := sp.scrbase, tbase := sp.tbase
    resident := true, child := some f, ended := false, released := false }
  let v := startWave u 0 sp.core sp.wslot f.entry 0xFFFFFFFF (s.rel (.frame f.id)) true
  let v := ((List.range 8).zip f.args).foldl (fun (v : Wave) p => v.ws p.1 p.2) v
  ((s.setWave w v).leftover u).checkStore q.launch

/-- The newest frame of a core's hardware part that fits at a wave slot (07 R183). -/
def State.popChoice (s : State) (core slot : Nat) : Option (QFrame × Span) :=
  (s.core core).deque.findSome? (fun q => (s.childSpan core slot (Foot.ofDW q.frame.foot)).map (fun sp => (q, sp)))

/-- DEQUE_POP (07 R183). -/
def execDequePop (s : State) : Host.Outcome State Fault Refusal :=
  let core := s.occ.a
  match s.popChoice core s.occ.b with
  | some (q, sp) =>
    if s.takesWork core (s.launch q.launch).vf then
      .next ((s.modCore core (fun c => { c with deque := c.deque.erase q })).startChild q sp)
    else .refused (.notEnabled "DEQUE_POP")
  | none => .refused (.notEnabled "DEQUE_POP")

/-- DEQUE_REFILL (07 R183): up to 16 of the newest frames of the region of launch b. -/
def execDequeRefill (s : State) : Host.Outcome State Fault Refusal :=
  let core := s.occ.a
  let n := s.occ.b
  let vf := (s.launch n).vf
  let c := s.core core
  let (h, k) := s.regionCtl n core
  if c.ctx = some vf && !c.away && s.vfAt core = some vf && c.deque.isEmpty && !(s.launch n).complete then
    if s.regionPoison n core then .next (s.teardown vf 3)
    else if k = 0 then .refused (.notEnabled "DEQUE_REFILL")
    else
      let fs := s.regionFrames n core
      let s := (s.useRegion n core h ((List.range k).drop (k - min k 16))).setRegion n core h (fs.take (k - min k 16))
      .next (s.modCore core (fun c => { c with deque := ((fs.drop (k - min k 16)).reverse).map (fun f => { frame := f, launch := n }) }))
  else .refused (.notEnabled "DEQUE_REFILL")

/-- Whether a thief may take a frame (07 R184). -/
def Frame.stealable (f : Frame) (thief : Nat) : Bool :=
  f.flags / 2 % 2 = 0 && (f.flags / 4 % 2 = 0 || clusterOf f.parent = clusterOf thief)

/-- Which victims are nearest: 0 the thief's cluster, 1 its partition, 2 its steal group, none outside its scope (07 R184). -/
def State.stealLevel (s : State) (thief victim : Nat) : Option Nat :=
  match s.partAt (clusterOf thief), s.partAt (clusterOf victim) with
  | some e, some e' =>
    let p := s.part (dieOf thief) e
    let p' := s.part (dieOf victim) e'
    let same := dieOf thief = dieOf victim && e = e'
    if thief = victim || p.vf != p'.vf then none
    else if 1 ≤ p.scope && clusterOf thief = clusterOf victim then some 0
    else if 2 ≤ p.scope && same then some 1
    else if 3 ≤ p.scope && p.sgroup != 0 && p.sgroup = p'.sgroup then some 2
    else none
  | _, _ => none

/-- The frames that a thief may take next from a victim: the oldest stealable that fits of each region, else of the hardware part (07 R181, R184). -/
def State.stealChoices (s : State) (thief victim slot vf : Nat) : List (QFrame × Span × Bool) :=
  let fits := fun (q : QFrame) => if q.frame.stealable thief then s.childSpan thief slot (Foot.ofDW q.frame.foot) else none
  let regions := (s.regionLaunches vf victim).filterMap (fun n =>
    ((s.regionFrames n victim).map (fun f => ({ frame := f, launch := n } : QFrame))).findSome? (fun q => (fits q).map (fun sp => (q, sp, true))))
  if !regions.isEmpty then regions
  else (((s.core victim).deque.reverse.filter (fun q => (s.launch q.launch).vf = vf)).findSome?
    (fun q => (fits q).map (fun sp => (q, sp, false)))).toList

/-- Cores within some steal level of a thief. -/
def State.victims (s : State) (thief level : Nat) : List Nat :=
  (s.cores.map (·.1) ++ s.launches.flatMap (fun p => if p.2.complete then [] else p.2.regions)).eraseDups.filter (fun v => s.stealLevel thief v = some level)

/-- DEQUE_STEAL (07 R183, R184): the thief is idle, and no nearer level has a frame for it. -/
def execDequeSteal (s : State) : Host.Outcome State Fault Refusal :=
  let t := s.occ.a
  let v := s.occ.b
  let slot := s.occ.c
  match s.vfAt t, s.stealLevel t v with
  | some vf, some level =>
    let choices := s.stealChoices t v slot vf
    let nearer := (List.range level).any (fun l => (s.victims t l).any (fun y => !(s.stealChoices t y slot vf).isEmpty))
    if s.takesWork t vf && s.dequeEmpty vf t && !nearer && !choices.isEmpty then
      if choices.any (fun c => c.2.2 && s.regionPoison c.1.launch v) then .next (s.teardown vf 3)
      else
        let (i, s) := s.pick choices.length
        match choices[i]? with
        | none => .refused (.notEnabled "DEQUE_STEAL")
        | some (q, sp, inRegion) =>
          let s := if inRegion then
              let fs := s.regionFrames q.launch v
              let h := (s.regionCtl q.launch v).1
              let s := s.useRegion q.launch v h (List.range (fs.idxOf q.frame + 1))
              let h := if fs.head? = some q.frame then (h + 1) % max 1 (s.launch q.launch).slots else h
              s.setRegion q.launch v h (fs.erase q.frame)
            else s.modCore v (fun c => { c with deque := c.deque.erase q })
          .next (s.startChild { q with frame := { q.frame with flags := q.frame.flags / 2 * 2 + 1 } } sp)
    else .refused (.notEnabled "DEQUE_STEAL")
  | _, _ => .refused (.notEnabled "DEQUE_STEAL")

/-- Whether a unit is a child that has not begun: its frame is pending (07 R183). -/
def State.unbegun (s : State) (core : Nat) (x : UnitSt) : Bool :=
  (s.core core).pending.any (fun q => x.child.any (fun f => f.id = q.frame.id))

/-- Whether lanes of a unit are between the steps of a word (03 R82). -/
def State.unitMidSteps (s : State) (x : UnitSt) : Bool := x.waves.any s.midSteps

/-- Children that have not begun are removed from a core; their frames stay pending (20 R406; 07 R186). -/
def State.unstart (s : State) (core : Nat) : State :=
  s.removeUnits ((s.units.filter (fun p => p.2.core = core && !p.2.ended && s.unbegun core p.2)).map (·.1))

/-- Whether a committed record has a placement to make on a borrowed cluster that was its partition's to name when it was committed: a unit
or group not yet placed, or a saved one, of a launch that goes on (08 R215). -/
def State.owes (s : State) (die i : Nat) (b : Bind) : Bool :=
  let l := s.launch b.launch
  let d := s.die die
  let r := d.bindRec i
  b.leader = i && !l.complete && !l.cancelled && (s.ctx l.vf).state = .active && s.partAt (64 * die + r.cluster) = some l.part &&
  ((r.op = 1 && b.done = 0 && b.unit.isNone) || (r.op = 2 && s.restores (d.bindGroup i) b.launch))

/-- Whether some record owes a cluster a placement (08 R215). -/
def State.clusterOwed (s : State) (k : Nat) : Bool :=
  (s.die (k / 64)).binds.any (fun p => ((s.die (k / 64)).bindRec p.1).cluster = k % 64 && s.owes (k / 64) p.1 p.2)

/-- Whether a core must leave its context: its partition's slice has ended, its lender reclaims it, or it runs for nobody (07 R186). -/
def State.departs (s : State) (core : Nat) : Bool :=
  let k := clusterOf core
  ((s.cluster k).reclaiming.isSome && !s.clusterOwed k) || (s.core core).ctx.any (fun v => s.vfAt core != some v) ||
  (match s.partAt k with
    | some e => (s.part (dieOf core) e).sliceEnd.isSome
    | none => true)

/-- A cluster goes back to its lender once its cores have left (08 R203; 02 R73). -/
def State.returnCluster (s : State) (k : Nat) : State :=
  let cs := (List.range 4).map (4 * k + ·)
  if (s.cluster k).reclaiming.isSome && !s.clusterOwed k && cs.all (fun c => (s.core c).away || (s.core c).ctx.isNone) then
    let s := s.modCluster k (fun c => { c with lentTo := none, reclaiming := none })
    match cs.head?.bind s.vfAt with
    | none => s
    | some vf => cs.foldl (fun s c => s.claimCore c vf) s
  else s

/-- Whether a unit that has begun, or is between the steps of its first word, is still held on a core. -/
def State.coreBusy (s : State) (core : Nat) : Bool :=
  s.units.any (fun p => p.2.core = core && p.2.saved.isNone && !p.2.released && !(s.unbegun core p.2 && !s.unitMidSteps p.2))

/-- A core leaves its context: its frames go to its regions, and may be stolen there (07 R186). Of several pending frames the earliest taken
comes to lie oldest, and the last taken nearest the hardware frames (log 65). -/
def State.departCore (s : State) (core : Nat) : State :=
  let c := s.core core
  let s := s.unstart core
  let bare := fun (q : QFrame) => { q with frame := { q.frame with flags := 0 } }
  let s := s.modCore core (fun c => { c with deque := [], pending := [], away := true })
  match c.ctx with
  | none => s
  | some vf =>
    if (c.deque ++ c.pending).any (fun q => s.regionPoison q.launch core) then s.teardown vf 3
    else c.pending.foldl (fun s q => s.regionUnder core (bare q)) (c.deque.reverse.foldl (fun s q => s.regionPush core (bare q)) s)

/-- CORE_DEPART (07 R186), once no unit runs on the core. -/
def execCoreDepart (s : State) : Host.Outcome State Fault Refusal :=
  let core := s.occ.a
  if s.departs core && !(s.core core).away && !s.coreBusy core then .next ((s.departCore core).returnCluster (clusterOf core))
  else .refused (.notEnabled "CORE_DEPART")

end Sys2Proof.Machine
end

