-- ==== Sys2Proof/Machine/Launch.lean ====
section
/-! DEFINITION. Launch windows and records, phases, completion, graphs, and EMIT, LAUNCH, CANCEL, LVLCNT
(06 R148, R149; 08 R189-R196, R204-R208; 15 R386-R389; 03 R98). -/
namespace Sys2Proof.Machine

/-- A field of a record of bytes. -/
def fieldAt (bs : List Byte) (o n : Nat) : Nat := leNat ((bs.drop o).take n)
/-- An 8-byte field of a record. -/
def dwAt (bs : List Byte) (o : Nat) : DWord := BitVec.ofNat 64 (fieldAt bs o 8)

/-- A path 0x0 address with an alignment (08 R191). -/
def plainAddr (ea : DWord) (align : Nat) : Bool := pathOf ea = 0 && canonical ea && ea.toNat % align = 0

/-- Whether n bytes from a 64 KiB-aligned or shorter place are mapped R and W, page by page (08 R191; 07 R182). -/
def State.mappedRW (s : State) (vf : Nat) (ea : DWord) (n : Nat) : Bool :=
  ea.toNat + n ≤ 2 ^ 55 && (List.range ((ea.toNat % 65536 + n + 65535) / 65536)).all (fun i =>
    match s.walk vf ((ea.toNat / 65536 + i) * 65536) with
    | .leaf _ e _ => bits e 1 1 = 1 && bits e 2 2 = 1
    | .xlate _ _ => false)

/-- n bytes that the device reads at an address of a context, if it can. -/
def State.devBytes (s : State) (vf : Nat) (ea : DWord) (n : Nat) : Option (List Byte) :=
  match s.devPlace vf ea.toNat true false with
  | .at_ loc => some ((s.memOf vf).bytes loc n)
  | _ => none

/-- The partitions that the management controller assigns to a virtual function, as PART numbers them: by die, then by entry, those in reset
counted (08 R192; log 65). -/
def State.partsOf (s : State) (vf : Nat) : List (Nat × Nat) :=
  (List.range 4).flatMap (fun d => ((s.die d).parts.filter (fun p => p.2.state != 0 && p.2.vf = vf)).map (fun p => (d, p.1)))

/-- One bucket of a bucket table (08 R204): its ranges, code, waves, footprint, spans and padding dimension. -/
structure Bucket where
  lo : List Nat
  hi : List Nat
  entry : Nat
  waves : Nat
  foot : Foot
  span : List Nat
  paddim : Nat
deriving DecidableEq, Repr

/-- A bucket from its 64 bytes, and whether its own fields are right (08 R204); a PADDIM of 3 to 254 names no dimension and is not (log 78). -/
def bucketOf (code : DWord) (bs : List Byte) : Bucket × Bool :=
  let b : Bucket := {
    lo := [fieldAt bs 0 4, fieldAt bs 8 4, fieldAt bs 16 4], hi := [fieldAt bs 4 4, fieldAt bs 12 4, fieldAt bs 20 4]
    entry := fieldAt bs 24 4, waves := fieldAt bs 28 2, foot := Foot.ofDW (dwAt bs 32)
    span := [fieldAt bs 40 2, fieldAt bs 42 2, fieldAt bs 44 2], paddim := fieldAt bs 46 1 }
  let sp := b.span.getD b.paddim 0
  (b, fieldAt bs 30 2 = 0 && ((bs.drop 47).take 17).all (· = 0) && 1 ≤ b.waves && b.waves ≤ 16 && b.foot.ok && b.waves * b.foot.vregs ≤ 2048 &&
    plainAddr (code + BitVec.ofNat 64 b.entry) 8 && (b.paddim = 0xFF || (b.paddim ≤ 2 && 1 ≤ sp && sp ≤ 32)))

/-- Units in one dimension of a matched bucket (08 R205). -/
def bucketUnits (sh span : Nat) : Nat := if span = 0 then 1 else (sh + span - 1) / span

/-- The bucket that a record matches, or none where the table or the match fails (08 R204, R205); a table that cannot be read fails, and so
does a match that gives no unit in some dimension or 2^32 units or more (log 65). -/
def State.matchBucket (s : State) (vf : Nat) (code : DWord) (off : Nat) (sh : List Nat) : Option Bucket :=
  let t := code + BitVec.ofNat 64 off
  if !plainAddr t 8 then none
  else match s.devBytes vf t 8 with
    | none => none
    | some h =>
      let nb := (h.getD 0 0).toNat
      if nb = 0 || 8 < nb || !(h.drop 1).all (· = 0) then none
      else
        let raw := (List.range nb).map (fun i =>
          (List.range 8).flatMap (fun j => (s.devBytes vf (t + BitVec.ofNat 64 (8 + 64 * i + 8 * j)) 8).getD []))
        if raw.any (fun b => b.length != 64) || !(raw.all (fun b => (bucketOf code b).2)) then none
        else
          match (raw.map (fun b => (bucketOf code b).1)).find? (fun b => (List.range 3).all (fun i => b.lo.getD i 0 ≤ sh.getD i 0 && sh.getD i 0 ≤ b.hi.getD i 0)) with
          | none => none
          | some b =>
            let n := (List.range 3).map (fun i => bucketUnits (sh.getD i 0) (b.span.getD i 0))
            if n.all (1 ≤ ·) && n.foldl (· * ·) 1 < 2 ^ 32 then some b else none

/-- How a record reaches the device: which phase it must name (08 R194; 15 R388; 08 R208). -/
inductive RecSource where
  | doorbell
  | program (phase : Nat)
  | node (n : Nat)
deriving DecidableEq, Repr

/-- The launch that a record describes, and its rejection reason, 0 for none (08 R191, R192, R204, R205; 07 R182). PHASE, NODE and GRAPH of a
node's template are judged by none of the checks (08 R208; log 78). -/
def State.readRecord (s : State) (vf : Nat) (bs : List Byte) (src : RecSource) : Launch × Nat :=
  let flags := fieldAt bs 0x16 2
  let bkt := flags % 2 = 1
  let code := dwAt bs 0
  let sh := [fieldAt bs 0x48 4, fieldAt bs 0x4C 4, fieldAt bs 0x50 4]
  let b := if bkt then s.matchBucket vf code (fieldAt bs 0x54 4) sh else none
  let units := match src, b with
    | .node n, _ => [n, 1, 1]
    | _, some b => (List.range 3).map (fun i => bucketUnits (sh.getD i 0) (b.span.getD i 0))
    | _, none => [fieldAt bs 8 4, fieldAt bs 12 4, fieldAt bs 16 4]
  let waves := (b.map (·.waves)).getD (fieldAt bs 0x14 2)
  let foot := (b.map (·.foot)).getD (Foot.ofDW (dwAt bs 0x18))
  let start := (b.map (fun b => code + BitVec.ofNat 64 b.entry)).getD code
  let spill := dwAt bs 0x30
  let hdr := if plainAddr spill 65536 then s.devBytes vf spill 64 else none
  let dq := (hdr.map (fun h => fieldAt h 0 4)).getD 0
  let bsb := (hdr.map (fun h => fieldAt h 8 8)).getD 0
  let hdrOk := (hdr.map (fun h => fieldAt h 4 4 = 0 && (h.drop 16).all (· = 0))).getD false
  let inModule : Bool := bits ((s.devRead vf start 8).getD 0) 63 60 = 0xD
  let vvirt := if inModule then s.peekVvirt vf start else 0
  let parts := s.partsOf vf
  let args := dwAt bs 0x20
  let live := dwAt bs 0x38
  let trap := dwAt bs 0x40
  let phase := fieldAt bs 0x5A 2
  let c := s.ctx vf
  let node := flags / 2 % 2 = 1
  let graph := fieldAt bs 0x5C 4
  let phaseOk := match src with
    | .doorbell => (phase = c.phase && !c.closed) || phase = (c.phase + 1) % 65536
    | .program p => phase = p
    | .node _ => true
  let total := units.foldl (· * ·) 1
  let reason :=
    if !plainAddr code 8 then 1
    else if !bkt && (total = 0 || 2 ^ 32 ≤ total) then 2
    else if !bkt && (waves = 0 || 16 < waves) then 3
    else if bits flags 15 8 != 0 || bits flags 3 2 != 0 || !plainAddr args 1 then 4
    else if !bkt && (!foot.ok || 2048 < waves * foot.vregs) then 5
    else if !hdrOk || dq % 4096 != 0 || dq < 4096 || 2 ^ 20 < dq || !s.mappedRW vf spill (65536 + 1024 * dq + bsb) || ((!bkt || b.isSome) && bsb < saveSize waves foot vvirt) then 6
    else if !plainAddr live 64 then 7
    else if !plainAddr trap 8 then 8
    else if bkt && b.isNone then 9
    else if 4 < fieldAt bs 0x58 1 then 10
    else if parts.length ≤ bits flags 7 4 then 11
    else if !phaseOk then 12
    else if src = .doorbell ∧ node ∧ (c.mgmt.gtbase = 0 ∨ c.mgmt.gtnodes.toNat ≤ graph) then 13
    else match src with
      | .program _ => if node && (c.mgmt.gtbase = 0 || c.mgmt.gtnodes.toNat ≤ graph) then 13 else 0
      | _ => 0
  let where_ := parts.getD (bits flags 7 4) (0, 0)
  let k0 : CapBits := dwAt bs 0x68 ++ dwAt bs 0x60
  let k1 : CapBits := dwAt bs 0x78 ++ dwAt bs 0x70
  ({ Launch.blank with
      vf, die := where_.1, part := where_.2, code := start, ux := units.getD 0 1, uy := units.getD 1 1, uz := units.getD 2 1, waves, foot
      completion := dwAt bs 0x28, spill, dqBytes := dq, vvirt, bsBytes := bsb, liveTable := live, trapBase := trap
      sh0 := BitVec.ofNat 32 (sh.getD 0 0), sh1 := BitVec.ofNat 32 (sh.getD 1 0), sh2 := BitVec.ofNat 32 (sh.getD 2 0)
      group := fieldAt bs 0x58 1, qos := fieldAt bs 0x59 1, phase, args, graphNode := if node then some graph else none
      padDim := b.bind (fun b => if b.paddim = 0xFF then none else some (b.paddim, b.span.getD b.paddim 1))
      k0, k1, k0tag := capWellFormed k0, k1tag := capWellFormed k1, complete := false }, reason)

/-- Whether a record's COMPLETION can take its completion record (08 R191). -/
def State.completionOk (s : State) (vf : Nat) (bs : List Byte) : Bool :=
  let ea := dwAt bs 0x28
  plainAddr ea 32 && s.mappedRW vf ea 32

/-- What the device reads of a context's memory to check a record: its spill area's header, its bucket table, and where its code starts the
header of a module (01 R30; 12 R289). -/
def State.recordReads (s : State) (vf : Nat) (bs : List Byte) (start : DWord) : State :=
  let s := if plainAddr (dwAt bs 0x30) 65536 then s.devUse vf (dwAt bs 0x30) 64 else s
  let s := if fieldAt bs 0x16 2 % 2 = 1 then s.devUse vf (dwAt bs 0 + BitVec.ofNat 64 (fieldAt bs 0x54 4)) 520 else s
  if !plainAddr start 8 then s
  else if bits ((s.devRead vf start 8).getD 0) 63 60 = 0xD then s.devUse vf start 16 else s.devUse vf start 8

/-- A record discarded without a completion record (08 R189). -/
def State.countReject (s : State) (vf : Nat) : State := s.modCtx vf (fun c => { c with rejects := c.rejects + 1 })

/-- A rejected record's completion record: DONE, REJECTED, REASON and TIME (08 R193, R196). -/
def State.rejectRecord (s : State) (vf : Nat) (l : Launch) (reason : Nat) : State :=
  let s := s.devWrite vf (l.completion + 0x18) (leBytes 8 (s.timens vf).toNat)
  match s.devPlace vf l.completion.toNat false true with
  | .at_ loc => s.storeAfter (plainBytes loc (leBytes 4 (completionWord true false false true 0 reason))) (s.keyIndex vf) ((List.range 28).map (loc + 4 + ·))
  | _ => s

/-- The lowest handle that no launch in flight on a die has (08 R198). -/
def State.freeLaunchHandle (s : State) (die : Nat) : Nat :=
  let used := (s.launches.filter (fun p => !p.2.complete && p.2.die = die)).map (fun p => p.2.handle)
  ((List.range (used.length + 1)).find? (fun h => !used.contains h)).getD 0

/-- The next %launch of a context: not 0, and of no launch of it in flight (06 R159). -/
def State.nextLaunchId (s : State) (vf : Nat) : Nat :=
  let used := (s.launches.filter (fun p => !p.2.complete && p.2.vf = vf)).map (fun p => p.2.lid)
  (((List.range (used.length + 2)).map (fun i => ((s.ctx vf).nextLid + i) % 2 ^ 32)).find? (fun x => x != 0 && !used.contains x)).getD 1

/-- A launch starts: its %launch, its counter, and the counter of its graph or phase (06 R148); its lanes will acquire a view (03 R98). -/
def State.startLaunch (s : State) (l : Launch) (start : View) : Nat × State :=
  let (n, s) := s.newId
  let lid := s.nextLaunchId l.vf
  let s := s.modCtx l.vf (fun c => { c with nextLid := lid + 1 })
  let s := match l.graphNode with
    | some _ => (s.withGraph l.vf l.completion lid).modGraph l.vf (fun g => { g with counter := g.counter + 1 })
    | none => s.modCtx l.vf (fun c => { c with phaseCnt := c.phaseCnt + 1 })
  (lid, s.setLaunch n { l with lid, start := vmerge start (s.rel (.done l.vf)), counter := l.ux * l.uy * l.uz - l.placed, handle := s.freeLaunchHandle l.die })

/-- A copied launch record checked, and started, held or rejected (08 R190-R194). What its root lanes acquire of the system fence set is what the
set holds when the launch starts (03 R98; log 78). -/
def State.acceptRecord (s : State) (vf : Nat) (bs : List Byte) : State :=
  if !s.completionOk vf bs then s.countReject vf
  else
    let (l, reason) := s.readRecord vf bs .doorbell
    let s := s.recordReads vf bs l.code
    if reason != 0 then s.rejectRecord vf l reason
    else if l.phase != (s.ctx vf).phase then s.modCtx vf (fun c => { c with heldRecs := c.heldRecs ++ [l] })
    else (s.startLaunch l (s.rel (.fence 6 0))).2

/-- Held launches of the current phase started in their order, as far as the launches in flight of their partitions allow (08 R190, R194). -/
def State.serveHeld (s : State) (vf : Nat) : State :=
  (s.ctx vf).heldRecs.foldl (fun s l =>
    if l.phase != (s.ctx vf).phase || 1024 ≤ s.inFlight l.die l.part then s
    else
      let s := s.modCtx vf (fun c => { c with heldRecs := c.heldRecs.erase l })
      (s.startLaunch l (s.rel (.fence 6 0))).2) s

/-- The 128 bytes of a slot of a launch window (08 R189). -/
def Ctx.slotBytes (c : Ctx) (i : Nat) : List Byte := (List.range 128).map (fun k => tget 0 c.slots (128 * i + k))

/-- Whether the partition that a record names has 1024 launches in flight (08 R190). -/
def State.recordWaits (s : State) (vf : Nat) (bs : List Byte) : Bool :=
  match (s.partsOf vf)[bits (fieldAt bs 0x16 2) 7 4]? with
  | none => false
  | some (d, e) => 1024 ≤ s.inFlight d e

/-- Rung slots copied in doorbell order, as far as launches in flight allow (08 R190). -/
def State.serveRung (s : State) (vf : Nat) : Nat → State
  | 0 => s
  | fuel + 1 =>
    match (s.ctx vf).rung with
    | [] => s
    | i :: rest =>
      let bs := (s.ctx vf).slotBytes i
      if s.recordWaits vf bs then s
      else
        let s := s.modCtx vf (fun c => { c with
          rung := rest, slotBusy := if rest.contains i then c.slotBusy else c.slotBusy &&& ~~~(BitVec.ofNat 8 (2 ^ i)) })
        State.serveRung (s.acceptRecord vf bs) vf fuel

/-- A write to DOORBELL (08 R190); a torn-down context's is counted (09 R233). A slot that is rung while it is busy is queued again (log 65); a
command whose low bits are not the zeros that the table asks for is discarded and counted (log 78). -/
def State.doorbell (s : State) (vf v : Nat) : State :=
  let c := s.ctx vf
  let cmd := bits v 31 28
  let arg := bits v 15 0
  if c.state = .torn || 2 ≤ cmd || bits v 27 16 != 0 then s.countReject vf
  else if cmd = 1 then
    if arg = c.phase && !c.closed then s.setCtx vf { c with closed := true } else s.countReject vf
  else if 8 ≤ arg then s.countReject vf
  else
    let s := s.setCtx vf { c with rung := c.rung ++ [arg], slotBusy := c.slotBusy ||| BitVec.ofNat 8 (2 ^ arg) }
    s.serveRung vf (c.rung.length + 1)

/-- DOORBELL_LAUNCH (08 R190). -/
def execDoorbellLaunch (s : State) : Host.Outcome State Fault Refusal :=
  if s.occ.a < 1024 && bits s.occ.b 31 28 != 1 then .next (s.doorbell s.occ.a s.occ.b) else .refused (.notEnabled "DOORBELL_LAUNCH")

/-- DOORBELL_CLOSE (08 R190, R194). -/
def execDoorbellClose (s : State) : Host.Outcome State Fault Refusal :=
  if s.occ.a < 1024 && bits s.occ.b 31 28 = 1 then .next (s.doorbell s.occ.a s.occ.b) else .refused (.notEnabled "DOORBELL_CLOSE")

/-- PHASE_START (08 R194): the current phase is closed and complete, and records are held for the next. -/
def execPhaseStart (s : State) : Host.Outcome State Fault Refusal :=
  let vf := s.occ.a
  let c := s.ctx vf
  if c.closed && c.phaseCnt = 0 && !c.heldRecs.isEmpty && c.heldRecs.all (fun l => l.phase != c.phase) && c.state != .torn then
    .next ((s.setCtx vf { c with phase := (c.phase + 1) % 65536, closed := false, phaseCancelled := false }).serveHeld vf)
  else .refused (.notEnabled "PHASE_START")

/-- HEAD advances over a node's batches that have completed, in the order they were taken (08 R207), and over records retired after them
(06 R149). -/
def State.freeBatches (s : State) (vf node : Nat) : Nat → State
  | 0 => s
  | fuel + 1 =>
    match (s.ctx vf).graph.bind (fun g => g.batches.find? (fun b => b.node = node)) with
    | none => if (s.ctx vf).graph.any (fun g => g.cancelled) then s.setNode vf node 0x18 4 (s.nodeField vf node 0x28 4) else s
    | some b =>
      if !b.finished then s
      else
        let s := s.setNode vf node 0x18 4 ((s.nodeField vf node 0x18 4 + b.n) % 2 ^ 32)
        State.freeBatches (s.modGraph vf (fun g => { g with batches := g.batches.erase b })) vf node fuel

/-- A batch whose launch has completed, or was never made: its records are consumed (08 R207; 15 R387). -/
def State.finishBatch (s : State) (vf node start n : Nat) : State :=
  let s := s.modGraph vf (fun g => { g with
    counter := g.counter - n
    batches := g.batches.map (fun b => if b.node = node && b.start = start && !b.finished then { b with finished := true } else b) })
  s.freeBatches vf node ((((s.ctx vf).graph.map (fun g => g.batches.length)).getD 0) + 1)

/-- Every agent of a launch has made its full release into the completion set, handlers of its waves among them (03 R98). -/
def State.publishLaunch (s : State) (n : Nat) : State :=
  let vf := (s.launch n).vf
  let us := (s.units.filter (fun p => p.2.launch = n)).map (·.1)
  let s := us.foldl (fun s u => (List.range 8).foldl (fun s e => s.relMerge (.done vf) (s.rel (.timeline u e))) s) s
  ((s.waves.filter (fun p => us.contains p.2.unit)).map (·.1)).foldl (fun s w =>
    let (v, s) := s.drainWave w
    s.relMerge (.done vf) v) s

/-- Whether a launch has nothing left to do (06 R148; 03 R98). -/
def State.launchDone (s : State) (n : Nat) : Bool :=
  let l := s.launch n
  !l.complete && l.placed = l.ux * l.uy * l.uz && l.counter = 0 &&
  s.units.all (fun p => p.2.launch != n || (p.2.ended && (List.range 8).all (fun e => (p.2.ctx e).ops.isEmpty)))

/-- LAUNCH_COMPLETE (03 R98; 08 R195, R196). The launch that created its graph leaves the record to the graph (log 14). -/
def execLaunchComplete (s : State) : Host.Outcome State Fault Refusal :=
  let n := s.occ.a
  if !s.launchDone n then .refused (.notEnabled "LAUNCH_COMPLETE")
  else
    let l := s.launch n
    let vf := l.vf
    let s := s.publishLaunch n
    let s := s.modLaunch n (fun l => { l with complete := true })
    let creator := l.graphNode.isSome && l.batch.isNone && (s.ctx vf).graph.any (fun g => g.lid = l.lid)
    let s := if creator then s.modGraph vf (fun g => { g with
          faultCnt := (g.faultCnt + l.faultCnt) % 2 ^ 32, firstFault := g.firstFault.orElse (fun _ => l.firstFault), cancelled := g.cancelled || l.cancelled })
      else s.writeCompletion vf l.completion (completionWord true (l.faultCnt != 0) l.cancelled false ((l.firstFault.map (·.1)).getD 0) 0)
        (completionBytes l.faultCnt l.firstFault l.lid (s.timens vf))
    let s := match l.graphNode with
      | none => s.modCtx vf (fun c => { c with phaseCnt := c.phaseCnt - 1 })
      | some _ => s.modGraph vf (fun g => { g with counter := g.counter - 1 })
    let s := match l.batch with
      | none => s
      | some (node, start) =>
        let s := s.setNode vf node 0x24 2 (s.nodeField vf node 0x24 2 - 1)
        s.finishBatch vf node start (l.ux)
    let s := s.graphJudge vf
    .next ((s.serveHeld vf).serveRung vf (s.ctx vf).rung.length)

/-! EMIT and node launches (15 R387; 08 R206-R208). -/

/-- A record of a node's queue by its count, as the device keeps since when it has been ready (08 R207). -/
def recordKey (node count : Nat) : Nat := node * 2 ^ 32 + count % 2 ^ 32

/-- EMIT (15 R387); a record of a cancelled graph is retired at once (06 R149). The descriptor is read by the device; one that it cannot read holds no queue, so its slot address is 0. -/
def execEmit (w : Full) (s : State) : Host.Outcome State Fault Refusal :=
  let k := match w.b with
    | .s n => n
    | _ => 0
  s.perform (.emit w) (headF w [(w.a, 1), (w.b, 16)] true) (fun x s =>
    if x.e = 0 then .done s
    else
      let l := lowestLane x.e
      let vf := s.vfOf x.w
      let m := (s.ctx vf).mgmt
      let n := s.srcU x w.a 32 l
      if m.gtbase = 0 || m.gtnodes.toNat ≤ n then .fault Code.addrpath l 0xF 0 s
      else
        let s := s.devUse vf (s.nodeAddr vf n) 64
        let cap := s.nodeField vf n 0x10 4
        let tail := s.nodeField vf n 0x1C 4
        let ea := BitVec.ofNat 64 (s.nodeField vf n 8 8 + 64 * (tail % max 1 cap))
        s.access x [{ lane := l, ea, size := 64, kind := AccKind.store, align := 64, cap := none, paths := [0] }] (fun ps s =>
          if cap ≤ countDiff tail (s.nodeField vf n 0x18 4) then .held (.emitFull n) s
          else
            let loc := ((ps.head?).map (fun p => p.loc)).getD 0
            let key := RKey.record vf n tail
            let s := s.relDrop key
            let s := s.releaseLanes x.w x.e key
            let bytes := plainBytes loc ((List.range 16).flatMap (fun i => leBytes 4 (x.wave.rs (k + i)).toNat))
            let s := s.storeOrFail (.lane x.w l) bytes ea x.cur.pc
            let s := s.relMerge key ((List.range 64).foldl (fun v i => vset v (loc + i) (s.mem.lastOf (loc + i)).1) [])
            let s := (s.setNode vf n 0x1C 4 ((tail + 1) % 2 ^ 32)).setNode vf n 0x20 4 ((tail + 1) % 2 ^ 32)
            let s := (s.withGraph vf 0 0).modGraph vf (fun g => { g with
              counter := g.counter + 1, readySince := tins g.readySince (recordKey n tail) s.pkg.ticks })
            .done (if (s.ctx vf).graph.any (fun g => g.cancelled) then (s.retireRecords vf n).graphJudge vf else s)))

/-- EMIT_RESUME (08 R207). -/
def execEmitResume (s : State) : Host.Outcome State Fault Refusal :=
  let w := s.occ.a
  let vf := s.vfOf w
  match s.waitOf w s.occ.b with
  | some (.hold (.emitFull n)) =>
    if s.awake w && countDiff (s.nodeField vf n 0x1C 4) (s.nodeField vf n 0x18 4) < s.nodeField vf n 0x10 4 then
      .next ((s.devUse vf (s.nodeAddr vf n) 64).endHold w (s.waiters w s.occ.b))
    else .refused (.notEnabled "EMIT_RESUME")
  | _ => .refused (.notEnabled "EMIT_RESUME")

/-- NODE_TIMEOUT_EXPIRY (08 R207). -/
def execNodeTimeoutExpiry (s : State) : Host.Outcome State Fault Refusal :=
  let vf := s.occ.a
  let n := s.occ.b
  match (s.ctx vf).graph with
  | none => .refused (.notEnabled "NODE_TIMEOUT_EXPIRY")
  | some g =>
    let t := s.nodeField vf n 0x16 2
    if t != 0 && s.nodeField vf n 0x20 4 != s.nodeField vf n 0x28 4 && !(tget false g.expired n) &&
        tget 0 g.readySince (recordKey n (s.nodeField vf n 0x28 4)) + 100 * t ≤ s.pkg.ticks then
      .next ((s.devUse vf (s.nodeAddr vf n) 64).modGraph vf (fun g => { g with expired := tset false g.expired n true }))
    else .refused (.notEnabled "NODE_TIMEOUT_EXPIRY")

/-- The bytes of a node's template, its two sectors read in turn, or the fault of the one that cannot be read (08 R208; 07 R435). -/
def State.templateBytes (s : State) (vf node : Nat) : Except Code (List Byte) :=
  let ea := BitVec.ofNat 64 (s.nodeField vf node 0 8)
  (List.range 2).foldl (fun (acc : Except Code (List Byte)) i =>
    match acc, s.devPlace vf (ea + BitVec.ofNat 64 (64 * i)).toNat true false with
    | .error c, _ => .error c
    | .ok bs, .at_ loc => .ok (bs ++ (s.memOf vf).bytes loc 64)
    | .ok _, p => .error ((p.code?).getD 0)) (.ok [])

/-- What a taken batch comes to (08 R208): the launch and its records' views are the units' to acquire, or a failure its graph counts. The
current phase and the node stand in place of the template's PHASE, NODE and GRAPH (log 78). -/
def State.nodeLaunch (s : State) (vf node first n : Nat) (batch : DWord) : State :=
  let s := s.devUse vf (BitVec.ofNat 64 (s.nodeField vf node 0 8)) 128
  let q := s.nodeField vf node 8 8
  let cap := s.nodeField vf node 0x10 4
  let giveUp := fun (s : State) =>
    let s := s.setNode vf node 0x24 2 (s.nodeField vf node 0x24 2 - 1)
    (s.finishBatch vf node first n).graphJudge vf
  match s.templateBytes vf node with
  | .error c => giveUp (s.graphFault vf c)
  | .ok bs =>
    let (l, reason) := s.readRecord vf bs (.node n)
    let s := s.recordReads vf bs l.code
    if !s.completionOk vf bs then giveUp (s.countReject vf)
    else if reason != 0 then giveUp (s.rejectRecord vf l reason)
    else if !l.k1tag || q < l.k1.base.toNat || l.k1.base.toNat + l.k1.length < q + 64 * cap then giveUp (s.graphFault vf Code.capbnd)
    else
      let k1 := capOf batch (64 * n) l.k1.perms l.k1.fmt l.k1.pitch
      (s.startLaunch { l with phase := (s.ctx vf).phase, args := batch, graphNode := some node, batch := some (node, first), k1 } []).2

/-- NODE_LAUNCH_START (08 R207, R208). -/
def execNodeLaunchStart (s : State) : Host.Outcome State Fault Refusal :=
  let vf := s.occ.a
  let node := s.occ.b
  let c := s.ctx vf
  match c.graph with
  | none => .refused (.notEnabled "NODE_LAUNCH_START")
  | some g =>
    let taken := s.nodeField vf node 0x28 4
    let ready := countDiff (s.nodeField vf node 0x20 4) taken
    let coalesce := s.nodeField vf node 0x14 2
    let cap := max 1 (s.nodeField vf node 0x10 4)
    let live := s.nodeField vf node 0x24 2
    let bs := ((s.templateBytes vf node).toOption).getD []
    if c.state = .active && !g.cancelled && node < c.mgmt.gtnodes.toNat && live < s.nodeField vf node 0x26 2 && ready != 0 &&
        (coalesce ≤ ready || tget false g.expired node) && !s.recordWaits vf bs then
      let n := min (min ready coalesce) (cap - taken % cap)
      let batch := BitVec.ofNat 64 (s.nodeField vf node 8 8 + 64 * (taken % cap))
      let s := (s.setNode vf node 0x28 4 ((taken + n) % 2 ^ 32)).setNode vf node 0x24 2 (live + 1)
      let s := s.modGraph vf (fun g => { g with
        batches := g.batches ++ [{ node, start := taken, n, launch := s.nextId, finished := false }]
        readySince := (List.range n).foldl (fun m i => tdel m (recordKey node (taken + i))) g.readySince, expired := tset false g.expired node false })
      .next (s.nodeLaunch vf node taken n batch)
    else .refused (.notEnabled "NODE_LAUNCH_START")

/-! LAUNCH, CANCEL and LVLCNT (15 R388, R389). -/

/-- The record of a LAUNCH read in sixteen steps of 8 bytes, at its two 64-byte places, with the tags of its K0 and K1 (15 R388; 01 R40). -/
def State.launchBytes (s : State) (ag : Agent) (places : List Nat) : List Byte × Bool × Bool × State :=
  let q := (s.agent ag).queue
  let (ws, s) := places.foldl (fun (acc : List (Byte × Option Nat) × State) loc =>
    (List.range 8).foldl (fun (acc : List (Byte × Option Nat) × State) i =>
      let (r, s) := acc.2.readWrites ag ((List.range 8).map (loc + 8 * i + ·))
      (acc.1 ++ ((s.maskPoison (loc + 8 * i) (r.map (·.1))).zip (r.map (·.2))), s)) acc) ([], s)
  let tag := fun (o : Nat) => s.granTag q (places.getD 1 0 + o) ((ws.drop (64 + o)).take 16)
  (ws.map (·.1), tag 0x20, tag 0x30, s)

/-- LAUNCH (15 R388). -/
def execLaunch (w : Full) (s : State) : Host.Outcome State Fault Refusal :=
  s.perform (.launch w) (headF w [(w.d, 1), (w.a, 2)] true) (fun x s0 =>
    if x.e = 0 then .done s0
    else
      let l := lowestLane x.e
      let vf := s0.vfOf x.w
      let ea := s0.addrBase x w.a l
      let half := fun (ea : DWord) => ({ lane := l, ea, size := 64, kind := AccKind.load, align := 64, cap := none, paths := [0, 2] } : Req)
      s0.access x [half ea, half (ea + 64)] (fun ps s =>
        s.consume x ps 64 AccKind.load (fun s =>
          let (bs, t0, t1, s1) := s.launchBytes (.lane x.w l) (ps.map (fun p => p.loc))
          let here := (s1.launchOf x.w).phase
          if !s1.completionOk vf bs then .done ((s1.countReject vf).put x w.d false tagN32 (fun _ => 0))
          else
            let (n, reason) := s1.readRecord vf bs (.program here)
            let s1 := s1.recordReads vf bs n.code
            if reason != 0 then .done ((s1.rejectRecord vf n reason).put x w.d false tagN32 (fun _ => 0))
            else if 1024 ≤ s1.inFlight n.die n.part then .held (.launchLimit n.die n.part) s
            else
              let (start, s1) := s1.releaseLanesView x.w x.e
              let (lid, s1) := s1.startLaunch { n with k0tag := n.k0tag && t0, k1tag := n.k1tag && t1 } start
              .done (s1.put x w.d false tagN32 (fun _ => lid)))))

/-- LAUNCH_LIMIT_RESUME (15 R388). -/
def execLaunchLimitResume (s : State) : Host.Outcome State Fault Refusal :=
  let w := s.occ.a
  match s.waitOf w s.occ.b with
  | some (.hold (.launchLimit d e)) =>
    if s.awake w && s.inFlight d e < 1024 then .next (s.endHold w (s.waiters w s.occ.b)) else .refused (.notEnabled "LAUNCH_LIMIT_RESUME")
  | _ => .refused (.notEnabled "LAUNCH_LIMIT_RESUME")

/-- Whether a level and id are named rightly (15 R389). -/
def levelBad (level id : Nat) : Bool := level = 0 || 4 < level || (level != 2 && id != 0)

/-- The launch in flight that an id names for a wave; 0 names its own (15 R389). -/
def State.levelLaunch (s : State) (w id : Nat) : Option Nat :=
  if id = 0 then some (s.unit (s.wave w).unit).launch
  else (s.launches.find? (fun p => p.2.vf = s.vfOf w && p.2.lid = id && !p.2.complete)).map (·.1)

/-- CANCEL (15 R389; 06 R149). -/
def execCancel (w : Full) (s : State) : Host.Outcome State Fault Refusal :=
  s.perform (.cancel w) (headF w [(w.a, 1), (w.b, 1)] true) (fun x s =>
    if x.e = 0 then .done s
    else
      let l := lowestLane x.e
      let level := s.srcU x w.a 32 l
      let id := s.srcU x w.b 32 l
      let vf := s.vfOf x.w
      if levelBad level id then .fault Code.illop l 0xF 0 s
      else if level = 1 then .done (s.cancelUnit x.wave.unit 1)
      else if level = 2 then .done ((s.levelLaunch x.w id).elim s (fun n => s.cancelLaunch n 2))
      else if level = 3 then .done (if (s.launchOf x.w).graphNode.isSome then s.cancelGraph vf 3 else s)
      else .done (s.cancelPhase vf))

/-- A level's counter (06 R148; 15 R389). -/
def State.levelCount (s : State) (w level id : Nat) : Nat :=
  let vf := s.vfOf w
  if level = 1 then ((s.unit (s.wave w).unit).waves.filter (fun y => !(s.wave y).exited)).length
  else if level = 2 then (s.levelLaunch w id).elim 0 (fun n => (s.launch n).counter)
  else if level = 3 then
    if (s.launchOf w).graphNode.isSome then ((s.ctx vf).graph.map (fun g => g.counter)).getD 0 else 0
  else (s.ctx vf).phaseCnt

/-- LVLCNT (15 R389). -/
def execLvlcnt (w : Full) (s : State) : Host.Outcome State Fault Refusal :=
  s.perform (.lvlcnt w) (headF w [(w.d, 1), (w.a, 1), (w.b, 1)] (perWave w.d)) (fun x s =>
    if x.e = 0 then .done s
    else
      let l := lowestLane x.e
      let level := s.srcU x w.a 32 l
      let id := s.srcU x w.b 32 l
      if levelBad level id then .fault Code.illop l 0xF 0 s
      else .done (s.put x w.d false tagN32 (fun _ => s.levelCount x.w level id)))

/-- CANCEL_RETIRE (06 R149): a word that lanes are between the steps of takes its full effect first (03 R82). -/
def execCancelRetire (s : State) : Host.Outcome State Fault Refusal :=
  if s.retires s.occ.a && !s.midSteps s.occ.a then .next (s.retireWave s.occ.a) else .refused (.notEnabled "CANCEL_RETIRE")

end Sys2Proof.Machine
end

