-- ==== Sys2Proof/Machine/Handler.lean ====
section
/-! DEFINITION. The Newel slot and its handler, the handler window, status registers, time and counters
(09 R219-R224, R227; 15 R390-R396). -/
namespace Sys2Proof.Machine

/-! Status registers, time and counters. -/

/-- SRD (15 R393). -/
def execSrd (w : Full) (s : State) : Host.Outcome State Fault Refusal :=
  s.perform (.srd w) (headF w [(w.d, 1)] (perWave w.d)) (fun x s =>
    .done (s.put x w.d false tagN32 (fun _ => (s.readStatus x.w (litOf w.c)).toNat)))

/-- SWR (15 R390, R393). -/
def execSwr (w : Full) (s : State) : Host.Outcome State Fault Refusal :=
  s.perform (.swr w) (headF w [(w.a, 1)] true) (fun x s =>
    if x.e = 0 then .done s
    else match s.writeStatus x.w (litOf w.c) (BitVec.ofNat 32 (s.srcU x w.a 32 (lowestLane x.e))) with
      | .error c => .fault c (lowestLane x.e) 0xF 0 s
      | .ok s => .done s)

/-- TIMENS (15 R394; 22 R427). -/
def execTimens (w : Full) (s : State) : Host.Outcome State Fault Refusal :=
  s.perform (.timens w) (headF w [(w.d, 2)] (perWave w.d)) (fun x s =>
    if x.e = 0 then .done s
    else
      let (t, s) := s.readTime (s.vfOf x.w)
      .done (s.put x w.d true tagN64 (fun _ => t.toNat)))

/-- CYCLES (15 R394). -/
def execCycles (w : Full) (s : State) : Host.Outcome State Fault Refusal :=
  s.perform (.cycles w) (headF w [(w.d, 2)] (perWave w.d)) (fun x s =>
    .done (s.put x w.d true tagN64 (fun _ => (s.core x.wave.core).cycles)))

/-- The counters of 15 R395. -/
def State.perf (s : State) (w n : Nat) : Nat :=
  let v := s.wave w
  let u := s.unit v.unit
  match n with
  | 0 => v.wwords
  | 1 => v.wopp
  | 2 => v.wstall
  | 3 => v.wtile
  | 4 => v.wblock
  | 5 => v.wcand
  | 6 => v.wtlb
  | 7 => u.umma
  | 8 => u.ueng
  | 9 => u.ucurr
  | _ => 0

/-- PERFRD (15 R395). -/
def execPerfrd (w : Full) (s : State) : Host.Outcome State Fault Refusal :=
  s.perform (.perfrd w) (headF w [(w.d, 2), (w.a, 1)] (perWave w.d)) (fun x s =>
    if x.e = 0 then .done s
    else
      let n := s.srcU x w.a 32 (lowestLane x.e) % 256
      .done (s.put x w.d true tagN64 (fun _ => s.perf x.w n)))

/-! The handler window (09 R221, R222). -/

/-- The words of a trap record, in the order s0 to s9 (09 R220). -/
def trapWords (t : TrapRec) (w : Nat) : List Word :=
  [BitVec.ofNat 32 (t.code + 256 * t.cls), BitVec.ofNat 32 (t.lane + 256 * t.access), loWord t.pc, hiWord t.pc, loWord t.nextpc, hiWord t.nextpc,
   loWord t.ea, hiWord t.ea, t.group, waveHandle w]

/-- An entry of the window: per lane or one word, and writable or not. -/
inductive WinEntry where
  | s (n : Nat)
  | baseLo (n : Nat)
  | baseHi (n : Nat)
  | stride (n : Nat)
  | v (n : Nat)
  | tag (n : Nat)
  | live
  | m (n : Nat)
  | pcLo
  | pcHi
  | waiting
  | lc (n : Nat)
  | flags
  | status (n : Nat)
  | capTags
  | landing
  | trap (n : Nat)
deriving DecidableEq, Repr

/-- The entry at an index, within the handled wave's declared counts (09 R221, R222). -/
def winEntry (f : Foot) (i : Nat) : Option WinEntry :=
  if i < 0x40 then (if i < f.sregs then some (.s i) else none)
  else if i < 0x60 then (if i - 0x40 < f.aregs then some (.baseLo (i - 0x40)) else none)
  else if i < 0x80 then (if i - 0x60 < f.aregs then some (.baseHi (i - 0x60)) else none)
  else if i < 0xA0 then (if i - 0x80 < f.aregs then some (.stride (i - 0x80)) else none)
  else if i < 0x100 then none
  else if i < 0x200 then (if i - 0x100 < f.vregs then some (.v (i - 0x100)) else none)
  else if i < 0x300 then (if i - 0x200 < f.vregs then some (.tag (i - 0x200)) else none)
  else if i = 0x300 then some .live
  else if i < 0x308 then some (.m (i - 0x300))
  else if i = 0x308 then some .pcLo
  else if i = 0x309 then some .pcHi
  else if i = 0x30A then some .waiting
  else if 0x310 ≤ i && i ≤ 0x312 then some (.lc (i - 0x310))
  else if i = 0x318 then some .flags
  else if 0x320 ≤ i && i ≤ 0x326 then some (.status (i - 0x320))
  else if i = 0x330 then some .capTags
  else if i = 0x338 then some .landing
  else if 0x340 ≤ i && i ≤ 0x349 then some (.trap (i - 0x340))
  else none

/-- Entries of the varying class (09 R221). -/
def WinEntry.varying : WinEntry → Bool
  | .v _ => true
  | .pcLo => true
  | .pcHi => true
  | _ => false

/-- Entries that may not be written (09 R221). -/
def WinEntry.readOnly : WinEntry → Bool
  | .live => true
  | .waiting => true
  | .capTags => true
  | .landing => true
  | .trap _ => true
  | .status n => n = 5
  | _ => false

/-- Landing slot states, two bits each (09 R221). -/
def Wave.landingWord (v : Wave) : Nat :=
  (List.range 8).foldl (fun n k => n + 4 ^ k * (match (tget Landing.init v.landing k).state with
    | .empty => 0
    | .pending => 1
    | .full => 2)) 0

/-- A window entry's word for a lane (09 R221, R222). -/
def State.winRead (s : State) (h : Nat) (e : WinEntry) (l : Nat) : Word :=
  let v := s.wave h
  match e with
  | .s n => v.rs n
  | .baseLo n => loWord (v.ra n).base
  | .baseHi n => hiWord (v.ra n).base
  | .stride n => (v.ra n).stride
  | .v n => v.rv n l
  | .tag n => BitVec.ofNat 32 (v.rtag n)
  | .live => v.live
  | .m n => tget 0 v.masks n
  | .pcLo => loWord (v.lane l).pc
  | .pcHi => hiWord (v.lane l).pc
  | .waiting => maskWhere (fun k => v.live.getLsbD k && s.laneWaits h k)
  | .lc n => v.rlc n
  | .flags => BitVec.ofNat 32 ((List.range 12).foldl (fun n i => if tget 0 v.flags i != 0 then n + 2 ^ i else n) 0)
  | .status n => s.readStatus h n
  | .capTags => BitVec.ofNat 32 ((List.range 16).foldl (fun n i => if v.rktag i then n + 2 ^ i else n) 0)
  | .landing => BitVec.ofNat 32 v.landingWord
  | .trap n => ((v.trap.map (fun t => trapWords t h)).getD []).getD n 0

/-- A lane whose PC a handler changes: in a module it may stand at any record (12 R291), its word there is a first try (15 R379), and it waits
for nothing any more (09 R223; 13 R336; log 69). -/
def Lane.moveTo (y : Lane) (pc : DWord) : Lane := { y with pc, enter := y.enter && y.modBase.isNone, again := false, pass := false, wait := none }

/-- A wait of several lanes without one of them. -/
def Wait.without (l : Nat) : Wait → Wait
  | .mwait e d since ea loc tol c => .mwait (e &&& ~~~laneBit l) d since ea loc tol c
  | .joinW e d ea loc => .joinW (e &&& ~~~laneBit l) d ea loc
  | .abar e loc p => .abar (e &&& ~~~laneBit l) loc p
  | .tlge e ctx x => .tlge (e &&& ~~~laneBit l) ctx x
  | y => y

/-- What a lane leaves with its wait: an arrival barrier no longer counts an instruction that no lane waits in (14 R368), and a matrix
operation leaves the gang latch and issues again (15 R380). -/
def State.unwait (s : State) (h : Nat) (y : Wait) (alone : Bool) : State :=
  match y with
  | .abar _ loc _ => if alone then s.abarWaiters loc (2 ^ 16 - 1) else s
  | .hold .gangLatch =>
    (s.modUnit (s.wave h).unit (fun x => { x with latch := x.latch.filter (fun k => k.wave != h) })).modWave h (fun v =>
      v.modLanes v.live (fun l => if l.wait = some (.hold .gangLatch) then { l with wait := none } else l))
  | _ => s

/-- A PC that a handler writes for a lane of the handled wave, at which the lane goes on after TRESUME; a lane that keeps its PC keeps its wait
(09 R222, R223; 13 R336; log 69). -/
def State.movePc (s : State) (h l : Nat) (pc : DWord) : State :=
  let y := (s.wave h).lane l
  if y.pc = pc then s
  else match y.wait with
    | none => s.modWave h (fun v => v.modLane l (fun y => y.moveTo pc))
    | some t =>
      let m := s.waiters h l
      let s := s.modWave h (fun v =>
        { (v.modLanes m (fun k => { k with wait := some (t.without l) })).modLane l (fun y => y.moveTo pc) with
          remoteOk := v.remoteOk &&& ~~~laneBit l, remoteBad := v.remoteBad &&& ~~~laneBit l })
      s.unwait h t (m = laneBit l)

/-- A window entry written for some lanes, or the fault the write is refused with (09 R222). -/
def State.winWrite (s : State) (h : Nat) (e : WinEntry) (lanes : Mask) (f : Nat → Word) : Except Code State :=
  let one := f (lowestLane lanes)
  let on := fun (g : Wave → Wave) => Except.ok (s.modWave h g)
  match e with
  | .s n => on (fun v => v.ws n one)
  | .baseLo n => on (fun v => v.wa n { v.ra n with base := pairOf one (hiWord (v.ra n).base) })
  | .baseHi n => on (fun v => v.wa n { v.ra n with base := pairOf (loWord (v.ra n).base) one })
  | .stride n => on (fun v => v.wa n { v.ra n with stride := one })
  | .v n => on (fun v => (lanesOf lanes).foldl (fun (v : Wave) l => v.wv n l (f l)) v)
  | .tag n => on (fun v => v.wtag n (bits one.toNat 4 0))
  | .m n => on (fun v => { v with masks := tset 0 v.masks n one })
  | .pcLo => .ok ((lanesOf lanes).foldl (fun s l => s.movePc h l (pairOf (f l) (hiWord ((s.wave h).lane l).pc))) s)
  | .pcHi => .ok ((lanesOf lanes).foldl (fun s l => s.movePc h l (pairOf (loWord ((s.wave h).lane l).pc) (f l))) s)
  | .lc n => on (fun v => v.wlc n one)
  | .flags => on (fun v => { v with flags := (List.range 12).foldl (fun m i => tset 0 m i (bits one.toNat i i)) v.flags })
  | .status n => s.writeStatus h n one
  | _ => .error Code.regidx

/-- What a window instruction names: the handled wave and the entry, or REGIDX (09 R222). -/
def State.winNamed (s : State) (x : Iss) (idx : Opnd) (k : Nat → WinEntry → Res) : Res :=
  match x.wave.handles with
  | none => x.fail Code.illop s
  | some h =>
    match winEntry (s.footOf h) (s.srcU x idx 32 x.lane0 % 65536) with
    | none => x.fail Code.regidx s
    | some e => k h e

/-- WINRD (15 R396; 09 R221, R222). -/
def execWinrd (w : Full) (s : State) : Host.Outcome State Fault Refusal :=
  s.perform (.winrd w) (headF w [(w.d, 1), (w.a, 1)] false).handlerOnly (fun x s =>
    s.winNamed x w.a (fun h e =>
      if e.varying && !isVarying w.d then x.fail Code.regidx s
      else if perWave w.d && x.diverges then x.fail Code.udiverge s
      else .done (s.put x w.d false tagN32 (fun l => (s.winRead h e l).toNat))))

/-- WINWR (15 R396; 09 R221, R222). -/
def execWinwr (w : Full) (s : State) : Host.Outcome State Fault Refusal :=
  s.perform (.winwr w) (headF w [(w.a, 1), (w.b, 1)] false).handlerOnly (fun x s =>
    s.winNamed x w.a (fun h e =>
      if e.readOnly || (!e.varying && isVarying w.b) then x.fail Code.regidx s
      else if !e.varying && x.diverges then x.fail Code.udiverge s
      else if x.e = 0 then .done s
      else match s.winWrite h e x.e (fun l => BitVec.ofNat 32 (s.srcU x w.b 32 l)) with
        | .error c => .fault c (lowestLane x.e) 0xF 0 s
        | .ok s => .done s))

/-- Lanes whose PC the handler moved out of their clause go on at a clause header (09 R222, R223; log 19). -/
def Wave.replaced (v : Wave) : Wave :=
  v.modLanes v.live (fun l => match l.clause with
    | some (b, h) =>
      if b.toNat + 8 ≤ l.pc.toNat && l.pc.toNat ≤ b.toNat + 8 * clauseLen h && (l.pc.toNat - b.toNat) % 8 = 0 then l
      else { l with clause := none }
    | none => l)

/-- TRESUME, THE RETURN FROM A TRAP (09 R223). -/
def execTresume (w : Full) (s : State) : Host.Outcome State Fault Refusal :=
  s.perform (.tresume w) (headF w [] true).handlerOnly (fun x s =>
    match x.wave.handles with
    | none => .done s
    | some h => .moved ((s.endHandler x.w .resume).modWave h Wave.replaced))

/-- TKILL (09 R223). -/
def execTkill (w : Full) (s : State) : Host.Outcome State Fault Refusal :=
  s.perform (.tkill w) (headF w [] true).handlerOnly (fun x s => .moved (s.endHandler x.w .kill))

/-- TESCAL (09 R223): the record takes the handled wave's fault code. -/
def execTescal (w : Full) (s : State) : Host.Outcome State Fault Refusal :=
  s.perform (.tescal w) (headF w [] true).handlerOnly (fun x s =>
    .moved (s.endHandler x.w (.escal ((x.wave.handles.bind (fun h => (s.wave h).trap.map (·.code))).getD 0))))

/-! The Newel slot (09 R219, R220). -/

/-- The padding mask of a unit's waves (06 R162; 08 R205). -/
def State.padMask (s : State) (u : Nat) : Mask :=
  let x := s.unit u
  let n := s.launch x.launch
  match x.child, n.padDim with
  | none, some (d, span) =>
    let c := if d = 0 then x.x else if d = 1 then x.y else x.z
    let sh := if d = 0 then n.sh0 else if d = 1 then n.sh1 else n.sh2
    maskWhere (fun l => c * span + l % span < sh.toNat)
  | _, _ => 0xFFFFFFFF

/-- The lanes of a stopped wave stand at their next body words or records (06 R151; 09 R218; 12 R289, R291). -/
def State.bodyPcs (s : State) (w : Nat) : State :=
  s.modWave w (fun v => v.modLanes v.live (fun l => if l.wait.isSome then l else s.entered w l))

/-- The trapped wave whose handler starts next: the oldest on its core (09 R219). One that a debugger has stopped is the debugger's (log 66). -/
def State.nextTrapped (s : State) (core : Nat) : Option Nat :=
  (s.core core).newelQueue.find? (fun w => (s.wave w).trapState = .trapped && !(s.wave w).debug && (s.unit (s.wave w).unit).resident)

/-- HANDLER_START: TAKING A TRAP IN THE NEWEL SLOT (09 R219, R220), once no other word of the wave is between its lanes' steps (03 R82). The
handler's lanes hold what their launch's lanes acquired at its start. -/
def execHandlerStart (s : State) : Host.Outcome State Fault Refusal :=
  let core := s.occ.a
  match (s.core core).newel, s.nextTrapped core with
  | none, some w =>
    if s.readCancel w != 0 || !(s.wave w).steps.isEmpty || !s.clusterRuns (clusterOf core) then .refused (.notEnabled "HANDLER_START")
    else
      let v := s.wave w
      let n := s.launchOf w
      let (h, s) := s.newId
      let s := s.bodyPcs w
      let hv := startWave v.unit v.idx core v.slot n.trapBase (s.padMask v.unit) n.start false
      let hv := ((List.range 10).zip ((v.trap.map (fun t => trapWords t w)).getD [])).foldl (fun (y : Wave) p => y.ws p.1 p.2) hv
      let s := s.setWave h { hv with handles := some w, sb := v.sb }
      let s := s.modWave w (fun v => { v with trapState := .handled, handler := some h })
      .next (s.modCore core (fun c => { c with newel := some h, newelQueue := c.newelQueue.filter (· != w) }))
  | _, _ => .refused (.notEnabled "HANDLER_START")

/-- The address after the word at which a lane stands (09 R220). -/
def State.nextAfter (s : State) (w l : Nat) : DWord :=
  let y := (s.wave w).lane l
  match (s.fetchFor w (laneBit l) y).1 with
  | .word c _ => c.next
  | .fault _ _ _ _ n => n
  | .xlate _ _ _ _ n => n

/-- STORAGE_TRAP (09 R227): the imprecise trap at a word boundary of a wave in SIMT mode. -/
def execStorageTrap (s : State) : Host.Outcome State Fault Refusal :=
  let w := s.occ.a
  let v := s.wave w
  if v.storageTrap && v.trapState = .running && !v.exited && v.cand.isNone && v.park.isNone && v.steps.isEmpty && (s.unit v.unit).resident && s.cur.isNone then
    let s := s.bodyPcs w
    let v := s.wave w
    let low := (lanesOf v.live).foldl (fun b l => if (v.lane l).pc.toNat < (v.lane b).pc.toNat then l else b) (lowestLane v.live)
    let t : TrapRec := { code := Code.storage, cls := 3, lane := 0, access := 9, pc := (v.lane low).pc, nextpc := s.nextAfter w low, ea := 0, group := 0 }
    .next ((s.modWave w (fun v => { v with storageTrap := false })).takeFault w t)
  else .refused (.notEnabled "STORAGE_TRAP")

/-- XLATE_RECORD_POST (09 R226): room has appeared for the oldest record that waits. -/
def execXlateRecordPost (s : State) : Host.Outcome State Fault Refusal :=
  let vf := s.occ.a
  let c := s.ctx vf
  match c.fwaiting with
  | r :: rest =>
    if c.mgmt.fqsize != 0 && !c.queueFull then .next ((s.setCtx vf { c with fwaiting := rest }).appendFault vf r)
    else .refused (.notEnabled "XLATE_RECORD_POST")
  | [] => .refused (.notEnabled "XLATE_RECORD_POST")

end Sys2Proof.Machine
end

