-- ==== Sys2Proof/Machine/Sched.lean ====
section
/-! DEFINITION. The dispatch hardware: bind records, placement, eviction and restore, lending, slices, and the heartbeat
(08 R197-R203, R209-R215; 07 R186; 09 R224, R229, R231; 10 R258; 15 R375; 02 R68-R70, R73). -/
namespace Sys2Proof.Machine

/-! Commit (08 R197-R199). -/

/-- The launch in flight that a handle names on a die (08 R198). -/
def State.launchOn (s : State) (die h : Nat) : Option Nat :=
  (s.launches.find? (fun p => !p.2.complete && p.2.die = die && p.2.handle = h)).map (·.1)

/-- Resources held by the units that run on a core (08 R199). -/
def State.residentSpans (s : State) (core : Nat) : List Span :=
  (s.units.filter (fun p => p.2.core = core && p.2.resident && !p.2.ended)).filterMap (fun p => p.2.span)

/-- The unit that an OP 3 record names: resident, by its cluster, core and first wave slot (08 R200). -/
def State.namedUnit (s : State) (die : Nat) (r : BindRec) : Option Nat :=
  (s.units.find? (fun p => p.2.core = r.coreOn die && p.2.wslot = r.wslot && p.2.resident && !p.2.ended && p.2.saved.isNone)).map (·.1)

/-- Waves and footprint by which a record is checked: those of what it places, or of the unit that it names (08 R199). -/
def State.checkShape (s : State) (die : Nat) (r : BindRec) (n : Nat) : Nat × Foot :=
  match if r.op = 3 then s.namedUnit die r else none with
  | some u => ((s.unit u).waves.length, (s.unit u).foot)
  | none => s.bindShape r n

/-- Whether a partition owns a cluster, lent or not, or borrows it and no reclaim has come (08 R199, R203, R215). -/
def State.mayName (s : State) (k part : Nat) : Bool :=
  s.ownPart k = some part || (s.partAt k = some part && (s.cluster k).reclaiming.isNone)

/-- The checks of 08 R199 on one record of a group, as its member number j. What an OP 3 record names is held by the unit itself. -/
def State.recordOk (s : State) (die leader j : Nat) (lead r : BindRec) (n : Nat) : Bool :=
  let l := s.launch n
  let (w, f) := s.checkShape die r n
  let sp := r.span die w f
  r.op = lead.op && r.launch = lead.launch && r.reservedZero && r.cluster = lead.cluster && r.cluster < 64 && r.core < 4 &&
  (lead.members = 1 || (r.core = j && (j = 0 || r.members = 0))) &&
  l.die = die && s.mayName (64 * die + r.cluster) l.part && (r.op = 2 || r.save = 0) &&
  w + r.wslot ≤ 16 && 8 * r.pregs ≤ f.vregs && r.vbase + w * r.pregs ≤ 256 && r.scrbase + f.scratch ≤ 512 && r.tbase + f.tiles ≤ 64 &&
  (r.op = 3 || (!(s.bindSpans die leader).any sp.overlaps && !(s.residentSpans sp.core).any sp.overlaps))

/-- The checks on what a leading record places (08 R199; 06 R150): a launch in cluster groups is placed by whole groups. A COUNT of 0, of
which the rule's formula says nothing, is refused (log 65). -/
def State.leaderOk (s : State) (r : BindRec) (n : Nat) : Bool :=
  let l := s.launch n
  let total := l.ux * l.uy * l.uz
  let g := max 1 l.group
  r.op != 1 || (1 ≤ r.count && r.first + (r.count - 1) * r.step < total && r.first % g = 0 && (r.count = 1 || r.step % g = 0) &&
    (r.members = g || (r.count = 1 && r.first + r.members = total && r.members < g && r.core = 0)))

/-- The launch of a record that passes 08 R199 with its group. -/
def State.bindPasses (s : State) (die i : Nat) : Option Nat :=
  let d := s.die die
  let r := d.bindRec i
  let grp := d.bindGroup i
  match s.launchOn die r.launch with
  | none => none
  | some n =>
    if i + grp.length ≤ 4096 && grp.all (fun p => (tfind? d.binds p.1).isNone) && 1 ≤ r.op && r.op ≤ 3 && 1 ≤ r.members && r.members ≤ 4 &&
        ((List.range grp.length).zip grp).all (fun p => s.recordOk die i p.1 r p.2.2 n) && s.leaderOk r n then some n
    else none

/-- SLOTCOMMIT (08 R197, R199): a rejected group's records lose their OP, and REJECTCNT counts one. -/
def State.slotCommit (s : State) (die i : Nat) : State :=
  let grp := (s.die die).bindGroup i
  match s.bindPasses die i with
  | some n => s.modDie die (fun d => { d with binds := grp.foldl (fun m p => tins m p.1 { launch := n, done := 0, unit := none, leader := i }) d.binds })
  | none => s.modDie die (fun d => { d with
      rejectCnt := d.rejectCnt + 1
      slotTable := grp.foldl (fun m p => if 4096 ≤ p.1 || (tfind? d.binds p.1).isSome then m else tset 0 m (32 * p.1 + 2) 0) d.slotTable })

/-- SLOTCOMMIT (08 R197): no firmware commits while its core is in reset (08 R201). -/
def execSlotcommit (s : State) : Host.Outcome State Fault Refusal :=
  if s.occ.a < 4 && !(s.die s.occ.a).schedDown then .next (s.slotCommit s.occ.a s.occ.b) else .refused (.notEnabled "SLOTCOMMIT")

/-! Placement (08 R200; 06 R150, R167; 01 R38). -/

/-- The records of a leader cleared (08 R200). -/
def State.clearGroup (s : State) (die i : Nat) : State := ((s.die die).bindGroup i).foldl (fun s p => s.clearBind die p.1) s

/-- Whether a record's core is its launch's, and takes work (08 R203; 20 R406), or owes the record its placement (08 R215). -/
def State.placeOpen (s : State) (die i : Nat) (b : Bind) (r : BindRec) : Bool :=
  let core := r.coreOn die
  let vf := (s.launch b.launch).vf
  s.partAt (clusterOf core) = some (s.launch b.launch).part &&
  (s.takesWork core vf || (s.coreFor core vf && !s.sliceOver core && (s.cluster (clusterOf core)).reclaiming.isSome && s.owes die i b))

/-- BIND_RECORD_RUN (08 R200): a placed unit has exited, the record has run its course, or its cores must pass to its context (02 R73). -/
def execBindRecordRun (s : State) : Host.Outcome State Fault Refusal :=
  let die := s.occ.a
  let i := s.occ.b
  let grp := (s.die die).bindGroup i
  let r := (s.die die).bindRec i
  match tfind? (s.die die).binds i with
  | none => .refused (.notEnabled "BIND_RECORD_RUN")
  | some b =>
    let l := s.launch b.launch
    let stale := grp.filter (fun p => s.partAt (64 * die + p.2.cluster) = some l.part && s.vfAt (p.2.coreOn die) = some l.vf &&
      (s.core (p.2.coreOn die)).ctx.any (· != l.vf) && (s.core (p.2.coreOn die)).scrub.isNone && s.coreIdle (p.2.coreOn die))
    if b.leader != i || r.op = 3 then .refused (.notEnabled "BIND_RECORD_RUN")
    else if l.complete || l.cancelled then .next (s.clearGroup die i)
    else match b.unit with
      | some u =>
        if (s.mates u).all (fun y => (s.unit y).ended) then
          if b.done = r.count then .next (s.clearGroup die i)
          else .next (s.modDie die (fun d => { d with binds := tins d.binds i { b with unit := none } }))
        else .refused (.notEnabled "BIND_RECORD_RUN")
      | none =>
        if r.op = 1 && b.done = r.count then .next (s.clearGroup die i)
        else if stale.isEmpty then .refused (.notEnabled "BIND_RECORD_RUN")
        else .next (stale.foldl (fun s p => (s.departCore (p.2.coreOn die)).claimCore (p.2.coreOn die) l.vf) s)

/-- A unit and its group told to stop, by a time if one is given (08 R203, R209, R211, R215). -/
def State.stopUnits (s : State) (us : List Nat) (deadline : Option Nat) (sliced : Bool) : State :=
  (us.flatMap s.mates).eraseDups.foldl (fun s u =>
    let x := s.unit u
    if x.released || x.saved.isSome then s
    else s.setUnit u { x with
      stopping := true, sliced := x.sliced || sliced
      stopDeadline := match x.stopDeadline, deadline with
        | some a, some b => some (min a b)
        | a, none => a
        | none, b => b }) s

/-- Units placed or restored on a cluster whose reclaim has come stop as the others there (08 R203, R215). -/
def State.stopPlaced (s : State) (us : List Nat) : State :=
  us.foldl (fun s u => match (s.cluster (clusterOf (s.unit u).core)).reclaiming with
    | none => s
    | some t => s.stopUnits [u] (some t) false) s

/-- k0 and k1 of a launched wave (01 R38). -/
def Launch.rootCaps (l : Launch) (v : Wave) : Wave := (v.wk 0 l.k0 l.k0tag).wk 1 l.k1 l.k1tag

/-- A unit of a launch placed at a record's resources (06 R150, R167): its waves have acquired what the launch releases to them, and,
in a node launch, the set of the unit's own record (03 R98; 15 R387). The system fence set was taken when the launch started (log 78). -/
def State.placeUnit (s : State) (die : Nat) (r : BindRec) (n idx : Nat) (group : Option (Nat × Nat)) (size : Nat) : Nat × State :=
  let l := s.launch n
  let (u, s) := s.newId
  let x := idx % max 1 l.ux
  let y := idx / max 1 l.ux % max 1 l.uy
  let z := idx / max 1 (l.ux * l.uy)
  let core := r.coreOn die
  let ws := (List.range l.waves).map (fun i => s.nextId + i)
  let s := { s with nextId := s.nextId + l.waves }
  let s := s.setUnit u { UnitSt.blank with
    launch := n, vf := l.vf, x, y, z, index := idx, waves := ws, foot := l.foot, core, wslot := r.wslot, vbase := r.vbase, pregs := r.pregs
    scrbase := r.scrbase, tbase := r.tbase, resident := true, group, groupSize := size, record := some (die, idx), ended := false, released := false }
  let start := match l.graphNode, l.batch with
    | some node, some (_, first) => vmerge l.start (s.rel (.record l.vf node ((first + idx) % 2 ^ 32)))
    | _, _ => l.start
  let m7 := s.padMask u
  let s := ((List.range l.waves).zip ws).foldl (fun s (p : Nat × Nat) =>
    s.setWave p.2 (l.rootCaps (startWave u p.1 core (r.wslot + p.1) l.code m7 start false))) s
  let s := s.modCore core (fun c => { c with ctx := some l.vf, away := false })
  (u, (s.leftover u).modLaunch n (fun l => { l with placed := l.placed + 1 }))

/-- UNIT_PLACE (08 R200; 06 R150): all members of a group at once, on cores 0 to g - 1. -/
def execUnitPlace (s : State) : Host.Outcome State Fault Refusal :=
  let die := s.occ.a
  let i := s.occ.b
  let r := (s.die die).bindRec i
  match tfind? (s.die die).binds i with
  | none => .refused (.notEnabled "UNIT_PLACE")
  | some b =>
    let l := s.launch b.launch
    let first := r.first + b.done * r.step
    let total := l.ux * l.uy * l.uz
    let grp := ((s.die die).bindGroup i).take (total - first)
    let free := grp.all (fun p => s.placeOpen die i b p.2 &&
      !(s.unitSpans (p.2.coreOn die)).any (fun y => y.overlaps (p.2.span die l.waves l.foot)))
    if b.leader = i && r.op = 1 && b.unit.isNone && b.done < r.count && !l.complete && !l.cancelled && first < total && free then
      let (g, s) := if l.group ≤ 1 then (0, s) else s.newId
      let (us, s) := ((List.range grp.length).zip grp).foldl (fun (acc : List Nat × State) p =>
        let (u, s) := acc.2.placeUnit die p.2.2 b.launch (first + p.1) (if l.group ≤ 1 then none else some (g, p.1)) (if l.group ≤ 1 then 0 else grp.length)
        (acc.1 ++ [u], s)) ([], s)
      let s := s.modDie die (fun d => { d with binds := tins d.binds i { b with done := b.done + 1, unit := us.head? } })
      .next ((s.stopPlaced us).checkStore b.launch)
    else .refused (.notEnabled "UNIT_PLACE")

/-! Eviction (08 R203, R209-R213, R215). -/

/-- Whether every wave of a unit's group stands at a live site or has exited, at a slice end (08 R211). -/
def State.allLive (s : State) (u : Nat) : Bool :=
  (s.unit u).sliced && (s.mates u).all (fun y => (s.unit y).waves.all (fun w => (s.wave w).exited || s.atLiveSite w))

/-- A unit's waves and the handlers of those that are handled. -/
def State.wavesAndHandlers (s : State) (u : Nat) : List Nat :=
  (s.unit u).waves.flatMap (fun w => w :: (s.wave w).handler.toList)

/-- Whether a unit that is to stop may be saved now: at blocking points, at live sites, or at its time, between body words
(08 R203, R209, R211). -/
def State.stopsNow (s : State) (u : Nat) : Bool :=
  let x := s.unit u
  x.stopping && !x.released && x.saved.isNone && (s.mates u).all (fun y => (s.wavesAndHandlers y).all (fun w => (s.wave w).steps.isEmpty)) &&
  (x.stopDeadline.any (· ≤ s.pkg.ticks) || s.allLive u || (s.mates u).all (fun y => (s.unit y).waves.all s.atBlocking))

/-- What a saved wave keeps: clause flags are 0 (12 R273), and a suspended run holds no translations (09 R229). -/
def Wave.saved (v : Wave) : Wave :=
  { v with resident := false, flags := [], cand := v.cand.map (fun c => { c with exLocs := [], outLocs := [] }) }

/-- A unit comes to rest to be saved (03 R99; 04 R124): its queues drain, and its operations suspend. -/
def State.quiesce (s : State) (u : Nat) : State :=
  let s := (s.wavesAndHandlers u).foldl (fun s w => (s.drainWave w).2) s
  (List.range 8).foldl (fun s e => s.suspendOp u e) s

/-- A unit at rest is saved (08 R209-R213; 15 R375), and leaves its core. A child saved in a wait of its first word is saved as a wave, and
its frame is no longer pending (07 R183; log 65). -/
def State.saveUnit (s : State) (u : Nat) (live : Bool) : State :=
  let ws := s.wavesAndHandlers u
  let s := ws.foldl State.beginChild s
  let s := if live then s.keepLive u else s
  let s := ws.foldl (fun s w => s.dropReservation w) s
  let x := s.unit u
  let c := s.core x.core
  let s := s.setCore x.core { c with
    owner := if c.owner = some u then none else c.owner, mowners := c.mowners.filter (· != u)
    newelQueue := c.newelQueue.filter (fun w => !ws.contains w), newel := c.newel.filter (fun h => !ws.contains h) }
  let s := s.setUnit u { x with
    resident := false, stopping := false, sliced := false, stopDeadline := none, restoring := false
    ownsSaved := c.owner = some u || x.restoring, saved := some (if live then .live else .full) }
  ws.foldl (fun s w => s.modWave w Wave.saved) s

/-- What bind records say of units that have left: a run record's placement is free again, an evict record is done (08 R200). -/
def State.unbindUnits (s : State) (us : List Nat) : State :=
  s.dies.foldl (fun s (d : Nat × DieSt) => d.2.binds.foldl (fun s (b : Nat × Bind) =>
    match b.2.unit with
    | none => s
    | some u =>
      if !us.contains u then s
      else if ((s.die d.1).bindRec b.1).op = 3 then s.clearBind d.1 b.1
      else s.modDie d.1 (fun d => { d with binds := tins d.binds b.1 { b.2 with unit := none } })) s) s

/-- What a unit that a cancel has retired still performs ends with its eviction: nothing of it is saved (08 R215; 04 R124). -/
def State.endStopped (s : State) (u : Nat) : State :=
  (List.range 8).foldl (fun s e => if ((s.unit u).headOp e).any (·.stops) then s.abandonAll u e else s) s

/-- A unit and its group evicted: all of them come to rest before what any of them keeps is settled (08 R213); one that is cancelled is retired
and not saved (08 R215); a save without room tears the context down (08 R210). -/
def State.evictUnit (s : State) (u : Nat) : State :=
  let us := (s.mates u).filter (fun y => (s.unit y).saved.isNone)
  let vf := (s.unit u).vf
  let doomed := us.flatMap (fun y => (s.unit y).waves.filter (fun w => !(s.wave w).exited && s.readCancel w != 0))
  let live := s.allLive u
  let s := if (s.unit u).sliced && (s.launch (s.unit u).launch).liveTable != 0 then s.useTable u else s
  let s := us.foldl State.endStopped (doomed.foldl (fun s w => s.retireWave w) s)
  let us := us.filter (fun y => !(s.unit y).released)
  let s := us.foldl State.quiesce s
  let s := us.foldl (fun s y => s.saveUnit y live) s
  let s := s.unbindUnits us
  if us.any (fun y => s.storeFull (s.unit y).launch) then s.teardown vf 2 else us.foldl (fun s y => s.writeStore y) s

/-- UNIT_EVICT (08 R209, R211; 03 R99). -/
def execUnitEvict (s : State) : Host.Outcome State Fault Refusal :=
  if s.stopsNow s.occ.a then .next (s.evictUnit s.occ.a) else .refused (.notEnabled "UNIT_EVICT")

/-- BIND_RECORD_EVICT (08 R200, R209): the unit is told to stop at blocking points; one that has gone leaves the record without effect. -/
def execBindRecordEvict (s : State) : Host.Outcome State Fault Refusal :=
  let die := s.occ.a
  let i := s.occ.b
  let r := (s.die die).bindRec i
  match tfind? (s.die die).binds i with
  | none => .refused (.notEnabled "BIND_RECORD_EVICT")
  | some b =>
    if r.op != 3 then .refused (.notEnabled "BIND_RECORD_EVICT")
    else match b.unit with
      | some u => if (s.unit u).ended || (s.unit u).saved.isSome then .next (s.clearBind die i) else .refused (.notEnabled "BIND_RECORD_EVICT")
      | none =>
        match s.namedUnit die r with
        | none => .next (s.clearBind die i)
        | some u => .next ((s.stopUnits [u] none false).modDie die (fun d => { d with binds := tins d.binds i { b with unit := some u } }))

/-! Restore (08 R200, R209, R213; 09 R224, R229, R231; 10 R258; 15 R375; 07 R176). -/

/-- A candidate lane reads its record and its current example again (10 R258). -/
def State.candReread (s : State) (w l : Nat) (c : CandRun) : State :=
  let v := s.wave w
  let ea := c.gallery + BitVec.ofNat 64 (256 * (tget 0 c.index l).toNat)
  match s.window v.unit v.sb ea 256 with
  | .at_ loc =>
    let ex := c.exLocs.getD (bits (v.ctl l).toNat 23 20) 0
    if (List.range 256).any (fun i => s.poisoned (loc + i)) || (List.range 32).any (fun i => s.poisoned (ex + i)) then
      (s.setPois w true).candStop w l c Outc.illegal
    else
      let (bs, s) := s.readWords8 (.lane w l) loc 32
      let (xs, s) := s.readWords8 (.lane w l) ex 4
      s.modWave w (fun v => { v with cand := v.cand.map (fun c => { c with
        lanes := tins c.lanes l { words := recordWords bs (bits (v.ctl l).toNat 19 14), inputs := wordsOf xs } }) })
  | _ => s.candStop w l c Outc.illegal

/-- Every lane of a run that has not retired ends with ABORT (09 R229). -/
def State.candAbort (s : State) (w : Nat) (c : CandRun) : State :=
  let (c, s) := s.outcomesAnew w c
  (lanesOf c.enabled).foldl (fun s l => if (s.wave w).cAct l then s.candStop w l c Outc.abort else s) s

/-- A suspended run goes on (09 R229; 10 R258): its records are translated again, afresh after a REPLAY (01 R33); an XLATE parks the wave,
or ends the run where no fault queue is placed, as FAIL and a page that no longer permits the access do. -/
def State.candResume (s : State) (w : Nat) (afresh : Bool) : State :=
  match (s.wave w).cand with
  | none => s
  | some c =>
    let v := s.wave w
    let vf := s.vfOf w
    let l0 := lowestLane v.live
    let (r1, s) := s.checkAccess v.core vf v.unit v.sb (recordReqs l0 c.examples c.nex AccKind.load [0, 9]) afresh
    let (r0, s) := s.checkAccess v.core vf v.unit v.sb (recordReqs l0 c.desc 1 AccKind.load [0, 2]) afresh
    let (r2, s) := s.checkAccess v.core vf v.unit v.sb (c.outReqs l0) afresh
    let park := fun (ea : DWord) (acc reason level : Nat) (s : State) =>
      if (s.ctx vf).mgmt.fqsize = 0 then s.candAbort w c
      else
        (s.modWave w (fun v => { v with park := some { seq := none, lane := l0, access := acc, reason, level, ea, pc := v.pcNow, group := 0 } })).postFault vf {
          kind := 1, code := Code.xlate, reason := reason + 4 * level, access := acc, core := v.core, slot := v.slot, lane := l0
          lid := (s.launchOf w).lid, addr := ea, pc := v.pcNow, subject := .wave w }
    match r0, r1, r2 with
    | .xlate _ ea k reason level, _, _ => park ea k reason level s
    | .ok _, .xlate _ ea k reason level, _ => park ea k reason level s
    | .ok _, .ok _, .xlate _ ea k reason level => park ea k reason level s
    | .ok _, .ok exs, .ok os =>
      let c := { c with exLocs := exs.map (fun p => p.loc), outLocs := os.map (fun p => p.loc) }
      let s := s.modWave w (fun v => { v with cand := some c })
      (lanesOf c.enabled).foldl (fun s l => if (s.wave w).cAct l then s.candReread w l c else s) s
    | _, _, _ => s.candAbort w c

/-- A restored wave: its counters start again, its watch is made afresh, a remote access issues again (03 R102; 06 R154; 15 R395; 08 R209). -/
def Wave.restored (v : Wave) (core slot clock : Nat) : Wave :=
  ({ v with
    core, slot, resident := true, age := 0, skipCycle := false, wwords := 0, wopp := 0, wstall := 0, wtile := 0, wblock := 0, wcand := 0, wtlb := 0
    barSite := none, remoteOk := 0, remoteBad := 0 } : Wave).modLanes v.live (fun l => match l.wait with
      | some (.mwait e d _ ea loc tol c) => { l with wait := some (.mwait e d clock ea loc tol c) }
      | some (.hold (.remote _)) => { l with wait := none }
      | _ => l)

/-- A saved unit restored at a placement (08 R200, R231). -/
def State.restoreUnit (s : State) (u : Nat) (sp : Span) : State :=
  let x := s.unit u
  let c := s.core sp.core
  let regains := x.ownsSaved && c.owner.isNone && !c.mowners.any s.mownWaits
  let waits := (x.ownsSaved && !regains) || s.mownWaits u
  let clock := s.mem.clock
  let s := s.setUnit u { x with
    core := sp.core, wslot := sp.wslot, vbase := sp.vbase, pregs := sp.vlen / max 1 x.waves.length, scrbase := sp.scrbase, tbase := sp.tbase
    tiles := x.tiles.map (fun t => (t.1, { t.2 with entry := sp.tbase + t.1 })), resident := true, saved := none, ownsSaved := false
    restoring := x.ownsSaved && !regains, umma := 0, ueng := 0, ucurr := 0 }
  let trapped := x.waves.filter (fun w => (s.wave w).trapState = .trapped)
  let handler := x.waves.findSome? (fun w => (s.wave w).handler)
  let s := s.setCore sp.core { c with
    ctx := some x.vf, away := false, used := (c.use (s.unit u).place).used, owner := if regains then some u else c.owner, mowners := if waits then c.mowners ++ [u] else c.mowners
    newelQueue := c.newelQueue ++ trapped, newel := c.newel.orElse (fun _ => handler) }
  let s := x.waves.foldl (fun s w => s.modWave w (fun v => v.restored sp.core (sp.wslot + v.idx) clock)) s
  let s := match handler with
    | none => s
    | some h => s.modWave h (fun v => v.restored sp.core (sp.wslot + v.idx) clock)
  let mine := s.held.filter (fun j => pathOf j.join = 2 && s.handleUnit j.vf (bits j.join.toNat 59 44) = some u)
  mine.foldl (fun s j => s.joinUpdate j) { s with held := s.held.filter (fun j => !mine.contains j) }

/-- Whether poison lies in a launch's backing store (09 R232; 07 R182). -/
def State.storePoison (s : State) (n : Nat) : Bool :=
  let l := s.launch n
  let base := l.spill + BitVec.ofNat 64 (65536 + 1024 * l.dqBytes)
  !s.mem.poison.isEmpty && (List.range (l.bsBytes / 65536)).any (fun i =>
    match s.walk l.vf (base + BitVec.ofNat 64 (65536 * i)).toNat with
    | .leaf level e _ =>
      let loc := leafLoc level e (base + BitVec.ofNat 64 (65536 * i)).toNat
      s.mem.poison.any (fun p => loc ≤ 64 * p.1 && 64 * p.1 < loc + 65536)
    | .xlate _ _ => false)

/-- BIND_RECORD_RESUME (08 R200, R231; 09 R224, R232). Whether the device's layout places saved state on a poisoned sector is its choice (log 24). -/
def execBindRecordResume (s : State) : Host.Outcome State Fault Refusal :=
  let die := s.occ.a
  let i := s.occ.b
  let grp := (s.die die).bindGroup i
  match tfind? (s.die die).binds i with
  | none => .refused (.notEnabled "BIND_RECORD_RESUME")
  | some b =>
    let sp := fun (r : BindRec) => r.span die (s.unit r.save).waves.length (s.unit r.save).foot
    let free := grp.all (fun p => s.placeOpen die i b p.2 && !(s.unitSpans (p.2.coreOn die)).any (fun y => y.overlaps (sp p.2)) &&
      ((s.core (p.2.coreOn die)).newel.isNone || (s.unit p.2.save).waves.all (fun w => (s.wave w).handler.isNone)))
    if b.leader = i && ((s.die die).bindRec i).op = 2 && s.restores grp b.launch && free then
      let vf := (s.launch b.launch).vf
      let (k, s) := s.pick (if s.storePoison b.launch then 2 else 1)
      if k = 1 then .next (s.teardown vf 3)
      else
        let s := grp.foldl (fun s p => s.restoreUnit p.2.save (sp p.2)) s
        let ws := grp.flatMap (fun p => (s.unit p.2.save).waves)
        let s := ws.foldl (fun s w => s.candResume w false) (s.clearGroup die i)
        .next ((s.stopPlaced (grp.map (fun p => p.2.save))).checkStore b.launch)
    else .refused (.notEnabled "BIND_RECORD_RESUME")

/-! Scrubs, the heartbeat, lending (02 R73; 08 R201, R203). -/

/-- A partition whose reset has scrubbed its cores is active again (22 R432; log 29). -/
def State.resetDone (s : State) (k : Nat) : State :=
  match (s.die (k / 64)).parts.find? (fun p => p.2.state = 2 && p.2.base ≤ k % 64 && k % 64 ≤ p.2.limit) with
  | none => s
  | some (e, p) =>
    if (List.range (p.limit + 1 - p.base)).all (fun i => (List.range 4).all (fun c => (s.core (4 * (k / 64 * 64 + p.base + i) + c)).scrub.isNone)) then
      s.modPart (k / 64) e (fun p => { p with state := 1 })
    else s

/-- SCRUB_COMPLETE (02 R73; 09 R232): the scrub and the installation of the key pass their checks, or the context they were for is torn
down (log 25). -/
def execScrubComplete (s : State) : Host.Outcome State Fault Refusal :=
  let core := s.occ.a
  let c := s.core core
  match c.scrub with
  | none => .refused (.notEnabled "SCRUB_COMPLETE")
  | some vf =>
    if s.occ.b = 1 then
      .next (((s.scrubbed core).setCore core { c with scrub := none, ctx := some vf, away := false, icache := [], used := some [] }).resetDone (clusterOf core))
    else .next ((s.setCore core { c with scrub := none }).teardown vf 4)

/-- HEARTBEAT_TIMEOUT (08 R201): the scheduler core is reset; committed records keep dispatching. -/
def execHeartbeatTimeout (s : State) : Host.Outcome State Fault Refusal :=
  let d := s.die s.occ.a
  if s.occ.a < 4 && !d.schedDown && d.heartAt + 100000 ≤ s.pkg.ticks then
    .next (s.setDie s.occ.a { d with schedRst := d.schedRst + 1, schedDown := true, heartAt := s.pkg.ticks })
  else .refused (.notEnabled "HEARTBEAT_TIMEOUT")

/-- The four cores of a cluster. -/
def coresOf (k : Nat) : List Nat := (List.range 4).map (4 * k + ·)

/-- LEND_CLUSTER (08 R203; 02 R73): the lender's cluster holds none of its units. -/
def execLendCluster (s : State) : Host.Outcome State Fault Refusal :=
  let k := s.occ.a
  let e := s.occ.b
  let die := k / 64
  match s.ownPart k with
  | none => .refused (.notEnabled "LEND_CLUSTER")
  | some o =>
    let p := s.part die e
    if !(s.die die).schedDown && o != e && p.state = 1 && (s.part die o).lend % 2 = 1 && p.lend / 2 % 2 = 1 && (s.cluster k).lentTo.isNone &&
        (coresOf k).all s.coreIdle then
      let s := (coresOf k).foldl (fun s c => s.departCore c) s
      let s := s.modCluster k (fun c => { c with lentTo := some e })
      .next ((coresOf k).foldl (fun s c => s.claimCore c p.vf) s)
    else .refused (.notEnabled "LEND_CLUSTER")

/-- The units that hold anything on a cluster. -/
def State.clusterUnits (s : State) (k : Nat) : List Nat :=
  (s.units.filter (fun p => clusterOf p.2.core = k && !p.2.released && p.2.saved.isNone)).map (·.1)

/-- RECLAIM_CLUSTER (08 R203): borrowed units stop at blocking points, or 50 us from now. -/
def execReclaimCluster (s : State) : Host.Outcome State Fault Refusal :=
  let k := s.occ.a
  let c := s.cluster k
  if c.lentTo.isSome && c.reclaiming.isNone then
    let t := s.pkg.ticks + 5000
    let s := s.setCluster k { c with reclaiming := some t }
    let s := (coresOf k).foldl (fun s c => s.unstart c) s
    .next ((s.stopUnits (s.clusterUnits k) (some t) false).returnCluster k)
  else .refused (.notEnabled "RECLAIM_CLUSTER")

/-- RECLAIM_DEADLINE (08 R203): units not yet evicted stop between body words. -/
def execReclaimDeadline (s : State) : Host.Outcome State Fault Refusal :=
  let k := s.occ.a
  let left := (s.clusterUnits k).filter (fun u => (s.unit u).stopping)
  if (s.cluster k).reclaiming.any (· ≤ s.pkg.ticks) && left.any s.stopsNow then
    .next (left.foldl (fun s u => if s.stopsNow u then s.evictUnit u else s) s)
  else .refused (.notEnabled "RECLAIM_DEADLINE")

/-! Tenant slices (08 R211; 20 R406). -/

/-- The units of a partition's context that hold anything on its cores. -/
def State.partUnits (s : State) (die e : Nat) : List Nat :=
  (s.units.filter (fun p => p.2.vf = (s.part die e).vf && dieOf p.2.core = die && s.partAt (clusterOf p.2.core) = some e &&
    !p.2.released && p.2.saved.isNone)).map (·.1)

/-- A slice end on a partition, at this time (08 R211; 20 R406): children not begun go back to their frames. -/
def State.endSlice (s : State) (die e : Nat) : State :=
  let s := (s.partCores die e).foldl (fun s c => s.unstart c) s
  let s := s.modPart die e (fun p => { p with sliceEnd := some s.pkg.ticks })
  s.stopUnits (s.partUnits die e) (some (s.pkg.ticks + 20000)) true

/-- TENANT_SLICE_END (08 R211). -/
def execTenantSliceEnd (s : State) : Host.Outcome State Fault Refusal :=
  let p := s.part s.occ.a s.occ.b
  if p.state = 1 && p.sliceEnd.isNone then .next (s.endSlice s.occ.a s.occ.b) else .refused (.notEnabled "TENANT_SLICE_END")

/-- SLICE_LIMIT_EXPIRY (08 R211): what has not stopped stops with its full footprint. -/
def execSliceLimitExpiry (s : State) : Host.Outcome State Fault Refusal :=
  let p := s.part s.occ.a s.occ.b
  let left := (s.partUnits s.occ.a s.occ.b).filter (fun u => (s.unit u).sliced)
  if p.sliceEnd.any (fun t => t + 20000 ≤ s.pkg.ticks) && left.any s.stopsNow then
    .next (left.foldl (fun s u => if s.stopsNow u then s.evictUnit u else s) s)
  else .refused (.notEnabled "SLICE_LIMIT_EXPIRY")

/-- The next slice of a partition's context: its cores are its own again (20 R406; 02 R73). -/
def State.beginSlice (s : State) (die e : Nat) : State :=
  let s := s.modPart die e (fun p => { p with sliceEnd := none })
  (s.partCores die e).foldl (fun s c => if (s.core c).ctx = some (s.part die e).vf then s.claimCore c (s.part die e).vf else s) s

/-- Whether the cores of a partition have left its context, if they held it (07 R186; 20 R406). -/
def State.partLeft (s : State) (die e : Nat) : Bool :=
  (s.partCores die e).all (fun c => (s.core c).away || (s.core c).ctx != some (s.part die e).vf)

/-- TENANT_SLICE_BEGIN (20 R406): what ran before has stopped, and the cores have departed. -/
def execTenantSliceBegin (s : State) : Host.Outcome State Fault Refusal :=
  let p := s.part s.occ.a s.occ.b
  if p.sliceEnd.isSome && (s.partUnits s.occ.a s.occ.b).isEmpty && s.partLeft s.occ.a s.occ.b && (s.ctx p.vf).state = .active then .next (s.beginSlice s.occ.a s.occ.b)
  else .refused (.notEnabled "TENANT_SLICE_BEGIN")

end Sys2Proof.Machine
end

