-- ==== Sys2Proof/Machine/Windows.lean ====
section
/-! DEFINITION. The registers of the windows, and what a command's fields name (22 R422-R424, R428, R430; 08 R189, R197, R201). -/
namespace Sys2Proof.Machine

/-- The virtual function that accesses through a window act on (22 R424). -/
def State.winVf (s : State) : Win → Nat
  | .vf n => n
  | .pf => s.pf.arg3.toNat % 1024

/-- A window's own command registers (22 R423, R424). -/
def State.winMgmt (s : State) : Win → Mgmt
  | .vf n => (s.ctx n).mgmt
  | .pf => s.pf

/-- A window's own command registers changed. -/
def State.modWin (s : State) (w : Win) (f : Mgmt → Mgmt) : State :=
  match w with
  | .vf n => s.modCtx n (fun c => { c with mgmt := f c.mgmt })
  | .pf => { s with pf := f s.pf }

/-- A management register by its offset (22 R423). -/
def Mgmt.get (m : Mgmt) (off : Nat) : Option DWord :=
  match off with
  | 0x00 => some m.root
  | 0x08 => some m.fqbase
  | 0x10 => some (zext64 m.fqsize)
  | 0x14 => some (zext64 m.lost)
  | 0x18 => some (zext64 m.fqhead)
  | 0x1C => some (zext64 m.fqtail)
  | 0x20 => some m.gtbase
  | 0x28 => some (zext64 m.gtnodes)
  | 0x30 => some m.xlbase
  | 0x38 => some (zext64 m.xlbytes)
  | 0x40 => some m.toffset
  | 0x48 => some (zext64 m.tpolicy)
  | 0x80 => some (zext64 m.cmd)
  | 0x84 => some (zext64 m.cmdstat)
  | 0x88 => some m.arg0
  | 0x90 => some m.arg1
  | 0x98 => some m.arg2
  | 0xA0 => some m.arg3
  | 0xA8 => some m.result
  | _ => none

/-- The bytes of a management register (22 R423). -/
def mgmtSize (off : Nat) : Nat :=
  if [0x10, 0x14, 0x18, 0x1C, 0x28, 0x38, 0x48, 0x80, 0x84].contains off then 4 else 8

/-- The offsets of the management registers (22 R423). -/
def mgmtOffsets : List Nat :=
  [0x00, 0x08, 0x10, 0x14, 0x18, 0x1C, 0x20, 0x28, 0x30, 0x38, 0x40, 0x48, 0x80, 0x84, 0x88, 0x90, 0x98, 0xA0, 0xA8]

/-- An argument register written (22 R423). -/
def Mgmt.setArg (m : Mgmt) (off : Nat) (v : DWord) : Mgmt :=
  match off with
  | 0x88 => { m with arg0 := v }
  | 0x90 => { m with arg1 := v }
  | 0x98 => { m with arg2 := v }
  | 0xA0 => { m with arg3 := v }
  | _ => m

/-- A ROOT that 22 R423 accepts: MCLASS and a PA that agree by 01 R26, and no other bit. -/
def rootOk (v : DWord) : Bool :=
  let x := v.toNat
  bits x 63 58 = 0 && bits x 54 52 = 0 && bits x 15 0 = 0 && bits x 57 55 ≤ 3 && classFits (bits x 57 55) (bits x 51 16 * 65536)

/-- A power of two from 64 to 65536, or 0 (22 R423). -/
def fqsizeOk (n : Nat) : Bool := n = 0 || (List.range 11).any (fun i => n = 2 ^ (6 + i))

/-- The offset that a write of X to TOFFSET leaves, as a signed count (22 R428). -/
def State.toffsetFor (s : State) (vf : Nat) (x : Int) : DWord :=
  BitVec.ofInt 64 (max x ((s.ctx vf).lastTime + 10 - 10 * (s.pkg.ticks : Int)))

/-- A P register written (22 R423, R428): none where it is refused with RESULT 2. -/
def State.regPut (s : State) (vf off : Nat) (v : DWord) : Option State :=
  let idle := s.ctxInFlight vf = 0
  let w : Word := loWord v
  let set := fun (ok : Bool) (f : Mgmt → Mgmt) => if ok then some (s.modCtx vf (fun c => { c with mgmt := f c.mgmt })) else none
  match off with
  | 0x00 => set (idle && rootOk v) (fun m => { m with root := v })
  | 0x08 => set (idle && plainAddr v 65536) (fun m => { m with fqbase := v })
  | 0x10 => set (idle && fqsizeOk w.toNat) (fun m => { m with fqsize := w })
  | 0x20 => set idle (fun m => { m with gtbase := v })
  | 0x28 => set (idle && w.toNat ≤ 65536) (fun m => { m with gtnodes := w })
  | 0x30 => set (idle && v.toNat % 65536 = 0) (fun m => { m with xlbase := v })
  | 0x38 => set (idle && w.toNat % 65536 = 0) (fun m => { m with xlbytes := w })
  | 0x40 => some (s.modCtx vf (fun c => { c with mgmt := { c.mgmt with toffset := s.toffsetFor vf v.toInt } }))
  | 0x48 => set (w.toNat < 2) (fun m => { m with tpolicy := w })
  | _ => none

/-- The registers that only the owner writes (22 R423). -/
def pRegister (off : Nat) : Bool := [0x00, 0x08, 0x10, 0x20, 0x28, 0x30, 0x38, 0x40, 0x48].contains off

/-- Whether an endpoint's access through a window counts as P (22 R422, R424). -/
def State.isOwner (s : State) (ep : Nat) : Win → Bool
  | .vf n => (s.ctx n).owner = ep
  | .pf => true

/-- A write to a management register other than CMD (22 R422-R424). -/
def State.mgmtWrite (s : State) (ep : Nat) (w : Win) (off : Nat) (v : DWord) : State :=
  let vf := s.winVf w
  if off = 0x18 then s.modCtx vf (fun c => { c with mgmt := { c.mgmt with fqhead := loWord v } })
  else if !pRegister off then s.modWin w (fun m => m.setArg off v)
  else if !s.isOwner ep w then s.countReject vf
  else match s.regPut vf off v with
    | some s => s
    | none => s.modWin w (fun m => { m with cmdstat := (m.cmdstat &&& 0x80000000) ||| 2 })

/-- A write to a launch window's slots (08 R189, R190): one that meets a slot that is rung is discarded and counted; the rest of the window
ignores it. -/
def State.slotWrite (s : State) (vf off : Nat) (bs : List Byte) : State :=
  let c := s.ctx vf
  let bs := bs.take (0x400 - off)
  if bs.isEmpty then s
  else if (List.range bs.length).any (fun i => c.slotBusy.getLsbD ((off + i) / 128)) then s.countReject vf
  else s.setCtx vf { c with slots := ((List.range bs.length).zip bs).foldl (fun m (p : Nat × Byte) => tset 0 m (off + p.1) p.2) c.slots }

/-- The number under which the management controller writes its registers, beside the hosts' 384-511 and the dies' firmware (log 1). -/
def mcWriter : Nat := 512

/-- A launch window's readable registers (08 R189). -/
def Ctx.launchReg (c : Ctx) (off : Nat) : Nat :=
  match off with
  | 0x408 => c.slotBusy.toNat
  | 0x40C => c.rejects.toNat
  | 0x410 => c.phase % 65536 + (if c.closed then 65536 else 0)
  | _ => 0

/-- REGISTER_WRITE (08 R189, R197, R201; 22 R423; 07 R184; 02 R50; 21 R413; 08 R216): host endpoints write the windows, a die's
firmware its own, the management controller its own. -/
def execRegisterWrite (by_ : Nat) (target : RegTarget) (v : DWord) (s : State) : Host.Outcome State Fault Refusal :=
  let host : Bool := 384 ≤ by_ && by_ < 512
  let bad : Host.Outcome State Fault Refusal := .refused (.notEnabled "REGISTER_WRITE")
  match target with
  | .launchWin vf off size => if host && vf < 1024 && off < 0x1000 && off != 0x400 && size ≤ 8 then .next (s.slotWrite vf off (leBytes size v.toNat)) else bad
  | .mgmt win off => if host && s.winVf win < 1024 && off != 0x80 then .next (s.mgmtWrite by_ win off v) else bad
  | .fwRecord die idx off size =>
    let d := s.die die
    if die < 4 && by_ = die && !d.schedDown && idx < 4096 && off + size ≤ 32 && size ≤ 8 then
      if (tfind? d.binds idx).isSome then .next (s.setDie die { d with rejectCnt := d.rejectCnt + 1 })
      else .next (s.setDie die { d with slotTable :=
        ((List.range size).zip (leBytes size v.toNat)).foldl (fun m (p : Nat × Byte) => tset 0 m (32 * idx + off + p.1) p.2) d.slotTable })
    else bad
  | .fwHeartbeat die =>
    let d := s.die die
    if die < 4 && by_ = die then
      .next (s.setDie die { d with heartbeat := v, schedDown := false, heartAt := if v = d.heartbeat && !d.schedDown then d.heartAt else s.pkg.ticks })
    else bad
  | .fwStealScope die e =>
    if die < 4 && by_ = die && !(s.die die).schedDown && e < 16 then .next (if v.toNat ≤ 3 then s.modPart die e (fun p => { p with scope := v.toNat }) else s)
    else bad
  | .fwOther die _ => if die < 4 && by_ = die && !(s.die die).schedDown then .next s else bad
  | .mcDieColours die => if by_ = mcWriter && die < 4 then .next (s.modDie die (fun d => { d with colourMask := v.toNat % 65536 })) else bad
  | .mcBoostLimit die => if by_ = mcWriter && die < 4 then .next (s.modDie die (fun d => { d with boostLimit := v.toNat })) else bad
  | .mcWeight vf => if by_ = mcWriter && vf < 1024 && 1 ≤ v.toNat && v.toNat ≤ 15 then .next (s.modCtx vf (fun c => { c with weight := v.toNat })) else bad

/-- ROOT_WRITE (22 R423; 01 R23). -/
def execRootWrite (s : State) : Host.Outcome State Fault Refusal :=
  if 384 ≤ s.occ.a && s.occ.a < 512 && s.winVf s.occ.win < 1024 then .next (s.mgmtWrite s.occ.a s.occ.win 0 (BitVec.ofNat 64 s.occ.b))
  else .refused (.notEnabled "ROOT_WRITE")

/-- TOFFSET_WRITE (22 R428). -/
def execToffsetWrite (s : State) : Host.Outcome State Fault Refusal :=
  if 384 ≤ s.occ.a && s.occ.a < 512 && s.winVf s.occ.win < 1024 then .next (s.mgmtWrite s.occ.a s.occ.win 0x40 (BitVec.ofNat 64 s.occ.b))
  else .refused (.notEnabled "TOFFSET_WRITE")

/-! The RESYNC record (22 R430). -/

/-- A partition-table entry's bytes (08 R202). -/
def Part.bytes (p : Part) : List Byte :=
  leBytes 1 p.base ++ leBytes 1 p.limit ++ leBytes 1 p.state ++ leBytes 1 p.sgroup ++ leBytes 2 p.vf ++ leBytes 2 p.colours ++ leBytes 2 p.watts ++
  leBytes 1 p.lend ++ leBytes 5 0

/-- A context's entry (22 R430), as one whose teardown still goes on where `tearing` says so. -/
def State.ctxEntry (s : State) (vf : Nat) (tearing : Bool) : List Byte :=
  let c := s.ctx vf
  let st := match c.state with
    | .active => 1
    | .paused => 2
    | .torn => if tearing then 3 else 4
  leBytes 2 vf ++ leBytes 1 st ++ leBytes 1 c.cause ++ leBytes 2 (s.ctxInFlight vf) ++ leBytes 2 c.phase ++ leBytes 1 (if c.closed then 1 else 0) ++
  leBytes 3 0 ++ leBytes 4 c.phaseCnt ++ leBytes 4 c.mgmt.fqhead.toNat ++ leBytes 4 c.mgmt.fqtail.toNat ++ leBytes 4 c.mgmt.lost.toNat ++
  leBytes 4 c.rejects.toNat

/-- The contexts that have entries: those with a partition, and torn ones not yet reported (22 R430). -/
def State.ctxShown (s : State) : List Nat :=
  let owners := (List.range 4).flatMap (fun d => (s.die d).parts.filterMap (fun p => if p.2.state = 0 then none else some p.2.vf))
  let torn := s.ctxs.filterMap (fun p => if p.2.state = .torn && !p.2.reported then some p.1 else none)
  (((owners ++ torn).foldl (fun (m : SMap Unit) v => tins m v ()) []).map (·.1)).take 64

/-- Whether a context may be shown as being torn down: its teardown has lasted less than the 25 us it may (09 R233; log 70). -/
def State.mayTear (s : State) (vf : Nat) : Bool := (s.ctx vf).state = .torn && s.pkg.ticks < (s.ctx vf).tornTime + 2500

/-- A choice of the device's for each of some things that leave it one. -/
def State.choices {α : Type} (s : State) (xs : List α) (open_ : α → Bool) : List Bool × State :=
  xs.foldl (fun (acc : List Bool × State) x =>
    if open_ x then
      let (i, s) := acc.2.pick 2
      (acc.1 ++ [decide (i = 1)], s)
    else (acc.1 ++ [false], acc.2)) ([], s)

/-- The record, as seen whole or through one virtual function's window, with the package's next SEQ (22 R430). What makes a die
degraded is not stated, so its byte is 0 or 1 as the device chooses (log 32); so is whether a port that is not up trains (log 70). ARGS, which
08 R192 says RESYNC reports, has no field in the record and is not in it (log 65). -/
def State.resyncRecord (s : State) (view : Option Nat) : List Byte × State :=
  let seq := s.pkg.resyncSeq + 1
  let s := s.setPkg { s.pkg with resyncSeq := seq }
  let mine := fun (vf : Nat) => view.all (· = vf)
  let shown := s.ctxShown
  let p := s.pkg
  let header := leBytes 2 1 ++ leBytes 2 Config.packageNumber ++ leBytes 4 seq.toNat ++ leBytes 8 (10 * p.ticks) ++
    leBytes 1 (if p.moduleMemory then 0 else 1) ++ leBytes 1 shown.length ++ leBytes 6 0 ++ leBytes 8 Config.mezzBytes ++ leBytes 32 0
  let firmware := leBytes 4 p.image.toNat ++ leBytes 4 p.mcver.toNat ++ ((List.range 4).flatMap (fun d => leBytes 4 (s.die d).schedVer.toNat)) ++
    leBytes 1 p.handoff ++ leBytes 7 0 ++ ((p.digest ++ List.replicate 32 0).take 32)
  let (states, s) := (List.range 4).foldl (fun (acc : List Byte × State) d =>
    if (acc.2.die d).parts.any (fun p => p.2.state = 2) then (acc.1 ++ leBytes 1 2, acc.2)
    else
      let (i, s) := acc.2.pick 2
      (acc.1 ++ leBytes 1 i, s)) ([], s)
  let voted := (List.range 256).foldl (fun n c => (List.range 3).foldl (fun n j =>
    if ((s.cluster c).sensors.getD j Sensor.init).voted then n + 2 ^ (3 * c + j) else n) n) 0
  let pinned := (List.range 256).foldl (fun n c => if (s.cluster c).pinned then n + 2 ^ c else n) 0
  let health := states ++ ((List.range 4).flatMap (fun d => leBytes 4 (s.die d).rejectCnt.toNat)) ++
    ((List.range 4).flatMap (fun d => leBytes 2 (s.die d).schedRst)) ++ leBytes 1 p.mezzOff ++ leBytes 3 0 ++ leBytes 96 voted ++ leBytes 32 pinned ++
    leBytes 8 p.corrected ++ leBytes 8 p.uncorrectable ++ leBytes 8 p.poisonedCount ++ leBytes 72 0
  let (trains, s) := s.choices (List.range 32) (fun i => (tget Link.init p.links i).state != 2)
  let (tears, s) := s.choices shown s.mayTear
  let links := (List.range 32).flatMap (fun i =>
    let l := tget Link.init p.links i
    leBytes 1 (if trains.getD i false then 1 else l.state) ++ leBytes 1 l.peerPort ++ leBytes 2 l.peer ++ leBytes 4 l.replays.toNat)
  let parts := (List.range 4).flatMap (fun d => (List.range 16).flatMap (fun e =>
    let q := s.part d e
    if mine q.vf then q.bytes else leBytes 16 0))
  let ctxs := (List.range 64).flatMap (fun i => match shown[i]? with
    | some vf => if mine vf then s.ctxEntry vf (tears.getD i false) else leBytes 32 0
    | none => leBytes 32 0)
  let s := shown.foldl (fun s vf => if mine vf && (s.ctx vf).state = .torn then s.modCtx vf (fun c => { c with reported := true }) else s) s
  (header ++ firmware ++ health ++ links ++ leBytes 384 0 ++ parts ++ ctxs, s)

/-- A host agent's write at a location: it drains at once and joins the system fence set (03 R103). -/
def State.hostStore (s : State) (loc : Nat) (bs : List Byte) : State :=
  let s := s.storeNow (plainBytes loc bs)
  s.relMerge (.fence 6 0) ((List.range bs.length).foldl (fun v i => vset v (loc + i) (s.mem.lastOf (loc + i)).1) [])

end Sys2Proof.Machine
end

