-- ==== Sys2Proof/Machine/Manage.lean ====
section
/-! DEFINITION. Management commands, side-band requests, resets, and firmware activation
(22 R423-R432; 01 R42; 09 R225, R232; 10 R252; 08 R201, R202; 21 R416, R417). -/
namespace Sys2Proof.Machine

/-- What a command comes to: the state, RESULT of CMDSTAT, the RESULT register, and whether it is still BUSY (22 R423, R425). -/
structure CmdRes where
  s : State
  code : Nat
  value : DWord
  busy : Bool

/-- A command that completes. -/
def CmdRes.done (s : State) (code : Nat) : CmdRes := { s, code, value := 0, busy := false }

/-! Translations (01 R42-R44; 09 R229). -/

/-- Whether a shootdown covers an address (22 R425). -/
def ShootReq.covers (r : ShootReq) (va : Nat) : Bool := r.len = 0 || (r.va ≤ va && va < r.va + r.len)

/-- Whether a shootdown covers some byte of a translation (01 R42). -/
def ShootReq.hits (r : ShootReq) (t : TlbEntry) : Bool :=
  let lo := t.va / 2 ^ leafShift t.level * 2 ^ leafShift t.level
  r.len = 0 || (r.va < lo + 2 ^ leafShift t.level && lo < r.va + r.len)

/-- Whether a covered page is one that a running candidate run holds translated (09 R229); a run that is suspended holds none. -/
def State.runHolds (s : State) (vf : Nat) (r : ShootReq) : Bool :=
  s.waves.any (fun p => (s.unit p.2.unit).vf = vf && p.2.resident && (p.2.cand.any (fun c => !c.exLocs.isEmpty &&
    let on := fun (ea : DWord) (n : Nat) => pathOf ea = 0 && (List.range n).any (fun i => r.covers (ea.toNat + 32 * i))
    (on c.desc 1 || on c.examples c.nex || (!c.norec && on c.outcomes 32)))))

/-- Every agent of some units drains, their waves' handlers among them. -/
def State.drainUnits (s : State) (us : List Nat) : State :=
  let s := (s.waves.filter (fun p => us.contains p.2.unit)).foldl (fun s p => (s.drainWave p.1).2) s
  us.foldl (fun s u => (List.range 8).foldl (fun s e => ((s.unit u).ctx e).ops.foldl (fun s o => s.drainAll (.op u e o.num)) s) s) s

/-- Every agent of a context drains (01 R42; log 33). -/
def State.drainCtx (s : State) (vf : Nat) : State := s.drainUnits ((s.units.filter (fun p => p.2.vf = vf)).map (·.1))

/-- No TLB and no fetched copy holds a covered translation (01 R42, R43). A loop buffer runs what it captured until the loop ends (01 R44), and
a clause the fetch blocks that its lanes have (01 R43; log 18). -/
def State.dropTranslations (s : State) (vf : Nat) (r : ShootReq) : State :=
  let keep := fun (t : TlbEntry) => !(t.vf = vf && r.hits t)
  let cores := s.cores.map (fun p => (p.1, { p.2 with
    tlb := p.2.tlb.filter keep
    icache := p.2.icache.filter (fun b => !(b.1 / 2 ^ 60 = vf && r.covers (b.1 % 2 ^ 60 * 64))) }))
  let clusters := s.clusters.map (fun p => (p.1, { p.2 with tlb := p.2.tlb.filter keep }))
  { s with cores, clusters }

/-- The address that a wait watches (03 R102; 07 R180). -/
def Wait.watches : Wait → Option DWord
  | .mwait _ _ _ ea _ _ _ => some ea
  | .joinW _ _ ea _ => some ea
  | _ => none

/-- Whether a wait watches a location through a covered translation. -/
def Wait.covered (r : ShootReq) (y : Wait) : Bool := y.watches.any (fun ea => translated (pathOf ea) && r.covers (restOf ea))

/-- The waves of a context with lanes that watch through a covered translation. -/
def State.watchers (s : State) (vf : Nat) (r : ShootReq) : List Nat :=
  (s.waves.filter (fun p => (s.unit p.2.unit).vf = vf && p.2.lanes.any (fun l => l.2.wait.any (Wait.covered r)))).map (·.1)

/-- Whether an access that translated through what a shootdown covers is still to be performed: lanes of an instruction have steps to take,
or a watched word differs already and its wave has yet to read it (01 R42; 03 R82, R102). -/
def State.accessesLeft (s : State) (vf : Nat) (r : ShootReq) : Bool :=
  s.waves.any (fun p => (s.unit p.2.unit).vf = vf && (!p.2.steps.isEmpty || p.2.lanes.any (fun l => match l.2.wait with
    | some (.mwait e d since ea loc tol c) =>
      (Wait.mwait e d since ea loc tol c).covered r && s.awake p.1 && (s.memOf vf).differed since loc c
    | _ => false)))

/-- A wait after a shootdown: it watches where its address now lies; one whose address can no longer be read ends, so that its word issues
again and takes its fault (01 R42; log 33). -/
def State.rewatch (s : State) (vf : Nat) (y : Wait) : Option Wait :=
  match y.watches with
  | none => some y
  | some ea => match s.walk vf (restOf ea) with
    | .xlate _ _ => none
    | .leaf level e _ =>
      let at_ := leafLoc level e (restOf ea)
      if !pageOk AccKind.load e then none
      else match y with
        | .mwait m d since ea loc _ c => some (.mwait m d (if at_ = loc then since else s.mem.clock) ea at_ (bits e 59 59 = 1) c)
        | .joinW m d ea _ => some (.joinW m d ea at_)
        | y => some y

/-- Every wait that watches through a covered translation made afresh. -/
def State.rewatchAll (s : State) (vf : Nat) (r : ShootReq) : State :=
  (s.watchers vf r).foldl (fun s w =>
    let seen := ((s.wave w).lanes.filterMap (fun l => l.2.wait.bind (fun y => if y.covered r then y.watches else none))).eraseDups
    let s := s.modWave w (fun v => { v with lanes := v.lanes.map (fun l => match l.2.wait with
      | some y => if y.covered r then (l.1, { l.2 with wait := s.rewatch vf y }) else l
      | none => l) })
    seen.foldl (fun s ea => s.devTouch vf (restOf ea) false) s) s

/-- Command 1 (01 R42; 22 R425). -/
def State.cmdShootdown (s : State) (win : Win) (vf : Nat) (a0 a1 : DWord) : CmdRes :=
  if bits a0.toNat 63 55 != 0 || a0.toNat % 65536 != 0 || a1.toNat % 65536 != 0 then .done s 2
  else
    { s := s.modCtx vf (fun c => { c with shoot := c.shoot ++ [{ va := a0.toNat, len := a1.toNat, win }] }), code := 0, value := 0, busy := true }

/-! Dispositions (01 R33; 04 R122; 07 R435; 09 R225, R229). -/

/-- A parked wave resolved (01 R33; 09 R229): after a REPLAY what parked walks afresh. -/
def State.disposeWave (s : State) (w : Nat) (p : Park) (fail : Bool) : State :=
  let s := s.modWave w (fun v => { v with park := none })
  let v := s.wave w
  match v.cand, fail with
  | some _, false => s.candResume w true
  | some c, true => s.candAbort w c
  | none, false => s.modWave w (fun v => { v with replay := v.replay ||| p.group })
  | none, true =>
    s.takeFault w {
      code := Code.xlate, cls := 2, lane := p.lane, access := p.access, pc := p.pc, nextpc := s.nextAfter w p.lane, ea := p.ea
      group := p.group &&& v.live }

/-- Command 2 on a record that still waits (09 R225). -/
def State.dispose (s : State) (vf seq : Nat) (fail : Bool) : State :=
  match (s.ctx vf).frecs.find? (fun p => p.1 = seq) with
  | none => s
  | some (_, r) =>
    let s := s.modCtx vf (fun c => { c with frecs := c.frecs.filter (fun p => p.1 != seq) })
    match r.subject with
    | .wave w =>
      match (s.wave w).park with
      | some p => if p.seq = some seq then s.disposeWave w p fail else s
      | none => s
    | .op u e n =>
      match ((s.unit u).ctx e).op? n with
      | some o =>
        if o.phase != .parked (some seq) then s
        else
          let s := s.modOp u e n (fun o => { o with phase := .running, afresh := !fail })
          if fail then s.engineFault u e { o with phase := .running } Code.xlate (s.unit u).core else s
      | none => s
    | .joinUpd id =>
      match s.held.find? (fun j => j.id = id) with
      | none => s
      | some j =>
        let s := { s with held := s.held.filter (fun k => k.id != id) }
        if fail then (s.escalate j.launch Code.xlate j.core 0xFF 0).launchDown j.launch else s.joinUpdate { j with seq := none }
    | .none => s

/-- Command 2 (22 R425). -/
def State.cmdDispose (s : State) (vf : Nat) (a0 a1 : DWord) : CmdRes :=
  if a1 = 0 then .done (s.dispose vf a0.toNat false) 0 else if a1 = 1 then .done (s.dispose vf a0.toNat true) 0 else .done s 2

/-! Gallery windows and namespaces (01 R21; 10 R252). -/

/-- Command 3 (22 R425). -/
def State.cmdGallery (s : State) (vf : Nat) (a0 a1 : DWord) : CmdRes :=
  let running := s.waves.any (fun p => (s.unit p.2.unit).vf = vf && p.2.cand.isSome && p.2.resident && dieOf p.2.core = a0.toNat)
  if 3 < a0.toNat || a1.toNat % 65536 != 0 || 2 ^ 32 < a1.toNat || running then .done s 2
  else .done (s.modCtx vf (fun c => { c with galWin := tset 0 c.galWin a0.toNat a1.toNat })) 0

/-- The bytes that a namespace occupies at BASE (10 R252). -/
def Namespace.bytes (e : Namespace) : Nat := 320 * 2 ^ e.logsets

/-- Entries of the active namespaces of a die (10 R252). -/
def DieSt.nsEntries (d : DieSt) : Nat := d.spaces.foldl (fun n p => if p.2.active then n + 16 * 2 ^ p.2.logsets else n) 0

/-- Command 4 (10 R252; 22 R425): activation clears the namespace; its bytes at BASE are written with the step (`State.spacesFollow`). -/
def State.cmdNsnew (s : State) (vf : Nat) (a0 a1 : DWord) : CmdRes :=
  let x := a0.toNat
  let n := bits x 3 0
  let die := bits x 5 4
  let ls := bits x 12 8
  let d := s.die die
  if bits x 63 13 != 0 || bits x 7 6 != 0 || 24 < ls || a1.toNat % 65536 != 0 || !classFits 0 a1.toNat then .done s 2
  else if (tget Namespace.init d.spaces n).active || 2 ^ 28 < d.nsEntries + 16 * 2 ^ ls then .done s 3
  else
    let e : Namespace := {
      vf, logsets := ls, active := true, base := a1.toNat, entries := [], stamp := (tget Namespace.init d.spaces n).stamp }
    .done (s.setDie die { d with spaces := tset Namespace.init d.spaces n e }) 0

/-- Command 5 (10 R252; 22 R425). Another context's namespace is a bad argument (log 34). -/
def State.cmdNsfree (s : State) (vf : Nat) (a0 : DWord) : CmdRes :=
  let x := a0.toNat
  let n := bits x 3 0
  let die := bits x 5 4
  let e := tget Namespace.init (s.die die).spaces n
  if bits x 63 6 != 0 || (e.active && e.vf != vf) then .done s 2
  else .done (s.modDie die (fun d => { d with spaces := tset Namespace.init d.spaces n { e with active := false } })) 0

/-! Collective groups (22 R426). -/

/-- A context's collective groups, by number. -/
def groupNumber (vf : Nat) (id : DWord) : Nat := vf * 2 ^ 32 + id.toNat % 2 ^ 32

/-- The member list at an address, where it keeps the rules of 22 R426 for its issuer. -/
def State.memberList (s : State) (vf : Nat) (ea : DWord) : Option (List (Nat × Nat)) :=
  if !plainAddr ea 4 then none
  else match s.devRead vf ea 4 with
    | none => none
    | some n =>
      if n < 2 || 1024 < n then none
      else
        let ws := (List.range n).filterMap (fun i => s.devRead vf (ea + BitVec.ofNat 64 (4 + 4 * i)) 4)
        let ms := ws.map (fun x => (bits x 24 16, bits x 9 0))
        let own := (Config.packageNumber, vf)
        let ours := ms.filter (fun m => m.1 = own.1)
        if ws.length = n && ws.all (fun x => bits x 31 25 = 0 && bits x 15 10 = 0) && ours.eraseDups.length = ours.length && ms.contains own then
          some ms
        else none

/-- What members of this package have contributed under a group's key is dropped with it. -/
def Package.dropShares (p : Package) (key : Nat) : Package := { p with shares := p.shares.filter (fun x => x.key != key) }

/-- A set on the pages through which a member list is read: its count, and the members where the count is one that the list may have
(01 R30). -/
def State.useList (s : State) (vf : Nat) (ea : DWord) : State :=
  if !plainAddr ea 4 then s
  else match s.devRead vf ea 4 with
    | some n => s.devUse vf ea (if n < 2 || 1024 < n then 4 else 4 + 4 * n)
    | none => s.devUse vf ea 4

/-- Command 6 (22 R426). A group of that number that has not ended is a bad argument (log 34). -/
def State.cmdCollnew (s : State) (vf : Nat) (a0 a1 : DWord) : CmdRes :=
  let key := groupNumber vf a0
  if bits a0.toNat 63 32 != 0 || (tfind? s.pkg.groups key).isSome then .done s 2
  else match s.memberList vf a1 with
    | none => .done (s.useList vf a1) 2
    | some ms =>
      let s := s.useList vf a1
      .done (s.setPkg { s.pkg.dropShares key with groups := tins s.pkg.groups key { vf, members := ms, usable := false, round := 0 } }) 0

/-- Command 7 (22 R425). -/
def State.cmdCollfree (s : State) (vf : Nat) (a0 : DWord) : CmdRes :=
  let key := groupNumber vf a0
  if bits a0.toNat 63 32 != 0 || (tfind? s.pkg.groups key).isNone then .done s 2
  else .done (s.setPkg { s.pkg.dropShares key with groups := tdel s.pkg.groups key }) 0

/-- COLLECTIVE_GROUP_USABLE (22 R426): every listed package has made the same list; this package's other members have it here. -/
def execCollectiveGroupUsable (s : State) : Host.Outcome State Fault Refusal :=
  let key := s.occ.a
  match tfind? s.pkg.groups key with
  | none => .refused (.notEnabled "COLLECTIVE_GROUP_USABLE")
  | some g =>
    let id := key % 2 ^ 32
    let here := g.members.filter (fun (m : Nat × Nat) => m.1 = Config.packageNumber)
    let same := here.all (fun (m : Nat × Nat) => match tfind? s.pkg.groups (m.2 * 2 ^ 32 + id) with
      | some h => h.members = g.members
      | none => false)
    if !g.usable && same then
      let mark := fun (gs : SMap CollGroup) (k : Nat) => match tfind? gs k with
        | some h => tins gs k { h with usable := true }
        | none => gs
      let groups := here.foldl (fun gs (m : Nat × Nat) => mark gs (m.2 * 2 ^ 32 + id)) (mark s.pkg.groups key)
      .next (s.setPkg { s.pkg with groups := groups })
    else .refused (.notEnabled "COLLECTIVE_GROUP_USABLE")

/-! Pausing and migrating (22 R427-R429). -/

/-- Command 8: every partition of the context ends its slice, and none follows (22 R425, R428). -/
def State.cmdPause (s : State) (vf : Nat) : CmdRes :=
  let c := s.ctx vf
  if c.state = .paused then .done s 0
  else
    let v := (s.timens vf).toNat
    let s := s.setCtx vf { c with state := .paused, pausedAt := if c.mgmt.tpolicy.getLsbD 0 then some v else none }
    .done ((s.partsOf vf).foldl (fun s p => if (s.part p.1 p.2).state = 1 && (s.part p.1 p.2).sliceEnd.isNone then s.endSlice p.1 p.2 else s) s) 0

/-- Command 9: the next slice may begin; under FREEZE the next tick reads V + 10, and no less than LAST + 10 (22 R428). -/
def State.cmdResume (s : State) (vf : Nat) : CmdRes :=
  let c := s.ctx vf
  if c.state != .paused then .done s 0
  else
    let toffset := match c.pausedAt with
      | none => c.mgmt.toffset
      | some v => BitVec.ofInt 64 (Int.ofNat (max v c.lastTime) + 10 - 10 * (Int.ofNat s.pkg.ticks + 1))
    .done (s.setCtx vf { c with state := .active, pausedAt := none, mgmt := { c.mgmt with toffset := toffset } }) 0

/-- Command 10 (22 R429). -/
def State.cmdMigin (s : State) (vf : Nat) (a0 : DWord) : CmdRes :=
  let s := s.modCtx vf (fun c => { c with lastTime := max c.lastTime a0.toNat })
  .done (s.modCtx vf (fun c => { c with mgmt := { c.mgmt with toffset := s.toffsetFor vf c.mgmt.toffset.toInt } })) 0

/-- Command 11 (22 R430): the record goes to the issuing host's memory. -/
def State.cmdResync (s : State) (ep : Nat) (win : Win) (a0 : DWord) : CmdRes :=
  if a0.toNat % 4096 != 0 then .done s 2
  else
    let (bs, s) := s.resyncRecord (match win with
      | .vf n => some n
      | .pf => none)
    let s := s.hostStore (locPA 4 (ep * 2 ^ 43 + a0.toNat % 2 ^ 43)) bs
    { s, code := 0, value := zext64 s.pkg.resyncSeq, busy := false }

/-! Resets (22 R432). -/

/-- A wave whose unit is another launch's, retired by a partition reset: candidate lanes write no records (09 R233). -/
def State.wipeWave (s : State) (w : Nat) : State := (s.modWave w (fun v => { v with cand := none })).retireWave w

/-- A launch retired without a completion record: its phase or graph no longer counts it (09 R233; 06 R148). -/
def State.wipeLaunch (s : State) (n : Nat) : State :=
  let l := s.launch n
  if l.complete then s
  else
    let s := s.setLaunch n { l with complete := true, counter := 0, placed := l.ux * l.uy * l.uz }
    let s := match l.graphNode with
      | none => s.modCtx l.vf (fun c => { c with phaseCnt := c.phaseCnt - 1 })
      | some _ => s.modGraph l.vf (fun g => { g with counter := g.counter - 1 })
    match l.batch with
    | none => s
    | some (node, start) => (s.setNode l.vf node 0x24 2 (s.nodeField l.vf node 0x24 2 - 1)).finishBatch l.vf node start l.ux

/-- A graph left with nothing to do by a reset is gone without a record (22 R432; 09 R233). -/
def State.graphGone (s : State) (vf : Nat) : State :=
  if (s.ctx vf).graph.any (s.graphOver vf) then s.dropGraph vf else s

/-- A partition reset (22 R432; 09 R233; 07 R186; 02 R73; 03 R81): its launches and whatever runs on its cores are retired, once what they
have written has drained; other launches' children
that have not begun there go back to their frames. -/
def State.resetPart (s : State) (die e : Nat) : State :=
  let p := s.part die e
  let cores := s.partCores die e
  let own := cores.filter (fun c => s.ownPart (clusterOf c) = some e)
  let borrowed := ((cores.filter (fun c => s.ownPart (clusterOf c) != some e)).map clusterOf).eraseDups
  let mine := (s.launches.filter (fun l => !l.2.complete && l.2.die = die && l.2.part = e)).map (·.1)
  let s := (cores.foldl (fun s c => s.unstart c) s).clearBinds (fun l => l.die = die && l.part = e)
  let here := fun (s : State) => (s.units.filter (fun u => !u.2.released && u.2.saved.isNone && cores.contains u.2.core && !mine.contains u.2.launch)).map (·.1)
  let guests := here s
  let s := guests.foldl (fun s u => (s.unit u).waves.foldl (fun s w => s.wipeWave w) s) s
  let gone := guests ++ (s.units.filter (fun u => mine.contains u.2.launch)).map (·.1)
  let handles := gone.filterMap (fun u => (s.unit u).handle.map (fun h => ((s.unit u).vf, h)))
  let s := (s.drainUnits gone).removeUnits gone
  let s := handles.foldl (fun s (h : Nat × Nat) => s.modCtx h.1 (fun c => { c with handles := c.handles.filter (· != h.2) })) s
  let cs := s.cores.map (fun (c : Nat × CoreSt) => (c.1, { c.2 with
    deque := c.2.deque.filter (fun q => !mine.contains q.launch), pending := c.2.pending.filter (fun q => !mine.contains q.launch) }))
  let s := { s with cores := cs, held := s.held.filter (fun h => !mine.contains h.launch) }
  let lost := s.held.filter (fun j => pathOf j.join = 2 && (s.handleUnit j.vf (bits j.join.toNat 59 44)).isNone)
  let s := lost.foldl (fun s j => s.launchDown j.launch) { s with held := s.held.filter (fun j => !lost.contains j) }
  let s := mine.foldl (fun s n => s.wipeLaunch n) s
  let s := cores.foldl (fun s c => s.departCore c) s
  let s := own.foldl (fun s c => s.modCore c (fun x => { x with scrub := some p.vf, scrubAt := s.pkg.ticks })) s
  let s := borrowed.foldl (fun s k =>
    let s := s.modCluster k (fun c => { c with lentTo := none, reclaiming := none })
    (coresOf k).foldl (fun s c => s.modCore c (fun x => { x with scrub := (s.vfAt c).orElse (fun _ => x.scrub), scrubAt := s.pkg.ticks })) s) s
  let s := s.modPart die e (fun p => { p with state := 2, sliceEnd := none })
  s.graphGone p.vf

/-- An engine reset (22 R432): on each unit of the core that has operations outstanding in the context. -/
def State.resetEng (s : State) (core e : Nat) : State :=
  ((s.units.filter (fun p => p.2.core = core && !p.2.released && p.2.saved.isNone)).map (·.1)).foldl (fun s u =>
    match (s.unit u).headOp e with
    | none => s
    | some o =>
      let s := s.recordFault u e o.num Code.storage o.entry core
      ((s.unit u).ctx e).ops.foldl (fun s o => s.abandonOp u e o) s) s

/-- A link reset (22 R432): the port retrains. -/
def State.resetPort (s : State) (port : Nat) : State :=
  let l := tget Link.init s.pkg.links port
  s.setPkg { s.pkg with links := tset Link.init s.pkg.links port { l with state := 3, attempts := 0 } }

/-- A package reset (22 R427, R431, R432): what the environment still has to do, the free values drawn, the stored image, the variant, and the
memories of hosts and other packages stay; the management controller and the scheduler cores run the stored image from here. -/
def State.resetAll (s : State) : State :=
  { State.reset with
    mem := { Mem.init with cells := s.mem.cells.filter (fun c => isRemote c.1) }
    dies := if s.pkg.image = 0 then [] else (List.range 4).map (fun d => (d, { DieSt.init with schedVer := s.pkg.image }))
    agenda := s.agenda, fresh := s.fresh, nextId := s.nextId
    pkg := { Package.init with moduleMemory := s.pkg.moduleMemory, image := s.pkg.image, mcver := s.pkg.image, digest := s.pkg.digest } }

/-- A reset of a grain, or none where its target is bad (22 R432; target encodings log 29). -/
def State.resetGrain (s : State) (grain target : Nat) : Option State :=
  match grain with
  | 0 => if target < 64 && (s.part (target / 16) (target % 16)).state = 1 then some (s.resetPart (target / 16) (target % 16)) else none
  | 1 => if target < 8192 then some (s.resetEng (target / 8) (target % 8)) else none
  | 2 => if target < 32 then some (s.resetPort target) else none
  | 3 => some s.resetAll
  | _ => none

/-! The command register (22 R425). -/

/-- Commands that only the owner may write (22 R425). -/
def pCommand (code : Nat) : Bool := [3, 4, 5, 8, 9, 10, 12, 13, 14, 15].contains code

/-- Commands 1 to 13 on a context (22 R425). One to a torn-down context completes with RESULT 4; RESYNC and RESET through the
physical function's window are the package's (log 34). -/
def State.runCommand (s : State) (ep : Nat) (win : Win) (vf code : Nat) (a0 a1 : DWord) : CmdRes :=
  if code = 0 || 14 ≤ code then .done s 1
  else if (s.ctx vf).state = .torn && !(win = .pf && (code = 11 || code = 13)) then .done s 4
  else match code with
    | 1 => s.cmdShootdown win vf a0 a1
    | 2 => s.cmdDispose vf a0 a1
    | 3 => s.cmdGallery vf a0 a1
    | 4 => s.cmdNsnew vf a0 a1
    | 5 => s.cmdNsfree vf a0
    | 6 => s.cmdCollnew vf a0 a1
    | 7 => s.cmdCollfree vf a0
    | 8 => s.cmdPause vf
    | 9 => s.cmdResume vf
    | 10 => s.cmdMigin vf a0
    | 11 => s.cmdResync ep win a0
    | 12 => .done (s.teardown vf 1) 0
    | _ => match s.resetGrain a0.toNat a1.toNat with
      | some s => .done s 0
      | none => .done s 2

/-- A write of a command code to CMD (22 R425): discarded and counted while BUSY, or where only the owner may write it and another does. -/
def State.command (s : State) (own : Bool) (win : Win) (code : Nat) (run : State → CmdRes) : State :=
  let vf := s.winVf win
  let m := s.winMgmt win
  if m.cmdstat.getLsbD 31 then s.countReject vf
  else if pCommand code && !own then s.countReject vf
  else
    let r := run (s.modWin win (fun m => { m with cmd := BitVec.ofNat 32 code }))
    if code = 13 && m.arg0 = 3 && r.code = 0 then r.s
    else r.s.modWin win (fun m => { m with cmdstat := BitVec.ofNat 32 (r.code + (if r.busy then 2 ^ 31 else 0)), result := r.value })

/-- A command of a virtual function's window, or one below 14 of the physical function's. -/
def State.plainCommand (s : State) (ep : Nat) (own : Bool) (win : Win) (code : Nat) : State :=
  let m := s.winMgmt win
  s.command own win code (fun s' => s'.runCommand ep win (s'.winVf win) code m.arg0 m.arg1)

/-- Command 14 of the physical function's window (22 R424, R425). -/
def State.pfRead (s : State) : CmdRes :=
  match (s.ctx (s.winVf .pf)).mgmt.get s.pf.arg0.toNat with
  | some v => { s, code := 0, value := v, busy := false }
  | none => .done s 2

/-- Command 15 of the physical function's window: a P write (22 R424, R425). -/
def State.pfWrite (s : State) (ep : Nat) : CmdRes :=
  let vf := s.winVf .pf
  let off := s.pf.arg0.toNat
  let v := s.pf.arg1
  if off = 0x80 then .done (s.plainCommand ep true (.vf vf) (loWord v).toNat) 0
  else if off = 0x18 then .done (s.mgmtWrite ep .pf off v) 0
  else if pRegister off then
    match s.regPut vf off v with
    | some s => .done s 0
    | none => .done s 2
  else if [0x88, 0x90, 0x98, 0xA0].contains off then .done (s.modCtx vf (fun c => { c with mgmt := c.mgmt.setArg off v })) 0
  else .done s 2

/-- A write to CMD of any code (22 R425). -/
def State.writeCmd (s : State) (ep : Nat) (win : Win) (code : Nat) : State :=
  if win = .pf && (code = 14 || code = 15) then
    s.command true win code (fun s => if (s.ctx (s.winVf .pf)).state = .torn then .done s 4 else if code = 14 then s.pfRead else s.pfWrite ep)
  else s.plainCommand ep (s.isOwner ep win) win code

/-- A command event: a host endpoint writes its code to the window's CMD. -/
def State.cmdEvent (s : State) (row : String) (code : Nat) (ok : Mgmt → Bool) : Host.Outcome State Fault Refusal :=
  if 384 ≤ s.occ.a && s.occ.a < 512 && s.winVf s.occ.win < 1024 && ok (s.winMgmt s.occ.win) then .next (s.writeCmd s.occ.a s.occ.win code)
  else .refused (.notEnabled row)

/-- SHOOTDOWN (01 R42; 22 R425). -/
def execShootdown (s : State) : Host.Outcome State Fault Refusal := s.cmdEvent "SHOOTDOWN" 1 (fun _ => true)
/-- DISPOSE with REPLAY, or with an argument that is no disposition (22 R425). -/
def execDisposeReplay (s : State) : Host.Outcome State Fault Refusal := s.cmdEvent "DISPOSE_REPLAY" 2 (fun m => m.arg1 != 1)
/-- DISPOSE with FAIL (22 R425). -/
def execDisposeFail (s : State) : Host.Outcome State Fault Refusal := s.cmdEvent "DISPOSE_FAIL" 2 (fun m => m.arg1 = 1)
/-- GALLERY (22 R425). -/
def execGallery (s : State) : Host.Outcome State Fault Refusal := s.cmdEvent "GALLERY" 3 (fun _ => true)
/-- NSNEW (22 R425). -/
def execNsnew (s : State) : Host.Outcome State Fault Refusal := s.cmdEvent "NSNEW" 4 (fun _ => true)
/-- NSFREE (22 R425). -/
def execNsfree (s : State) : Host.Outcome State Fault Refusal := s.cmdEvent "NSFREE" 5 (fun _ => true)
/-- COLLNEW (22 R426). -/
def execCollnew (s : State) : Host.Outcome State Fault Refusal := s.cmdEvent "COLLNEW" 6 (fun _ => true)
/-- COLLFREE (22 R425). -/
def execCollfree (s : State) : Host.Outcome State Fault Refusal := s.cmdEvent "COLLFREE" 7 (fun _ => true)
/-- PAUSE (22 R425, R428). -/
def execPause (s : State) : Host.Outcome State Fault Refusal := s.cmdEvent "PAUSE" 8 (fun _ => true)
/-- RESUME (22 R425, R428). -/
def execResume (s : State) : Host.Outcome State Fault Refusal := s.cmdEvent "RESUME" 9 (fun _ => true)
/-- MIGIN (22 R429). -/
def execMigin (s : State) : Host.Outcome State Fault Refusal := s.cmdEvent "MIGIN" 10 (fun _ => true)
/-- RESYNC (22 R430). -/
def execResync (s : State) : Host.Outcome State Fault Refusal := s.cmdEvent "RESYNC" 11 (fun _ => true)
/-- TEARDOWN (22 R425; 09 R232). -/
def execTeardown (s : State) : Host.Outcome State Fault Refusal := s.cmdEvent "TEARDOWN" 12 (fun _ => true)
/-- PFREAD (22 R424, R425). -/
def execPfread (s : State) : Host.Outcome State Fault Refusal := s.cmdEvent "PFREAD" 14 (fun _ => true)
/-- PFWRITE (22 R424, R425). -/
def execPfwrite (s : State) : Host.Outcome State Fault Refusal := s.cmdEvent "PFWRITE" 15 (fun _ => true)
/-- CMD_UNKNOWN (22 R425). -/
def execCmdUnknown (s : State) : Host.Outcome State Fault Refusal := s.cmdEvent "CMD_UNKNOWN" s.occ.b (fun _ => s.occ.b = 0 || 16 ≤ s.occ.b)

/-- SHOOTDOWN_COMPLETE (01 R42-R44; 09 R229; log 33). -/
def execShootdownComplete (s : State) : Host.Outcome State Fault Refusal :=
  let vf := s.occ.a
  match (s.ctx vf).shoot with
  | [] => .refused (.notEnabled "SHOOTDOWN_COMPLETE")
  | r :: rest =>
    if s.runHolds vf r || s.accessesLeft vf r then .refused (.notEnabled "SHOOTDOWN_COMPLETE")
    else
      let s := ((s.drainCtx vf).dropTranslations vf r).rewatchAll vf r
      let s := s.modCtx vf (fun c => { c with shoot := rest })
      .next (s.modWin r.win (fun m => { m with cmdstat := 0, result := 0 }))

/-! Side band (22: Side-band management). -/

/-- A side-band response: status, then content. -/
def State.respond (s : State) (status : Nat) (bs : List Byte) : State := s.setPkg { s.pkg with response := leBytes 1 status ++ bs }

/-- A reset event: by a window's command, or by the side band (22 R425, R432). -/
def State.resetEvent (s : State) (row : String) (grain : Nat) : Host.Outcome State Fault Refusal :=
  if s.occ.c = 1 then
    match s.resetGrain grain s.occ.b with
    | some s => .next (s.respond 0 [])
    | none => .next (s.respond 1 [])
  else s.cmdEvent row 13 (fun m => m.arg0.toNat = grain || (grain = 0 && 4 ≤ m.arg0.toNat))

/-- RESET_PARTITION (22 R432). -/
def execResetPartition (s : State) : Host.Outcome State Fault Refusal := s.resetEvent "RESET_PARTITION" 0
/-- RESET_ENGINE (22 R432). -/
def execResetEngine (s : State) : Host.Outcome State Fault Refusal := s.resetEvent "RESET_ENGINE" 1
/-- RESET_LINK (22 R432). -/
def execResetLink (s : State) : Host.Outcome State Fault Refusal := s.resetEvent "RESET_LINK" 2
/-- RESET_PACKAGE (22 R432). -/
def execResetPackage (s : State) : Host.Outcome State Fault Refusal := s.resetEvent "RESET_PACKAGE" 3

/-- SB_RESYNC (22): segment 0 takes a new record. -/
def execSbResync (s : State) : Host.Outcome State Fault Refusal :=
  let seg := s.occ.a
  if 64 ≤ seg then .next (s.respond 1 [])
  else
    let s := if seg = 0 then
        let (bs, s) := s.resyncRecord none
        s.setPkg { s.pkg with sideBand := bs }
      else s
    .next (s.respond 0 ((s.pkg.sideBand.drop (64 * seg)).take 64))

/-- A partition entry from its bytes, over what it was (08 R202). What its meter has sampled of other clusters, or while the entry was not
active, is no sample of the partition (21 R416). -/
def Part.ofBytes (p : Part) (bs : List Byte) : Part :=
  let q : Part := { p with
    base := fieldAt bs 0 1, limit := fieldAt bs 1 1, state := fieldAt bs 2 1, sgroup := fieldAt bs 3 1, vf := fieldAt bs 4 2, colours := fieldAt bs 6 2
    watts := fieldAt bs 8 2, lend := fieldAt bs 10 1 }
  if p.state = 1 && q.state = 1 && p.base = q.base && p.limit = q.limit then q else { q with samples := [] }

/-- Whether a partition table would hold overlapping ranges that are active, or active once their reset ends, or pass 520 W
(08 R202; 21 R416; 22 R432). -/
def partsBad (ps : SMap Part) : Bool :=
  let act := ps.filter (fun p => p.2.state != 0)
  520 < (act.filter (fun p => p.2.state = 1)).foldl (fun n p => n + p.2.watts) 0 ||
  act.any (fun a => act.any (fun b => a.1 < b.1 && a.2.base ≤ b.2.limit && b.2.base ≤ a.2.limit))

/-- PARTW (08 R202; 21 R416; 22): a field outside its rule is refused too. -/
def execPartw (die entry : Nat) (bytes : List Byte) (s : State) : Host.Outcome State Fault Refusal :=
  if 4 ≤ die || 16 ≤ entry || bytes.length != 16 then .next (s.respond 1 [])
  else
    let d := s.die die
    let p := (tget Part.init d.parts entry).ofBytes bytes
    let parts := tset Part.init d.parts entry p
    if 2 < p.state || p.limit < p.base || 63 < p.limit || 1023 < p.vf || 3 < p.lend || !((bytes.drop 11).all (· = 0)) || partsBad parts then
      .next (s.respond 1 [])
    else .next ((s.setDie die { d with parts }).respond 0 [])

/-- STEALGRP (07 R184; 22). -/
def execStealgrp (s : State) : Host.Outcome State Fault Refusal :=
  if s.occ.a < 4 && s.occ.b < 16 && s.occ.c < 256 then .next ((s.modPart s.occ.a s.occ.b (fun p => { p with sgroup := s.occ.c })).respond 0 [])
  else .next (s.respond 1 [])

/-- OWNER (22 R422). -/
def execOwner (s : State) : Host.Outcome State Fault Refusal :=
  if s.occ.a < 1024 && 384 ≤ s.occ.b && s.occ.b < 512 then .next ((s.modCtx s.occ.a (fun c => { c with owner := s.occ.b })).respond 0 [])
  else .next (s.respond 1 [])

/-- SB_TEARDOWN (22; 09 R232). -/
def execSbTeardown (s : State) : Host.Outcome State Fault Refusal :=
  if s.occ.a < 1024 && (s.ctx s.occ.a).state != .torn then .next ((s.teardown s.occ.a 1).respond 0 []) else .next (s.respond 1 [])

/-- SENSCLR (21 R417; 22): the cluster's temperature is decided again at the next sample. -/
def execSensclr (s : State) : Host.Outcome State Fault Refusal :=
  if s.occ.a < 256 && s.occ.b < 3 then
    .next ((s.modCluster s.occ.a (fun c => { c with
      sensors := (c.sensors.take s.occ.b) ++ ((c.sensors.drop s.occ.b).take 1).map (fun x => { x with voted := false, past := [] }) ++
        c.sensors.drop (s.occ.b + 1) })).respond 0 [])
  else .next (s.respond 1 [])

/-! Firmware (22 R431; log 21). -/

/-- FWSTAGE (22 R431). -/
def execFwstage (off : Nat) (bytes : List Byte) (s : State) : Host.Outcome State Fault Refusal :=
  if 56 < bytes.length || s.pkg.handoff = 2 then .next (s.respond 1 [])
  else .next ((s.setPkg { s.pkg with
    handoff := 1, staged := ((List.range bytes.length).zip bytes).foldl (fun m (p : Nat × Byte) => tins m (off + p.1) p.2) s.pkg.staged }).respond 0 [])

/-- The staged image (22 R431). -/
def Package.stagedImage (p : Package) : List Byte :=
  (List.range (p.staged.foldl (fun n b => max n (b.1 + 1)) 0)).map (fun i => tget 0 p.staged i)

/-- FWACT (22 R431): an image that does not authenticate is refused; one that does is handed off die by die. -/
def execFwact (s : State) : Host.Outcome State Fault Refusal :=
  let img := s.pkg.stagedImage
  if s.pkg.handoff != 1 || !Config.authentic img then .next (s.respond 1 [])
  else .next ((s.setPkg { s.pkg with image := Config.imageVersion img, digest := Config.sha384 img, handoff := 2, nextHandoff := 0, staged := [] }).respond 0 [])

/-- SCHEDULER_HANDOFF (22 R431; 08 R201): the next die's scheduler core is reset into the new code. -/
def execSchedulerHandoff (s : State) : Host.Outcome State Fault Refusal :=
  let die := s.occ.a
  if s.pkg.handoff = 2 && die = s.pkg.nextHandoff && die < 4 then
    let s := s.modDie die (fun d => { d with schedVer := s.pkg.image, schedRst := d.schedRst + 1, schedDown := true, heartAt := s.pkg.ticks })
    .next (s.setPkg { s.pkg with nextHandoff := die + 1, handoff := if die = 3 then 0 else 2 })
  else .refused (.notEnabled "SCHEDULER_HANDOFF")

end Sys2Proof.Machine
end

