-- ==== Sys2Proof/Machine/Power.lean ====
section
/-! DEFINITION. Rails, boost, the partition meter and throttle, and temperature (21 R407-R418). -/
namespace Sys2Proof.Machine

/-- A cluster with no resident wave and no engine operation in progress (21 R407). -/
def State.idleCluster (s : State) (k : Nat) : Bool :=
  !s.waves.any (fun p => clusterOf p.2.core = k && !p.2.exited && p.2.resident) &&
  !s.units.any (fun p => clusterOf p.2.core = k && !p.2.released && p.2.saved.isNone && (List.range 8).any (fun e => !(p.2.ctx e).ops.isEmpty))

/-- A cluster changed, and its clock moved to its lowest limit (21 R409). -/
def State.modClock (s : State) (k : Nat) (f : ClusterSt → ClusterSt) : State :=
  let idle := s.idleCluster k
  let held := s.matrixHeld k
  s.modCluster k (fun c => (f c).reclock s.pkg.ticks idle held)

/-- BOOST_INTERVAL_END (21 R408, R410, R411): the next interval's class, and the debit. -/
def execBoostIntervalEnd (s : State) : Host.Outcome State Fault Refusal :=
  let k := s.occ.a
  let c := s.cluster k
  if k < 256 && c.intervalAt + 500 ≤ s.pkg.ticks then
    let pays := c.boostSeen && c.permits != 0
    let spent := pays && c.permits = 1
    .next (s.modClock k (fun c => { c with
      intervalAt := c.intervalAt + 500, matrixHeavy := c.matrixSeen, matrixSeen := s.matrixHeld k, boostSeen := false
      permits := if pays then c.permits - 1 else c.permits
      denied := c.denied || spent, stepDue := if spent then some (s.pkg.ticks + 200) else c.stepDue
      stepCap := if spent then min 1800 c.mhz else c.stepCap }))
  else .refused (.notEnabled "BOOST_INTERVAL_END")

/-- BOOST_STEPDOWN (21 R411): the second step. -/
def execBoostStepdown (s : State) : Host.Outcome State Fault Refusal :=
  let k := s.occ.a
  if (s.cluster k).stepDue.any (· ≤ s.pkg.ticks) then .next (s.modClock k (fun c => { c with stepDue := none }))
  else .refused (.notEnabled "BOOST_STEPDOWN")

/-- PERMIT_REFILL (21 R411, R412): boost is no longer denied once the budget holds 4. -/
def execPermitRefill (s : State) : Host.Outcome State Fault Refusal :=
  let k := s.occ.a
  let c := s.cluster k
  if k < 256 && c.mhz ≤ 1600 && c.permits < 64 && c.refillFrom + 2000 ≤ s.pkg.ticks then
    .next (s.modClock k (fun c => { c with
      permits := c.permits + 1, refillFrom := c.refillFrom + 2000, denied := c.denied && c.permits + 1 < 4 }))
  else .refused (.notEnabled "PERMIT_REFILL")

/-- The metered power of a die's clusters in milliwatts, as its arbiter's measure of current (21 R413; log 35). -/
def State.dieCurrent (s : State) (die : Nat) : Nat :=
  s.clusters.foldl (fun n p => if p.1 / 64 = die then n + p.2.power else n) 0

/-- BOOST_GRANT (21 R413): the oldest request, ties to the lower cluster. -/
def execBoostGrant (s : State) : Host.Outcome State Fault Refusal :=
  let die := s.occ.a
  let asks := s.clusters.filterMap (fun p => if p.1 / 64 = die && !p.2.granted then p.2.requestedAt.map (fun t => (t, p.1)) else none)
  match asks with
  | [] => .refused (.notEnabled "BOOST_GRANT")
  | r :: rs =>
    if s.dieCurrent die < (s.die die).boostLimit then
      let best := rs.foldl (fun (b r : Nat × Nat) => if r.1 < b.1 || (r.1 = b.1 && r.2 < b.2) then r else b) r
      .next (s.modClock best.2 (fun c => { c with granted := true }))
    else .refused (.notEnabled "BOOST_GRANT")

/-- Whether a cluster runs from the high rail, by its limits: a clock above 1.2 GHz needs it (21 R407). -/
def State.wantsHigh (s : State) (k : Nat) : Bool := !s.idleCluster k && !(s.cluster k).pinned && 1200 < (s.cluster k).target

/-- RAIL_SWITCH (21 R407): a rising switch raises the clock when it has ended; a falling one begins with the clock at 1.2 GHz or below. It
ends on the rail it began for. -/
def execRailSwitch (s : State) : Host.Outcome State Fault Refusal :=
  let k := s.occ.a
  let up : Bool := s.occ.b = 1
  let c := s.cluster k
  if s.occ.c = 1 then
    if c.switching then .next (s.modClock k (fun c => { c with switching := false, railHigh := c.switchHigh }))
    else .refused (.notEnabled "RAIL_SWITCH")
  else if k < 256 && !c.switching && c.railHigh != up && s.wantsHigh k = up then
    .next (s.modCluster k (fun c => { c.runAt s.pkg.ticks (min c.mhz 1200) with switching := true, switchHigh := up, switchAt := s.pkg.ticks }))
  else .refused (.notEnabled "RAIL_SWITCH")

/-- The entries of a window of 10 ms, newest first, with the last one before it (21 R417). -/
def keepWindow {α : Type} (now : Nat) : List (Nat × α) → List (Nat × α)
  | [] => []
  | x :: xs => if now < x.1 + 1000000 then x :: keepWindow now xs else [x]

/-- A cluster's metered power. -/
def ClusterSt.metered (c : ClusterSt) (now power : Nat) : ClusterSt := { c with power, powers := keepWindow now ((now, power) :: c.powers) }

/-- The samples of the last 10 us (21 R416). -/
def Part.recent (p : Part) (now : Nat) : List (Nat × Nat) := p.samples.filter (fun x => now < x.1 + 1000)

/-- The mean of a partition's power over the last 10 us, in milliwatts, once its meter has sampled for as long (21 R416). -/
def Part.mean (p : Part) (now : Nat) : Option Nat :=
  let r := p.recent now
  if r.any (fun x => x.1 + 900 ≤ now) then some ((r.map (·.2)).foldl (· + ·) 0 / r.length) else none

/-- METER_SAMPLE (21 R416): the partition's power each microsecond; each of its clusters is taken to draw an equal share (log 35). -/
def execMeterSample (s : State) : Host.Outcome State Fault Refusal :=
  let die := s.occ.a
  let e := s.occ.b
  let p := s.part die e
  let ks := ((s.partCores die e).map clusterOf).eraseDups
  if p.state = 1 && p.sampleAt + 100 ≤ s.pkg.ticks then
    let now := s.pkg.ticks
    let each := s.occ.c / max 1 ks.length
    let s := s.modPart die e (fun p => { p with samples := (now, s.occ.c) :: p.recent now, sampleAt := now })
    .next (ks.foldl (fun s k => s.modCluster k (fun c => c.metered now each)) s)
  else .refused (.notEnabled "METER_SAMPLE")

/-- Which way a partition's throttle moves, if either: down above WATTS, up below 95 % of it (21 R416). -/
def State.throttleMove (s : State) (die e : Nat) : Option Bool :=
  let p := s.part die e
  let ks := ((s.partCores die e).map clusterOf).eraseDups
  match if p.state = 1 then p.mean s.pkg.ticks else none with
  | none => none
  | some x =>
    if 1000 * p.watts < x then (if ks.any (fun k => 800 < (s.cluster k).throttleMhz) then some false else none)
    else if 100 * x < 95 * (1000 * p.watts) then (if ks.any (fun k => (s.cluster k).throttleMhz < 2000) then some true else none)
    else none

/-- THROTTLE_STEP (21 R416): 100 MHz down above WATTS, 100 MHz up below 95 % of it, each 10 us. -/
def execThrottleStep (s : State) : Host.Outcome State Fault Refusal :=
  let die := s.occ.a
  let e := s.occ.b
  match s.throttleMove die e with
  | none => .refused (.notEnabled "THROTTLE_STEP")
  | some up =>
    if (s.part die e).throttleAt + 1000 ≤ s.pkg.ticks then
      let ks := ((s.partCores die e).map clusterOf).eraseDups
      let s := s.modPart die e (fun p => { p with throttleAt := s.pkg.ticks })
      .next (ks.foldl (fun s k => s.modClock k (fun c => { c with
        throttleMhz := if up then min 2000 (c.throttleMhz + 100) else max 800 (min c.throttleMhz c.mhz - 100) })) s)
    else .refused (.notEnabled "THROTTLE_STEP")

/-- The median of some readings; of an even number, the mean of the middle two. -/
def median (xs : List Int) : Option Int :=
  let ys := xs.mergeSort (· ≤ ·)
  match ys with
  | [] => none
  | _ => some ((ys.getD ((ys.length - 1) / 2) 0 + ys.getD (ys.length / 2) 0) / 2)

/-- Temperatures of the neighbouring clusters whose sensors have been read; those next in number on the die are taken to be the neighbours
(21 R417; log 35). -/
def State.neighbours (s : State) (k : Nat) : List Int :=
  ([k - 1, k + 1].filter (fun j => j != k && j / 64 = k / 64 && (s.cluster j).sensors.any (fun x => !x.past.isEmpty))).filterMap
    (fun j => (s.cluster j).temp)

/-- Whether a value in a list, newest first, differs by more than 10 % from an older one (21 R417). -/
def changes : List Nat → Bool
  | [] => false
  | p :: ps => ps.any (fun q => q < 10 * (max p q - min p q)) || changes ps

/-- Whether readings span at most 0.25 degrees over 10 ms (21 R417). -/
def steady (now : Nat) (xs : List (Nat × Int)) : Bool :=
  xs.any (fun x => x.1 + 1000000 ≤ now) && xs.all (fun x => xs.all (fun y => (x.2 - y.2).natAbs ≤ 25))

/-- A sensor's reading taken, in hundredths of a degree, and its vote (21 R417). -/
def Sensor.sample (x : Sensor) (now : Nat) (powers : List Nat) (near : Option Int) (t : Int) : Sensor :=
  let past := keepWindow now ((now, t) :: x.past)
  let far := near.any (fun m => 800 < (t - m).natAbs)
  { reading := t, voted := x.voted || t < -4000 || 15000 < t || (steady now past && changes powers) || far, past }

/-- The temperature that the sensors not voted out decide (21 R417). -/
def decideTemp (xs : List Sensor) : Option Int :=
  match (xs.filter (fun x => !x.voted)).map (fun x => x.reading) with
  | [] => none
  | [a] => some a
  | [a, b] => some (max a b)
  | ys => median ys

/-- Whether a cluster is hot, and whether it is pinned, as its temperature says (21 R417, R418). -/
def ClusterSt.heed (c : ClusterSt) : Bool × Bool :=
  match c.temp with
  | none => (c.hot, true)
  | some t => (10000 ≤ t || (c.hot && 9500 ≤ t), 11000 ≤ t || (c.pinned && 9500 ≤ t))

/-- A cluster that has taken heed of its temperature: boost is withdrawn at 100 degrees, it is pinned at 110, and the limit ends below 95. -/
def ClusterSt.heeds (c : ClusterSt) : ClusterSt :=
  { c with hot := c.heed.1, pinned := c.heed.2, thermalMhz := if c.heed.1 then c.thermalMhz else 2000 }

/-- The management controller is notified when a cluster comes to 110 degrees (21 R418). -/
def State.notifyHot (s : State) (k : Nat) (before : Option Int) : State :=
  if (s.cluster k).temp.any (11000 ≤ ·) && !before.any (11000 ≤ ·) then s.setPkg { s.pkg with hotNotices := s.pkg.hotNotices ++ [k] } else s

/-- SENSOR_SAMPLE (21 R417, R418, R420): a sample that votes a sensor out leaves the temperature to the next one. -/
def execSensorSample (cluster : Nat) (t0 t1 t2 : Int) (s : State) : Host.Outcome State Fault Refusal :=
  if 256 ≤ cluster then .refused (.notEnabled "SENSOR_SAMPLE")
  else
    let near := median (s.neighbours cluster)
    let now := s.pkg.ticks
    let before := s.cluster cluster
    let s := s.modClock cluster (fun c =>
      let powers := (keepWindow now c.powers).map (·.2)
      let xs := (c.sensors.zip [t0, t1, t2]).map (fun (p : Sensor × Int) => p.1.sample now powers near p.2)
      let voting := (c.sensors.zip xs).any (fun p => p.1.voted != p.2.voted)
      ({ c with sensors := xs, temp := if voting then c.temp else decideTemp xs }).heeds)
    .next (s.notifyHot cluster before.temp)

/-- Whether a thermal step is due: the temperature has not been heeded, or 10 us have passed since the last step (21 R418). -/
def ClusterSt.thermalDue (c : ClusterSt) (now : Nat) : Bool :=
  c.heed != (c.hot, c.pinned) || (c.hot && 800 < c.thermalMhz && c.thermalAt + 1000 ≤ now)

/-- THERMAL_STEP (21 R418): 100 MHz down each 10 us, while the cluster is hot. -/
def execThermalStep (s : State) : Host.Outcome State Fault Refusal :=
  let k := s.occ.a
  let now := s.pkg.ticks
  if k < 256 && (s.cluster k).thermalDue now then
    .next (s.modClock k (fun c =>
      let c := c.heeds
      if c.hot && 800 < c.thermalMhz && c.thermalAt + 1000 ≤ now then
        { c with thermalAt := now, thermalMhz := max 800 (min c.thermalMhz c.mhz - 100) }
      else c))
  else .refused (.notEnabled "THERMAL_STEP")

end Sys2Proof.Machine
end

