-- ==== Sys2Proof/Machine/Fabric.lean ====
section
/-! DEFINITION. Draining, hosts and remote packages, remote completions, storage errors, links, and clause flags
(03 R80, R103; 02 R48, R57, R72; 09 R227; 22 R421, R422; 01 R20; 12 R273). -/
namespace Sys2Proof.Machine

/-- Whether an agent exists. -/
def State.hasAgent (s : State) : Agent → Bool
  | .lane w l => (tfind? s.waves w).isSome && l < 32
  | .op u e n => (((s.unit u).ctx e).op? n).isSome
  | .fabric p => p < 384 && p != Config.packageNumber

/-- DRAIN (03 R80): an entry that is the oldest of each of its locations. -/
def execDrain (ag : Agent) (idx : Nat) (s : State) : Host.Outcome State Fault Refusal :=
  if s.hasAgent ag && drainable (s.agent ag).queue idx then .next (s.drainOne ag idx) else .refused (.notEnabled "DRAIN")

/-- What a package-relative physical address names for a host or another package (01 R26; 22 R422). -/
inductive PaSpace where
  | memory
  | launchWin (vf off : Nat)
  | mgmtWin (w : Win) (off : Nat)
  | hole
deriving DecidableEq, Repr

/-- The space of n bytes at an address. -/
def paSpace (pa n : Nat) : PaSpace :=
  if pa + n ≤ 2 ^ 38 then .memory
  else if 0x100_0000_0000 ≤ pa && pa + n ≤ 0x100_0000_0000 + Config.mezzBytes then .memory
  else if 0x7FE_0000_0000 ≤ pa && pa < 0x7FE_0001_0000 then .mgmtWin .pf (pa - 0x7FE_0000_0000)
  else if 0x7FF_0000_0000 ≤ pa && pa < 0x7FF_0400_0000 then
    let off := (pa - 0x7FF_0000_0000) % 65536
    let vf := (pa - 0x7FF_0000_0000) / 65536
    if off < 0x1000 then .launchWin vf off else .mgmtWin (.vf vf) (off - 0x1000)
  else .hole

/-- A write to a launch window: its part in the slots, then the doorbell where the write covers it (08 R189, R190; log 73). -/
def State.launchBytesWrite (s : State) (vf off : Nat) (bs : List Byte) : State :=
  let s := if off < 0x400 then s.slotWrite vf off bs else s
  if off ≤ 0x400 && 0x404 ≤ off + bs.length then s.doorbell vf (fieldAt bs (0x400 - off) 4) else s

/-- The bytes of a window's registers from an offset: those of no register read 0 (22 R423). -/
def State.mgmtRead (s : State) (w : Win) (off n : Nat) : List Byte :=
  (List.range n).map (fun i => ((mgmtOffsets.find? (fun r => r ≤ off + i && off + i < r + mgmtSize r)).map (fun r =>
    let m := if 0x80 ≤ r then s.winMgmt w else (s.ctx (s.winVf w)).mgmt
    BitVec.ofNat 8 (((m.get r).map (·.toNat)).getD 0 / 256 ^ (off + i - r)))).getD 0)

/-- A write to a management window, register by register in ascending order: a register that it covers in part keeps what its other bytes
hold (22 R423; log 73). -/
def State.mgmtBytes (s : State) (ep : Nat) (w : Win) (off : Nat) (bs : List Byte) : State :=
  (mgmtOffsets.filter (fun r => r < off + bs.length && off < r + mgmtSize r)).foldl (fun s r =>
    let old := s.mgmtRead w r (mgmtSize r)
    let v := leNat ((List.range (mgmtSize r)).map (fun i => if off ≤ r + i && r + i < off + bs.length then bs.getD (r + i - off) 0 else old.getD i 0))
    if r = 0x80 then s.writeCmd ep w v else s.mgmtWrite ep w r (BitVec.ofNat 64 v)) s

/-- HOST_WRITE (03 R103; 22 R422): to memory, or to a window's registers. -/
def execHostWrite (ep pa : Nat) (bytes : List Byte) (s : State) : Host.Outcome State Fault Refusal :=
  if ep < 384 || 512 ≤ ep || bytes.isEmpty then .refused (.notEnabled "HOST_WRITE")
  else match paSpace pa bytes.length with
    | .memory => .next (s.hostStore pa bytes)
    | .launchWin vf off => .next (s.launchBytesWrite vf off bytes)
    | .mgmtWin w off => .next (if 1024 ≤ s.winVf w then s else s.mgmtBytes ep w off bytes)
    | .hole => .fault (.physicalHole pa)

/-- Bytes handed to a host or a remote package, newest first; none where a sector delivers poison. -/
def State.deliver (s : State) (who pa : Nat) (bs : List Byte) : State :=
  s.setPkg { s.pkg with hostReads := (who, pa, if (List.range bs.length).any (fun i => s.poisoned (pa + i)) then [] else bs) :: s.pkg.hostReads }

/-- HOST_READ (03 R103; 22 R422): of a window, every register that the bytes read belong to. -/
def execHostRead (s : State) : Host.Outcome State Fault Refusal :=
  let ep := s.occ.a
  let pa := s.occ.b
  let n := s.occ.c
  let put := fun (bs : List Byte) => s.setPkg { s.pkg with hostReads := (ep, pa, bs) :: s.pkg.hostReads }
  if ep < 384 || 512 ≤ ep || n = 0 || 4096 < n then .refused (.notEnabled "HOST_READ")
  else match paSpace pa n with
    | .memory => .next (s.deliver ep pa ((s.mem.under 0).bytes pa n))
    | .launchWin vf off => .next (put ((List.range n).map (fun i =>
        BitVec.ofNat 8 ((s.ctx vf).launchReg ((off + i) / 4 * 4) / 256 ^ ((off + i) % 4)))))
    | .mgmtWin w off => .next (put (s.mgmtRead w off n))
    | .hole => .fault (.physicalHole pa)

/-- Whether n bytes lie in some runs. -/
def meetsRuns (rs : List (Nat × Nat)) (pa n : Nat) : Bool := rs.any (fun r => pa < r.1 + r.2 && r.1 < pa + n)

/-- Whether n bytes lie in pages that a context mapped when it was torn down, and that no other context has come to map (09 R233; log 25). -/
def State.tornPage (s : State) (pa n : Nat) : Bool :=
  s.ctxs.any (fun c => c.2.state = .torn && meetsRuns c.2.tornRuns pa n) &&
  !s.ctxs.any (fun c => c.2.state != .torn && meetsRuns (s.mappedRuns c.1) pa n)

/-- Whether n bytes lie in what a torn-down context's key encrypted (02 R74; 09 R233; log 25). -/
def State.tornAt (s : State) (pa n : Nat) : Bool :=
  (List.range (n / 64 + 2)).any (fun i =>
    let k := pa / 64 + i
    let o := tget SectorKey.none s.mem.keys k
    64 * k < pa + n && o.key = 0 && o.lost != 0)

/-- REL by another package's agent (03 R86, R103): what it has observed of the runs that it gives as bound goes to the object's set. -/
def State.fabricRel (s : State) (ag : Agent) (pa v : Nat) (runs : List (Nat × Nat)) : State :=
  let objs := s.objectRuns pa
  let s := s.drainWhere ag (fun y => inRuns [(pa, 8)] y || inRuns runs y)
  let s := s.relMerge (.sync pa) ((s.agent ag).view.filter (fun p => inRuns runs p.1 && !inRuns objs p.1))
  (s.storeNow (plainWrite pa 8 v) (s.agentKey ag)).viewLatest ag ((List.range 8).map (pa + ·))

/-- Whether a key index is assigned: those of contexts that have keys, and any other that system software may give a mapping context
(02 R71; log 25). -/
def State.keyAssigned (s : State) (k : Nat) : Bool := 1 ≤ k && k < 4096 && (1024 < k || (s.ctx (k - 1)).keyed)

/-- FABRIC_ACCESS (03 R103; 22 R422): a remote package's step on this package's memory, under the key index that its occasion names, as
assigned to the mapping context (02 R71). The function spaces, and what belonged to a context torn down (09 R233), fail at their issuer. -/
def execFabricAccess (pkg pa : Nat) (acc : FabricOp) (s : State) : Host.Outcome State Fault Refusal :=
  let ag := Agent.fabric pkg
  let fail := Host.Outcome.next (s.setPkg { s.pkg with hostReads := (pkg, pa, []) :: s.pkg.hostReads })
  let on := fun (n : Nat) (k : State) => match paSpace pa n with
    | .memory => if !s.keyAssigned s.occ.a || s.tornAt pa n || s.tornPage pa n then fail else .next k
    | .hole => .fault (.physicalHole pa)
    | _ => fail
  if !s.hasAgent ag || s.occ.a = 0 || 4096 ≤ s.occ.a then .refused (.notEnabled "FABRIC_ACCESS")
  else match acc with
    | .read n =>
      let (bs, s') := s.readStep ag ((List.range n).map (pa + ·))
      on n (s'.deliver pkg pa bs)
    | .write bytes =>
      let (i, s') := s.newId
      on bytes.length (s'.queueWrite ag (plainBytes pa bytes) i)
    | .atom sub ty v =>
      let n := if wide ty then 8 else 4
      let (o, s') := s.atomicStep ag pa n (fun o => some (atomNew sub ty o v))
      if 11 < sub || !atomTypeOk sub ty then .refused (.notEnabled "FABRIC_ACCESS") else on n (s'.deliver pkg pa (leBytes n o))
    | .cas n old new =>
      let (o, s') := s.atomicStep ag pa n (fun o => if o = old % 2 ^ (8 * n) then some new else none)
      if n != 4 && n != 8 then .refused (.notEnabled "FABRIC_ACCESS") else on n (s'.deliver pkg pa (leBytes n o))
    | .fence system =>
      let ks := if system then [RKey.fence 5 0, .fence 6 0] else [RKey.fence 5 0]
      let s := ks.foldl (fun s k => s.fullRelease ag k) s
      .next (ks.foldl (fun s k => s.fullAcquire ag k) s)
    | .rel v runs => on 8 (s.fabricRel ag pa v runs)
    | .acq =>
      let (v, s') := s.acqStep ag pa
      on 8 (s'.deliver pkg pa (leBytes 8 v))

/-- REMOTE_LOAD_COMPLETE (09 R227; 03 R103; 22 R421): the access issues again, to take its effect or its fault. None succeeds that no port
reaches any more. -/
def execRemoteLoadComplete (s : State) : Host.Outcome State Fault Refusal :=
  let w := s.occ.a
  match s.waitOf w s.occ.b with
  | some (.hold (.remote locs)) =>
    if s.awake w then
      let m := s.waiters w s.occ.b
      let s := s.modWave w (fun v => if s.occ.c = 1 && !locs.any s.cutOff then { v with remoteOk := v.remoteOk ||| m } else { v with remoteBad := v.remoteBad ||| m })
      .next (s.endHold w m)
    else .refused (.notEnabled "REMOTE_LOAD_COMPLETE")
  | _ => .refused (.notEnabled "REMOTE_LOAD_COMPLETE")

/-- REMOTE_STORE_FAIL (09 R225, R227; 22 R421): of an agent's queued store, which fails on its way; under a fabric agent's name, the record
of one that no port took. -/
def execRemoteStoreFail (ag : Agent) (idx : Nat) (s : State) : Host.Outcome State Fault Refusal :=
  let a := s.agent ag
  match ag, s.failed[idx]?, a.queue[idx]? with
  | .fabric _, some r, _ => .next (({ s with failed := s.failed.eraseIdx idx } : State).postFault r.1 r.2)
  | .fabric _, none, _ => .refused (.notEnabled "REMOTE_STORE_FAIL")
  | _, _, some e =>
    if s.hasAgent ag && drainable a.queue idx && e.bytes.any (fun p => isRemote p.1) then
      .next ((s.failRec ag e).foldl (fun s r => s.postFault r.1 r.2) (s.setAgent ag { a with queue := a.queue.eraseIdx idx }))
    else .refused (.notEnabled "REMOTE_STORE_FAIL")
  | _, _, none => .refused (.notEnabled "REMOTE_STORE_FAIL")

/-- MEMBER_RESIDENT_WAKE (01 R20; 06 R169). -/
def execMemberResidentWake (s : State) : Host.Outcome State Fault Refusal :=
  let w := s.occ.a
  match s.waitOf w s.occ.b, (s.unit (s.wave w).unit).group with
  | some (.hold (.member m)), some (g, _) =>
    if s.awake w && (s.memberUnit g m).any (fun y => (s.unit y).begun) then .next (s.endHold w (s.waiters w s.occ.b))
    else .refused (.notEnabled "MEMBER_RESIDENT_WAKE")
  | _, _ => .refused (.notEnabled "MEMBER_RESIDENT_WAKE")

/-- Bytes of a buffer of a unit, or none where there is no such buffer. -/
def UnitSt.bufSize? (u : UnitSt) (buf : Nat) : Option Nat := if buf ≤ 3 then some (u.bufBytes buf) else none

/-- The path of a typed buffer (01 R14): 0x4 weights, 0x5 activations, 0x6 accumulators, 0x2 scratchpad. -/
def bufPath (buf : Nat) : Nat := if buf = 3 then 2 else 4 + buf

/-- The tiles of a unit that hold a byte of a buffer (02 R57, R58). -/
def UnitSt.tilesAt (u : UnitSt) (buf off : Nat) : List Nat :=
  (u.tiles.filter (fun t => t.2.cfg && (geomOf t.2.desc).buf = buf && (geomOf t.2.desc).off ≤ off && off < (geomOf t.2.desc).off + (geomOf t.2.desc).size)).map (·.1)

/-- An uncorrectable word of a unit's buffer (02 R57; 09 R227). The record's SLOT is the unit's first wave slot, and its PC is a free value (log 36). -/
def State.badBufWord (s : State) (u buf off : Nat) : State :=
  let x := s.unit u
  let k := locBuf buf u off / 8
  let s := { s with mem := { s.mem with bad := if s.mem.bad.contains k then s.mem.bad else k :: s.mem.bad } }
  let s := s.modCore x.core (fun c => { c with uncorrectable := c.uncorrectable + 1 })
  let s := s.setPkg { s.pkg with uncorrectable := s.pkg.uncorrectable + 1 }
  let s := (x.tilesAt buf off).foldl (fun s t => s.modUnit u (fun x => x.setTile t { x.tile t with err := true })) s
  let s := if x.ended then s
    else x.waves.foldl (fun s w => if (s.wave w).exited then s else s.modWave w (fun v => { v with storageTrap := true })) s
  let (i0, s) := s.draw
  let (i1, s) := s.draw
  s.postFault x.vf {
    kind := 3, code := Code.storage, reason := 0, access := 9, core := x.core, slot := x.wslot, lane := 0xFF, lid := (s.launch x.launch).lid
    addr := BitVec.ofNat 64 (bufPath buf * 2 ^ 60 + off / 8 * 8), pc := pairOf (Config.freeWord i0) (Config.freeWord i1), subject := .none }

/-- The sector of DRAM that a storage error names: as 4 at a physical address, as 5 in the Gallery window of a context on a die (02 R72; 01 R21). -/
def State.dramSector (s : State) (u buf off : Nat) : Option Nat :=
  if buf = 4 then (if classFits 0 off || classFits 2 off then some (off / 64) else none)
  else if buf = 5 then (if off < tget 0 (s.ctx (u / 4)).galWin (u % 4) then some (locGallery (u / 4) (u % 4) off / 64) else none)
  else none

/-- STORAGE_ERROR (02 R57, R72; 09 R227): in a typed buffer 0 to 3 of a unit, or in a sector of DRAM. -/
def execStorageError (u buf off : Nat) (corrected : Bool) (s : State) : Host.Outcome State Fault Refusal :=
  let x := s.unit u
  if 4 ≤ buf then
    match s.dramSector u buf off with
    | none => .refused (.notEnabled "STORAGE_ERROR")
    | some k =>
      if corrected then .next (s.setPkg { s.pkg with corrected := s.pkg.corrected + 1 })
      else
        let s := { s with mem := { s.mem with poison := tins s.mem.poison k [] } }
        .next (s.setPkg { s.pkg with poisonedCount := s.pkg.poisonedCount + 1 })
  else match x.bufSize? buf with
    | none => .refused (.notEnabled "STORAGE_ERROR")
    | some n =>
      if x.released || x.saved.isSome || n ≤ off then .refused (.notEnabled "STORAGE_ERROR")
      else if corrected then
        .next ((s.modCore x.core (fun c => { c with corrected := c.corrected + 1 })).setPkg { s.pkg with corrected := s.pkg.corrected + 1 })
      else .next (s.badBufWord u buf off)

/-! Links (22 R421; 02 R48). -/

/-- A port changed. -/
def State.modLink (s : State) (port : Nat) (f : Link → Link) : State :=
  s.setPkg { s.pkg with links := tset Link.init s.pkg.links port (f (tget Link.init s.pkg.links port)) }

/-- A flit replayed (22 R421): the first replay of a flit, or another of one that has failed before. -/
def State.replayFlit (s : State) (row : String) : Host.Outcome State Fault Refusal :=
  let port := s.occ.a
  let l := tget Link.init s.pkg.links port
  if port < 32 && l.state = 2 && (s.occ.b != 1 || l.attempts < 8) then
    .next (s.modLink port (fun l => { l with replays := l.replays + 1, attempts := if s.occ.b = 1 then l.attempts + 1 else 1 }))
  else .refused (.notEnabled row)

/-- FLIT_CRC_FAIL (22 R421). -/
def execFlitCrcFail (s : State) : Host.Outcome State Fault Refusal := s.replayFlit "FLIT_CRC_FAIL"
/-- FLIT_ACK_TIMEOUT (22 R421). -/
def execFlitAckTimeout (s : State) : Host.Outcome State Fault Refusal := s.replayFlit "FLIT_ACK_TIMEOUT"

/-- LINK_DOWN (22 R421): after 8 replays of one flit. Transactions with no other port to their peer fail by their own events. -/
def execLinkDown (s : State) : Host.Outcome State Fault Refusal :=
  let port := s.occ.a
  if port < 32 && (tget Link.init s.pkg.links port).attempts = 8 then .next (s.modLink port (fun l => { l with state := 0, attempts := 0 }))
  else .refused (.notEnabled "LINK_DOWN")

/-- LINK_UP (22 R421): training ends, with the peer and its port. -/
def execLinkUp (s : State) : Host.Outcome State Fault Refusal :=
  let port := s.occ.a
  if port < 32 && (tget Link.init s.pkg.links port).state != 2 && s.occ.b < 512 && s.occ.c < 32 then
    .next (s.modLink port (fun l => { l with state := 2, peer := s.occ.b, peerPort := s.occ.c, attempts := 0 }))
  else .refused (.notEnabled "LINK_UP")

/-- MEZZANINE_PORT_FAIL (02 R48): the ports are ZN880-MC's. -/
def execMezzaninePortFail (s : State) : Host.Outcome State Fault Refusal :=
  if s.occ.a < 8 && !s.pkg.moduleMemory then .next (s.setPkg { s.pkg with mezzOff := Nat.lor s.pkg.mezzOff (2 ^ s.occ.a) })
  else .refused (.notEnabled "MEZZANINE_PORT_FAIL")

/-- Whether a lane's last word has results to write yet: it waits with its destination, or its instruction's lanes are between their steps
(12 R273; 03 R82, R102). -/
def Lane.writing (l : Lane) : Bool :=
  match l.wait with
  | some (.mwait _ _ _ _ _ _ _) => true
  | some (.joinW _ _ _ _) => true
  | some .steps => true
  | _ => false

/-- CLAUSE_FLAG_CLEAR (12 R273): every word that set the flag has written its results. -/
def execClauseFlagClear (s : State) : Host.Outcome State Fault Refusal :=
  let v := s.wave s.occ.a
  let held := (lanesOf v.live).any (fun l => (v.lane l).flag = s.occ.b && (v.lane l).writing)
  if s.occ.b < 12 && tget 0 v.flags s.occ.b != 0 && s.cur.isNone && !held then
    .next (s.modWave s.occ.a (fun v => { v with flags := tset 0 v.flags s.occ.b 0 }))
  else .refused (.notEnabled "CLAUSE_FLAG_CLEAR")

end Sys2Proof.Machine
end

