-- ==== Sys2Proof/Machine/Dispatch.lean ====
section
/-! DEFINITION. One arm per instruction of the opcode table, native, candidate and event alike: a direct call of its meaning. -/
namespace Sys2Proof.Machine

/-- What an instruction does to a state. -/
def exec (i : Instr) (s : State) : Host.Outcome State Fault Refusal :=
  match i with
  | .nop w => Sys2Proof.Machine.execNop w s
  | .bra sub cond off => Sys2Proof.Machine.execBra sub cond off s
  | .brc sub cond off => Sys2Proof.Machine.execBrc sub cond off s
  | .jmpi w => Sys2Proof.Machine.execJmpi w s
  | .call sub cond link off => Sys2Proof.Machine.execCall sub cond link off s
  | .ret w => Sys2Proof.Machine.execRet w s
  | .syncw w => Sys2Proof.Machine.execSyncw w s
  | .loop lc count body => Sys2Proof.Machine.execLoop lc count body s
  | .lbrk w => Sys2Proof.Machine.execLbrk w s
  | .exitI w => Sys2Proof.Machine.execExitI w s
  | .exitW w => Sys2Proof.Machine.execExitW w s
  | .yield w => Sys2Proof.Machine.execYield w s
  | .bkpt w => Sys2Proof.Machine.execBkpt w s
  | .trapI w => Sys2Proof.Machine.execTrapI w s
  | .barSync w => Sys2Proof.Machine.execBarSync w s
  | .barArrive w => Sys2Proof.Machine.execBarArrive w s
  | .barWait w => Sys2Proof.Machine.execBarWait w s
  | .mwait w => Sys2Proof.Machine.execMwait w s
  | .waitt w => Sys2Proof.Machine.execWaitt w s
  | .iadd w => Sys2Proof.Machine.execIadd w s
  | .isub w => Sys2Proof.Machine.execIsub w s
  | .imul w => Sys2Proof.Machine.execImul w s
  | .imulh w => Sys2Proof.Machine.execImulh w s
  | .imad w => Sys2Proof.Machine.execImad w s
  | .idiv w => Sys2Proof.Machine.execIdiv w s
  | .irem w => Sys2Proof.Machine.execIrem w s
  | .ineg w => Sys2Proof.Machine.execIneg w s
  | .iabs w => Sys2Proof.Machine.execIabs w s
  | .imin w => Sys2Proof.Machine.execImin w s
  | .imax w => Sys2Proof.Machine.execImax w s
  | .andI w => Sys2Proof.Machine.execAndI w s
  | .orI w => Sys2Proof.Machine.execOrI w s
  | .xorI w => Sys2Proof.Machine.execXorI w s
  | .andn w => Sys2Proof.Machine.execAndn w s
  | .notI w => Sys2Proof.Machine.execNotI w s
  | .shl w => Sys2Proof.Machine.execShl w s
  | .shr w => Sys2Proof.Machine.execShr w s
  | .sar w => Sys2Proof.Machine.execSar w s
  | .rot w => Sys2Proof.Machine.execRot w s
  | .bfe w => Sys2Proof.Machine.execBfe w s
  | .bfi w => Sys2Proof.Machine.execBfi w s
  | .popc w => Sys2Proof.Machine.execPopc w s
  | .clz w => Sys2Proof.Machine.execClz w s
  | .ctz w => Sys2Proof.Machine.execCtz w s
  | .brev w => Sys2Proof.Machine.execBrev w s
  | .icmp w => Sys2Proof.Machine.execIcmp w s
  | .isel w => Sys2Proof.Machine.execIsel w s
  | .movI w => Sys2Proof.Machine.execMovI w s
  | .movi d ty imm => Sys2Proof.Machine.execMovi d ty imm s
  | .cvti w => Sys2Proof.Machine.execCvti w s
  | .lea w => Sys2Proof.Machine.execLea w s
  | .prom w => Sys2Proof.Machine.execProm w s
  | .pickl w => Sys2Proof.Machine.execPickl w s
  | .vtoa w => Sys2Proof.Machine.execVtoa w s
  | .mkaff w => Sys2Proof.Machine.execMkaff w s
  | .abase w => Sys2Proof.Machine.execAbase w s
  | .astride w => Sys2Proof.Machine.execAstride w s
  | .mand w => Sys2Proof.Machine.execMand w s
  | .mor w => Sys2Proof.Machine.execMor w s
  | .mxor w => Sys2Proof.Machine.execMxor w s
  | .mnot w => Sys2Proof.Machine.execMnot w s
  | .mandn w => Sys2Proof.Machine.execMandn w s
  | .mpopc w => Sys2Proof.Machine.execMpopc w s
  | .mffs w => Sys2Proof.Machine.execMffs w s
  | .mtos w => Sys2Proof.Machine.execMtos w s
  | .stom w => Sys2Proof.Machine.execStom w s
  | .mlive w => Sys2Proof.Machine.execMlive w s
  | .vrdx w => Sys2Proof.Machine.execVrdx w s
  | .vwrx w => Sys2Proof.Machine.execVwrx w s
  | .cnarrow w => Sys2Proof.Machine.execCnarrow w s
  | .cperm w => Sys2Proof.Machine.execCperm w s
  | .cget w => Sys2Proof.Machine.execCget w s
  | .ctag w => Sys2Proof.Machine.execCtag w s
  | .cld w => Sys2Proof.Machine.execCld w s
  | .cst w => Sys2Proof.Machine.execCst w s
  | .cfmt w => Sys2Proof.Machine.execCfmt w s
  | .fadd w => Sys2Proof.Machine.execFadd w s
  | .fsub w => Sys2Proof.Machine.execFsub w s
  | .fmul w => Sys2Proof.Machine.execFmul w s
  | .ffma w => Sys2Proof.Machine.execFfma w s
  | .fmin w => Sys2Proof.Machine.execFmin w s
  | .fmax w => Sys2Proof.Machine.execFmax w s
  | .fabs w => Sys2Proof.Machine.execFabs w s
  | .fneg w => Sys2Proof.Machine.execFneg w s
  | .fcmp w => Sys2Proof.Machine.execFcmp w s
  | .fdiv w => Sys2Proof.Machine.execFdiv w s
  | .fsqrt w => Sys2Proof.Machine.execFsqrt w s
  | .frcp w => Sys2Proof.Machine.execFrcp w s
  | .frsq w => Sys2Proof.Machine.execFrsq w s
  | .fexp2 w => Sys2Proof.Machine.execFexp2 w s
  | .flog2 w => Sys2Proof.Machine.execFlog2 w s
  | .fsinpi w => Sys2Proof.Machine.execFsinpi w s
  | .fcospi w => Sys2Proof.Machine.execFcospi w s
  | .ftanh w => Sys2Proof.Machine.execFtanh w s
  | .fsigm w => Sys2Proof.Machine.execFsigm w s
  | .frnd w => Sys2Proof.Machine.execFrnd w s
  | .fcvt w => Sys2Proof.Machine.execFcvt w s
  | .retag w => Sys2Proof.Machine.execRetag w s
  | .fclass w => Sys2Proof.Machine.execFclass w s
  | .dotp w => Sys2Proof.Machine.execDotp w s
  | .expr w in3 tokens => Sys2Proof.Machine.execExpr w in3 tokens s
  | .fscale w => Sys2Proof.Machine.execFscale w s
  | .shfl w => Sys2Proof.Machine.execShfl w s
  | .vote w => Sys2Proof.Machine.execVote w s
  | .vred w => Sys2Proof.Machine.execVred w s
  | .vscan w => Sys2Proof.Machine.execVscan w s
  | .matchI w => Sys2Proof.Machine.execMatchI w s
  | .ld w => Sys2Proof.Machine.execLd w s
  | .st w => Sys2Proof.Machine.execSt w s
  | .pfetch w => Sys2Proof.Machine.execPfetch w s
  | .atom w => Sys2Proof.Machine.execAtom w s
  | .atcas w => Sys2Proof.Machine.execAtcas w s
  | .fence w => Sys2Proof.Machine.execFence w s
  | .fencePath w => Sys2Proof.Machine.execFencePath w s
  | .acq w => Sys2Proof.Machine.execAcq w s
  | .relI w => Sys2Proof.Machine.execRelI w s
  | .bindI w => Sys2Proof.Machine.execBindI w s
  | .unbind w => Sys2Proof.Machine.execUnbind w s
  | .abarInit w => Sys2Proof.Machine.execAbarInit w s
  | .abarArrive w => Sys2Proof.Machine.execAbarArrive w s
  | .abarWait w => Sys2Proof.Machine.execAbarWait w s
  | .abarTest w => Sys2Proof.Machine.execAbarTest w s
  | .cflush w => Sys2Proof.Machine.execCflush w s
  | .icinv w => Sys2Proof.Machine.execIcinv w s
  | .tcfg w => Sys2Proof.Machine.execTcfg w s
  | .trel w => Sys2Proof.Machine.execTrel w s
  | .tstat w => Sys2Proof.Machine.execTstat w s
  | .tzero w => Sys2Proof.Machine.execTzero w s
  | .twait w => Sys2Proof.Machine.execTwait w s
  | .mma w => Sys2Proof.Machine.execMma w s
  | .mmaCks w => Sys2Proof.Machine.execMmaCks w s
  | .mstep w => Sys2Proof.Machine.execMstep w s
  | .gang w => Sys2Proof.Machine.execGang w s
  | .mown w => Sys2Proof.Machine.execMown w s
  | .mpass w => Sys2Proof.Machine.execMpass w s
  | .cgo w => Sys2Proof.Machine.execCgo w s
  | .ggo w => Sys2Proof.Machine.execGgo w s
  | .xgo w => Sys2Proof.Machine.execXgo w s
  | .tlge w => Sys2Proof.Machine.execTlge w s
  | .tlout w => Sys2Proof.Machine.execTlout w s
  | .tlrd w => Sys2Proof.Machine.execTlrd w s
  | .tliss w => Sys2Proof.Machine.execTliss w s
  | .tlflt w => Sys2Proof.Machine.execTlflt w s
  | .commit w => Sys2Proof.Machine.execCommit w s
  | .spawn w => Sys2Proof.Machine.execSpawn w s
  | .joinI w => Sys2Proof.Machine.execJoinI w s
  | .emit w => Sys2Proof.Machine.execEmit w s
  | .launch w => Sys2Proof.Machine.execLaunch w s
  | .cancel w => Sys2Proof.Machine.execCancel w s
  | .lvlcnt w => Sys2Proof.Machine.execLvlcnt w s
  | .crun w => Sys2Proof.Machine.execCrun w s
  | .vsti w => Sys2Proof.Machine.execVsti w s
  | .vstq w => Sys2Proof.Machine.execVstq w s
  | .vstc w => Sys2Proof.Machine.execVstc w s
  | .srd w => Sys2Proof.Machine.execSrd w s
  | .swr w => Sys2Proof.Machine.execSwr w s
  | .timens w => Sys2Proof.Machine.execTimens w s
  | .cycles w => Sys2Proof.Machine.execCycles w s
  | .perfrd w => Sys2Proof.Machine.execPerfrd w s
  | .winrd w => Sys2Proof.Machine.execWinrd w s
  | .winwr w => Sys2Proof.Machine.execWinwr w s
  | .tresume w => Sys2Proof.Machine.execTresume w s
  | .tkill w => Sys2Proof.Machine.execTkill w s
  | .tescal w => Sys2Proof.Machine.execTescal w s
  | .pairWord x y => Sys2Proof.Machine.execPairWord x y s
  | .candHalt c => Sys2Proof.Machine.execCandHalt c s
  | .candAdd c => Sys2Proof.Machine.execCandAdd c s
  | .candSub c => Sys2Proof.Machine.execCandSub c s
  | .candMul c => Sys2Proof.Machine.execCandMul c s
  | .candDiv c => Sys2Proof.Machine.execCandDiv c s
  | .candRem c => Sys2Proof.Machine.execCandRem c s
  | .candAnd c => Sys2Proof.Machine.execCandAnd c s
  | .candOr c => Sys2Proof.Machine.execCandOr c s
  | .candXor c => Sys2Proof.Machine.execCandXor c s
  | .candShl c => Sys2Proof.Machine.execCandShl c s
  | .candShr c => Sys2Proof.Machine.execCandShr c s
  | .candSar c => Sys2Proof.Machine.execCandSar c s
  | .candMin c => Sys2Proof.Machine.execCandMin c s
  | .candMax c => Sys2Proof.Machine.execCandMax c s
  | .candSlt c => Sys2Proof.Machine.execCandSlt c s
  | .candSeq c => Sys2Proof.Machine.execCandSeq c s
  | .candAddi c => Sys2Proof.Machine.execCandAddi c s
  | .candMuli c => Sys2Proof.Machine.execCandMuli c s
  | .candAndi c => Sys2Proof.Machine.execCandAndi c s
  | .candLi c => Sys2Proof.Machine.execCandLi c s
  | .candLis c => Sys2Proof.Machine.execCandLis c s
  | .candNeg c => Sys2Proof.Machine.execCandNeg c s
  | .candAbs c => Sys2Proof.Machine.execCandAbs c s
  | .candLd c => Sys2Proof.Machine.execCandLd c s
  | .candSt c => Sys2Proof.Machine.execCandSt c s
  | .candLdx c => Sys2Proof.Machine.execCandLdx c s
  | .candBeq c => Sys2Proof.Machine.execCandBeq c s
  | .candBne c => Sys2Proof.Machine.execCandBne c s
  | .candBlt c => Sys2Proof.Machine.execCandBlt c s
  | .candBge c => Sys2Proof.Machine.execCandBge c s
  | .candJmp c => Sys2Proof.Machine.execCandJmp c s
  | .candOut c => Sys2Proof.Machine.execCandOut c s
  | .candSel c => Sys2Proof.Machine.execCandSel c s
  | .candClz c => Sys2Proof.Machine.execCandClz c s
  | .candPopc c => Sys2Proof.Machine.execCandPopc c s
  | .candIllegal op c => Sys2Proof.Machine.execCandIllegal op c s
  | .drain ag idx => Sys2Proof.Machine.execDrain ag idx s
  | .hostWrite ep pa bytes => Sys2Proof.Machine.execHostWrite ep pa bytes s
  | .fabricAccess pkg pa acc => Sys2Proof.Machine.execFabricAccess pkg pa acc s
  | .remoteStoreFail ag idx => Sys2Proof.Machine.execRemoteStoreFail ag idx s
  | .storageError u buf off corrected => Sys2Proof.Machine.execStorageError u buf off corrected s
  | .registerWrite by_ target v => Sys2Proof.Machine.execRegisterWrite by_ target v s
  | .partw die entry bytes => Sys2Proof.Machine.execPartw die entry bytes s
  | .fwstage off bytes => Sys2Proof.Machine.execFwstage off bytes s
  | .sensorSample cluster t0 t1 t2 => Sys2Proof.Machine.execSensorSample cluster t0 t1 t2 s
  | .reservedOpcode w => Sys2Proof.Machine.execReservedOpcode w s
  | .blockRecord dist => Sys2Proof.Machine.execBlockRecord dist s
  | .syncwRelease => Sys2Proof.Machine.execSyncwRelease s
  | .loopEnd => Sys2Proof.Machine.execLoopEnd s
  | .barWaitResume => Sys2Proof.Machine.execBarWaitResume s
  | .mwaitWake => Sys2Proof.Machine.execMwaitWake s
  | .waittExpiry => Sys2Proof.Machine.execWaittExpiry s
  | .abarWaitResume => Sys2Proof.Machine.execAbarWaitResume s
  | .tileWaitResume => Sys2Proof.Machine.execTileWaitResume s
  | .mmaComplete => Sys2Proof.Machine.execMmaComplete s
  | .gangLatchMatch => Sys2Proof.Machine.execGangLatchMatch s
  | .mownGrant => Sys2Proof.Machine.execMownGrant s
  | .engineLimitResume => Sys2Proof.Machine.execEngineLimitResume s
  | .engineOperationStart => Sys2Proof.Machine.execEngineOperationStart s
  | .copyEntry => Sys2Proof.Machine.execCopyEntry s
  | .gatherEntry => Sys2Proof.Machine.execGatherEntry s
  | .landingTransferComplete => Sys2Proof.Machine.execLandingTransferComplete s
  | .loopEntry => Sys2Proof.Machine.execLoopEntry s
  | .condEntry => Sys2Proof.Machine.execCondEntry s
  | .arriveOnlyEntry => Sys2Proof.Machine.execArriveOnlyEntry s
  | .collectiveEntry => Sys2Proof.Machine.execCollectiveEntry s
  | .endEntry => Sys2Proof.Machine.execEndEntry s
  | .tlgeResume => Sys2Proof.Machine.execTlgeResume s
  | .tloutResume => Sys2Proof.Machine.execTloutResume s
  | .commitResume => Sys2Proof.Machine.execCommitResume s
  | .joinResume => Sys2Proof.Machine.execJoinResume s
  | .dequePop => Sys2Proof.Machine.execDequePop s
  | .dequeRefill => Sys2Proof.Machine.execDequeRefill s
  | .dequeSteal => Sys2Proof.Machine.execDequeSteal s
  | .coreDepart => Sys2Proof.Machine.execCoreDepart s
  | .emitResume => Sys2Proof.Machine.execEmitResume s
  | .launchLimitResume => Sys2Proof.Machine.execLaunchLimitResume s
  | .cancelRetire => Sys2Proof.Machine.execCancelRetire s
  | .handlerStart => Sys2Proof.Machine.execHandlerStart s
  | .hostRead => Sys2Proof.Machine.execHostRead s
  | .remoteLoadComplete => Sys2Proof.Machine.execRemoteLoadComplete s
  | .memberResidentWake => Sys2Proof.Machine.execMemberResidentWake s
  | .currentReservationGrant => Sys2Proof.Machine.execCurrentReservationGrant s
  | .storageTrap => Sys2Proof.Machine.execStorageTrap s
  | .xlateRecordPost => Sys2Proof.Machine.execXlateRecordPost s
  | .doorbellLaunch => Sys2Proof.Machine.execDoorbellLaunch s
  | .doorbellClose => Sys2Proof.Machine.execDoorbellClose s
  | .phaseStart => Sys2Proof.Machine.execPhaseStart s
  | .launchComplete => Sys2Proof.Machine.execLaunchComplete s
  | .slotcommit => Sys2Proof.Machine.execSlotcommit s
  | .bindRecordRun => Sys2Proof.Machine.execBindRecordRun s
  | .bindRecordResume => Sys2Proof.Machine.execBindRecordResume s
  | .bindRecordEvict => Sys2Proof.Machine.execBindRecordEvict s
  | .unitPlace => Sys2Proof.Machine.execUnitPlace s
  | .unitEvict => Sys2Proof.Machine.execUnitEvict s
  | .scrubComplete => Sys2Proof.Machine.execScrubComplete s
  | .heartbeatTimeout => Sys2Proof.Machine.execHeartbeatTimeout s
  | .lendCluster => Sys2Proof.Machine.execLendCluster s
  | .reclaimCluster => Sys2Proof.Machine.execReclaimCluster s
  | .reclaimDeadline => Sys2Proof.Machine.execReclaimDeadline s
  | .nodeLaunchStart => Sys2Proof.Machine.execNodeLaunchStart s
  | .nodeTimeoutExpiry => Sys2Proof.Machine.execNodeTimeoutExpiry s
  | .tenantSliceEnd => Sys2Proof.Machine.execTenantSliceEnd s
  | .sliceLimitExpiry => Sys2Proof.Machine.execSliceLimitExpiry s
  | .shootdown => Sys2Proof.Machine.execShootdown s
  | .shootdownComplete => Sys2Proof.Machine.execShootdownComplete s
  | .disposeReplay => Sys2Proof.Machine.execDisposeReplay s
  | .disposeFail => Sys2Proof.Machine.execDisposeFail s
  | .gallery => Sys2Proof.Machine.execGallery s
  | .nsnew => Sys2Proof.Machine.execNsnew s
  | .nsfree => Sys2Proof.Machine.execNsfree s
  | .collnew => Sys2Proof.Machine.execCollnew s
  | .collfree => Sys2Proof.Machine.execCollfree s
  | .pause => Sys2Proof.Machine.execPause s
  | .resume => Sys2Proof.Machine.execResume s
  | .migin => Sys2Proof.Machine.execMigin s
  | .resync => Sys2Proof.Machine.execResync s
  | .teardown => Sys2Proof.Machine.execTeardown s
  | .pfread => Sys2Proof.Machine.execPfread s
  | .pfwrite => Sys2Proof.Machine.execPfwrite s
  | .cmdUnknown => Sys2Proof.Machine.execCmdUnknown s
  | .rootWrite => Sys2Proof.Machine.execRootWrite s
  | .toffsetWrite => Sys2Proof.Machine.execToffsetWrite s
  | .resetPartition => Sys2Proof.Machine.execResetPartition s
  | .resetEngine => Sys2Proof.Machine.execResetEngine s
  | .resetLink => Sys2Proof.Machine.execResetLink s
  | .resetPackage => Sys2Proof.Machine.execResetPackage s
  | .sbResync => Sys2Proof.Machine.execSbResync s
  | .stealgrp => Sys2Proof.Machine.execStealgrp s
  | .owner => Sys2Proof.Machine.execOwner s
  | .sbTeardown => Sys2Proof.Machine.execSbTeardown s
  | .fwact => Sys2Proof.Machine.execFwact s
  | .schedulerHandoff => Sys2Proof.Machine.execSchedulerHandoff s
  | .sensclr => Sys2Proof.Machine.execSensclr s
  | .flitCrcFail => Sys2Proof.Machine.execFlitCrcFail s
  | .flitAckTimeout => Sys2Proof.Machine.execFlitAckTimeout s
  | .linkDown => Sys2Proof.Machine.execLinkDown s
  | .mezzaninePortFail => Sys2Proof.Machine.execMezzaninePortFail s
  | .boostIntervalEnd => Sys2Proof.Machine.execBoostIntervalEnd s
  | .boostStepdown => Sys2Proof.Machine.execBoostStepdown s
  | .permitRefill => Sys2Proof.Machine.execPermitRefill s
  | .boostGrant => Sys2Proof.Machine.execBoostGrant s
  | .railSwitch => Sys2Proof.Machine.execRailSwitch s
  | .meterSample => Sys2Proof.Machine.execMeterSample s
  | .throttleStep => Sys2Proof.Machine.execThrottleStep s
  | .thermalStep => Sys2Proof.Machine.execThermalStep s
  | .clauseFlagClear => Sys2Proof.Machine.execClauseFlagClear s
  | .tenantSliceBegin => Sys2Proof.Machine.execTenantSliceBegin s
  | .linkUp => Sys2Proof.Machine.execLinkUp s
  | .collectiveGroupUsable => Sys2Proof.Machine.execCollectiveGroupUsable s
  | .endRecord => Sys2Proof.Machine.execEndRecord s

end Sys2Proof.Machine
end

