-- ==== Sys2Proof/Machine/Issue.lean ====
section
/-! DEFINITION. What the machine does in one step: an event, an issue opportunity of a port, a candidate lane's word, or
passing time; and what it may do by itself where the agenda names nothing (06 R151-R154; 10 R247; log 1). -/
namespace Sys2Proof.Machine

/-- An outcome, with the next state changed. -/
def andThen (r : Host.Outcome State Fault Refusal) (f : State → State) : Host.Outcome State Fault Refusal :=
  match r with
  | .next s => .next (f s)
  | .fault e => .fault e
  | .refused e => .refused e

/-- Nothing executes any more. -/
def State.rest (s : State) : State := { s with cur := none, occ := Occasion.none }

/-- The word that executes. -/
def State.at_ (s : State) (c : Cursor) : State := { s with cur := some c }

/-- An event with its operands (log 1). -/
def State.event (s : State) (i : Instr) (o : Occasion) : Host.Outcome State Fault Refusal :=
  andThen (exec i { s with occ := o, cur := none }) State.rest

/-- The word that a cursor names executes, and its clause's bookkeeping follows (12 R271). -/
def State.execAt (s : State) (c : Cursor) (i : Instr) : Host.Outcome State Fault Refusal :=
  andThen (exec i (s.at_ c)) (fun s => s.rest.wordEnd c)

/-- A clause's first word waits for the current reservation that its group's lanes ask for (21 R414, R415). -/
def State.awaitReservation (s : State) (c : Cursor) : State :=
  let (id, s) := s.newId
  (s.addRequest (clusterOf (s.wave c.wave).core) 8 (.clause c.wave id)).modWave c.wave (fun v => v.modLanes c.group (fun l =>
    { l with wait := some (.hold .reservation), after := c.next, leaves := c.lastInClause, heavy := some id }))

/-- The cursor of a word that could not be fetched. -/
def missCursor (w : Nat) (g : Mask) (pc next : DWord) : Cursor :=
  { wave := w, group := g, pc, next, clause := none, modBase := none, lastInClause := false, minor := 0, vvirt := 0, cand := none }

/-- Whether a wave in SIMT mode stops at a word for the debugger: a breakpoint lies on it that the debugger has not let it pass, or the wave has
taken the one step it was let take (16 R398; log 66). Handlers are not stopped. -/
def State.breaksAt (s : State) (c : Cursor) : Bool :=
  let v := s.wave c.wave
  v.handles.isNone && ((s.breaks.contains (s.vfOf c.wave, c.pc) && (lanesOf c.group).any (fun l => !(v.lane l).pass)) ||
    v.stepping.any (· != v.wwords))

/-- A wave stopped for the debugger before a word (09 R217; 17 R400), with a record of the debug stop (09 R225; log 66). -/
def State.debugStop (s : State) (c : Cursor) : State :=
  let v := s.wave c.wave
  let l := lowestLane c.group
  let s := (s.takeFault c.wave {
    code := Code.bkpt, cls := 1, lane := l, access := 0xF, pc := c.pc, nextpc := c.next, ea := 0, group := c.group }).modWave c.wave (fun v => { v with debug := true })
  s.postFault (s.vfOf c.wave) {
    kind := 4, code := Code.bkpt, reason := 0, access := 0, core := v.core, slot := v.slot, lane := l, lid := (s.launchOf c.wave).lid
    addr := c.pc, pc := c.pc, subject := .none }

/-- What a fetch comes to, done: a word executes, or the group takes the fault or XLATE of the fetch (06 R168; 09 R218). A debugger's stop of a wave
that its first group's word has stopped has no effect. -/
def State.runFetched (s : State) (w : Nat) (g : Mask) (f : Fetched) : Host.Outcome State Fault Refusal :=
  match f with
  | .fault code acc ea pc next =>
    let x := s.issOf (missCursor w g pc next) false 0
    .next (State.settle x 0 (.fault code (lowestLane g) acc ea s))
  | .xlate reason level ea pc next =>
    let x := s.issOf (missCursor w g pc next) false 0
    .next (State.settle x 0 (.park (lowestLane g) AccKind.fetch reason level ea s))
  | .word c i =>
    let s := s.stand w g c.pc c.clause c.modBase (c.minor, c.vvirt)
    if s.breaksAt c then .next (if (s.wave w).stoppable then s.debugStop c else s)
    else if wantsReservation (s.wave w) c then .next (s.awaitReservation c) else (s.modWave w (fun v => v.shareHeavy c)).execAt c i

/-- A group's next word issues (06 R152). -/
def State.issueGroup (s : State) (w : Nat) (g : Mask) : Host.Outcome State Fault Refusal :=
  let s := s.served w g
  let (f, s) := s.fetchFor w g ((s.wave w).lane (lowestLane g))
  s.runFetched w g f

/-- The lanes of a group whose word was held before it issued. -/
def Wave.heldOf (v : Wave) (g : Mask) : Mask :=
  (lanesOf g).foldl (fun m l => match (v.lane l).wait with
    | some (.hold _) => m ||| laneBit l
    | _ => m) 0

/-- The starvation counts after an opportunity of lanes `ran`, in which the lanes `issued` were chosen (06 R153). -/
def State.starveAfter (s : State) (w : Nat) (ran issued : Mask) : State :=
  s.modWave w (fun v =>
    let held := v.heldOf issued
    v.countStarve (ran &&& ~~~issued) (issued &&& ~~~held))

/-- A cycle of a core: its clock count, and the units whose macro-operations or clauses wait for current (15 R394, R395; 21 R415). -/
def State.coreCycle (s : State) (core port : Nat) : State :=
  if port != 0 then s
  else
    let waiting := ((s.cluster (clusterOf core)).requests.map (fun r => match r.who with
      | .op u _ _ => u
      | .clause w _ => (s.wave w).unit)).eraseDups.filter (fun u => (s.unit u).core = core)
    waiting.foldl (fun s u => s.modUnit u (fun x => { x with ucurr := x.ucurr + 1 })) (s.modCore core (fun c => { c with cycles := c.cycles + 1 }))

/-- The end of an opportunity in which only the lanes `g` of those that ran were chosen; one in which no word issued is a stall (15 R395). -/
def State.endOpportunity (s : State) (w : Nat) (ran g : Mask) (issued : Bool) : State :=
  let s := s.starveAfter w ran g
  { (if issued then s else s.stalled w) with opp := none }

/-- What follows the first group's word: whether a second group issues beside it is the device's choice (06 R152). -/
def State.afterFirst (s : State) (ran : Mask) (others : List ((Nat × Nat) × Mask)) (o : Opp) : State :=
  match bestGroup others with
  | none => s.endOpportunity o.wave ran o.first o.issued
  | some h =>
    let (i, s) := s.pick 2
    if i = 0 || (s.wave o.wave).exited then s.endOpportunity o.wave ran o.first o.issued
    else { s with opp := some o, agenda := .second o.wave h.2 :: s.agenda }

/-- Whether a group's word has issued since a wave was as given: it has been counted, or its lanes have begun their steps (15 R395; 03 R82). -/
def State.tookWord (s : State) (w : Nat) (g : Mask) (v : Wave) : Bool := (s.wave w).wwords != v.wwords || ((s.wave w).stepsOf g).isSome

/-- A cycle of a port in which some wave was selected or none: ages and the counters of 15 R395 move. A wave in candidate mode is taken to
execute words in every cycle (log 43). -/
def State.portCycle (s : State) (core port : Nat) (sel : Option Nat) (rdy : List Nat) : State :=
  (s.portWaves core port).foldl (fun s w =>
    let v := s.wave w
    let tile := if s.inTileWait w then v.wtile + 1 else v.wtile
    if sel = some w then s.setWave w { v with age := 0, wopp := v.wopp + 1, wtile := tile }
    else
      let s := s.setWave w { v with
        age := if rdy.contains w then min 1048575 (v.age + s.weight w) else v.age
        skipCycle := false
        wblock := if s.atBlocking w then v.wblock + 1 else v.wblock
        wtile := tile }
      if v.cand.isSome then s else s.stalled w) s

/-- One cycle of an issue port (06 R152-R154). None passes while the cluster's rails switch (21 R407), nor where the cluster is in no
active range (08 R202). -/
def State.issueAct (s : State) (core port : Nat) : Host.Outcome State Fault Refusal :=
  if (s.cluster (clusterOf core)).switching || !s.clusterRuns (clusterOf core) || 2 ≤ port then .refused (.notEnabled "ISSUE")
  else
    let (rdy, s) := s.readyGroups core port
    let sel := s.select (rdy.map (·.1))
    let s := (s.portCycle core port sel (rdy.map (·.1))).coreCycle core port
    match sel with
    | none => .next s
    | some w =>
      let cs := ((rdy.find? (fun x => x.1 = w)).map (·.2)).getD []
      match s.firstGroup w cs with
      | none => .next (s.endOpportunity w (s.active w) 0 false)
      | some (k, g) =>
        let v := s.wave w
        let ran := s.active w
        let others := cs.filter (fun c => c.1 != k)
        andThen (s.issueGroup w g) (fun s' => s'.afterFirst ran others {
          wave := w, first := g, issued := s'.tookWord w g v, live := v.live, v := v.v, vtag := v.vtag })

/-- The second group of an opportunity (06 R152; 09 R218): its word takes effect though the first one's faulted. -/
def State.secondAct (s : State) (w : Nat) (g : Mask) : Host.Outcome State Fault Refusal :=
  match s.opp with
  | none => .refused (.notEnabled "SECOND")
  | some o =>
    let v := s.wave w
    let ran := s.active w
    let m := g &&& ran
    if o.wave != w || v.exited || m = 0 then .next (s.endOpportunity o.wave (o.first ||| ran) o.first o.issued)
    else andThen (s.issueGroup w m) (fun s => s.endOpportunity w (o.first ||| ran) (o.first ||| m) (o.issued || s.tookWord w m v))

/-- A candidate lane's next word (10 R247). -/
def State.candAct (s : State) (w l : Nat) : Host.Outcome State Fault Refusal :=
  let v := s.wave w
  let k := clusterOf v.core
  if v.exited || v.trapState != .running || v.park.isSome || !v.resident || !(s.unit v.unit).resident || (s.cluster k).switching ||
      !s.clusterRuns k then .refused (.notEnabled "CANDIDATE")
  else match s.candNext w l with
    | none => .refused (.notEnabled "CANDIDATE")
    | some (.inl s) => .next s
    | some (.inr i) =>
      andThen (exec i (s.at_ { missCursor w (laneBit l) (v.lane l).pc (v.lane l).after with cand := some l })) State.rest

/-- More steps of the lanes left of an instruction whose lanes step apart, that of a given lane's group (03 R82): it takes its full effect though
its wave is stopped or parked meanwhile by another group's word (09 R218). An instruction in flight completes while rails switch (21 R407). -/
def State.stepsAct (s : State) (w l : Nat) : Host.Outcome State Fault Refusal :=
  let v := s.wave w
  match v.stepsAt l with
  | none => .refused (.notEnabled "STEPS")
  | some t =>
    if v.exited || !(s.unit v.unit).resident || !s.clusterRuns (clusterOf v.core) then .refused (.notEnabled "STEPS")
    else s.execAt t.cur t.instr

/-- Typed-buffer words that a write meets are good again (19 R403). -/
def Mem.mend (m : Mem) (loc n : Nat) : Mem := { m with bad := m.bad.filter (fun k => !(8 * k < loc + n && loc < 8 * k + 8)) }

/-- A debugger's write for a stopped wave (19 R403): the checks of a plain store by its lowest live lane, then the write at once, in every
lane's view. A failing check writes nothing. -/
def State.pokeAct (s : State) (w : Nat) (ea : DWord) (n x : Nat) : Host.Outcome State Fault Refusal :=
  let v := s.wave w
  if v.exited || v.live = 0 || v.trapState = .running || !([1, 2, 4, 8].contains n) then .refused (.notEnabled "POKE")
  else
    let req : Req := { lane := lowestLane v.live, ea, size := n, kind := AccKind.store, align := n, cap := none, paths := pathsStore }
    match s.checkAccess v.core (s.vfOf w) v.unit v.sb [req] with
    | (.ok [p], s) =>
      let s := s.storeNow (plainWrite p.loc n x) (s.keyIndex (s.vfOf w))
      let s := { s with mem := s.mem.mend p.loc n }
      let seen : View := (List.range n).foldl (fun y i => vset y (p.loc + i) s.mem.clock) []
      .next ((List.range 32).foldl (fun s l => s.setAgent (.lane w l) { s.agent (.lane w l) with view := vmerge (s.agent (.lane w l)).view seen }) s)
    | _ => .next s

/-- Stopped waves that go on at the word they were stopped before, past a breakpoint on it (17 R400; log 66). -/
def State.goOn (s : State) (ws : List Nat) : State :=
  ws.foldl (fun s w =>
    let v := s.wave w
    let g := (v.trap.map (·.group)).getD 0
    let s := s.setWave w ({ v with trapState := .running, trap := none, debug := false }.modLanes g (fun l => { l with pass := true }))
    s.modCore v.core (fun c => { c with newelQueue := c.newelQueue.filter (· != w) })) s

/-- The waves that stand stopped and are not yet a handler's. -/
def State.stopped (s : State) : List Nat := (s.waves.filter (fun p => !p.2.exited && p.2.trapState = .trapped)).map (·.1)

/-- `cont`: every stopped wave of a launch goes on (17 R400). -/
def State.contAct (s : State) (n : Nat) : Host.Outcome State Fault Refusal :=
  let ws := s.stopped.filter (fun w => (s.unit (s.wave w).unit).launch = n)
  if ws.isEmpty then .refused (.notEnabled "CONT") else .next (s.goOn ws)

/-- `step`: a stopped wave goes on for one word (16 R398). -/
def State.singleAct (s : State) (w : Nat) : Host.Outcome State Fault Refusal :=
  if s.stopped.contains w then .next ((s.goOn [w]).modWave w (fun v => { v with stepping := some v.wwords })) else .refused (.notEnabled "SINGLE")

/-- A row of the debugger's `outcomes`: an outcome record's fields (10 R251; 16 R398). -/
structure OutcomeRow where
  id : DWord
  code : Nat
  ex : Nat
  pc : Nat
  fuel : Nat
  sig0 : DWord
  sig1 : DWord
deriving DecidableEq, Repr

/-- The fields of an outcome record's bytes (10 R251). -/
def OutcomeRow.ofBytes (bs : List Byte) : OutcomeRow :=
  let nat := fun (o n : Nat) => leNat ((bs.drop o).take n)
  { id := BitVec.ofNat 64 (nat 0 8), code := nat 8 1, ex := nat 9 1, pc := nat 10 1, fuel := nat 12 4
    sig0 := BitVec.ofNat 64 (nat 16 8), sig1 := BitVec.ofNat 64 (nat 24 8) }

/-- The same columns from the candidate registers that a run without records leaves in a lane (10 R242; 16 R398). -/
def Wave.outcomeRow (v : Wave) (vd l : Nat) : OutcomeRow :=
  let f := (v.rv 246 l).toNat
  { id := v.rv2 240 l, code := (v.rv vd l).toNat, ex := bits (v.ctl l).toNat 23 20, pc := v.cPc l, fuel := bits f 31 16 - bits f 15 0
    sig0 := v.rv2 242 l, sig1 := v.rv2 244 l }

/-- `outcomes` (16 R398): what a lane's row of a wave's last CRUN shows, read as that lane reads; none for a lane that wrote no record. The
debugger's view changes no state. -/
def State.outcomes (s : State) (w l : Nat) : Option OutcomeRow :=
  let v := s.wave w
  match v.ran with
  | none => none
  | some c =>
    if c.norec then (if c.enabled.getLsbD l then some (v.outcomeRow c.vd l) else none)
    else if !c.wrote.getLsbD l then none
    else
      let req : Req := { lane := l, ea := c.outcomes + BitVec.ofNat 64 (32 * l), size := 32, kind := AccKind.load, align := 32, cap := none, paths := [0, 2] }
      match s.checkAccess v.core (s.vfOf w) v.unit v.sb [req] with
      | (.ok [p], s) => some (OutcomeRow.ofBytes (s.readStep (.lane w l) ((List.range 32).map (p.loc + ·))).1)
      | _ => none

/-- A breakpoint set or taken away (16 R398). -/
def State.breakpointAct (s : State) (vf : Nat) (ea : DWord) (on : Bool) : State :=
  let others := s.breaks.filter (fun b => b != (vf, ea))
  { s with breaks := if on then others ++ [(vf, ea)] else others }

/-- An event's operands in short. -/
def ev (i : Instr) (a b c : Nat) : Act := .event i { a, b, c, win := .pf }

/-- The clusters that hold state of their own or run waves. -/
def State.liveClusters (s : State) : List Nat := (s.clusters.map (·.1) ++ s.waves.map (fun p => clusterOf p.2.core)).eraseDups

/-- When a cluster's rails are due: a switch ends within 20 ns, and an idle cluster leaves the high rail at once (21 R407). -/
def State.railsDue (s : State) (k : Nat) : List (Nat × Instr × Occasion) :=
  let c := s.cluster k
  if c.switching then [(c.switchAt + 2, .railSwitch, { a := k, b := 0, c := 1, win := .pf })]
  else if c.railHigh && s.idleCluster k then [(0, .railSwitch, { a := k, b := 0, c := 0, win := .pf })]
  else []

/-- The events that time brings: when, and which (02 R73; 08 R201, R203, R211; 21 R407-R418). -/
def State.deadlines (s : State) : List (Nat × Instr × Occasion) :=
  let at_ := fun (t : Nat) (i : Instr) (a b : Nat) => (t, i, ({ a, b, c := 0, win := .pf } : Occasion))
  s.liveClusters.flatMap (fun k =>
    let c := s.cluster k
    [at_ (c.intervalAt + 500) .boostIntervalEnd k 0] ++ c.stepDue.toList.map (fun t => at_ t .boostStepdown k 0) ++
    (if c.mhz ≤ 1600 && c.permits < 64 then [at_ (c.refillFrom + 2000) .permitRefill k 0] else []) ++
    (if c.hot then [at_ (c.thermalAt + 1000) .thermalStep k 0] else []) ++ c.reclaiming.toList.map (fun t => at_ t .reclaimDeadline k 0) ++
    s.railsDue k) ++
  s.cores.flatMap (fun p => if p.2.scrub.isSome then [at_ (p.2.scrubAt + 500) .scrubComplete p.1 1] else []) ++
  (List.range 4).map (fun d => at_ ((s.die d).heartAt + 100000) .heartbeatTimeout d 0) ++
  s.dies.flatMap (fun d => d.2.parts.flatMap (fun p =>
    at_ (p.2.throttleAt + 1000) .throttleStep d.1 p.1 :: p.2.sliceEnd.toList.map (fun t => at_ (t + 20000) .sliceLimitExpiry d.1 p.1)))

/-- The earliest event that time has brought and that has not taken place. -/
def State.dueEvent (s : State) : Option (Nat × Instr × Occasion) :=
  (s.deadlines.filter (fun d => d.1 ≤ s.pkg.ticks && (match s.event d.2.1 d.2.2 with
    | .next _ => true
    | _ => false))).foldl (fun b d => match b with
      | none => some d
      | some x => if d.1 < x.1 then some d else b) none

/-- Time passes: n ticks of the 100 MHz reference (22 R427), none of them past an event that is due: that takes place first. -/
def State.tickAct (s : State) (n : Nat) : Host.Outcome State Fault Refusal :=
  match s.dueEvent with
  | some (_, i, o) => andThen (s.event i o) (fun s => { s with agenda := .tick n :: s.agenda })
  | none =>
    let k := (s.deadlines.filterMap (fun d => if s.pkg.ticks < d.1 then some (d.1 - s.pkg.ticks) else none)).foldl min n
    let s := s.setPkg { s.pkg with ticks := s.pkg.ticks + k }
    .next (if k < n then { s with agenda := .tick (n - k) :: s.agenda } else s)

/-- A child's first word that lanes are between the steps of, where what follows takes its unit away and leaves its frame pending: wave and
lane (07 R183, R186; 20 R406). -/
def State.cutShort (s s' : State) : Option (Nat × Nat) :=
  (s.waves.find? (fun p => !p.2.steps.isEmpty && (s.unit p.2.unit).child.isSome && (tfind? s'.units p.2.unit).isNone &&
    !(s'.launch (s.unit p.2.unit).launch).complete)).map
    (fun p => (p.1, ((p.2.steps.head?).map (fun t => lowestLane t.cur.group)).getD 0))

/-- An event, before which a word whose lanes it would cut off takes its full effect (03 R82; 20 R406). -/
def State.eventAct (s : State) (i : Instr) (o : Occasion) : Host.Outcome State Fault Refusal :=
  match s.event i o with
  | .next s' =>
    match s.cutShort s' with
    | none => .next s'
    | some (w, l) => match s.stepsAct w l with
      | .next t => .next { t with agenda := .event i o :: t.agenda }
      | _ => .next s'
  | r => r

/-- One act (log 1). -/
def State.act (s : State) (a : Act) : Host.Outcome State Fault Refusal :=
  match a with
  | .event i o => s.eventAct i o
  | .issue core port => s.issueAct core port
  | .second w g => s.secondAct w g
  | .cand w l => s.candAct w l
  | .steps w l => s.stepsAct w l
  | .tick n => s.tickAct n
  | .poke w ea n x => s.pokeAct w ea n x
  | .breakpoint vf ea on => .next (s.breakpointAct vf ea on)
  | .cont n => s.contAct n
  | .single w => s.singleAct w

/-! What may come about by itself. -/

/-- The events of a wave's own waits and flags. -/
def State.waveActs (s : State) (w : Nat) : List Act :=
  let v := s.wave w
  let lanes := if (s.wave w).cand.isSome then (List.range 32).map (fun l => Act.cand w l) else []
  let each := (lanesOf v.live).flatMap (fun l =>
    [Instr.mwaitWake, .waittExpiry, .abarWaitResume, .tileWaitResume, .engineLimitResume, .tlgeResume, .tloutResume, .commitResume,
     .joinResume, .emitResume, .launchLimitResume, .memberResidentWake].map (fun i => ev i w l 0) ++ [ev .remoteLoadComplete w l 1])
  let drains := (List.range 32).flatMap (fun l => (List.range (v.lane l).ag.queue.length).map (fun k => Act.event (.drain (.lane w l) k) Occasion.none))
  [Instr.syncwRelease, .loopEnd, .barWaitResume, .cancelRetire, .storageTrap].map (fun i => ev i w 0 0) ++
  v.flags.map (fun f => ev .clauseFlagClear w f.1 0) ++ v.steps.map (fun t => Act.steps w (lowestLane t.cur.group)) ++ lanes ++ each ++ drains

/-- The events of a unit and its engines. -/
def State.unitActs (s : State) (u : Nat) : List Act :=
  let x := s.unit u
  let drains := x.eng.flatMap (fun e => e.2.ops.flatMap (fun o =>
    (List.range o.ag.queue.length).map (fun k => Act.event (.drain (.op u e.1 o.num) k) Occasion.none)))
  [Instr.mmaComplete, .gangLatchMatch, .unitEvict].map (fun i => ev i u 0 0) ++
  x.eng.flatMap (fun e =>
    [Instr.engineOperationStart, .copyEntry, .gatherEntry, .landingTransferComplete, .loopEntry, .condEntry, .arriveOnlyEntry, .collectiveEntry,
     .endEntry].map (fun i => ev i u e.1 0)) ++ drains

/-- What idle cores of partitions may take from others' frames (07 R184). -/
def State.stealActs (s : State) : List Act :=
  let victims := ((s.cores.filter (fun c => !c.2.deque.isEmpty)).map (·.1) ++ s.launches.flatMap (fun p => if p.2.complete then [] else p.2.regions)).eraseDups
  if victims.isEmpty then []
  else
    let thieves := s.dies.flatMap (fun d => d.2.parts.flatMap (fun p => s.partCores d.1 p.1))
    thieves.flatMap (fun t => (victims.filter (fun v => (s.stealLevel t v).isSome)).flatMap (fun v => (List.range 16).map (fun k => ev .dequeSteal t v k)))

/-- The events of a core: its ports, its Newel slot, its deque, its scrub. -/
def State.coreActs (s : State) (core : Nat) : List Act :=
  [Act.issue core 0, .issue core 1, ev .mownGrant core 0 0, ev .coreDepart core 0 0, ev .handlerStart core 0 0, ev .scrubComplete core 1 0] ++
  (List.range 16).map (fun k => ev .dequePop core k 0) ++ s.launches.map (fun p => ev .dequeRefill core p.1 0)

/-- The events of a context and its graph. -/
def State.ctxActs (s : State) (vf : Nat) : List Act :=
  let nodes := List.range (s.ctx vf).mgmt.gtnodes.toNat
  [Instr.xlateRecordPost, .phaseStart, .shootdownComplete].map (fun i => ev i vf 0 0) ++
  nodes.map (fun n => ev .nodeLaunchStart vf n 0) ++ nodes.map (fun n => ev .nodeTimeoutExpiry vf n 0)

/-- The events of a die's hardware: committed bind records, boost, throttle, slice limits. -/
def State.dieActs (s : State) (die : Nat) : List Act :=
  let d := s.die die
  [ev .boostGrant die 0 0, ev .heartbeatTimeout die 0 0] ++
  d.binds.flatMap (fun b => [Instr.bindRecordRun, .bindRecordResume, .bindRecordEvict, .unitPlace].map (fun i => ev i die b.1 0)) ++
  d.parts.flatMap (fun p => [Instr.throttleStep, .sliceLimitExpiry].map (fun i => ev i die p.1 0))

/-- The events of a cluster's arbiter and clock. -/
def clusterActs (k : Nat) : List Act :=
  [Instr.currentReservationGrant, .boostIntervalEnd, .boostStepdown, .permitRefill, .reclaimDeadline, .thermalStep].map (fun i => ev i k 0 0) ++
  [ev .railSwitch k 0 0, ev .railSwitch k 1 0, .event .railSwitch { a := k, b := 0, c := 1, win := .pf }]

/-- What the machine may do by itself; inputs from outside come from the agenda alone. -/
def State.ownActs (s : State) : List Act :=
  let busy := (s.waves.map (fun p => p.2.core) ++ s.cores.map (fun p => p.1)).eraseDups
  s.waves.flatMap (fun p => s.waveActs p.1) ++ s.units.flatMap (fun p => s.unitActs p.1) ++ busy.flatMap s.coreActs ++ s.stealActs ++
  s.ctxs.flatMap (fun p => s.ctxActs p.1) ++ s.launches.map (fun p => ev .launchComplete p.1 0 0) ++
  s.dies.flatMap (fun p => s.dieActs p.1) ++ s.liveClusters.flatMap clusterActs ++
  (List.range s.failed.length).map (fun k => Act.event (.remoteStoreFail (.fabric 0) k) Occasion.none) ++
  s.pkg.fabrics.flatMap (fun p => (List.range p.2.queue.length).map (fun k => Act.event (.drain (.fabric p.1) k) Occasion.none)) ++
  s.pkg.groups.map (fun p => ev .collectiveGroupUsable p.1 0 0)

/-- An act that can take place. -/
def State.can (s : State) (a : Act) : Bool :=
  match s.act a with
  | .next _ => true
  | _ => false

/-- How often in a row an act that could take place has been passed over. -/
def State.passedOver (s : State) (a : Act) : Nat := ((s.passed.find? (fun p => p.1 = a)).map (·.2)).getD 0

/-- The act that has been passed over most often, where that is oftener than the device may (03 R81; 06 R170; log 1). -/
def State.overdue (s : State) (acts : List Act) : Option Act :=
  (acts.foldl (fun (b : Option Act × Nat) a => if b.2 < s.passedOver a then (some a, s.passedOver a) else b) (none, Config.patience)).1

/-- The machine's next act and the state from which it takes it: the agenda's first; else one that can take place, of the device's
choosing, the passing of a tick among them, unless one has been put off for too long (03 R81; 06 R170; log 1). -/
def State.nextAct (s : State) : Act × State :=
  match s.agenda with
  | a :: rest => (a, { s with agenda := rest })
  | [] =>
    let acts := s.ownActs.filter s.can ++ [.tick 1]
    let (a, s) := match s.overdue acts with
      | some a => (a, s)
      | none =>
        let (i, s) := s.pick acts.length
        (acts.getD i (.tick 1), s)
    (a, { s with passed := (acts.filter (· != a)).map (fun b => (b, s.passedOver b + 1)) })

/-- Whether an act may write saved units to the backing store itself. -/
def Act.evicts : Act → Bool
  | .event .unitEvict _ => true
  | .event .reclaimDeadline _ => true
  | .event .sliceLimitExpiry _ => true
  | .tick _ => true
  | _ => false

/-- What a namespace holds once others have written its bytes: entries that no rule gives (10 R252; log 71). -/
def State.freeEntries (s : State) (e : Namespace) : List VestEntry × State :=
  let (n, s) := s.pick (16 * 2 ^ e.logsets + 1)
  (List.range n).foldl (fun (acc : List VestEntry × State) _ =>
    let (k, s) := acc.2.pick (2 ^ e.logsets)
    let (x, s) := s.pick (2 ^ 128)
    let (t, s) := s.pick (e.stamp + 1)
    (if 16 ≤ (acc.1.filter (fun y => y.set = k)).length then acc.1 else acc.1 ++ [{ set := k, sig := BitVec.ofNat 128 x, stamp := t }], s)) ([], s)

/-- Whether a namespace's bytes have been written since a stamp. -/
def Namespace.written (e : Namespace) (m : Mem) (stamp : Nat) : Bool := (m.since stamp).any (fun loc => e.base ≤ loc && loc < e.base + e.bytes)

/-- The bytes of a namespace follow its entries: all of them when it is activated or cleared, and those of one set when an entry changes, in bytes
and at a place of the device's own layout, under its owner's key (10 R252; log 71). -/
def State.spaceBytes (s : State) (old e : Namespace) : State :=
  let put := fun (s : State) (at_ n : Nat) =>
    let (k, s) := s.draw
    s.storeNow (plainBytes (e.base + at_) ((List.range n).map (fun o => Config.freshByte k 5 o))) (s.keyIndex e.vf)
  if !e.active then s
  else if !old.active || old.vf != e.vf || old.base != e.base || old.logsets != e.logsets || (e.entries.isEmpty && !old.entries.isEmpty) then put s 0 e.bytes
  else if old.stamp = e.stamp && old.entries = e.entries then s
  else
    let (i, s) := s.pick (2 ^ e.logsets)
    put s (320 * i) 320

/-- What a step means for the namespaces: others' writes to their bytes change their entries, and their bytes follow their entries (10 R252; log 71). -/
def State.spacesFollow (s0 s : State) : State :=
  let stamp := s0.mem.clock
  let clock := s.mem.clock
  s.dies.foldl (fun s (d : Nat × DieSt) => d.2.spaces.foldl (fun s (p : Nat × Namespace) =>
    let old := tget Namespace.init (s0.die d.1).spaces p.1
    let m := { s.mem with last := s.mem.last.filter (fun x => x.2.1 ≤ clock) }
    if old.active && p.2.active && p.2.written m stamp then
      let (xs, s) := s.freeEntries p.2
      s.modDie d.1 (fun d => { d with spaces := tset Namespace.init d.spaces p.1 { p.2 with entries := xs } })
    else s.spaceBytes old p.2) s) s

/-- A cluster that has become idle, or is so no longer, comes to its clock (21 R407, R409). -/
def State.clocksFollow (s0 s : State) : State :=
  s.liveClusters.foldl (fun s k => if s0.idleCluster k = s.idleCluster k then s else s.modClock k id) s

/-- What the device looks at again to learn whether there is work: the control blocks of its regions (07 R182, R183) and the descriptors of a
running graph's nodes (08 R206): context, address. -/
def State.pollPlaces (s : State) : List (Nat × DWord) :=
  s.launches.flatMap (fun p => if p.2.complete then [] else p.2.regions.map (fun c => (p.2.vf, p.2.region c))) ++
  s.ctxs.flatMap (fun c => if c.2.graph.isSome then (List.range c.2.mgmt.gtnodes.toNat).map (fun n => (c.1, s.nodeAddr c.1 n)) else [])

/-- A look at one of them, or at none, as time passes: the device's choice. The read finds nothing to do, and sets A (01 R30; log 80). -/
def State.poll (s : State) : State :=
  let ps := s.pollPlaces
  let (i, s) := s.pick (ps.length + 1)
  match ps[i]? with
  | some p => s.devUse p.1 p.2 64
  | none => s

/-- What follows an act in the same step: the device's own looks as time passes; what writes into backing stores and registers that lie there
make of each other (06 R165; log 24), the namespaces' bytes, and the clocks of clusters. -/
def State.follow (s0 s : State) (a : Act) : State :=
  let s := match a with
    | .tick _ => s.poll
    | _ => s
  let s := if a.evicts then s else s.storeWritten s0.mem.clock
  clocksFollow s0 (spacesFollow s0 (storeFollows s0 s))

/-- One step of the machine: an act, and what follows from it. -/
def State.stepOnce (s : State) : Host.Outcome State Fault Refusal :=
  let (a, s) := s.nextAct
  andThen (s.act a) (fun s' => s.follow s' a)

/-! A word placed for the machine to run next (log 2). -/

/-- Bytes stored in the backing stores by none of the machine's agents. -/
def Mem.place (m : Mem) (loc n x : Nat) : Mem :=
  { m with cells := ((List.range n).zip (leBytes n x)).foldl (fun (c : List Host.Cell) (p : Nat × Byte) => tset unlisted c (loc + p.1) p.2) m.cells }

/-- The clause header for a word: it alone, or with an extension word; SETA 0 and SETB 1 (12 R271). -/
def placedHeader (two : Bool) : Nat := 0xE * 2 ^ 60 + (if two then 1 else 0) * 2 ^ 56 + 1 * 2 ^ 36

/-- Tables that map virtual page 0 to the page at 0x40000, readable and executable, and a clause there (01 R23-R25). -/
def placedCode (m : Mem) (w : Nat) : Mem :=
  let two : Bool := w / 2 ^ 63 % 2 = 0 && w / 2 ^ 56 % 128 = 0x51
  let m := ((m.place 0x10000 8 (0x20000 + 1 * 64)).place 0x20000 8 (0x30000 + 1 * 64)).place 0x30000 8 (0x40000 + 2 * 64 + 0x3A)
  let m := ((m.place 0x40000 8 (placedHeader two)).place 0x40008 8 (w % 2 ^ 64)).place 0x40010 8 (w / 2 ^ 64 % 2 ^ 64)
  { m with poison := m.poison.filter (fun p => !([0x400, 0x800, 0xC00, 0x1000].contains p.1)) }

/-- The launch, unit and wave that run the placed word: wave slot 0 of core 0, all lanes live at address 0. -/
def placedLaunch : Launch := { Launch.blank with complete := false, foot := { vregs := 256, sregs := 64, aregs := 32, scratch := 512, tiles := 64, engines := 255 } }
def placedUnit : UnitSt := { UnitSt.blank with waves := [0], foot := placedLaunch.foot, pregs := 32, resident := true, ended := false, released := false }
def placedWave : Wave := { Wave.blank with live := 0xFFFFFFFF, resident := true, exited := false, age := 1048575 }

/-- A candidate run of one word in lane 0 (10 R242, R243). -/
def placedRun (w : Nat) : CandRun :=
  { vd := 0, enabled := 1, fuel := 100, nex := 1, ns := 0xFF, qonly := false, norec := true, sandbox := 0, pc := 0, desc := 0, gallery := 0, examples := 0,
    outcomes := 0, index := [], exLocs := [], outLocs := [], wrote := 0, lanes := [(0, { words := [BitVec.ofNat 32 w], inputs := [] })] }

/-- The placed wave, in candidate mode for a candidate word. -/
def placedWaveFor (nbits w : Nat) : Wave :=
  if nbits ≤ 32 then
    { ((placedWave.wv 247 0 (BitVec.ofNat 32 (2 ^ 31 + 2 ^ 14))).wv 246 0 (BitVec.ofNat 32 (100 * 65537))) with cand := some (placedRun w) }
  else placedWave

/-- A state whose next step runs the word. -/
def State.placeWord (s : State) (nbits w : Nat) : State :=
  let others := s.waves.filter (fun p => !(p.2.core = 0 && p.2.slot = 0))
  let k := s.cluster 0
  let s := (s.modCore 0 (fun c => { c with tlb := [], icache := [] })).setCluster 0 { k with tlb := [], switching := false }
  let s := if s.clusterRuns 0 then s else s.modPart 0 0 (fun p => { p with base := 0, limit := 0, state := 1, vf := 0 })
  let s := s.modCtx 0 (fun c => { c with mgmt := { c.mgmt with root := 0x10000 } })
  { s with
    mem := placedCode s.mem w
    waves := tins others 0 (placedWaveFor nbits w)
    units := tins s.units 0 placedUnit
    launches := tins s.launches 0 placedLaunch
    cur := none, opp := none, occ := Occasion.none
    agenda := [if nbits ≤ 32 then .cand 0 0 else .issue 0 0] }

end Sys2Proof.Machine
end

