-- ==== Sys2Proof/Machine/Step.lean ====
section
/-! DEFINITION. The step of the machine, and a state that runs a given word next (log 1, log 2). -/
namespace Sys2Proof.Machine

/-- One step: the agenda's first act, or one of the device's choosing (log 1). -/
def step (s : State) : Host.Outcome State Fault Refusal := s.stepOnce

/-- The state in which the next step fetches and runs the word whose low nbits bits are given (log 2). -/
def State.withFetchWord (s : State) (nbits w : Nat) : State := s.placeWord nbits w

end Sys2Proof.Machine
end

