-- ==== Sys2Proof/Safety.lean ====
section
/-! DEFINITION. What claims speak of: a safe run, the invariant of every step, a word that issues and completes, and what
an instruction leaves as it was. -/
namespace Sys2Proof.Machine

/-- A run of n steps from a state ends in no fault. -/
def State.safeFor : Nat → State → Prop
  | 0, _ => True
  | n + 1, s => match step s with
    | .next t => t.safeFor n
    | .fault _ => False
    | .refused _ => True

/-- A safe state: no run from it faults. -/
def State.Safe (s : State) : Prop := ∀ n, s.safeFor n

/-- The invariant of every step: the backing store is canonical (log 4), and no word executes between steps. -/
structure State.Inv (s : State) : Prop where
  mem : s.mem.wf = true
  cur : s.cur = none
  occ : s.occ = Occasion.none

/-- The word i executes at a cursor, and passes the checks of 06 R168 that come before its own. -/
structure Issues (s : State) (c : Cursor) (i : Instr) (h : Head) : Prop where
  cur : s.cur = some c
  ok : s.issueFault (s.issOf c h.pn h.pm) i h = none

/-- The state in which a word has issued and its lanes stand at the next word, after an effect. -/
def State.retire (s : State) (c : Cursor) (h : Head) (eff : State) : State :=
  let x := s.issOf c h.pn h.pm
  (((eff.walked x).issued x h.fs).beginChild c.wave).advance c c.group

/-- The state in which a word has issued, whose effect has placed the lanes itself. -/
def State.retireMoved (s : State) (c : Cursor) (h : Head) (eff : State) : State :=
  let x := s.issOf c h.pn h.pm
  ((eff.walked x).issued x h.fs).retired x

/-- A word answers a next state: its effect, and its lanes at the next word. -/
def Completes (s : State) (c : Cursor) (i : Instr) (h : Head) (eff : State) : Prop :=
  exec i s = .next (s.retire c h eff)

/-- A word answers a next state whose lanes its effect has placed. -/
def Places (s : State) (c : Cursor) (i : Instr) (h : Head) (eff : State) : Prop :=
  exec i s = .next (s.retireMoved c h eff)

/-- A precise fault: the state in which the word's wave has stopped with a trap record (09 R218, R220). -/
def Traps (s : State) (c : Cursor) (i : Instr) (h : Head) (code lane acc : Nat) (ea : DWord) : Prop :=
  exec i s = .next (s.takeFault c.wave ((s.issOf c h.pn h.pm).record code 1 lane acc ea))

/-- Nothing but one wave and the pending frames of cores has changed: memory, views' sets, units, contexts, dies, the package. -/
structure OnlyWave (s t : State) (w : Nat) : Prop where
  mem : t.mem = s.mem
  rels : t.rels = s.rels
  units : t.units = s.units
  launches : t.launches = s.launches
  held : t.held = s.held
  ctxs : t.ctxs = s.ctxs
  pf : t.pf = s.pf
  clusters : t.clusters = s.clusters
  dies : t.dies = s.dies
  pkg : t.pkg = s.pkg
  breaks : t.breaks = s.breaks
  failed : t.failed = s.failed
  agenda : t.agenda = s.agenda
  occ : t.occ = s.occ
  cur : t.cur = s.cur
  opp : t.opp = s.opp
  fresh : t.fresh = s.fresh
  nextId : t.nextId = s.nextId
  cores : ∀ k, t.core k = { s.core k with pending := (t.core k).pending }
  waves : ∀ k, k ≠ w → t.wave k = s.wave k

/-- What a word's bookkeeping may change of its own wave: lanes (program counter, clause, wait), WWORDS and the clause flags;
and, where `st`, the sticky records %dzmask, %iovmask and %wstat. Every other special register and state of the wave stands. -/
structure SameWave (v u : Wave) (st : Bool) : Prop where
  unit : u.unit = v.unit
  idx : u.idx = v.idx
  core : u.core = v.core
  slot : u.slot = v.slot
  resident : u.resident = v.resident
  live : u.live = v.live
  exited : u.exited = v.exited
  lc : u.lc = v.lc
  loops : u.loops = v.loops
  wstat : st = false → u.wstat = v.wstat
  dzmask : st = false → u.dzmask = v.dzmask
  iovmask : st = false → u.iovmask = v.iovmask
  round : u.round = v.round
  gang : u.gang = v.gang
  cancel : u.cancel = v.cancel
  fuelctl : u.fuelctl = v.fuelctl
  steps : u.steps = v.steps
  debug : u.debug = v.debug
  stepping : u.stepping = v.stepping
  barArrived : u.barArrived = v.barArrived
  barEver : u.barEver = v.barEver
  barLast : u.barLast = v.barLast
  landing : u.landing = v.landing
  sb : u.sb = v.sb
  cand : u.cand = v.cand
  ran : u.ran = v.ran
  trapState : u.trapState = v.trapState
  trap : u.trap = v.trap
  park : u.park = v.park
  handles : u.handles = v.handles
  handler : u.handler = v.handler
  words : u.wwords = v.wwords + 1

/-- An operand of `n` registers names a register of its kind. -/
def namesReg (d : Opnd) (n : Nat) : Opnd → Bool
  | .s r => (match d with
    | .s k => k ≤ r && r < k + n
    | .k k => 4 * k ≤ r && r < 4 * k + 4
    | _ => false)
  | .v r => (match d with
    | .v k => k ≤ r && r < k + n
    | _ => false)
  | .a r => d = .a r
  | .m r => d = .m r
  | _ => false

/-- Every register of a wave but those a destination names is as it was: uniform, varying with its tag, affine, masks,
and the tags of capability registers whose quads the destination does not touch. -/
structure SameRegs (v u : Wave) (d : Opnd) (n : Nat) : Prop where
  uni : ∀ r, namesReg d n (.s r) = false → u.rs r = v.rs r
  vary : ∀ r l, l < 32 → namesReg d n (.v r) = false → u.rv r l = v.rv r l
  tag : ∀ r, namesReg d n (.v r) = false → u.rtag r = v.rtag r
  aff : ∀ r, namesReg d n (.a r) = false → u.ra r = v.ra r
  mask : ∀ g r, namesReg d n (.m r) = false → u.rm g r = v.rm g r
  cap : ∀ q, (∀ r, 4 * q ≤ r → r < 4 * q + 4 → namesReg d n (.s r) = false) → u.rktag q = v.rktag q

/-- The frame of a word that writes at most a register destination. -/
structure RegFrame (s t : State) (w : Nat) (d : Opnd) (n : Nat) (st : Bool) : Prop where
  rest : OnlyWave s t w
  wave : SameWave (s.wave w) (t.wave w) st
  regs : SameRegs (s.wave w) (t.wave w) d n

/-- A word writes its destination with values by lane and a tag, and leaves everything else: its completion and its frame. -/
structure Writes (s : State) (c : Cursor) (i : Instr) (h : Head) (d : Opnd) (wd : Bool) (tag : Nat) (f : Nat → Nat) : Prop where
  next : Completes s c i h (s.put (s.issOf c h.pn h.pm) d wd tag f)
  frame : RegFrame s (s.retire c h (s.put (s.issOf c h.pn h.pm) d wd tag f)) c.wave d (if wd then 2 else 1) false

/-- The same for an affine result (06 R157, R158). -/
structure WritesAffine (s : State) (c : Cursor) (i : Instr) (h : Head) (d : Opnd) (wd : Bool) (tag : Nat) (b : DWord) (st : Int) : Prop where
  next : Completes s c i h (s.putAffine (s.issOf c h.pn h.pm) d wd tag b st)
  frame : RegFrame s (s.retire c h (s.putAffine (s.issOf c h.pn h.pm) d wd tag b st)) c.wave d (if wd then 2 else 1) false

/-- The same for a mask destination, written in the lanes of E (06 R162). -/
structure WritesMask (s : State) (c : Cursor) (i : Instr) (h : Head) (d : Opnd) (p : Nat → Bool) : Prop where
  next : Completes s c i h (s.putMask (s.issOf c h.pn h.pm) d p)
  frame : RegFrame s (s.retire c h (s.putMask (s.issOf c h.pn h.pm) d p)) c.wave d 1 false

/-- The same with sticky bits: each lane's value, and whether %dzmask or %iovmask is due (05 R145). -/
structure WritesSticky (s : State) (c : Cursor) (i : Instr) (h : Head) (d : Opnd) (wd : Bool) (tag : Nat) (r : Nat → Nat × Bool × Bool) :
    Prop where
  next : Completes s c i h ((s.put (s.issOf c h.pn h.pm) d wd tag (fun l => (r l).1)).sticky (s.issOf c h.pn h.pm) d
    ((s.issOf c h.pn h.pm).where_ (fun l => (r l).2.1)) ((s.issOf c h.pn h.pm).where_ (fun l => (r l).2.2)))
  frame : RegFrame s (s.retire c h ((s.put (s.issOf c h.pn h.pm) d wd tag (fun l => (r l).1)).sticky (s.issOf c h.pn h.pm) d
    ((s.issOf c h.pn h.pm).where_ (fun l => (r l).2.1)) ((s.issOf c h.pn h.pm).where_ (fun l => (r l).2.2)))) c.wave d
    (if wd then 2 else 1) true

/-- One lane's result of a word computed element by element in its type (13 R297; 05 R132). -/
def elemResult (s : State) (x : Iss) (w : Full) (g : Nat → Nat → Nat → Nat × Bool × Bool) (l : Nat) : Nat × Bool × Bool :=
  mapElems w.ty g (s.src x w.a w.ty (wide w.ty) l) (s.src x w.b w.ty (wide w.ty) l) (s.src x w.c w.ty (wide w.ty) l)

/-- An integer word on its checked operands, not computed affine, gives each element g of element width, signedness and sources. -/
def IntWord (s : State) (c : Cursor) (i : Instr) (w : Full) (srcs : List Opnd) (cls : ClsPol)
    (g : Nat → Bool → Nat → Nat → Nat → Nat × Bool × Bool) : Prop :=
  Issues s c i (headT w srcs) → intGroup w.ty = true → tagsAre (s.issOf c w.pn w.pm) srcs w.ty = true →
  (s.issOf c w.pn w.pm).e ≠ 0 → computedLevel cls w ≠ 1 →
  WritesSticky s c i (headT w srcs) w.d (wide w.ty) w.ty
    (elemResult s (s.issOf c w.pn w.pm) w (g (elemBits w.ty) (!isUnsignedFmt w.ty)))

/-- An integer word computed affine, whose STRIDE an affine register can hold, gives a BASE and a STRIDE. -/
def AffineWord (s : State) (c : Cursor) (i : Instr) (w : Full) (srcs : List Opnd) (cls : ClsPol) (r : Iss → DWord × Int) : Prop :=
  Issues s c i (headT w srcs) → intGroup w.ty = true → tagsAre (s.issOf c w.pn w.pm) srcs w.ty = true →
  (s.issOf c w.pn w.pm).e ≠ 0 → computedLevel cls w = 1 → strideOk (r (s.issOf c w.pn w.pm)).2 = true →
  WritesAffine s c i (headT w srcs) w.d (wide w.ty) w.ty (r (s.issOf c w.pn w.pm)).1 (r (s.issOf c w.pn w.pm)).2

/-- A bitwise word whose varying sources agree in their tag gives each lane g of its width and sources, and keeps that tag. -/
def BitWord (s : State) (c : Cursor) (i : Instr) (w : Full) (srcs : List Opnd) (g : Nat → Nat → Nat → Nat) : Prop :=
  ∀ t, Issues s c i (headT w srcs) → keptTag (s.issOf c w.pn w.pm) srcs w.ty = some t →
  Writes s c i (headT w srcs) w.d (wide w.ty) t (fun l => g (if wide w.ty then 64 else 32)
    (s.src (s.issOf c w.pn w.pm) w.a w.ty (wide w.ty) l) (s.src (s.issOf c w.pn w.pm) w.b w.ty (wide w.ty) l))

/-- A floating-point word on its checked operands gives each element g of its operands, computed exactly and rounded once. -/
def FloatWord (s : State) (c : Cursor) (i : Instr) (w : Full) (srcs : List Opnd) (ok : Nat → Bool) (rm : Nat) (g : Nat → Num → Num → Num → Num) : Prop :=
  Issues s c i (headT w srcs) → ok w.ty = true → tagsAre (s.issOf c w.pn w.pm) srcs w.ty = true →
  Writes s c i (headT w srcs) w.d (wide w.ty) w.ty (fun l => (elemResult s (s.issOf c w.pn w.pm) w
    (fun a b k => (roundF w.ty rm w.m5 (g rm (readF w.ty w.m5 a) (readF w.ty w.m5 b) (readF w.ty w.m5 k)), false, false)) l).1)

/-- A word's accesses pass every check of 01 R41 and translate: their places, and the state after (its TLBs, dirty bits and WTLB moved). -/
def Reaches (s : State) (x : Iss) (reqs : List Req) (ps : List Place) (s1 : State) : Prop :=
  (s.modWave x.w (fun v => { v with wtlb := v.wtlb + s.misses x reqs })).checkAccess
    x.wave.core (s.unit x.wave.unit).vf x.wave.unit x.wave.sb reqs (x.wave.replay &&& x.g != 0) = (.ok ps, s1)

/-- The places lie in this package and hold no poison in their n bytes. -/
def Clean (s : State) (ps : List Place) (n : Nat) : Prop :=
  ∀ p ∈ ps, isRemote p.loc = false ∧ ∀ i, i < n → s.poisoned (p.loc + i) = false

/-- The latest position that a view names for a location; a view that names it once holds that one (03 R77). -/
def viewTop (v : View) (loc : Nat) : Nat := (v.filter (fun p => p.1 = loc)).foldl (fun m p => max m p.2) 0

/-- What the steps of some lanes, in the order of a list, come to: the values they give, after those given before, and the state (03 R82). -/
def State.stepsTaken (s : State) (vals : List (Nat × Nat)) (one : Nat → Nat → State → Nat × State) (ls : List (Nat × Nat)) :
    List (Nat × Nat) × State :=
  ls.foldl (fun (acc : List (Nat × Nat) × State) p =>
    let r := one p.1 p.2 acc.2
    (acc.1 ++ [(p.1, r.1)], r.2)) (vals, s)

/-- A word whose lanes take their steps apart (03 R82): of the lanes `ls` still to step, with their locations, some take their steps now, in
an order of the device's choosing; where none is left the word is done, as `fin` says of the values, and else its group waits for the rest. Its
flag is set with the first (12 R273). -/
def StepsApart (s : State) (c : Cursor) (i : Instr) (h : Head) (s1 : State) (ls vals : List (Nat × Nat))
    (one : Nat → Nat → State → Nat × State) (fin : List (Nat × Nat) → State → State) : Prop :=
  ∃ (now left : List (Nat × Nat)) (f : Nat), (now ++ left).Perm ls ∧ (ls ≠ [] → now ≠ []) ∧
    let r := { s1 with fresh := f }.stepsTaken vals one now
    (left = [] → Completes s c i h (fin r.1 (r.2.modWave c.wave (fun v => v.setSteps c.group none)))) ∧
    (left ≠ [] → exec i s = .next (((r.2.modWave c.wave (fun v => v.setSteps c.group (some { cur := c, instr := i, left, vals := r.1 }))).flagged
      (s.issOf c h.pn h.pm) h.fs).modWave c.wave (fun v => v.modLanes c.group (fun l => { l with wait := some .steps }))))

/-- No backing-store byte differs. -/
def SameBytes (s t : State) : Prop := ∀ a, t.mem.byte a = s.mem.byte a

/-- Lanes transfer: those that `dest` gives an address stand there, at the start of a clause or record; the group's other lanes stand at
the next word; lanes outside the group, the wave's registers and everything but the wave are as they were (13 R298). -/
structure Jumps (s : State) (c : Cursor) (i : Instr) (dest : Nat → Option DWord) (d : Opnd) (n : Nat) : Prop where
  next : ∃ t, exec i s = .next t ∧ OnlyWave s t c.wave ∧ SameRegs (s.wave c.wave) (t.wave c.wave) d n ∧
    ∀ l, l < 32 →
      (c.group.getLsbD l = false → ((t.wave c.wave).lane l).pc = ((s.wave c.wave).lane l).pc) ∧
      (c.group.getLsbD l = true → dest l = none → ((t.wave c.wave).lane l).pc = c.next) ∧
      (∀ a, c.group.getLsbD l = true → dest l = some a →
        ((t.wave c.wave).lane l).pc = a ∧ ((t.wave c.wave).lane l).clause = none ∧ ((t.wave c.wave).lane l).wait = none)

/-- What an access to memory leaves of everything but memory and its own lanes' queues and views: other waves, units, contexts, the package,
release sets, its own wave's special registers, and every register but its destination. -/
structure MemFrame (s t : State) (w : Nat) (d : Opnd) (n : Nat) : Prop where
  waves : ∀ k, k ≠ w → t.wave k = s.wave k
  units : t.units = s.units
  launches : t.launches = s.launches
  held : t.held = s.held
  ctxs : t.ctxs = s.ctxs
  pf : t.pf = s.pf
  dies : t.dies = s.dies
  pkg : t.pkg = s.pkg
  rels : t.rels = s.rels
  wave : SameWave (s.wave w) (t.wave w) false
  regs : SameRegs (s.wave w) (t.wave w) d n

/-- A candidate lane runs a word that costs no more than its fuel (10 R246, R247). -/
structure CandRuns (s : State) (w l : Nat) (c : CandRun) (cost : Nat) : Prop where
  cur : ∃ k, s.cur = some k ∧ k.cand = some l ∧ k.wave = w
  run : (s.wave w).cand = some c
  fuel : cost ≤ (s.wave w).cLeft l
  lane : l < 32

/-- The state after a candidate word's fuel is paid. -/
def State.paid (s : State) (w l cost : Nat) : State :=
  s.setWave w { (s.wave w).wv 246 l ((s.wave w).rv 246 l - BitVec.ofNat 32 cost) with wcand := (s.wave w).wcand + 1 }

/-- What a candidate word leaves as it was: everything but its lane's fuel, its lane's PC, and the register it writes, if any. -/
structure CandFrame (s t : State) (w l cost : Nat) (d : Option Nat) (pc : Nat) : Prop where
  rest : OnlyWave s t w
  wave : t.wave w = { s.wave w with v := (t.wave w).v, wcand := (s.wave w).wcand + 1 }
  fuel : (t.wave w).rv 246 l = (s.wave w).rv 246 l - BitVec.ofNat 32 cost
  ctl : (t.wave w).ctl l = setBits ((s.wave w).ctl l) 5 0 pc
  regs : ∀ r k, k < 32 → ¬ (k = l ∧ (r = 246 ∨ r = 247 ∨ d.map (248 + ·) = some r)) → (t.wave w).rv r k = (s.wave w).rv r k

/-- A candidate word gives its lane's register d a value and goes on at the next word. -/
def CandVal (s : State) (w l cost : Nat) (i : Instr) (d : Nat) (x : Word) : Prop :=
  ∃ t, exec i s = .next t ∧ (t.wave w).cReg l d = x ∧ CandFrame s t w l cost (some d) ((s.wave w).cPc l + 1)

/-- A candidate branch goes to its target where it is taken and the target is in the program, retires the lane where it is taken and the
target is not, and else goes on at the next word. -/
def CandBranch (s : State) (w l : Nat) (c : CandRun) (i : Instr) (taken : Prop) (imm : Int) : Prop :=
  let dest := ((s.wave w).cPc l : Int) + imm
  let inside := 0 ≤ dest ∧ dest < (bits ((s.wave w).ctl l).toNat 19 14 : Nat)
  (taken → ¬ inside → exec i s = .next ((s.paid w l 1).candStop w l c Outc.runoff)) ∧
  (taken → inside → ∃ t, exec i s = .next t ∧ CandFrame s t w l 1 none dest.toNat) ∧
  (¬ taken → ∃ t, exec i s = .next t ∧ CandFrame s t w l 1 none ((s.wave w).cPc l + 1))

/-- A host endpoint writes a command code to the CMD register of a window, which accepts it (22 R422-R425). -/
structure Accepts (s : State) (code : Nat) : Prop where
  host : 384 ≤ s.occ.a ∧ s.occ.a < 512
  vf : s.winVf s.occ.win < 1024
  idle : (s.winMgmt s.occ.win).cmdstat.getLsbD 31 = false
  allowed : pCommand code = true → s.isOwner s.occ.a s.occ.win = true
  known : code < 14
  alive : (s.ctx (s.winVf s.occ.win)).state ≠ .torn

/-- The code stands in the window's CMD register. -/
def State.cmdIn (s : State) (code : Nat) : State := s.modWin s.occ.win (fun m => { m with cmd := BitVec.ofNat 32 code })

/-- A command has completed: CMDSTAT holds RESULT, and BUSY where it is still in progress, and the RESULT register its value (22 R423). -/
def State.cmdOut (s : State) (win : Win) (code : Nat) (value : DWord) (busy : Bool) : State :=
  s.modWin win (fun m => { m with cmdstat := BitVec.ofNat 32 (code + (if busy then 2 ^ 31 else 0)), result := value })

end Sys2Proof.Machine
end

