-- ==== Sys2Proof/Certificates/Slice0/Obligations.lean ====
section
/-! DEFINITION. The statements about the model: each docstring names the rules of spec/ that it formalises. A statement about a word that
issues speaks of every state and cursor at which the checks of 06 R168 that come before the word's own pass (Issues); Completes says that exec
answers a next state, and which. -/
open Sys2Proof Sys2Proof.Machine

/-- O1. A package reset leaves the registers of the windows, the phases, counts and clocks at the values the spec gives: nothing runs, the
reference count is 0, no wave, unit or launch exists, every binding table, release set and write queue is empty, every location stands at
position #0, each cluster idles at 1.2 GHz with 64 permits and 96 current units, and no partition or namespace is active (03 R77; 08 R189,
R202; 10 R252; 21 R407, R410, R414; 22 R423, R427). What a byte reads as is the model's choice (log 4), and so is every value the spec
leaves out (log 3): this statement says nothing of them. -/
def Obligations.ResetValues : Prop :=
  let s := State.reset
  s.waves = [] ∧ s.units = [] ∧ s.launches = [] ∧ s.pkg.ticks = 0 ∧ s.cur = none ∧ s.rels = [] ∧
  (∀ a, (s.mem.lastOf a).1 = 0 ∧ s.mem.versions a = [{ stamp := 0, val := s.mem.byte a, ext := 0, key := some 0 }]) ∧
  (∀ vf, let c := s.ctx vf
    s.timens vf = 0 ∧ c.slotBusy = 0 ∧ c.rejects = 0 ∧ c.phase = 0 ∧ c.closed = false ∧ c.phaseCnt = 0 ∧ c.bindings = [] ∧ c.frecs = [] ∧
    c.graph = none ∧ ∀ off v, c.mgmt.get off = some v → v = 0) ∧
  (∀ off v, s.pf.get off = some v → v = 0) ∧
  (∀ k, (s.core k).newel = none ∧ (s.core k).newelQueue = [] ∧ (s.core k).owner = none ∧ (s.core k).cycles = 0 ∧ (s.core k).deque = []) ∧
  (∀ k, (s.cluster k).mhz = 1200 ∧ (s.cluster k).permits = 64 ∧ (s.cluster k).unitsFree = 96 ∧ (s.cluster k).railHigh = false) ∧
  (∀ d e, (s.part d e).state = 0 ∧ (tget Namespace.init (s.die d).spaces e).active = false) ∧
  s.pkg.groups = []

/-- O2. The machine after reset satisfies the invariant of every step: the backing store is canonical (03 R77), and no word executes between
steps. -/
def Obligations.ResetInvariant : Prop :=
  State.reset.Inv

/-- O3. Every step keeps the invariant, from every state that has it, reached by a run or not: the backing stores stay a canonical table (their
addresses strictly rise and none holds what an unlisted location reads as), and no word executes between steps (03 R77; log 1, log 4). -/
def Obligations.StepKeepsInvariant : Prop :=
  ∀ (s t : State), s.Inv → step s = .next t → t.Inv

/-- O4. A step runs the decoded word. An issue opportunity of a port whose selected wave's first group fetches a word runs exec of that word at
its cursor, between the port's cycle and the group's bookkeeping, where the word asks for no reservation and the debugger does not stop the
wave before it; the second group's word, the later steps of a word whose lanes step apart, a candidate lane's word and an event run exec of
theirs in the same way (06 R152-R154; 10 R247; 12 R271; 03 R82). What follows an act in the same step is the model's: what backing stores of
register files and namespaces make of it, and the clocks of clusters (log 1, log 24, log 71); so is what a breakpoint stops, and that an
event that would cut a child's first word off between two lanes' steps lets it finish first (log 66, log 1); and as a tick passes the device
may look for work (log 80). -/
def Obligations.StepRunsDecodedWord : Prop :=
  ∀ (s : State) (rest : List Act),
    let s0 := { s with agenda := rest }
    (∀ core port w key g c i s2, s.agenda = .issue core port :: rest → port < 2 → (s.cluster (clusterOf core)).switching = false →
      s.clusterRuns (clusterOf core) = true →
      let r := s0.readyGroups core port
      let s1 := (r.2.portCycle core port (some w) (r.1.map (·.1))).coreCycle core port
      let cs := ((r.1.find? (fun x => x.1 = w)).map (·.2)).getD []
      r.2.select (r.1.map (·.1)) = some w → s1.firstGroup w cs = some (key, g) →
      (s1.served w g).fetchFor w g (((s1.served w g).wave w).lane (lowestLane g)) = (.word c i, s2) →
      let s3 := s2.stand w g c.pc c.clause c.modBase (c.minor, c.vvirt)
      s3.breaksAt c = false → wantsReservation (s3.wave w) c = false →
      let s4 := s3.modWave w (fun v => v.shareHeavy c)
      step s = andThen (andThen (andThen (exec i (s4.at_ c)) (fun t => t.rest.wordEnd c)) (fun t =>
        t.afterFirst (s1.active w) (cs.filter (fun x => x.1 != key)) {
          wave := w, first := g, issued := t.tookWord w g (s1.wave w), live := (s1.wave w).live, v := (s1.wave w).v,
          vtag := (s1.wave w).vtag })) (fun t => s0.follow t (.issue core port))) ∧
    (∀ w g o c i s2, s.agenda = .second w g :: rest → s.opp = some o → o.wave = w → (s.wave w).exited = false →
      let m := g &&& s0.active w
      m ≠ 0 → (s0.served w m).fetchFor w m (((s0.served w m).wave w).lane (lowestLane m)) = (.word c i, s2) →
      let s3 := s2.stand w m c.pc c.clause c.modBase (c.minor, c.vvirt)
      s3.breaksAt c = false → wantsReservation (s3.wave w) c = false →
      let s4 := s3.modWave w (fun v => v.shareHeavy c)
      step s = andThen (andThen (andThen (exec i (s4.at_ c)) (fun t => t.rest.wordEnd c)) (fun t =>
        t.endOpportunity w (o.first ||| s0.active w) (o.first ||| m) (o.issued || t.tookWord w m (s.wave w)))) (fun t => s0.follow t (.second w g))) ∧
    (∀ w l k, s.agenda = .steps w l :: rest → (s.wave w).stepsAt l = some k → (s.wave w).exited = false →
      (s.unit (s.wave w).unit).resident = true → s.clusterRuns (clusterOf (s.wave w).core) = true →
      step s = andThen (andThen (exec k.instr (s0.at_ k.cur)) (fun t => t.rest.wordEnd k.cur)) (fun t => s0.follow t (.steps w l))) ∧
    (∀ w l i, s.agenda = .cand w l :: rest → (s.wave w).exited = false → (s.wave w).trapState = .running → (s.wave w).park = none →
      (s.wave w).resident = true → (s.unit (s.wave w).unit).resident = true → (s.cluster (clusterOf (s.wave w).core)).switching = false →
      s.clusterRuns (clusterOf (s.wave w).core) = true → s0.candNext w l = some (.inr i) →
      step s = andThen (andThen (exec i (s0.at_
        { missCursor w (laneBit l) ((s.wave w).lane l).pc ((s.wave w).lane l).after with cand := some l })) State.rest)
        (fun t => s0.follow t (.cand w l))) ∧
    (∀ i o, s.agenda = .event i o :: rest → (∀ t, s0.event i o = .next t → s0.cutShort t = none) →
      step s = andThen (andThen (exec i { s0 with occ := o, cur := none }) State.rest) (fun t => s0.follow t (.event i o)))

/-- O5. What a fetch inside a clause names: where the lanes hold no copy of the word's block and no older copy of it stands in a core or a loop
buffer, the word is the one that the decoder reads from the eight bytes at the lane's program counter, little-endian, in the page that the
tables map, as its context reads it; the next word follows it. A word that the decoder refuses is the fault of that name, an ILLCLASS after
the ILLOP rules of its clause and wave (01 R18, R27, R44; 12 R272, R274, R288; 00 R9). -/
def Obligations.FetchDecodesMemory : Prop :=
  ∀ (s : State) (w : Nat) (g : Mask) (base hdr pc : DWord) (level e el : Nat) (s1 : State),
    let v := s.wave w
    let vf := s.vfOf w
    let loc := leafLoc level e (restOf pc)
    let x := (s.memOf vf).nat loc 8
    pathOf pc = 0 → canonical pc = true → pc.toNat % 8 = 0 → s.walk vf (restOf pc) = .leaf level e el → pageOk AccKind.fetch e = true →
    (∀ b, loc / 64 * 64 ≤ b → b < loc / 64 * 64 + 64 → s.poisoned b = false) → tfind? (v.lane (lowestLane g)).code (pc.toNat / 64) = none →
    v.captured pc = none → tfind? (s.core v.core).icache (blockKey vf pc) = none →
    s.translate v.core vf (restOf pc) (v.replay &&& g != 0) = (.leaf level e el, s1) → s1.mem = s.mem → s1.pkg = s.pkg → s1.ctxs = s.ctxs →
    (x / 2 ^ 63 = 1 ∨ x / 2 ^ 56 % 128 ≠ 0x51) →
    (∀ i, decodeWord x none = .ok i → ∃ c t, s.fetchBody w g base hdr pc = (.word c i, t) ∧ c.wave = w ∧ c.group = g ∧ c.pc = pc ∧ c.next = pc + 8 ∧
      c.clause = some (base, hdr) ∧ (c.lastInClause = true ↔ clauseLen hdr ≤ (pc.toNat - base.toNat) / 8 - 1 + 1) ∧ t.mem = s.mem) ∧
    (decodeWord x none = .error .illop → ∃ t, s.fetchBody w g base hdr pc = (.fault Code.illop 0xF 0 pc (pc + 8), t)) ∧
    (decodeWord x none = .error .illclass → ∃ c i t, s.fetchBody w g base hdr pc = (.word c i, t) ∧ c.pc = pc ∧ i.illegal = some .illclass ∧
      ∀ (z : State) (y : Iss) (h : Head), y.wave.stepsOf y.g = none → h.fs = 0 → h.handler = 0 → callMisplaced y.cur i = false → z.issueFault y i h = some Code.illclass)

/-- O6. Words written out from the spec's encodings decode to the instructions they stand for (12 R275, R282-R284; 10 R245; 13 R303, R306,
R308). -/
def Obligations.DecodeSpecWords : Prop :=
  let z : Full := { sub := 0, d := .s 0, a := .s 0, b := .s 0, c := .s 0, pn := false, pm := 0, fs := 0, m5 := false, ty := 0 }
  decodeTableWord 64 0 = some (.nop z) ∧
  decodeTableWord 64 0x0600000000000000 = some (.syncw z) ∧
  decodeTableWord 64 0x0800000000000000 = some (.lbrk z) ∧
  decodeTableWord 64 0x0A00000000000000 = some (.yield z) ∧
  decodeTableWord 64 (0x10 * 2 ^ 56 + (2 * 256 + 5) * 2 ^ 42 + (2 * 256 + 4) * 2 ^ 32 + (3 * 256 + 0xC3) * 2 ^ 22 + 11) = some (.iadd { z with d := .v 5, a := .v 4, b := .imm 3, ty := 11 }) ∧
  decodeTableWord 64 (0x2D * 2 ^ 56 + 5 * 2 ^ 42 + 11 * 2 ^ 32 + 0xDEADBEEF) = some (.movi (.s 5) 11 0xDEADBEEF) ∧
  decodeTableWord 64 (0x01 * 2 ^ 56 + 1 * 2 ^ 52 + 3 * 2 ^ 42 + (2 ^ 24 - 1) * 2 ^ 8) = some (.bra 1 (.s 3) (-8)) ∧
  decodeTableWord 64 (0x60 * 2 ^ 56 + (2 * 256 + 7) * 2 ^ 42 + 8 * 2 ^ 32 + (2 * 256 + 6) * 2 ^ 22 + 5 * 2 ^ 12 + 11 * 2) = some (.ld { sub := 0, d := .v 7, a := .s 8, b := .v 6, off := 5, pn := false, pm := 0, fs := 0, ty := 11 }) ∧
  decodeTableWord 64 (0x3F * 2 ^ 56) = some (.reservedOpcode (BitVec.ofNat 64 (0x3F * 2 ^ 56))) ∧
  decodeCand (0x10 * 2 ^ 26 + 1 * 2 ^ 23 + 2 * 2 ^ 20 + (2 ^ 17 - 1)) = .candAddi { d := 1, a := 2, b := 0, imm := -1 } ∧
  decodeCand (0x3F * 2 ^ 26) = .candIllegal 0x3F { d := 0, a := 0, b := 0, imm := 0 }

/-- O7. Decode and encode agree on native words: every well-formed instruction that no rule refuses is read back from its words, with every
operand at every value its field admits; its words fit 64 bits; and an instruction of the full form has exactly one (12 R274-R288). -/
def Obligations.EncodeDecodeNative : Prop :=
  (∀ (i : Instr) (w : Nat) (rest : List Nat), i.wf = true → i.illegal = none → candOp i = none → encode i = w :: rest →
    w < 2 ^ 64 ∧ (∀ x ∈ rest, x < 2 ^ 64) ∧ decodeWord w rest.head? = .ok i) ∧
  (∀ (i : Instr) (op : Nat) (w : Full), i.fullOp = some (op, w) → encode i = [encodeFull op w])

/-- O8. Decode and encode agree on candidate words, both ways: every 32-bit word is a candidate instruction that is well formed and encodes to
it, and every well-formed candidate instruction is read back from its word (10 R245, R246). -/
def Obligations.EncodeDecodeCandidate : Prop :=
  (∀ (w : Nat), w < 2 ^ 32 → (decodeCand w).wf = true ∧ encode (decodeCand w) = [w]) ∧
  (∀ (i : Instr) (op : Nat) (c : CWord), i.wf = true → candOp i = some (op, c) →
    ∃ w, encode i = [w] ∧ w < 2 ^ 32 ∧ decodeCand w = i)

/-- O9. Every operation that writes the backing stores keeps their canonical form, and writes the bytes it names and no others: a queued write
that drains and a write made directly write each byte that they name once and leave every other; the drains of some or all of an agent's
entries leave every byte outside the drained entries'; an atomic step leaves every byte outside those and the n bytes at its location with
their granules' tags, and writes those where it has a new value (03 R77, R80, R86, R89, R92; 01 R40). -/
def Obligations.MemoryStaysCanonical : Prop :=
  (∀ (m : Mem) (e : QEntry), m.wf = true → (m.drain e).2.wf = true ∧ (∀ a, (∀ b, (a, b) ∉ e.bytes) → (m.drain e).2.byte a = m.byte a) ∧
    ∀ a b, (a, b) ∈ e.bytes → (∀ b', (a, b') ∈ e.bytes → b' = b) → (m.drain e).2.byte a = b) ∧
  (∀ (s : State) (bs : List (Nat × Byte)) (key : Nat), s.mem.wf = true → (s.storeNow bs key).mem.wf = true ∧
    (∀ a, (∀ b, (a, b) ∉ bs) → (s.storeNow bs key).mem.byte a = s.mem.byte a) ∧
    ∀ a b, (a, b) ∈ bs → (∀ b', (a, b') ∈ bs → b' = b) → (s.storeNow bs key).mem.byte a = b) ∧
  (∀ (s : State) (ag : Agent), s.mem.wf = true → (s.drainAll ag).mem.wf = true ∧ ((s.agent ag).queue = [] → (s.drainAll ag).mem = s.mem) ∧
    ∀ a, (∀ e ∈ (s.agent ag).queue, ∀ b, (a, b) ∉ e.bytes) → (s.drainAll ag).mem.byte a = s.mem.byte a) ∧
  (∀ (s : State) (ag : Agent) (p : Nat → Bool), s.mem.wf = true → (s.drainWhere ag p).mem.wf = true ∧
    ∀ a, (∀ e, (e, true) ∈ markNeeded p (s.agent ag).queue → ∀ b, (a, b) ∉ e.bytes) → (s.drainWhere ag p).mem.byte a = s.mem.byte a) ∧
  (∀ (s : State) (ag : Agent) (loc n : Nat) (f : Nat → Option Nat), s.mem.wf = true → (s.atomicStep ag loc n f).2.mem.wf = true ∧
    let needed := markNeeded (fun x => decide (loc ≤ x) && decide (x < loc + n)) (s.agent ag).queue
    let o := (s.atomicStep ag loc n f).1
    (∀ a, (∀ e, (e, true) ∈ needed → ∀ b, (a, b) ∉ e.bytes) → (f o = none ∨ ∀ y b, (a, b) ∉ plainWrite loc n y) →
      (s.atomicStep ag loc n f).2.mem.byte a = s.mem.byte a) ∧
    ∀ y, f o = some y → loc + n ≤ 2 ^ 96 → ∀ i, i < n → (s.atomicStep ag loc n f).2.mem.byte (loc + i) = BitVec.ofNat 8 (y / 256 ^ i))

/-- O10. A drain takes one queued write, the oldest of each of its bytes, from its queue, and no other is lost: a write that fails on its way
leaves memory as it was, with the record of its fault among those to post; any other goes to the backing store whole: every location of it
that it names once reads as it says, every other location as before (03 R77, R80; 09 R225, R227; 22 R421). That a write to a package to
which no port is up fails when it drains, and its record is posted later, is the model's choice (log 26). -/
def Obligations.DrainMovesOneWrite : Prop :=
  ∀ (s : State) (ag : Agent) (i : Nat) (e : QEntry), s.hasAgent ag = true → (s.agent ag).queue[i]? = some e → drainable (s.agent ag).queue i = true →
    ∃ t, exec (.drain ag i) s = .next t ∧
      (s.entryFails e = false → t.failed = s.failed ∧
        (∀ a b, (a, b) ∈ e.bytes → (∀ b', (a, b') ∈ e.bytes → b' = b) → t.mem.byte a = b) ∧
        (∀ a, (∀ b, (a, b) ∉ e.bytes) → t.mem.byte a = s.mem.byte a)) ∧
      (s.entryFails e = true → SameBytes s t ∧ t.failed = s.failed ++ s.failRec ag e) ∧
      (t.agent ag).queue = (s.agent ag).queue.eraseIdx i

/-- O11. A full release by an agent into a set drains every entry of its queues and merges its view into the set; a full acquire of a set merges
it into both of the agent's views (03 R94). -/
def Obligations.FullReleaseAndAcquire : Prop :=
  ∀ (s : State) (ag : Agent) (k : RKey), s.hasAgent ag = true →
    ((s.fullRelease ag k).agent ag).queue = [] ∧ (s.fullRelease ag k).mem = (s.drainAll ag).mem ∧
    (∀ loc, tget 0 ((s.fullRelease ag k).rel k) loc = max (tget 0 (s.rel k) loc) (viewTop ((s.drainAll ag).agent ag).view loc)) ∧
    (∀ j, j ≠ k → (s.fullRelease ag k).rel j = s.rel j) ∧
    (∀ loc, tget 0 ((s.fullAcquire ag k).agent ag).view loc = max (tget 0 (s.agent ag).view loc) (viewTop (s.rel k) loc) ∧
      tget 0 ((s.fullAcquire ag k).agent ag).view1 loc = max (tget 0 (s.agent ag).view1 loc) (viewTop (s.rel k) loc)) ∧
    (s.fullAcquire ag k).rels = s.rels ∧ (s.fullAcquire ag k).mem = s.mem ∧ ((s.fullAcquire ag k).agent ag).queue = (s.agent ag).queue

/-- O12. FENCE.PATH by a lane drains every entry of its queues and merges V into V1; it changes no fence set; and a FENCE at any scope leaves V1
at least at V, its queues drained (03 R90). -/
def Obligations.FencePathRule : Prop :=
  ∀ (s : State) (w l : Nat), (tfind? s.waves w).isSome = true → l < 32 → let ag := Agent.lane w l
    let t := s.fencePathStep ag
    let d := s.drainAll ag
    (t.agent ag).queue = [] ∧ t.mem = d.mem ∧ (t.agent ag).view = (d.agent ag).view ∧ t.rels = s.rels ∧
    (∀ loc, tget 0 (t.agent ag).view1 loc = max (tget 0 (s.agent ag).view1 loc) (viewTop (d.agent ag).view loc)) ∧
    (∀ scope loc, ((s.fenceStep w l scope).agent ag).queue = [] ∧ (s.fenceStep w l scope).mem = d.mem ∧
      max (tget 0 (s.agent ag).view1 loc) (tget 0 (d.agent ag).view loc) ≤ tget 0 ((s.fenceStep w l scope).agent ag).view1 loc)

/-- O13. The predicate: PN 0 with m0 enables the issuing group, PN 0 with a mask its lanes with the bit set, PN 1 its lanes with the bit clear,
and PN 1 with m0 faults ILLOP, in every form that has a predicate (12 R281). -/
def Obligations.PredicateRule : Prop :=
  (∀ (s : State) (c : Cursor) (pn : Bool) (pm l : Nat), pm < 8 → l < 32 →
    (s.issOf c pn pm).e.getLsbD l = (c.group.getLsbD l && (pm = 0 || ((s.wave c.wave).rm c.group pm).getLsbD l != pn))) ∧
  (∀ (i : Instr) (w : Full) (h : Shape), i.shape = some (w, h) → w.pn = true → w.pm = 0 → i.illegal = some .illop) ∧
  (∀ (w : MForm), w.pn = true → w.pm = 0 → ∀ i ∈ [Instr.ld w, .st w, .pfetch w, .cld w, .cst w], i.illegal = some .illop) ∧
  (∀ (w : Full) (in3 : Opnd) (ts : List Nat), w.pn = true → w.pm = 0 → (Instr.expr w in3 ts).illegal = some .illop)

/-- O14. A port's choice: a wave it selects has a group that can issue, may issue, and has not given the cycle up; no other such wave of the
port is older, and among waves of one age none has a lower slot. A wave's first group has the most lanes of those that can issue, and the
lowest program counter among groups of one size, where no lane starves; where one does, it is the starvation group or none. An opportunity
that a ready wave does not get raises its age by its weight (06 R152-R154). -/
def Obligations.PortSelection : Prop :=
  (∀ (s : State) (core port w : Nat), let r := s.readyGroups core port
    r.2.select (r.1.map (·.1)) = some w →
    w ∈ s.portWaves core port ∧ s.canIssue w = true ∧ (s.wave w).skipCycle = false ∧
    (∃ cs, (w, cs) ∈ r.1 ∧ cs ≠ [] ∧ ∀ k ∈ cs, k ∈ s.groups w (s.wave w).live) ∧
    ∀ y ∈ r.1.map (·.1), (s.wave y).age < (s.wave w).age ∨ ((s.wave y).age = (s.wave w).age ∧
      (if (s.wave w).handles.isSome then 16 else (s.wave w).slot) ≤ (if (s.wave y).handles.isSome then 16 else (s.wave y).slot))) ∧
  (∀ (s : State) (w : Nat) (cs : List ((Nat × Nat) × Mask)), let top := (s.wave w).starving (s.groups w (s.wave w).live)
    (∀ key g, top = none → s.firstGroup w cs = some (key, g) → (key, g) ∈ cs ∧ ∀ o ∈ cs,
      laneCount o.2 < laneCount g ∨ (laneCount o.2 = laneCount g ∧ key.1 ≤ o.1.1)) ∧
    (top = none → cs ≠ [] → s.firstGroup w cs ≠ none) ∧
    (∀ h key g, top = some h → s.firstGroup w cs = some (key, g) → (key, g) ∈ cs ∧ key = h.1 ∧ ∃ l, l < 32 ∧ h.2.getLsbD l = true ∧
      64 ≤ ((s.wave w).lane l).starve)) ∧
  (∀ (s : State) (core port w : Nat) (sel : Option Nat) (rdy : List Nat), (tfind? s.waves w).isSome = true →
    (s.portWaves core port).count w = 1 → w ∈ rdy → sel ≠ some w →
    ((s.portCycle core port sel rdy).wave w).age = min 1048575 ((s.wave w).age + s.weight w))

/-- O15. A wave at its start, before its ARG registers or capabilities are given to it: every register of every class holds 0, every varying tag
is N32, no capability tag, flag or loop is set, m1 to m6 are 0 and m7 is the padding mask, and its 32 lanes stand at its code (06 R151,
R162, R167; 12 R273). -/
def Obligations.WaveStart : Prop :=
  ∀ (u idx core slot : Nat) (pc : DWord) (m7 : Mask) (start : View) (enter : Bool), let v := startWave u idx core slot pc m7 start enter
    (∀ n, v.rs n = 0 ∧ v.ra n = Affine.zero ∧ v.rtag n = tagN32 ∧ v.rktag n = false ∧ v.rlc n = 0 ∧ tget 0 v.flags n = 0) ∧
    (∀ n l, v.rv n l = 0) ∧ (∀ g n, 1 ≤ n → n ≤ 6 → v.rm g n = 0) ∧ (∀ g, v.rm g 7 = m7) ∧ v.loops = [] ∧ v.live = 0xFFFFFFFF ∧
    v.wstat = 0 ∧ v.dzmask = 0 ∧ v.iovmask = 0 ∧ v.round = 0 ∧ v.gang = 0 ∧ v.cancel = 0 ∧ v.fuelctl = 0 ∧ v.age = 0 ∧
    ∀ l, l < 32 → (v.lane l).pc = pc ∧ (v.lane l).wait = none ∧ (v.lane l).ag.view = start ∧ (v.lane l).ag.view1 = start ∧ (v.lane l).ag.queue = []

/-- O16. The address checks of an access change nothing but what the spec lets them: translations held in the core's and the cluster's TLBs, and
the A and D bits of leaf entries, which they only set. A translation writes no byte outside the eight of the leaf entry that its walk ends
at, and setting D none outside the entry's; and, where no byte of memory is hidden from the context, an access of one request writes none
outside the entry its walk ends at and those that held translations of its address name, and a byte that an access of any requests changes
gains A or D, and lies in an entry at which a walk for one of the requests ends, in the state before or in one that it has come to by
setting such bits, or in one that a held translation names (01 R23, R30, R31, R41). -/
def Obligations.AccessFrame : Prop :=
  ∀ (s s1 : State) (core vf u sb : Nat) (reqs : List Req) (afresh : Bool) (r : Checked), s.checkAccess core vf u sb reqs afresh = (r, s1) →
    s1.waves = s.waves ∧ s1.units = s.units ∧ s1.launches = s.launches ∧ s1.frames = s.frames ∧ s1.held = s.held ∧ s1.ctxs = s.ctxs ∧ s1.pf = s.pf ∧
    s1.dies = s.dies ∧ s1.pkg = s.pkg ∧ s1.rels = s.rels ∧ s1.cur = s.cur ∧
    (∀ k, s1.core k = { s.core k with tlb := (s1.core k).tlb } ∧ s1.cluster k = { s.cluster k with tlb := (s1.cluster k).tlb }) ∧
    ((∀ q ∈ reqs, translated (pathOf q.ea) = false) → s1 = s) ∧
    (let gains := fun (x y : Mem) => ∀ a, a < 2 ^ 96 → ∃ b : Byte, b &&& 0xCF = 0 ∧ y.byte a = x.byte a ||| b
     let plain := fun (m : Mem) => ∀ p ∈ m.keys, p.2.hidden (s.keyIndex vf) = 0
     let walked := fun (z : State) (q : Req) (el : Nat) => ∃ level e, z.walk vf (restOf q.ea) = .leaf level e el
     let held := fun (q : Req) (el : Nat) => ∃ t ∈ (s.core core).tlb ++ (s.cluster (clusterOf core)).tlb,
       t.covers vf (restOf q.ea) = true ∧ t.leafLoc = el
     let inEntry := fun (el a : Nat) => el ≤ a ∧ a < el + 8
     (∀ va w z, s.translate core vf va afresh = (w, z) → ∀ a, a < 2 ^ 96 → z.mem.byte a ≠ s.mem.byte a →
       ∃ level e el, s.walk vf va = .leaf level e el ∧ inEntry el a) ∧
     (∀ e el, ∀ a, a < 2 ^ 96 → (s.setDirty core vf e el).2.mem.byte a ≠ s.mem.byte a → inEntry el a) ∧
     (∀ q, plain s.mem → reqs = [q] → ∀ a, a < 2 ^ 96 → s1.mem.byte a ≠ s.mem.byte a → ∃ el, inEntry el a ∧ (walked s q el ∨ held q el)) ∧
     (plain s.mem → gains s.mem s1.mem ∧ ∀ a, a < 2 ^ 96 → s1.mem.byte a ≠ s.mem.byte a → ∃ q ∈ reqs, ∃ el, inEntry el a ∧
       (held q el ∨ ∃ z : State, z.ctxs = s.ctxs ∧ z.pkg = s.pkg ∧ plain z.mem ∧ gains s.mem z.mem ∧ gains z.mem s1.mem ∧ walked z q el)))

/-- O17. A varying destination: in each lane of E the register (a pair where `wd`) holds the value, other lanes keep theirs, and the register
takes the tag; the odd register of a pair takes N32 (06 R158; 05 R133, R134). A destination that speaks for the wave is written once, with
the value of the lowest lane of E: a uniform register (a pair where `wd`, low word first), an affine register as BASE with STRIDE 0, its
value sign-extended from 32 bits unless `wd` (06 R158, R161); and a mask register in the lanes of E alone (06 R162). A write to a uniform
register clears the tag of the capability register whose quad holds it (01 R36). -/
def Obligations.Destinations : Prop :=
  (∀ (s : State) (x : Iss) (n : Nat) (wd : Bool) (tag : Nat) (f : Nat → Nat) (l : Nat), l < 32 → x.e ≠ 0 →
      ((s.put x (.v n) wd tag f).wave x.w).rv n l =
        (if x.e.getLsbD l then BitVec.ofNat 32 (f l) else (s.wave x.w).rv n l) ∧
      (wd = true → ((s.put x (.v n) wd tag f).wave x.w).rv (n + 1) l =
        (if x.e.getLsbD l then BitVec.ofNat 32 (f l / 2 ^ 32) else (s.wave x.w).rv (n + 1) l)) ∧
      ((s.put x (.v n) wd tag f).wave x.w).rtag n = tag ∧
      (wd = true → ((s.put x (.v n) wd tag f).wave x.w).rtag (n + 1) = tagN32)) ∧
  (∀ (s : State) (x : Iss) (n : Nat) (tag : Nat) (f : Nat → Nat), x.e ≠ 0 →
      ((s.put x (.s n) false tag f).wave x.w).rs n = BitVec.ofNat 32 (f (lowestLane x.e)) ∧
      ((s.put x (.s n) true tag f).wave x.w).rs2 n = BitVec.ofNat 64 (f (lowestLane x.e)) ∧
      ((s.put x (.s n) false tag f).wave x.w).rktag (n / 4) = false ∧
      (∀ q, q = n / 4 ∨ q = (n + 1) / 4 → ((s.put x (.s n) true tag f).wave x.w).rktag q = false) ∧
      (∀ q, q ≠ n / 4 → ((s.put x (.s n) false tag f).wave x.w).rktag q = (s.wave x.w).rktag q) ∧
      ((s.put x (.a n) true tag f).wave x.w).ra n = { base := BitVec.ofNat 64 (f (lowestLane x.e)), stride := 0 } ∧
      ((s.put x (.a n) false tag f).wave x.w).ra n =
        { base := (BitVec.ofNat 32 (f (lowestLane x.e))).signExtend 64, stride := 0 } ∧
      (∀ (p : Nat → Bool) (g : Mask) (l : Nat), 0 < n → l < 32 → (((s.putMask x (.m n) p).wave x.w).rm g n).getLsbD l =
        (if x.e.getLsbD l then p l else ((s.wave x.w).rm g n).getLsbD l)))

/-- O18. IADD, ISUB (wrapping, or saturating by SUB), IMUL, IMULH, IMAD, IDIV, IREM, INEG, IABS, IMIN, IMAX and the shifts, on operands of an
integer type, not computed affine: each element of the result, its sticky bits, and the frame (13 R313, R314, R316; 05 R145). IADD, ISUB,
IMUL and SHL computed affine: BASE and STRIDE of the result (06 R157). -/
def Obligations.IntegerResults : Prop :=
  (∀ (w : Full) (s : State) (c : Cursor),
      IntWord s c (.iadd w) w [w.a, w.b] .add (fun n _ a b _ =>
        if w.sub = 0 then ((a + b) % 2 ^ n, false, false)
        else
          let sg := w.sub = 1
          let t := elemInt n sg a + elemInt n sg b
          let r := if sg then clampInt t (-(2 ^ (n - 1) : Nat)) ((2 ^ (n - 1) : Nat) - 1) else clampInt t 0 ((2 ^ n : Nat) - 1)
          (wrapNat r n, false, r != t)) ∧
      IntWord s c (.isub w) w [w.a, w.b] .add (fun n _ a b _ =>
        if w.sub = 0 then ((a + (2 ^ n - b)) % 2 ^ n, false, false)
        else
          let sg := w.sub = 1
          let t := elemInt n sg a - elemInt n sg b
          let r := if sg then clampInt t (-(2 ^ (n - 1) : Nat)) ((2 ^ (n - 1) : Nat) - 1) else clampInt t 0 ((2 ^ n : Nat) - 1)
          (wrapNat r n, false, r != t)) ∧
      IntWord s c (.imul w) w [w.a, w.b] .mul (fun n _ a b _ => (a * b % 2 ^ n, false, false)) ∧
      IntWord s c (.imulh w) w [w.a, w.b] .join (fun n sg a b _ =>
        (wrapNat (elemInt n sg a * elemInt n sg b / (2 ^ n : Nat)) n, false, false)) ∧
      IntWord s c (.imad w) w [w.a, w.b, w.c] .join (fun n _ a b k => ((a * b + k) % 2 ^ n, false, false)) ∧
      IntWord s c (.idiv w) w [w.a, w.b] .join (fun n sg a b _ =>
        if b = 0 then (2 ^ n - 1, true, false)
        else if sg then
          if a = 2 ^ (n - 1) && b = 2 ^ n - 1 then (a, false, true) else (wrapNat ((sextNat a n).tdiv (sextNat b n)) n, false, false)
        else (a / b, false, false)) ∧
      IntWord s c (.irem w) w [w.a, w.b] .join (fun n sg a b _ =>
        if b = 0 then (a, true, false)
        else if sg then
          if a = 2 ^ (n - 1) && b = 2 ^ n - 1 then (0, false, true) else (wrapNat ((sextNat a n).tmod (sextNat b n)) n, false, false)
        else (a % b, false, false)) ∧
      IntWord s c (.ineg w) w [w.a] .join (fun n _ a _ _ => ((2 ^ n - a) % 2 ^ n, false, false)) ∧
      IntWord s c (.iabs w) w [w.a] .join (fun n sg a _ _ => (wrapNat (elemInt n sg a).natAbs n, false, false)) ∧
      IntWord s c (.imin w) w [w.a, w.b] .join (fun n sg a b _ => (if elemInt n sg b < elemInt n sg a then b else a, false, false)) ∧
      IntWord s c (.imax w) w [w.a, w.b] .join (fun n sg a b _ => (if elemInt n sg a < elemInt n sg b then b else a, false, false)) ∧
      IntWord s c (.shl w) w [w.a, w.b] .shl (fun n _ a b _ => (if b % 64 < n then a * 2 ^ (b % 64) % 2 ^ n else 0, false, false)) ∧
      IntWord s c (.shr w) w [w.a, w.b] .join (fun _ _ a b _ => (a / 2 ^ (b % 64), false, false)) ∧
      IntWord s c (.sar w) w [w.a, w.b] .join (fun n _ a b _ => (wrapNat (sextNat a n / (2 ^ (b % 64) : Nat)) n, false, false)) ∧
      IntWord s c (.rot w) w [w.a, w.b] .join (fun n _ a b _ => (rotElem n (w.sub = 1) a b, false, false))) ∧
  (∀ (w : Full) (s : State) (c : Cursor),
      AffineWord s c (.iadd w) w [w.a, w.b] .add (fun x =>
        ((s.srcA x w.a (wide w.ty)).1 + (s.srcA x w.b (wide w.ty)).1, (s.srcA x w.a (wide w.ty)).2 + (s.srcA x w.b (wide w.ty)).2)) ∧
      AffineWord s c (.isub w) w [w.a, w.b] .add (fun x =>
        ((s.srcA x w.a (wide w.ty)).1 - (s.srcA x w.b (wide w.ty)).1, (s.srcA x w.a (wide w.ty)).2 - (s.srcA x w.b (wide w.ty)).2)) ∧
      AffineWord s c (.imul w) w [w.a, w.b] .mul (fun x =>
        ((s.srcA x w.a (wide w.ty)).1 * (s.srcA x w.b (wide w.ty)).1,
          if w.a.level = 1 then (s.srcA x w.a (wide w.ty)).2 * (s.srcA x w.b (wide w.ty)).1.toInt
          else (s.srcA x w.b (wide w.ty)).2 * (s.srcA x w.a (wide w.ty)).1.toInt)) ∧
      AffineWord s c (.shl w) w [w.a, w.b] .shl (fun x =>
        ((s.srcA x w.a (wide w.ty)).1 <<< ((s.srcA x w.b (wide w.ty)).1.toNat % 64),
          (s.srcA x w.a (wide w.ty)).2 * (2 ^ ((s.srcA x w.b (wide w.ty)).1.toNat % 64) : Nat))))

/-- O19. AND, OR, XOR, ANDN and NOT of any type, by its width, and the bit-field and bit-count words on S32, N32, S64 and N64, each with its
frame (13 R315, R317, R318; 05 R146). That BFE and BFI read their offset and width as single registers whatever the width of the type is the
model's reading (log 13, DEDUCED): 12 R279 would read uniform operands under a 64-bit type as even pairs. The mask words, and the words made
from a mask (13 R328, R329): m0 reads as the issuing group. -/
def Obligations.BitAndMaskResults : Prop :=
  (∀ (w : Full) (s : State) (c : Cursor),
      BitWord s c (.andI w) w [w.a, w.b] (fun _ a b => Nat.land a b) ∧
      BitWord s c (.orI w) w [w.a, w.b] (fun _ a b => Nat.lor a b) ∧
      BitWord s c (.xorI w) w [w.a, w.b] (fun _ a b => Nat.xor a b) ∧
      BitWord s c (.andn w) w [w.a, w.b] (fun n a b => Nat.land a (2 ^ n - 1 - b)) ∧
      BitWord s c (.notI w) w [w.a] (fun n a _ => 2 ^ n - 1 - a) ∧
      (let x := s.issOf c w.pn w.pm
       let h := headF w [(w.d, regsFor w.ty), (w.a, regsFor w.ty), (w.b, 1), (w.c, 1)] (perWave w.d)
       let n := if wide w.ty then 64 else 32
       (Issues s c (.bfe w) h → wordInts w.ty = true → tagsAre x [w.a] w.ty = true →
         Writes s c (.bfe w) h w.d (wide w.ty) w.ty (fun l =>
           bfeWord n (w.sub = 1) (s.src x w.a w.ty (wide w.ty) l) (s.srcU x w.b 32 l) (s.srcU x w.c 32 l))) ∧
       (Issues s c (.bfi w) h → wordInts w.ty = true → tagsAre x [w.a, w.d] w.ty = true →
         Writes s c (.bfi w) h w.d (wide w.ty) w.ty (fun l =>
           bfiWord n (s.src x w.d w.ty (wide w.ty) l) (s.src x w.a w.ty (wide w.ty) l) (s.srcU x w.b 32 l) (s.srcU x w.c 32 l)))) ∧
      (let x := s.issOf c w.pn w.pm
       let h := headF w [(w.d, regsFor w.ty), (w.a, regsFor w.ty)] (perWave w.d)
       let n := if wide w.ty then 64 else 32
       wordInts w.ty = true → tagsAre x [w.a] w.ty = true →
       (Issues s c (.popc w) h → Writes s c (.popc w) h w.d (wide w.ty) w.ty (fun l => popCount n (s.src x w.a w.ty (wide w.ty) l))) ∧
       (Issues s c (.clz w) h → Writes s c (.clz w) h w.d (wide w.ty) w.ty (fun l => clz n (s.src x w.a w.ty (wide w.ty) l))) ∧
       (Issues s c (.ctz w) h → Writes s c (.ctz w) h w.d (wide w.ty) w.ty (fun l => ctz n (s.src x w.a w.ty (wide w.ty) l))) ∧
       (Issues s c (.brev w) h → Writes s c (.brev w) h w.d (wide w.ty) w.ty (fun l => revBits n (s.src x w.a w.ty (wide w.ty) l))))) ∧
  (∀ (w : Full) (s : State) (c : Cursor),
      let x := s.issOf c w.pn w.pm
      let h := headF w [] false
      let g := headF w [(w.d, 1)] (perWave w.d)
      (Issues s c (.mand w) h → WritesMask s c (.mand w) h w.d (fun l => (x.mask w.a).getLsbD l && (x.mask w.b).getLsbD l)) ∧
      (Issues s c (.mor w) h → WritesMask s c (.mor w) h w.d (fun l => (x.mask w.a).getLsbD l || (x.mask w.b).getLsbD l)) ∧
      (Issues s c (.mxor w) h → WritesMask s c (.mxor w) h w.d (fun l => (x.mask w.a ^^^ x.mask w.b).getLsbD l)) ∧
      (Issues s c (.mnot w) h → WritesMask s c (.mnot w) h w.d (fun l => (~~~ x.mask w.a).getLsbD l)) ∧
      (Issues s c (.mandn w) h → WritesMask s c (.mandn w) h w.d (fun l => (x.mask w.a &&& ~~~ x.mask w.b).getLsbD l)) ∧
      (Issues s c (.mpopc w) g → Writes s c (.mpopc w) g w.d false tagN32 (fun _ => popCount 32 (x.mask w.a).toNat)) ∧
      (Issues s c (.mffs w) g → Writes s c (.mffs w) g w.d false tagN32 (fun _ => ctz 32 (x.mask w.a).toNat)) ∧
      (Issues s c (.mtos w) g → Writes s c (.mtos w) g w.d false tagN32 (fun _ => (x.mask w.a).toNat)) ∧
      (Issues s c (.mlive w) g → Writes s c (.mlive w) g w.d false tagN32 (fun _ => x.live.toNat)) ∧
      (let h := headF w [(w.a, 1)] false
       Issues s c (.stom w) h → WritesMask s c (.stom w) h w.d (fun l =>
         if w.a.level = 0 then (s.srcU x w.a 32 l).testBit l else s.srcU x w.a 32 l != 0)))

/-- O20. ICMP, ISEL, MOV, PROM, MOVI, LEA, PICKL, VTOA, MKAFF, ABASE and ASTRIDE: the destination's value and the frame (13 R319-R322,
R324-R327). That VTOA and PICKL do not ask for a tag of their source is the model's reading (log 13). VRDX reads, and VWRX writes, in each
lane the register that lies an index of registers (of pairs, in a wide type) past the one named, and VWRX leaves every other register, and
every other lane of those, as it was; the registers VRDX reads agree in their tag (13 R330). -/
def Obligations.MoveResults : Prop :=
  (∀ (w : Full) (s : State) (c : Cursor),
      let x := s.issOf c w.pn w.pm
      let wd := wide w.ty
      let k := regsFor w.ty
      let n := if wd then 64 else 32
      (let h := headF w [(w.a, k), (w.b, k)] false
       Issues s c (.icmp w) h → (wordInts w.ty = true ∨ w.ty = 15) → tagsAre x [w.a, w.b] w.ty = true →
         WritesMask s c (.icmp w) h w.d (fun l => icmpCond w.sub n (s.src x w.a w.ty wd l) (s.src x w.b w.ty wd l))) ∧
      (∀ t m, let h := headF w [(w.d, k), (w.a, k), (w.b, k)] false
       Issues s c (.isel w) h → w.c = .m m → keptTag x [w.a, w.b] w.ty = some t →
         Writes s c (.isel w) h w.d wd t (fun l =>
           if (x.wave.rm x.g m).getLsbD l then s.src x w.a w.ty wd l else s.src x w.b w.ty wd l)) ∧
      (∀ t, keptTag x [w.a] w.ty = some t → w.a.level ≠ 1 →
        (Issues s c (.movI w) (headT w [w.a]) → Writes s c (.movI w) (headT w [w.a]) w.d wd t (fun l => s.src x w.a w.ty wd l)) ∧
        (Issues s c (.prom w) (headT w [w.a]) → Writes s c (.prom w) (headT w [w.a]) w.d wd t (fun l => s.src x w.a w.ty wd l))) ∧
      (∀ t, keptTag x [w.a] w.ty = some t → w.a.level = 1 →
        (Issues s c (.movI w) (headT w [w.a]) →
          WritesAffine s c (.movI w) (headT w [w.a]) w.d wd t (s.srcA x w.a wd).1 (s.srcA x w.a wd).2) ∧
        (Issues s c (.prom w) (headT w [w.a]) →
          WritesAffine s c (.prom w) (headT w [w.a]) w.d wd t (s.srcA x w.a wd).1 (s.srcA x w.a wd).2)) ∧
      (∀ (d : Opnd) (ty : Nat) (imm : Word), let h := Head.plain [(d, 1)] (perWave d)
        Issues s c (.movi d ty imm) h → Writes s c (.movi d ty imm) h d false ty (fun _ => imm.toNat)) ∧
      (let h := headF w [(w.d, k), (w.a, k), (w.b, k), (w.c, 1)] (perWave w.d)
       let sh := s.srcU x w.c 32 (lowestLane x.e) % 64
       Issues s c (.lea w) h → (w.ty = tagN32 ∨ w.ty = tagN64) → tagsAre x [w.a, w.b] w.ty = true → x.e ≠ 0 →
         (computedLevel .lea w ≠ 1 → Writes s c (.lea w) h w.d wd w.ty (fun l => s.src x w.a w.ty wd l + s.src x w.b w.ty wd l * 2 ^ sh)) ∧
         (computedLevel .lea w = 1 → WritesAffine s c (.lea w) h w.d wd w.ty ((s.srcA x w.a wd).1 + ((s.srcA x w.b wd).1 <<< sh)) (s.srcA x w.a wd).2)) ∧
      (let h := headF w [(w.d, k), (w.a, k), (w.b, 1)] true
       Issues s c (.pickl w) h → Writes s c (.pickl w) h w.d wd w.ty (fun _ => s.src x w.a w.ty wd (s.srcU x w.b 32 x.lane0 % 32))) ∧
      (∀ r, let h := headF w [(w.d, 1), (w.a, k)] true
       Issues s c (.vtoa w) h → (w.ty = tagN32 ∨ w.ty = tagN64) → x.e ≠ 0 →
         affineFit n (lanesOf x.live) (fun l => s.src x w.a w.ty wd l) = some r →
         WritesAffine s c (.vtoa w) h w.d wd w.ty r.1 r.2) ∧
      (let h := headF w [(w.d, 1), (w.a, if w.m5 then 2 else 1), (w.b, 1)] true
       Issues s c (.mkaff w) h → WritesAffine s c (.mkaff w) h w.d w.m5 w.ty (s.srcA x w.a w.m5).1 (s.srcI x w.b x.lane0)) ∧
      (let h := headF w [(w.d, if w.m5 then 2 else 1), (w.a, 1)] true
       Issues s c (.abase w) h → Writes s c (.abase w) h w.d w.m5 w.ty (fun _ => (s.srcA x w.a w.m5).1.toNat)) ∧
      (let h := headF w [(w.d, 1), (w.a, 1)] true
       Issues s c (.astride w) h → Writes s c (.astride w) h w.d false tagN32 (fun _ => wrapNat (s.srcA x w.a w.m5).2 32))) ∧
  (∀ (w : Full) (s : State) (c : Cursor) (b t : Nat),
      let x := s.issOf c w.pn w.pm
      let wd := wide w.ty
      let k := regsFor w.ty
      let reg := fun l => b + k * s.srcU x w.b 32 l
      let h := headF w [(w.d, k), (w.a, k), (w.b, 1)] false
      (∀ l ∈ lanesOf x.e, reg l + k ≤ max (s.footOf c.wave).vregs c.vvirt) →
      (Issues s c (.vrdx w) h → w.a = .v b → (∀ l ∈ lanesOf x.e, x.wave.rtag (reg l) = t) → x.e ≠ 0 →
        Writes s c (.vrdx w) h w.d wd t (fun l => s.src x (.v (reg l)) w.ty wd l)) ∧
      (Issues s c (.vwrx w) h → w.d = .v b → w.a = .v t →
        Completes s c (.vwrx w) h (s.modWave c.wave (fun v => (lanesOf x.e).foldl (fun v l =>
          v.putV (reg l) wd (x.wave.rtag t) (laneBit l) (fun l => s.src x w.a w.ty wd l)) v)) ∧
        ∀ u, exec (.vwrx w) s = .next u →
          let v := s.wave c.wave
          let v1 := u.wave c.wave
          OnlyWave s u c.wave ∧ SameWave v v1 false ∧ SameRegs v v1 (.v 0) (max (s.footOf c.wave).vregs c.vvirt) ∧
          (∀ r l, l < 32 → ¬ (x.e.getLsbD l = true ∧ reg l ≤ r ∧ r < reg l + k) → v1.rv r l = v.rv r l) ∧
          (∀ r, (∀ l ∈ lanesOf x.e, r < reg l ∨ reg l + k ≤ r) → v1.rtag r = v.rtag r)))

/-- O21. CVTI and FCVT between types their tables allow: each lane's packed elements are rounded once and saturated, with the sticky bit and SAT
of %wstat where an element saturates (13 R323; 14 R345). -/
def Obligations.ConversionResults : Prop :=
  ∀ (w : Full) (s : State) (c : Cursor),
    let x := s.issOf c w.pn w.pm
    let src := litOf w.b
    let dst := w.ty
    let h := headF w [(w.d, regsFor dst), (w.a, regsFor src)] (perWave w.d)
    let r := fun l => convertLane src dst (roundMode x w.sub) (w.m5 && dst = 23) (s.src x w.a src (wide src) l)
    let eff := (((s.put x w.d (wide dst) dst (fun l => (r l).1)).sticky x w.d 0 (x.where_ (fun l => (r l).2.2))).setSat x.w
      (x.where_ (fun l => (r l).2.1) != 0))
    (intGroup src || floatGroup src || convGroup src) = true → convOk src dst = true → tagsAre x [w.a] src = true → x.e ≠ 0 →
    (Issues s c (.cvti w) h → intGroup dst = true →
      Completes s c (.cvti w) h eff ∧ RegFrame s (s.retire c h eff) c.wave w.d (if wide dst then 2 else 1) true) ∧
    (Issues s c (.fcvt w) h → (floatGroup dst || convGroup dst) = true →
      Completes s c (.fcvt w) h eff ∧ RegFrame s (s.retire c h eff) c.wave w.d (if wide dst then 2 else 1) true)

/-- O22. Capability words on a tagged capability: CNARROW, CPERM and CFMT write a tagged capability derived from it, and CGET and CTAG read one
of any tag (13 R331-R334; 01 R36, R37). CGET and CTAG read a field, or the tag, of a capability of any tag (13 R334). -/
def Obligations.CapabilityResults : Prop :=
  (∀ (w : Full) (s : State) (c : Cursor) (d a : Nat),
      let x := s.issOf c w.pn w.pm
      let k := x.wave.rk a
      let set := fun (y : CapBits) => s.modWave c.wave (fun v => v.wk d y true)
      w.d = .k d → w.a = .k a → x.e ≠ 0 → x.wave.rktag a = true →
      (let h := headF w [(w.d, 4), (w.a, 4), (w.b, 2), (w.c, 2)] true
       let off := s.addrBase x w.b x.lane0
       let len := (s.addrBase x w.c x.lane0).toNat
       Issues s c (.cnarrow w) h → off.toNat + len ≤ k.length →
         Completes s c (.cnarrow w) h (set (capOf (k.base + off) len k.perms k.fmt k.pitch))) ∧
      (let h := headF w [(w.d, 4), (w.a, 4), (w.b, 1)] true
       Issues s c (.cperm w) h → Completes s c (.cperm w) h
         (set (capOf k.base k.length (Nat.land k.perms (s.srcU x w.b 32 x.lane0 % 256)) k.fmt k.pitch))) ∧
      (let h := headF w [(w.d, 4), (w.a, 4), (w.b, 1), (w.c, 1)] true
       Issues s c (.cfmt w) h → Completes s c (.cfmt w) h
         (set (capOf k.base k.length k.perms (s.srcU x w.b 32 x.lane0 % 32) (s.srcU x w.c 32 x.lane0 % 2048))))) ∧
  (∀ (w : Full) (s : State) (c : Cursor) (a : Nat),
      let x := s.issOf c w.pn w.pm
      let k := x.wave.rk a
      w.a = .k a →
      (let h := headF w [(w.d, if w.sub < 2 then 2 else 1), (w.a, 4)] true
       Issues s c (.cget w) h → Writes s c (.cget w) h w.d (w.sub < 2) tagN32 (fun _ =>
         if w.sub = 0 then k.base.toNat else if w.sub = 1 then k.length else if w.sub = 2 then k.perms else if w.sub = 3 then k.fmt else k.pitch)) ∧
      (let h := headF w [(w.d, 1), (w.a, 4)] true
       Issues s c (.ctag w) h → Writes s c (.ctag w) h w.d false tagN32 (fun _ => if x.wave.rktag a then 1 else 0)))

/-- O23. CFMT, OP 0x3E: of two k registers and two uniform sources; kD is kA with FMT and PITCH replaced by the low 5 and 11 bits of its uniform
sources, BASE, LENGTH and PERMS as they were, and the tag set; an untagged kA faults CAPTAG (13 R333). -/
def Obligations.CapabilityFormatRule : Prop :=
  ∀ (w : Full) (s : State) (c : Cursor) (d a : Nat), let h := headF w [(w.d, 4), (w.a, 4), (w.b, 1), (w.c, 1)] true
    let x := s.issOf c w.pn w.pm
    let k := x.wave.rk a
    (Instr.cfmt w).fullOp = some (0x3E, w) ∧ fullInstr 0x3E w = some (.cfmt w) ∧
    ((Instr.cfmt w).illegal = none → (∃ n, w.d = .k n) ∧ (∃ n, w.a = .k n) ∧ Pos.uni.illclass w.b = false ∧ Pos.uni.illclass w.c = false) ∧
    (w.d = .k d → w.a = .k a → Issues s c (.cfmt w) h → x.e ≠ 0 →
    (x.wave.rktag a = true → ∃ t, exec (.cfmt w) s = .next t ∧
      let y := (t.wave c.wave).rk d
      (t.wave c.wave).rktag d = true ∧ y.base = k.base ∧ y.length = k.length ∧ y.perms = k.perms ∧
      y.fmt = s.srcU x w.b 32 x.lane0 % 32 ∧ y.pitch = s.srcU x w.c 32 x.lane0 % 2048) ∧
    (x.wave.rktag a = false → (s.wave c.wave).stoppable = true → Traps s c (.cfmt w) h Code.captag x.lane0 0xF 0))

/-- O24. The floating-point arithmetic and special-function words: each element is its exact result rounded once in the word's mode (%round for
the special functions), inputs and result flushed under .FTZ (14 R339-R344; 05 R135). That a special function's exact result is rounded from
an approximation to 640 bits is the model's choice (log 20). FCMP, RETAG, FCLASS, FSCALE, DOTP and EXPR on operands of types their rules
allow (14 R342, R346-R350). -/
def Obligations.FloatResults : Prop :=
  (∀ (w : Full) (s : State) (c : Cursor),
      let x := s.issOf c w.pn w.pm
      let r := roundMode x w.sub
      let q := roundMode x 7
      FloatWord s c (.fadd w) w [w.a, w.b] floatGroup r (fun m a b _ => a.add m b) ∧
      FloatWord s c (.fsub w) w [w.a, w.b] floatGroup r (fun m a b _ => a.add m b.neg) ∧
      FloatWord s c (.fmul w) w [w.a, w.b] floatGroup r (fun _ a b _ => a.mul b) ∧
      FloatWord s c (.ffma w) w [w.a, w.b, w.c] floatGroup r (fun m a b k => (a.mul b).add m k) ∧
      FloatWord s c (.fdiv w) w [w.a, w.b] floatGroup r (fun _ a b _ => a.div b) ∧
      FloatWord s c (.fsqrt w) w [w.a] floatGroup r (fun _ a _ _ => a.sqrt) ∧
      FloatWord s c (.fmin w) w [w.a, w.b] floatGroup 0 (fun _ a b _ => a.min b) ∧
      FloatWord s c (.fmax w) w [w.a, w.b] floatGroup 0 (fun _ a b _ => a.max b) ∧
      FloatWord s c (.fabs w) w [w.a] floatGroup 0 (fun _ a _ _ => a.abs) ∧
      FloatWord s c (.fneg w) w [w.a] floatGroup 0 (fun _ a _ _ => a.neg) ∧
      FloatWord s c (.frnd w) w [w.a] floatGroup r (fun m a _ _ => a.integral m) ∧
      FloatWord s c (.frcp w) w [w.a] shortFloat q (fun _ a _ _ => a.rcp) ∧
      FloatWord s c (.frsq w) w [w.a] shortFloat q (fun _ a _ _ => a.rsq) ∧
      FloatWord s c (.fexp2 w) w [w.a] shortFloat q (fun _ a _ _ => a.exp2) ∧
      FloatWord s c (.flog2 w) w [w.a] shortFloat q (fun _ a _ _ => a.log2) ∧
      FloatWord s c (.fsinpi w) w [w.a] shortFloat q (fun _ a _ _ => a.sinpi) ∧
      FloatWord s c (.fcospi w) w [w.a] shortFloat q (fun _ a _ _ => a.cospi) ∧
      FloatWord s c (.ftanh w) w [w.a] shortFloat q (fun _ a _ _ => a.tanh) ∧
      FloatWord s c (.fsigm w) w [w.a] shortFloat q (fun _ a _ _ => a.sigm)) ∧
  (∀ (w : Full) (s : State) (c : Cursor),
      let x := s.issOf c w.pn w.pm
      let wd := wide w.ty
      let k := regsFor w.ty
      let n := elemBits w.ty
      (let h := headF w [(w.a, k), (w.b, k)] false
       Issues s c (.fcmp w) h → (w.ty = 23 ∨ w.ty = 24) → tagsAre x [w.a, w.b] w.ty = true →
         WritesMask s c (.fcmp w) h w.d (fun l =>
           fcmpCond w.sub (readF w.ty w.m5 (s.src x w.a w.ty wd l)) (readF w.ty w.m5 (s.src x w.b w.ty wd l)))) ∧
      (Issues s c (.retag w) (headT w [w.a]) → Writes s c (.retag w) (headT w [w.a]) w.d wd w.ty (fun l => s.src x w.a w.ty wd l)) ∧
      (let h := headF w [(w.d, 1), (w.a, k)] (perWave w.d)
       Issues s c (.fclass w) h → floatGroup w.ty = true → tagsAre x [w.a] w.ty = true →
         Writes s c (.fclass w) h w.d false tagN32 (fun l =>
           let a := s.src x w.a w.ty wd l
           if fmtElems w.ty = 2 then classify w.ty (elemOf a 16 0) + 2 ^ 16 * classify w.ty (elemOf a 16 1) else classify w.ty a)) ∧
      (let h := headF w [(w.d, k), (w.a, k), (w.b, 1)] (perWave w.d)
       Issues s c (.fscale w) h → floatGroup w.ty = true → tagsAre x [w.a] w.ty = true →
         Writes s c (.fscale w) h w.d wd w.ty (fun l => (mapElems w.ty (fun a _ _ =>
           (roundF w.ty (roundMode x w.sub) w.m5 ((readF w.ty w.m5 a).scale (s.srcI x w.b l)), false, false)) (s.src x w.a w.ty wd l) 0 0).1)) ∧
      (let h := headF w [(w.d, 1), (w.a, 2), (w.b, 2), (w.c, 1)] (perWave w.d)
       let f := fun (o : Opnd) (l i : Nat) => elemOf (s.src x o w.ty false l) n i
       let g := fun (o : Opnd) (l i : Nat) => elemInt n (!isUnsignedFmt w.ty) (f o l i)
       let p := fun (o : Opnd) (l i : Nat) => readF w.ty w.m5 (f o l i)
       let rm := roundMode x w.sub
       Issues s c (.dotp w) h → tagsAre x [w.a, secondOf w.a, w.b, secondOf w.b, w.c] w.ty = true →
         (shortFloat w.ty = true → Writes s c (.dotp w) h w.d false w.ty (fun l => packElems n ((List.range (fmtElems w.ty)).map (fun i =>
           roundF w.ty rm w.m5 (dotNum rm ((p w.a l i).mul (p w.b l i)) ((p (secondOf w.a) l i).mul (p (secondOf w.b) l i)) (p w.c l i)))))) ∧
         (floatGroup w.ty = false → 6 ≤ w.ty → w.ty ≤ 11 →
           Writes s c (.dotp w) h w.d false w.ty (fun l => packElems n ((List.range (fmtElems w.ty)).map (fun i =>
             wrapNat (g w.a l i * g w.b l i + g (secondOf w.a) l i * g (secondOf w.b) l i + g w.c l i) n))))) ∧
      (∀ (in3 : Opnd) (ts : List Nat),
       let h := headF w ((w.d, 1) :: (w.a, 1) :: ([w.b, w.c, in3].filter (· != .s 0)).map (fun o => (o, 1))) (perWave w.d)
       Issues s c (.expr w in3 ts) h → shortFloat w.ty = true → tagsAre x [w.a, w.b, w.c, in3] w.ty = true →
         Writes s c (.expr w in3 ts) h w.d false w.ty (fun l => packElems n ((List.range (fmtElems w.ty)).map (fun i =>
           ((exprProgram ts).foldl (exprStep w.ty (roundMode x w.sub) w.m5
             ([w.a, w.b, w.c, in3].map (fun o => elemOf (s.src x o w.ty false l) n i))) []).headD 0)))))

/-- O25. A pair word: each slot, which the rules do not refuse, gives its destination what the full form of its pop6 gives, read from the
registers as they stood before the word whatever the other slot has written: d op b, or op b where the operation is unary, wrapping, rounded
by %round; a slot of pop6 0 does nothing. Where neither faults both destinations are written, and where either faults the word stops and
neither takes effect, with X's fault if X faults (12 R284, R285; 13 R313-R316, R321; 14 R339-R341; 06 R157). That all of X's faults are
judged before any of Y's is the model's choice (log 55). SHFL, VOTE, VRED, VSCAN and MATCH read other lanes as they stood before any word of
the issue opportunity (14 R351-R355; 05 R147). With a varying index and an A that is not varying, that SHFL's destination takes the index's
tag or the type, as the device chooses, is the model's (log 68). -/
def Obligations.PairAndCrossLane : Prop :=
  (∀ (p q : Slot) (s : State) (c : Cursor),
      let x := s.issOf c false 0
      let h := Head.plain [] false
      Issues s c (.pairWord p q) h →
      (∀ s1 s2, slotRun p x s = .done s1 → slotRun q x s1 = .done s2 → Completes s c (.pairWord p q) h s2) ∧
      (∀ code lane acc ea s1, slotRun p x s = .fault code lane acc ea s1 →
        exec (.pairWord p q) s = .next (State.settle x 0 (.fault code lane acc ea s1))) ∧
      (∀ s1 code lane acc ea s2, slotRun p x s = .done s1 → slotRun q x s1 = .fault code lane acc ea s2 →
        exec (.pairWord p q) s = .next (State.settle x 0 (.fault code lane acc ea s))) ∧
      (∀ z t, z = p ∨ z = q → z.pop = 0 → slotRun z x t = .done t) ∧
      (p.pop = 0 → q.pop = 0 → Completes s c (.pairWord p q) h s) ∧
      (∀ z t, z = p ∨ z = q → z.pop ≠ 0 →
        let wd := wide z.ty
        let n := if wd then 64 else 32
        let srcs := if popUnary z.pop then [z.b] else [z.d, z.b]
        let o := if popUnary z.pop then z.b else z.d
        let named := (z.d :: srcs).all (fun o => regOk (t.footOf x.w) c.vvirt (o, regsFor z.ty))
        let gives := fun (tag : Nat) (f : Nat → Nat) => slotRun z x t = .done (t.put x z.d wd tag f)
        let affine := fun (tag : Nat) (r : DWord × Int) => slotRun z x t = .done (t.putAffine x z.d wd tag r.1 r.2)
        let fails := fun (k : Code) => slotRun z x t = .fault k x.lane0 0xF 0 t
        let elems := fun (g : Nat → Nat → Nat) (l : Nat) =>
          (mapElems z.ty (fun a b _ => (g a b, false, false)) (s.src x o z.ty wd l) (s.src x z.b z.ty wd l) 0).1
        let ints := fun (cls : ClsPol) (g : Nat → Bool → Nat → Nat → Nat) => x.e ≠ 0 → intGroup z.ty = true → tagsAre x srcs z.ty = true →
          computedLevel cls (slotFull z) ≠ 1 → gives z.ty (elems (g (elemBits z.ty) (!isUnsignedFmt z.ty)))
        let affines := fun (cls : ClsPol) (r : DWord × Int) => x.e ≠ 0 → intGroup z.ty = true → tagsAre x srcs z.ty = true →
          computedLevel cls (slotFull z) = 1 → if strideOk r.2 then affine z.ty r else fails Code.aovf
        let bits_ := fun (g : Nat → Nat → Nat) => ∀ tag, keptTag x srcs z.ty = some tag →
          gives tag (fun l => g (s.src x o z.ty wd l) (s.src x z.b z.ty wd l))
        let moves := ∀ tag, keptTag x srcs z.ty = some tag →
          if z.b.level = 1 then affine tag (s.srcA x z.b wd) else gives tag (fun l => s.src x z.b z.ty wd l)
        let floats := fun (rm : Nat) (g : Sys2Proof.Num → Sys2Proof.Num → Sys2Proof.Num) => floatGroup z.ty = true → tagsAre x srcs z.ty = true →
          gives z.ty (elems (fun a b => roundF z.ty rm false (g (readF z.ty false a) (readF z.ty false b))))
        let rm := bits (s.wave c.wave).round.toNat 2 0
        let ra := s.srcA x z.d wd
        let rb := s.srcA x z.b wd
        (z.illclass = true → fails Code.illclass) ∧ (z.illclass = false → named = false → fails Code.regidx) ∧
        (z.illclass = false → named = true → perWave z.d = true → x.diverges = true → fails Code.udiverge) ∧
        (z.illclass = false → named = true → (perWave z.d = true → x.diverges = false) →
          (z.pop = 0x01 → ints .add (fun n _ a b => (a + b) % 2 ^ n) ∧ affines .add (ra.1 + rb.1, ra.2 + rb.2)) ∧
          (z.pop = 0x02 → ints .add (fun n _ a b => (a + (2 ^ n - b)) % 2 ^ n) ∧ affines .add (ra.1 - rb.1, ra.2 - rb.2)) ∧
          (z.pop = 0x03 → ints .mul (fun n _ a b => a * b % 2 ^ n) ∧
            affines .mul (ra.1 * rb.1, if z.d.level = 1 then ra.2 * rb.1.toInt else rb.2 * ra.1.toInt)) ∧
          (z.pop = 0x04 → bits_ Nat.land) ∧ (z.pop = 0x05 → bits_ Nat.lor) ∧ (z.pop = 0x06 → bits_ Nat.xor) ∧
          (z.pop = 0x07 → ints .shl (fun n _ a b => if b % 64 < n then a * 2 ^ (b % 64) % 2 ^ n else 0) ∧
            affines .shl (ra.1 <<< (rb.1.toNat % 64), ra.2 * (2 ^ (rb.1.toNat % 64) : Nat))) ∧
          (z.pop = 0x08 → ints .join (fun _ _ a b => a / 2 ^ (b % 64))) ∧
          (z.pop = 0x09 → ints .join (fun n _ a b => wrapNat (sextNat a n / (2 ^ (b % 64) : Nat)) n)) ∧
          (z.pop = 0x0A → ints .join (fun n sg a b => if elemInt n sg b < elemInt n sg a then b else a)) ∧
          (z.pop = 0x0B → ints .join (fun n sg a b => if elemInt n sg a < elemInt n sg b then b else a)) ∧
          (z.pop = 0x0C → moves) ∧ (z.pop = 0x0D → ints .join (fun n _ a _ => (2 ^ n - a) % 2 ^ n)) ∧
          (z.pop = 0x0E → bits_ (fun a _ => 2 ^ n - 1 - a)) ∧
          (z.pop = 0x10 → floats rm (fun a b => a.add rm b)) ∧ (z.pop = 0x11 → floats rm (fun a b => a.add rm b.neg)) ∧
          (z.pop = 0x12 → floats rm Sys2Proof.Num.mul) ∧ (z.pop = 0x13 → floats 0 Sys2Proof.Num.min) ∧ (z.pop = 0x14 → floats 0 Sys2Proof.Num.max) ∧
          (z.pop = 0x15 → floats 0 (fun a _ => a.abs)) ∧ (z.pop = 0x16 → floats 0 (fun a _ => a.neg)) ∧ (z.pop = 0x18 → moves)))) ∧
  (∀ (w : Full) (s : State) (c : Cursor),
      let x := s.issOf c w.pn w.pm
      let old := s.asStood x
      let wd := wide w.ty
      let k := regsFor w.ty
      (let h := headF w [(w.d, k), (w.a, k), (w.b, 1)] false
       let value := fun (l : Nat) => s.src old w.a w.ty wd (shflLane w.sub (s.srcU x w.b 32 l) l)
       ∀ t, Issues s c (.shfl w) h → keptTag x [w.a, w.b] w.ty = some t →
         (isVarying w.a = true ∨ isVarying w.b = false → Writes s c (.shfl w) h w.d wd t value) ∧
         (isVarying w.a = false → isVarying w.b = true → ∃ f q, (q = t ∨ q = w.ty) ∧
           Completes s c (.shfl w) h ({ s with fresh := f }.put x w.d wd q value))) ∧
      (let h := headF w [(w.d, 1), (w.a, 1)] (perWave w.d)
       let yes := x.where_ (fun l => match w.a with
         | .m n => (x.wave.rm x.g n).getLsbD l
         | _ => s.srcU old w.a 32 l != 0)
       Issues s c (.vote w) h → Writes s c (.vote w) h w.d false tagN32 (fun _ =>
         if w.sub = 0 then (if yes = 0 then 0 else 1) else if w.sub = 1 then (if yes = x.e then 1 else 0) else yes.toNat)) ∧
      (let op := redOp w.sub w.ty (roundMode x 7) (w.m5 && w.ty = 23)
       (if w.sub < 6 then intGroup w.ty else floatGroup w.ty) = true → tagsAre x [w.a] w.ty = true →
       (Issues s c (.vred w) (headT w [w.a]) →
         Writes s c (.vred w) (headT w [w.a]) w.d wd w.ty (fun _ => treeReduce op (s.redLanes x w))) ∧
       (Issues s c (.vscan w) (headT w [w.a]) →
         Writes s c (.vscan w) (headT w [w.a]) w.d wd w.ty (fun l =>
           if litOf w.b = 1 then (if l = 0 then redIdentity w.sub w.ty else (treeScan op (s.redLanes x w)).getD (l - 1) 0)
           else (treeScan op (s.redLanes x w)).getD l 0))) ∧
      (let h := headF w [(w.d, 1), (w.a, k)] false
       let v := (List.range 32).map (fun l => s.src old w.a w.ty wd l)
       Issues s c (.matchI w) h → Writes s c (.matchI w) h w.d false tagN32 (fun l => (x.where_ (fun j => v.getD j 0 = v.getD l 0)).toNat)))

/-- O26. LD and CLD whose accesses pass and reach clean local memory: each lane takes its read step (through V1 on path 0x1) and the destination
is written; no byte of memory changes, and no other register or part of the state (14 R356, R357; 13 R335; 03 R80). -/
def Obligations.Loads : Prop :=
  ∀ (s : State) (c : Cursor) (ps : List Place) (s1 : State),
    (∀ (w : MForm),
      let x := s.issOf c w.pn w.pm
      let size := accSize w
      let h := headM w [(w.d, if size = 8 then 2 else 1), (w.a, 2), (w.b, 1)] (perWave w.d)
      let r := s1.loadSteps c.wave ps size
      let eff := r.2.put x w.d (size = 8) w.ty (fun l => extendLoad w size (valOf r.1 l))
      Issues s c (.ld w) h →
      Reaches s x ((loadLanes x w.d).map (fun l => s.reqAt x w.a (s.offM x w size l) size size AccKind.load 1 pathsAll l)) ps s1 →
      Clean s1 ps size → Completes s c (.ld w) h eff ∧ SameBytes s1 (s.retire c h eff) ∧
        MemFrame s (s.retire c h eff) c.wave w.d (if size = 8 then 2 else 1)) ∧
    (∀ (w : MForm) (k : Nat) (p : Place),
      let x := s.issOf c w.pn w.pm
      let l := lowestLane x.e
      let h := headM w [(w.d, 4), (w.a, 2), (w.b, 1)] true
      let r := s1.readCap (.lane c.wave l) p
      let eff := r.2.2.modWave c.wave (fun v => v.wk k r.1 r.2.1)
      Issues s c (.cld w) h → w.d = .k k → x.e ≠ 0 →
      Reaches s x [s.reqAt x w.a (s.srcI x w.b l + w.off * 16) 16 16 AccKind.cld 9 pathsAll l] [p] s1 → Clean s1 [p] 16 →
      Completes s c (.cld w) h eff ∧ SameBytes s1 (s.retire c h eff) ∧ MemFrame s (s.retire c h eff) c.wave w.d 4)

/-- O27. ST and CST whose accesses pass: each lane of E queues its write, at the address its base and offset give, of the access's bytes with
the granules' capability tags cleared (ST) or written (CST); no byte of memory changes before the write drains, and no register (14 R358; 13
R335; 03 R80). -/
def Obligations.Stores : Prop :=
  ∀ (w : MForm) (s : State) (c : Cursor) (ps : List Place) (s1 : State),
    let x := s.issOf c w.pn w.pm
    (let size := accSize w
     let h := headM w [(w.d, if size = 8 then 2 else 1), (w.a, 2), (w.b, 1)] false
     let eff := ps.foldl (fun t p => t.queueWrite (.lane c.wave p.lane)
       (plainWrite p.loc size (s1.src x w.d w.ty (size = 8) p.lane)) s1.nextId p.ea c.pc) { s1 with nextId := s1.nextId + 1 }
     Issues s c (.st w) h →
     Reaches s x ((lanesOf x.e).map (fun l => s.reqAt x w.a (s.offM x w size l) size size AccKind.store 2 pathsStore l)) ps s1 →
     Completes s c (.st w) h eff ∧ SameBytes s1 (s.retire c h eff) ∧ MemFrame s (s.retire c h eff) c.wave (.m 0) 0) ∧
    (∀ k, let h := headM w [(w.d, 4), (w.a, 2), (w.b, 1)] false
     let eff := ps.foldl (fun t p => t.queueWrite (.lane c.wave p.lane)
       ((List.range 16).map (fun j => (p.loc + j, (x.wave.rk k).extractLsb' (8 * j) 8)) ++
         (if keepsTag p.loc then [(locTag p.loc, if x.wave.rktag k then 1 else 0)] else [])) s1.nextId p.ea c.pc AccKind.cst) { s1 with nextId := s1.nextId + 1 }
     Issues s c (.cst w) h → w.d = .k k →
     Reaches s x ((lanesOf x.e).map (fun l => s.reqAt x w.a (s.srcI x w.b l + w.off * 16) 16 16 AccKind.cst 10 pathsStore l)) ps s1 →
     Completes s c (.cst w) h eff ∧ SameBytes s1 (s.retire c h eff) ∧ MemFrame s (s.retire c h eff) c.wave (.m 0) 0)

/-- O28. ATOM and ATCAS on clean local memory: one atomic step per lane of E, in an order of the device's choosing and with steps of other
agents between them, whose old values the destination takes when the last has stepped; no other register changes, and where nothing is
queued no byte outside the lanes' own (14 R360-R362; 03 R82, R92). An atomic step on n bytes whose agent has nothing queued: it answers the
latest value, appends the new one where there is one, and leaves every byte outside the n bytes (and their granules' capability tags) as it
was (03 R92; 01 R40). -/
def Obligations.Atomics : Prop :=
  (∀ (w : Full) (s : State) (c : Cursor),
      let x := s.issOf c w.pn w.pm
      let wd := wide w.ty
      let size := if wd then 8 else 4
      let k := regsFor w.ty
      let fin := fun (vals : List (Nat × Nat)) (t : State) => t.put x w.d wd w.ty (oldFor w.d vals)
      let keeps := fun (i : Instr) => ∀ t, exec i s = .next t → (t.wave c.wave).stepsOf c.group = none → MemFrame s t c.wave w.d (if wd then 2 else 1)
      let bytes := fun (i : Instr) (s1 : State) (ls : List (Nat × Nat)) => (∀ l, l < 32 → ((s1.wave c.wave).lane l).ag.queue = []) → ∀ t,
        exec i s = .next t → ∀ a, a < 2 ^ 96 → (∀ p ∈ ls, a < p.2 ∨ p.2 + size ≤ a) → t.mem.byte a = s1.mem.byte a
      let runs := fun (i : Instr) (h : Head) (reqs : List Req) (one : Nat → Nat → State → Nat × State) =>
        ((s.wave c.wave).stepsOf c.group = none → ∀ ps s1, Reaches s x reqs ps s1 → Clean s1 ps size →
          StepsApart s c i h s1 (ps.map (fun p => (p.lane, p.loc))) [] one fin ∧ keeps i ∧ bytes i s1 (ps.map (fun p => (p.lane, p.loc)))) ∧
        (∀ t, (s.wave c.wave).stepsOf c.group = some t → StepsApart s c i h s t.left t.vals one fin ∧ bytes i s t.left)
      (let h := headF w (destRegs w.d k ++ [(w.a, 2), (w.b, k), (w.c, 1)]) (perWave w.d)
       Issues s c (.atom w) h → atomTypeOk w.sub w.ty = true → tagsAre x [w.b] w.ty = true →
       runs (.atom w) h ((lanesOf x.e).map (fun l => s.reqAt x w.a (s.srcI x w.c l) size size AccKind.atomic 4 pathsAtomic l))
         (State.atomOne c.wave size (fun l o => some (atomNew w.sub w.ty o (s.src x w.b w.ty wd l))))) ∧
      (let h := headF w (destRegs w.d k ++ [(w.a, 2), (w.b, k), (w.c, k)]) (perWave w.d)
       Issues s c (.atcas w) h → (wordInts w.ty = true ∨ w.ty = 23 ∨ w.ty = 24) → tagsAre x [w.b, w.c] w.ty = true →
       runs (.atcas w) h ((lanesOf x.e).map (fun l => s.reqAt x w.a 0 size size AccKind.atomic 4 pathsAtomic l))
         (State.atomOne c.wave size (fun l o =>
           if o = s.src x w.b w.ty wd l then some (s.src x w.c w.ty wd l) else none)))) ∧
  (∀ (s : State) (ag : Agent) (loc n : Nat) (f : Nat → Option Nat), (s.agent ag).queue = [] → loc + n ≤ 2 ^ 96 →
      (s.atomicStep ag loc n f).1 = (s.memFor ag).nat loc n ∧
      (f ((s.memFor ag).nat loc n) = none → SameBytes s (s.atomicStep ag loc n f).2) ∧
      (∀ y, f ((s.memFor ag).nat loc n) = some y →
        (s.atomicStep ag loc n f).2.mem.nat loc n = y % 256 ^ n ∧
        ∀ a, a < 2 ^ 96 → (a < loc ∨ loc + n ≤ a) → (s.atomicStep ag loc n f).2.mem.byte a = s.mem.byte a))

/-- O29. FENCE, FENCE.PATH, PFETCH, CFLUSH and ICINV: each lane of E takes its fence step, with steps of other agents between them; a prefetch
or flush whose line passes its checks changes nothing else; ICINV discards the fetched copies of the range in every core (14 R359, R363,
R369, R370; 03 R82, R89, R90). That with the last lane's step every lane of E also acquires what the wave's fences published is the model's
reading, for 03 R89 gives each lane its own two steps alone (log 6, DEDUCED from 03 R93). -/
def Obligations.FencesAndFlushes : Prop :=
  ∀ (s : State) (c : Cursor),
    (∀ (w : Full), let x := s.issOf c w.pn w.pm
     let h := headF w [] false
     let ls := (((s.wave c.wave).stepsOf c.group).map (·.left)).getD ((lanesOf x.e).map (fun l => (l, 0)))
     (Issues s c (.fence w) h →
       StepsApart s c (.fence w) h s ls [] (fun l _ t => (0, t.fenceStep c.wave l w.sub)) (fun _ t =>
         (lanesOf x.e).foldl (fun t l => t.fullAcquire (.lane c.wave l) (.fence 0 c.wave)) t)) ∧
     (Issues s c (.fencePath w) h →
       Completes s c (.fencePath w) h ((lanesOf x.e).foldl (fun t l => t.fencePathStep (.lane c.wave l)) s))) ∧
    (∀ (w : MForm) (ps : List Place) (s1 : State), let x := s.issOf c w.pn w.pm
     let h := headM w [(w.a, 2), (w.b, 1)] false
     Issues s c (.pfetch w) h →
     Reaches s x ((lanesOf x.e).map (fun l => s.lineReq x w.a (s.offM x w 64 l) AccKind.prefetch pathsAll l)) ps s1 →
     Completes s c (.pfetch w) h s1) ∧
    (∀ (w : Full) (ps : List Place) (s1 : State), let x := s.issOf c w.pn w.pm
     let h := headF w [(w.a, 2), (w.c, 1)] false
     Issues s c (.cflush w) h →
     Reaches s x ((lanesOf x.e).map (fun l => s.lineReq x w.a (s.srcI x w.c l) AccKind.load [0, 1, 7, 8] l)) ps s1 →
     Completes s c (.cflush w) h s1) ∧
    (∀ (w : Full), let x := s.issOf c w.pn w.pm
     let h := headF w [(w.a, 2), (w.b, 1)] true
     let ea := s.addrBase x w.a (lowestLane x.e)
     let n := s.srcU x w.b 32 (lowestLane x.e)
     Issues s c (.icinv w) h → x.e ≠ 0 → fetchPathFault ea false = none → n ≠ 0 →
     Completes s c (.icinv w) h (s.cores.foldl (fun t p => t.modCore p.1 (fun k => k.discard (s.vfOf c.wave) ea.toNat n)) s))

/-- O30. ACQ, REL, BIND and UNBIND: each lane of an acquire reads the object and merges its set into its views, and a destination that speaks
for the wave takes the value that the lowest lane of E read; each lane of a release drains the bound regions' writes, publishes them, but no
object's word, and writes the object; BIND and UNBIND change the context's table alone (14 R364-R366; 03 R82, R84-R87). That a REL to a
location no port reaches writes nothing and still merges its set is the model's choice (log 26), and so is that a bound region and its
object are found by translating at the moment of the REL (log 15). -/
def Obligations.SyncObjects : Prop :=
  ∀ (w : Full) (s : State) (c : Cursor),
    let x := s.issOf c w.pn w.pm
    let l := lowestLane x.e
    let runs := fun (i : Instr) (h : Head) (reqs : List Req) (one : Nat → Nat → State → Nat × State) (fin : List (Nat × Nat) → State → State) =>
      ((s.wave c.wave).stepsOf c.group = none → ∀ ps s1, Reaches s x reqs ps s1 → Clean s1 ps 8 →
        StepsApart s c i h s1 (ps.map (fun p => (p.lane, p.loc))) [] one fin) ∧
      (∀ t, (s.wave c.wave).stepsOf c.group = some t → StepsApart s c i h s t.left t.vals one fin)
    (let h := headF w [(w.d, if w.m5 then 2 else 1), (w.a, 2)] (perWave w.d)
     Issues s c (.acq w) h → runs (.acq w) h (s.uniReqs x w.a 8 8 AccKind.load [0])
       (fun k loc t =>
         let r := t.acqStep (.lane c.wave k) loc
         (if t.poisoned loc then 0 else r.1, r.2))
       (fun vals t => t.put x w.d w.m5 w.ty (fun k => valOf vals (if isVarying w.d then k else l)))) ∧
    (let h := headF w [(w.a, 2), (w.b, if w.m5 then 2 else 1)] false
     Issues s c (.relI w) h → runs (.relI w) h (s.uniReqs x w.a 8 8 AccKind.store [0])
       (fun k loc t => (0, t.relStep (t.vfOf c.wave) (.lane c.wave k) (t.addrBase x w.a k) c.pc loc (t.srcU x w.b (if w.m5 then 64 else 32) k)))
       (fun _ t => t)) ∧
    (∀ (t : State) (vf k loc v : Nat) (ea pc : DWord), k < 32 → (tfind? t.waves c.wave).isSome = true →
      let ag := Agent.lane c.wave k
      let u := t.relStep vf ag ea pc loc v
      let bound := t.boundRuns vf ea loc
      let objs := t.objectRuns loc
      let d := t.drainWhere ag (fun y => (loc ≤ y && y < loc + 8) || inRuns bound y)
      (∀ y, tget 0 (u.rel (.sync loc)) y = max (tget 0 (t.rel (.sync loc)) y)
        (if inRuns bound y = true ∧ inRuns objs y = false then viewTop (d.agent ag).view y else 0)) ∧
      (∀ j, j ≠ .sync loc → u.rel j = t.rel j) ∧
      (∀ q ∈ (u.agent ag).queue, ∀ y ∈ q.bytes, inRuns bound y.1 = false ∧ ¬ (loc ≤ y.1 ∧ y.1 < loc + 8)) ∧
      ((∀ i, i < 8 → t.cutOff (loc + i) = false) → loc + 8 ≤ 2 ^ 96 → u.mem.nat loc 8 = v % 2 ^ 64) ∧
      ((∀ i, i < 8 → t.cutOff (loc + i) = true) → u.mem = d.mem ∧ (u.agent ag).view = (d.agent ag).view)) ∧
    (let h := headF w [(w.a, 2), (w.b, if w.m5 then 2 else 1), (w.c, 2)] true
     let base := s.addrBase x w.a l
     let obj := s.addrBase x w.c l
     let len := s.srcU x w.b (if w.m5 then 64 else 32) l
     Issues s c (.bindI w) h → x.e ≠ 0 → plainPathFault obj 8 8 = none → plainPathFault base len 64 = none →
     len % 64 = 0 → 64 ≤ len → (s.ctx (s.vfOf c.wave)).bindOverlap base.toNat len = false →
     Completes s c (.bindI w) h (s.modCtx (s.vfOf c.wave) (fun k => { k with bindings := k.bindings ++ [(base.toNat, len, obj.toNat)] }))) ∧
    (let h := headF w [(w.a, 2)] true
     Issues s c (.unbind w) h → x.e ≠ 0 →
     Completes s c (.unbind w) h (s.modCtx (s.vfOf c.wave) (fun k =>
       { k with bindings := k.bindings.filter (fun b => b.1 != (s.addrBase x w.a l).toNat) })))

/-- O31. Arrival barriers: INIT, ARRIVE, TEST and a WAIT on a finished phase complete; a WAIT on the current phase makes its lanes wait, and
ABAR_WAIT_RESUME lets them go on once PHASE differs (14 R367, R368; 04 R117; 03 R101). That TEST and WAIT read the word at the backing store
is the model's choice (log 55). An arrival that changes PHASE hands what the barrier's set then holds to the waits that observe the change;
one that does not leaves it (03 R101; 04 R117). That the waits acquire what the set then held, and nothing released after the change, is the
model's choice (log 61). -/
def Obligations.ArrivalBarriers : Prop :=
  (∀ (s : State) (c : Cursor),
      (∀ (w : Full) (p : Place) (s1 : State),
        let x := s.issOf c w.pn w.pm
        let l := lowestLane x.e
        let loc := p.loc
        let ag := Agent.lane c.wave l
        x.e ≠ 0 →
        Reaches s x [{ lane := l, ea := s.addrBase x w.a l, size := 16, kind := AccKind.atomic, align := 16, cap := none, paths := [2] }] [p] s1 →
        (let h := headF w [(w.a, 2), (w.b, 1)] true
         (Issues s c (.abarInit w) h →
           Completes s c (.abarInit w) h (s1.atomicStep ag loc 16 (fun o => some (initNew o (s1.srcU x w.b 32 l)))).2) ∧
         (Issues s c (.abarArrive w) h →
           Completes s c (.abarArrive w) h ((s1.releaseLanes c.wave x.e (.abar loc)).abarArriveAt ag loc (s1.srcU x w.b 32 l)))) ∧
        (let h := headF w [(w.a, 2), (w.b, 1)] false
         let s2 := s1.abarWaiters loc 1
         let v := s1.srcU x w.b 32 l
         (Issues s c (.abarWait w) h → s2.mem.abarPhase loc ≠ v →
           Completes s c (.abarWait w) h ((s2.abarWaiters loc (2 ^ 16 - 1)).acquireLanes c.wave x.e (.abarPhase loc))) ∧
         (Issues s c (.abarWait w) h → s2.mem.abarPhase loc = v →
           Places s c (.abarWait w) h (s2.waitOn x x.e (.abar x.e loc (BitVec.ofNat 32 v))))) ∧
        (let h := headF w [(w.d, 1), (w.a, 2), (w.b, 1)] (perWave w.d)
         Issues s c (.abarTest w) h →
         (s1.mem.abarPhase loc ≠ s1.srcU x w.b 32 l →
           Completes s c (.abarTest w) h ((s1.acquireLanes c.wave x.e (.abarPhase loc)).put x w.d false tagN32 (fun _ => 1))) ∧
         (s1.mem.abarPhase loc = s1.srcU x w.b 32 l → Completes s c (.abarTest w) h (s1.put x w.d false tagN32 (fun _ => 0))))) ∧
      (∀ e loc p, let w := s.occ.a
        s.waitOf w s.occ.b = some (.abar e loc p) → s.awake w = true → s.mem.abarPhase loc ≠ p.toNat →
        exec .abarWaitResume s = .next (((s.abarWaiters loc (2 ^ 16 - 1)).acquireLanes w e (.abarPhase loc)).leaveWait w (s.waiters w s.occ.b)))) ∧
  (∀ (s : State) (w l loc b : Nat), l < 32 → loc + 16 ≤ 2 ^ 96 → (tfind? s.waves w).isSome = true →
      ((s.wave w).lane l).ag.queue = [] →
      let o := (s.memOf (s.unit (s.wave w).unit).vf).nat loc 16
      let n := arriveNew o b
      let t := s.abarArriveAt (.lane w l) loc b
      t.mem.nat loc 16 = n ∧
      (o / 2 ^ 64 % 2 ^ 32 ≠ n / 2 ^ 64 % 2 ^ 32 → t.rel (.abarPhase loc) = s.rel (.abar loc)) ∧
      (o / 2 ^ 64 % 2 ^ 32 = n / 2 ^ 64 % 2 ^ 32 → t.rel (.abarPhase loc) = s.rel (.abarPhase loc)) ∧
      (∀ k, k ≠ .abarPhase loc → t.rel k = s.rel k))

/-- O32. BRA, BRC, JMPI, RET and CALL whose targets lie in the innermost loop's body, if there is one, and name a BLOCK record where a direct
target lies in a module: which lanes transfer and where; CALL also writes the address of the next word to its link pair. A target outside
the body, and a direct target in a module at no BLOCK record, fault ILLOP (13 R298-R302; 12 R290). -/
def Obligations.Branches : Prop :=
  ∀ (s : State) (c : Cursor), c.group &&& (s.wave c.wave).live = c.group →
    let inLoop := fun (dest : Nat → Option DWord) => ∀ l a f, c.group.getLsbD l = true → dest l = some a →
      (s.wave c.wave).loops.head? = some f → f.first ≤ a ∧ a < f.after
    let leaves := fun (dest : Nat → Option DWord) (l : Nat) => ∃ a f, dest l = some a ∧ (s.wave c.wave).loops.head? = some f ∧ (a < f.first ∨ f.after ≤ a)
    let first := fun (dest : Nat → Option DWord) (l : Nat) => l < 32 ∧ c.group.getLsbD l = true ∧ leaves dest l ∧
      ∀ k, k < l → c.group.getLsbD k = true → ¬ leaves dest k
    let traps := fun (i : Instr) (h : Head) (l : Nat) => (s.wave c.wave).stoppable = true → Traps s c i h Code.illop l 0xF 0
    (∀ sub cond off, let h := Head.plain (if sub = 0 then [] else [(cond, 1)]) false
      let x := s.issOf c false 0
      let v := s.srcU x cond 32 (lowestLane c.group)
      let dest := fun (_ : Nat) => if sub = 0 ∨ (sub = 1 ∧ v ≠ 0) ∨ (sub = 2 ∧ v = 0) then some (x.home + BitVec.ofInt 64 off) else none
      Issues s c (.bra sub cond off) h →
      (s.noBlock x (x.home + BitVec.ofInt 64 off) = false → inLoop dest → Jumps s c (.bra sub cond off) dest (.m 0) 0) ∧
      (s.noBlock x (x.home + BitVec.ofInt 64 off) = false → ∀ l, first dest l → traps (.bra sub cond off) h l) ∧
      (s.noBlock x (x.home + BitVec.ofInt 64 off) = true → traps (.bra sub cond off) h (lowestLane c.group))) ∧
    (∀ sub n off, let h := Head.plain [] false
      let x := s.issOf c false 0
      let m := (s.wave c.wave).rm c.group n
      let dest := fun (l : Nat) => if m.getLsbD l = (sub = 0) then some (x.home + BitVec.ofInt 64 off) else none
      Issues s c (.brc sub (.m n) off) h →
      (s.noBlock x (x.home + BitVec.ofInt 64 off) = false → inLoop dest → Jumps s c (.brc sub (.m n) off) dest (.m 0) 0) ∧
      (s.noBlock x (x.home + BitVec.ofInt 64 off) = false → ∀ l, first dest l → traps (.brc sub (.m n) off) h l) ∧
      (s.noBlock x (x.home + BitVec.ofInt 64 off) = true → traps (.brc sub (.m n) off) h (lowestLane c.group))) ∧
    (∀ w : Full, let h := headF w [(w.a, 2)] false
      let x := s.issOf c w.pn w.pm
      let dest := fun (l : Nat) => if x.e.getLsbD l then some (BitVec.ofNat 64 (s.src x w.a tagN64 true l)) else none
      (Issues s c (.jmpi w) h → (inLoop dest → Jumps s c (.jmpi w) dest (.m 0) 0) ∧ ∀ l, first dest l → traps (.jmpi w) h l) ∧
      (Issues s c (.ret w) h → (inLoop dest → Jumps s c (.ret w) dest (.m 0) 0) ∧ ∀ l, first dest l → traps (.ret w) h l)) ∧
    (∀ sub cond link off, let h := Head.plain ((link, 2) :: (if sub = 0 then [] else [(cond, 2)])) false
      let x := s.issOf c false 0
      let dest := fun (l : Nat) => some (if sub = 0 then x.home + BitVec.ofInt 64 off else BitVec.ofNat 64 (s.src x cond tagN64 true l))
      Issues s c (.call sub cond link off) h →
      (sub = 0 ∧ s.noBlock x (x.home + BitVec.ofInt 64 off) = true →
        traps (.call sub cond link off) h (lowestLane c.group)) ∧
      (¬ (sub = 0 ∧ s.noBlock x (x.home + BitVec.ofInt 64 off) = true) →
        (∀ l, first dest l → traps (.call sub cond link off) h l) ∧
        (inLoop dest → Jumps s c (.call sub cond link off) dest link 2 ∧
          ∀ t, exec (.call sub cond link off) s = .next t → c.group ≠ 0 →
            ∀ n l, link = .v n → l < 32 → c.group.getLsbD l = true →
              pairOf ((t.wave c.wave).rv n l) ((t.wave c.wave).rv (n + 1) l) = c.next)))

/-- O33. SYNCW goes on at once where its group is the whole wave, and otherwise waits; SYNCW_RELEASE lets all live lanes go on together once
they all wait at one SYNCW (06 R163; 13 R303). MWAIT and WAITT: a word that already differs is read at once, and a deadline already reached
proceeds; else the lanes wait, and MWAIT_WAKE and WAITT_EXPIRY end the wait (13 R311, R312; 03 R102). That a wait whose location no port
reaches any more faults REMOTE is the model's choice (log 26). What waiting and going on do to lanes: the lanes of a set wait with the
word's operands captured, the rest of the group stands at the next word; and lanes whose wait ends stand after their word. Nothing else of
the machine changes (06 R151). -/
def Obligations.WaveWaits : Prop :=
  (∀ (s : State),
      (∀ (c : Cursor) (w : Full), let h := headF w [] false
       let x := s.issOf c w.pn w.pm
       Issues s c (.syncw w) h →
       (c.group = x.live → Completes s c (.syncw w) h s) ∧
       (c.group ≠ x.live → Places s c (.syncw w) h (s.waitOn x c.group .syncw))) ∧
      (let w := s.occ.a
       s.awake w = true → s.allWait w .syncw = true → exec .syncwRelease s = .next (s.leaveWait w (s.wave w).live))) ∧
  (∀ (s : State),
      (∀ (c : Cursor) (w : Full) (p : Place) (s1 : State), let x := s.issOf c w.pn w.pm
       let l := lowestLane x.e
       let h := headF w [(w.d, 1), (w.a, 2), (w.b, 1)] (perWave w.d)
       let v := BitVec.ofNat 32 (s1.srcU x w.b 32 l)
       Issues s c (.mwait w) h → x.e ≠ 0 →
       Reaches s x [{ lane := l, ea := s.addrBase x w.a l, size := 4, kind := AccKind.load, align := 4, cap := none, paths := pathsAtomic }] [p] s1 →
       Clean s1 [p] 4 →
       ((s1.memOf (s1.vfOf c.wave)).nat p.loc 4 ≠ v.toNat → Completes s c (.mwait w) h (s1.mwaitRead c.wave x.e w.d p.loc)) ∧
       ((s1.memOf (s1.vfOf c.wave)).nat p.loc 4 = v.toNat → Places s c (.mwait w) h (s1.waitOn x x.e (.mwait x.e w.d s1.mem.clock (s.addrBase x w.a l) p.loc p.tolerant v)))) ∧
      (∀ (c : Cursor) (w : Full), let x := s.issOf c w.pn w.pm
       let h := headF w [(w.a, 2)] false
       let t := s.addrBase x w.a (lowestLane c.group)
       Issues s c (.waitt w) h → x.e ≠ 0 →
       (t ≤ s.timens (s.vfOf c.wave) → Completes s c (.waitt w) h s) ∧
       (s.timens (s.vfOf c.wave) < t → Places s c (.waitt w) h (s.waitOn x x.e (.waitt t)))) ∧
      (let w := s.occ.a
       s.awake w = true →
       (∀ e d since ea loc tol v, s.waitOf w s.occ.b = some (.mwait e d since ea loc tol v) →
         (s.cutOff loc = true → exec .mwaitWake s = .next (s.takeFault w ((s.issWait w e).record Code.remote 1 (lowestLane e) AccKind.load ea))) ∧
         (s.cutOff loc = false → (s.memOf (s.vfOf w)).differed since loc v = true → (tol = true ∨ ∀ i, i < 4 → s.poisoned (loc + i) = false) →
           exec .mwaitWake s = .next ((s.mwaitRead w e d loc).leaveWait w (s.waiters w s.occ.b)))) ∧
       (∀ t, s.waitOf w s.occ.b = some (.waitt t) → t ≤ s.timens (s.vfOf w) →
         exec .waittExpiry s = .next (s.leaveWait w (s.waiters w s.occ.b))))) ∧
  (∀ (s : State),
      (∀ (x : Iss) (e : Mask) (wt : Wait), x.cur.wave = x.w → x.g &&& (s.wave x.w).live = x.g → e &&& x.g = e →
        let t := s.waitOn x e wt
        OnlyWave s t x.w ∧ SameRegs (s.wave x.w) (t.wave x.w) (.m 0) 0 ∧
        ∀ l, l < 32 → (e.getLsbD l = true → ((t.wave x.w).lane l).wait = some wt ∧ ((t.wave x.w).lane l).pc = ((s.wave x.w).lane l).pc ∧
            ((t.wave x.w).lane l).after = x.cur.next) ∧
          (x.g.getLsbD l = true → e.getLsbD l = false → ((t.wave x.w).lane l).pc = x.cur.next) ∧
          (x.g.getLsbD l = false → (t.wave x.w).lane l = (s.wave x.w).lane l)) ∧
      (∀ (w : Nat) (m : Mask), let t := s.leaveWait w m
        OnlyWave s t w ∧ SameRegs (s.wave w) (t.wave w) (.m 0) 0 ∧
        ∀ l, l < 32 → (t.wave w).lane l =
          (if m.getLsbD l then
            { (s.wave w).lane l with
              pc := ((s.wave w).lane l).after
              clause := if ((s.wave w).lane l).leaves then none else ((s.wave w).lane l).clause
              wait := if ((s.wave w).loops.head?.map (·.after)) = some ((s.wave w).lane l).after then some .loopEnd else none }
           else (s.wave w).lane l)))

/-- O34. Hardware loops: LOOP enters its body or skips it where COUNT is 0; at the end of the body the counter falls and all live lanes go back
to its first word, or leave at the last repetition; LBRK leaves at once (13 R304-R306). That a module's body that has a record whose length
is not known, or that ends the module's records, has no end of its own is the model's reading (log 72). -/
def Obligations.Loops : Prop :=
  ∀ (s : State),
    (∀ (c : Cursor) (i : Nat) (count : Opnd) (body : Nat) (scan : BodyScan) (after last : DWord) (s1 : State),
      let h := Head.plain [(count, 1)] true
      let x := s.issOf c false 0
      let v := s.wave c.wave
      let first := match c.clause with
        | some (b, hd) => clauseAfter b hd
        | none => c.next
      let n := s1.srcU x count 32 (lowestLane c.group)
      let s2 := s1.modWave c.wave (fun v => v.wlc i (BitVec.ofNat 32 n))
      Issues s c (.loop (.lc i) count body) h → v.loops.length < 3 → (∀ f ∈ v.loops, f.lc ≠ i) →
      (match c.clause with
        | some _ => s.scanClauses c.wave c.group 257 first body
        | none => s.scanRecords c.wave c.group c.vvirt 1024 first body) = (scan, s1) →
      (scan = .ends after last ∨ (scan = .endless ∧ after = last ∧ after = (v.loops.head?.map (·.after)).getD (BitVec.ofNat 64 (2 ^ 64 - 1)))) →
      (∀ f, v.loops.head? = some f → after ≤ f.after) → (c.clause = none ∨ c.lastInClause = true) →
      (n = 0 → Places s c (.loop (.lc i) count body) h (s2.modWave c.wave (fun v => v.leaveTo c.group after c.modBase))) ∧
      (n ≠ 0 → Places s c (.loop (.lc i) count body) h (s2.modWave c.wave (fun v =>
        { v with loops := { lc := i, first, last, after, body, buf := [] } :: v.loops }.modLanes c.group (fun l =>
          { l with pc := first, clause := none, modBase := c.modBase, enter := false, wait := none }))))) ∧
    (let w := s.occ.a
     let v := s.wave w
     ∀ f rest, v.loops = f :: rest → s.awake w = true → (∀ l, l < 32 → v.live.getLsbD l = true → (v.lane l).wait = some .loopEnd) →
      (v.rlc f.lc ≤ 1 → exec .loopEnd s = .next (s.setWave w (({ v with loops := rest }.wlc f.lc 0).leaveTo v.live f.after
        (v.lane (lowestLane v.live)).modBase))) ∧
      (1 < v.rlc f.lc → ∃ t, exec .loopEnd s = .next t ∧ OnlyWave s t w ∧ (t.wave w).rlc f.lc = v.rlc f.lc - 1 ∧ (t.wave w).loops = v.loops ∧
        ∀ l, l < 32 → v.live.getLsbD l = true → ((t.wave w).lane l).pc = f.first ∧ ((t.wave w).lane l).wait = none)) ∧
    (∀ (c : Cursor) (w : Full), let h := headF w [] true
      let v := s.wave c.wave
      Issues s c (.lbrk w) h →
      (v.loops = [] → Completes s c (.lbrk w) h s) ∧
      (∀ f rest, v.loops = f :: rest → Places s c (.lbrk w) h (s.setWave c.wave (({ v with loops := rest }.wlc f.lc 0).leaveTo c.group f.after c.modBase))))

/-- O35. YIELD: its word, its want of a predicate, and its effect: the wave's age becomes 0, its port does not select it while that cycle is
given up, which one cycle of the port ends, and nothing but timing changes (13 R308). -/
def Obligations.YieldRule : Prop :=
  decodeTableWord 64 0x0A00000000000000 =
    some (.yield { sub := 0, d := .s 0, a := .s 0, b := .s 0, c := .s 0, pn := false, pm := 0, fs := 0, m5 := false, ty := 0 }) ∧
  (∀ w, (Instr.yield w).illegal = none → w.pn = false ∧ w.pm = 0 ∧ w.fs = 0) ∧
  (∀ (s : State) (c : Cursor) (w : Full), let h := headF w [] false
    Issues s c (.yield w) h → ∃ t, exec (.yield w) s = .next t ∧ (t.wave c.wave).age = 0 ∧ (t.wave c.wave).skipCycle = true ∧
      RegFrame s t c.wave (.m 0) 0 false) ∧
  (∀ (s : State) (w core port : Nat), (s.wave w).skipCycle = true →
    let r := s.readyGroups core port
    w ∉ r.1.map (·.1) ∧ r.2.select (r.1.map (·.1)) ≠ some w) ∧
  (∀ (s : State) (w core port : Nat) (sel : Option Nat) (rdy : List Nat), (tfind? s.waves w).isSome = true → w ∈ s.portWaves core port → sel ≠ some w →
    ((s.portCycle core port sel rdy).wave w).skipCycle = false)

/-- O36. NOP and a passed BLOCK record change nothing but the program counters; YIELD resets the wave's age and gives up its next issue cycle;
EXIT ends the lanes of E and EXIT.W every live lane (13 R307, R308; 12 R287, R290). BKPT and TRAP fault with their codes at the lowest lane
of E, and do nothing where E is empty; a reserved opcode faults ILLOP, and the END record of a module BADCLAUSE (13 R309; 12 R286, R288,
R290; 09 R218). -/
def Obligations.LaneEndingAndTraps : Prop :=
  (∀ (s : State) (c : Cursor) (w : Full),
      let h := headF w [] false
      let x := s.issOf c w.pn w.pm
      (Issues s c (.nop w) h → Completes s c (.nop w) h s) ∧
      (∀ dist, Issues s c (.blockRecord dist) (Head.plain [] false) → Completes s c (.blockRecord dist) (Head.plain [] false) s) ∧
      (Issues s c (.yield w) h → Completes s c (.yield w) h (s.modWave c.wave (fun v => { v with age := 0, skipCycle := true }))) ∧
      (Issues s c (.exitI w) h → Completes s c (.exitI w) h (s.endLanes x x.e)) ∧
      (Issues s c (.exitW w) h → Completes s c (.exitW w) h (s.endLanes x x.live)) ∧
      (∀ m : Mask, (s.wave c.wave).handles = none → m ≠ 0 → (s.wave c.wave).live &&& ~~~m ≠ 0 →
        OnlyWave s (s.endLanes x m) c.wave ∧ SameRegs (s.wave c.wave) ((s.endLanes x m).wave c.wave) (.m 0) 0 ∧
        ((s.endLanes x m).wave c.wave).live = (s.wave c.wave).live &&& ~~~m ∧ ((s.endLanes x m).wave c.wave).exited = (s.wave c.wave).exited)) ∧
  (∀ (s : State) (c : Cursor) (w : Full),
      let h := headF w [] false
      let x := s.issOf c w.pn w.pm
      (s.wave c.wave).exited = false → (s.wave c.wave).trapState = .running →
      (Issues s c (.bkpt w) h →
        (x.e ≠ 0 → Traps s c (.bkpt w) h Code.bkpt (lowestLane x.e) 0xF 0) ∧ (x.e = 0 → Completes s c (.bkpt w) h s)) ∧
      (Issues s c (.trapI w) h →
        (x.e ≠ 0 → Traps s c (.trapI w) h Code.trapsw (lowestLane x.e) 0xF 0) ∧ (x.e = 0 → Completes s c (.trapI w) h s)) ∧
      (∀ d, s.cur = some c → Traps s c (.reservedOpcode d) (Head.plain [] false) Code.illop (lowestLane c.group) 0xF 0) ∧
      (Issues s c .endRecord (Head.plain [] false) → Traps s c .endRecord (Head.plain [] false) Code.badclause (lowestLane c.group) 0xF 0))

/-- O37. The unit barrier's words: an arrival in a new phase goes on, a second one waits; BAR.WAIT and BAR.SYNC go on once the phase differs
from that of the wave's last arrival, and otherwise wait for BAR_WAIT_RESUME (13 R310; 03 R96). The unit barrier's phase completes exactly
when every wave of the unit that has not exited has arrived (13 R310). -/
def Obligations.UnitBarrier : Prop :=
  (∀ (s : State),
      (∀ (c : Cursor) (w : Full), let h := headF w [] true
       let x := s.issOf c w.pn w.pm
       let v := s.wave c.wave
       let a := s.barArrive c.wave c.group
       (Issues s c (.barArrive w) h →
         (v.barArrived = false → Completes s c (.barArrive w) h a) ∧
         (v.barArrived = true → Places s c (.barArrive w) h (s.waitOn x c.group .barArrive))) ∧
       (Issues s c (.barWait w) h →
         (s.barPasses c.wave = true → Completes s c (.barWait w) h (s.barAcquire c.wave c.group c.pc 1)) ∧
         (s.barPasses c.wave = false → Places s c (.barWait w) h (s.waitOn x c.group .barWait))) ∧
       (Issues s c (.barSync w) h →
         (v.barArrived = true → Places s c (.barSync w) h (s.waitOn x c.group .barSyncArrive)) ∧
         (v.barArrived = false → a.barPasses c.wave = true → Completes s c (.barSync w) h (a.barAcquire c.wave c.group c.pc 1)) ∧
         (v.barArrived = false → a.barPasses c.wave = false → Places s c (.barSync w) h (a.waitOn x c.group .barWait)))) ∧
      (let w := s.occ.a
       let v := s.wave w
       let a := s.barArrive w v.live
       s.awake w = true →
       (s.allWait w .barWait = true → s.barPasses w = true →
         exec .barWaitResume s = .next ((s.barAcquire w v.live v.pcNow 0).leaveWait w v.live)) ∧
       (s.allWait w .barArrive = true → v.barArrived = false → exec .barWaitResume s = .next (a.leaveWait w v.live)) ∧
       (s.allWait w .barSyncArrive = true → v.barArrived = false → a.barPasses w = true →
         exec .barWaitResume s = .next ((a.barAcquire w v.live v.pcNow 0).leaveWait w v.live)) ∧
       (s.allWait w .barSyncArrive = true → v.barArrived = false → a.barPasses w = false →
         exec .barWaitResume s = .next (a.modWave w (fun v' => v'.modLanes v.live (fun l => { l with wait := some .barWait })))))) ∧
  (∀ (s : State) (u : Nat),
      let ps := (s.unit u).waves.filter (fun w => !(s.wave w).exited)
      ((ps ≠ [] ∧ ∀ w ∈ ps, (s.wave w).barArrived = true) →
        ((s.barJudge u).unit u).barPhase = (s.unit u).barPhase + 1 ∧ ∀ w ∈ ps, ((s.barJudge u).wave w).barArrived = false) ∧
      (¬ (ps ≠ [] ∧ ∀ w ∈ ps, (s.wave w).barArrived = true) → s.barJudge u = s) ∧
      (s.barJudge u).mem = s.mem ∧ ∀ k, k ≠ u → (s.barJudge u).unit k = s.unit k)

/-- O38. Taking a fault: the wave is trapped with its record and waits for its core's Newel slot behind those that stopped before it; its lanes
keep their program counters and masks, and no register, no byte of memory and no other wave changes (09 R218-R220). -/
def Obligations.TakingAFault : Prop :=
  ∀ (s : State) (w : Nat) (t : TrapRec), (s.wave w).handles = none →
    let r := s.takeFault w t
    let v := s.wave w
    let u := r.wave w
    u.trapState = .trapped ∧ u.trap = some t ∧ u.park = none ∧ u.live = v.live ∧ SameRegs v u (.m 0) 0 ∧ SameBytes s r ∧
    (∀ l, l < 32 → (u.lane l).pc = (v.lane l).pc ∧ (u.lane l).clause = (v.lane l).clause) ∧
    (r.core v.core).newelQueue = (s.core v.core).newelQueue ++ (if v.resident then [w] else []) ∧
    (∀ k, k ≠ w → r.wave k = s.wave k) ∧ r.units = s.units ∧ r.launches = s.launches

/-- O39. HANDLER_START puts a handler of the oldest trapped wave into a free Newel slot: its record stands in s0 to s9 and its lanes at the
launch's trap vector; TRESUME lets the handled wave go on, TKILL ends it as faulted, TESCAL also escalates its code (09 R219-R223). -/
def Obligations.Handlers : Prop :=
  ∀ (s : State),
    (∀ w, let core := s.occ.a
      (s.core core).newel = none → s.nextTrapped core = some w → s.readCancel w = 0 → (s.wave w).steps = [] → s.clusterRuns (clusterOf core) = true →
      w < s.nextId →
      ∃ t, exec .handlerStart s = .next t ∧ SameBytes s t ∧
        (t.core core).newel = some s.nextId ∧ (t.wave w).trapState = .handled ∧ (t.wave w).handler = some s.nextId ∧
        (t.wave s.nextId).handles = some w ∧ (t.wave s.nextId).live = 0xFFFFFFFF ∧
        (∀ r, (s.wave w).trap = some r → ∀ k, k < 10 → some ((t.wave s.nextId).rs k) = (trapWords r w)[k]?) ∧
        ∀ l, l < 32 → ((t.wave s.nextId).lane l).pc = (s.launchOf w).trapBase) ∧
    (∀ (c : Cursor) (w : Full) (k : Nat), let h := (headF w [] true).handlerOnly
      (s.wave c.wave).handles = some k →
      (Issues s c (.tresume w) h → Places s c (.tresume w) h ((s.endHandler c.wave .resume).modWave k Wave.replaced)) ∧
      (Issues s c (.tkill w) h → Places s c (.tkill w) h (s.endHandler c.wave .kill)) ∧
      (Issues s c (.tescal w) h → Places s c (.tescal w) h
        (s.endHandler c.wave (.escal (((s.wave k).trap.map (·.code)).getD 0)))))

/-- O40. The handler window: WINRD gives each lane the handled wave's entry, WINWR writes the entries that may be written (09 R221, R222; 15
R396). WINRD, WINWR, TRESUME, TKILL and TESCAL fault ILLOP in any wave that is no handler, and TCFG, TREL, TZERO, MOWN, MPASS, MMA, MMA.CKS,
MSTEP, CGO, GGO, XGO and COMMIT in a handler, before any other check of their own (09 R220; 15 R396; 06 R168). -/
def Obligations.HandlerWindow : Prop :=
  (∀ (s : State) (c : Cursor) (w : Full) (k : Nat) (e : WinEntry),
      let x := s.issOf c w.pn w.pm
      (s.wave c.wave).handles = some k →
      (let h := (headF w [(w.d, 1), (w.a, 1)] false).handlerOnly
       Issues s c (.winrd w) h → winEntry (s.footOf k) (s.srcU x w.a 32 (lowestLane c.group) % 65536) = some e →
       (e.varying = true → isVarying w.d = true) → (perWave w.d = true → x.diverges = false) →
       Writes s c (.winrd w) h w.d false tagN32 (fun l => (s.winRead k e l).toNat)) ∧
      (∀ s1, let h := (headF w [(w.a, 1), (w.b, 1)] false).handlerOnly
       Issues s c (.winwr w) h → winEntry (s.footOf k) (s.srcU x w.a 32 (lowestLane c.group) % 65536) = some e →
       e.readOnly = false → (isVarying w.b = true → e.varying = true) → (e.varying = false → x.diverges = false) → x.e ≠ 0 →
       s.winWrite k e x.e (fun l => BitVec.ofNat 32 (s.srcU x w.b 32 l)) = .ok s1 → Completes s c (.winwr w) h s1)) ∧
  (∀ (s : State) (c : Cursor) (w : Full), s.cur = some c → (s.wave c.wave).stoppable = true → (s.wave c.wave).stepsOf c.group = none →
      let ill := fun (i : Instr) (h : Head) => Traps s c i h Code.illop (lowestLane c.group) 0xF 0
      let u := headF w [] true
      ((s.wave c.wave).handles = none →
        ill (.winrd w) (headF w [(w.d, 1), (w.a, 1)] false) ∧ ill (.winwr w) (headF w [(w.a, 1), (w.b, 1)] false) ∧ ill (.tresume w) u ∧
        ill (.tkill w) u ∧ ill (.tescal w) u) ∧
      ((s.wave c.wave).handles ≠ none →
        ill (.tcfg w) (headF w [(w.a, 2)] true) ∧ ill (.trel w) u ∧ ill (.tzero w) u ∧ ill (.mown w) u ∧ ill (.mpass w) u ∧ ill (.mma w) u ∧
        ill (.mmaCks w) u ∧ ill (.mstep w) (headF w [(w.c, 1)] true) ∧ ill (.cgo w) (headF w (chainRegs w) true) ∧
        ill (.ggo w) (headF w (chainRegs w) true) ∧ ill (.xgo w) (headF w (chainRegs w) true) ∧ ill (.commit w) (headF w [(w.d, 1)] false)))

/-- O41. TCFG, TREL, TZERO and TWAIT whose tile lets them go, and TSTAT: what each does to the tile's table entry, its bytes and views (15 R373,
R374; 02 R58-R66; 03 R97). What each tile event does: TCFG leaves a configured EMPTY tile with its flags and KSTEP clear; TREL leaves it
EMPTY; TZERO leaves it READY with INV and OVF clear; a fill makes it FILLING and a drain DRAINING; a matrix source gains a reader, its
accumulator fills from KSTEP 0. No event but TCFG's changes CFG, and no other tile changes (02 R65). -/
def Obligations.TileWords : Prop :=
  (∀ (w : Full) (s : State) (c : Cursor),
      let x := s.issOf c w.pn w.pm
      let v := s.wave c.wave
      let u := s.unit v.unit
      let ta := tileNum w.a
      let td := tileNum w.d
      let l := lowestLane c.group
      (∀ (hm : State), hm = s.modUnit v.unit (fun y => y.tileEvent td .tcfg) →
        let h := (headF w [(w.a, 2)] true).notHandler
        let d := s.addrBase x w.a l
        Issues s c (.tcfg w) h → x.e ≠ 0 → td < u.foot.tiles → u.descBad d = false → u.verdict td .tcfg = .go →
        Completes s c (.tcfg w) h (hm.modUnit v.unit (fun y => y.setTile td { y.tile td with desc := d }))) ∧
      (let h := (headF w [] true).notHandler
       Issues s c (.trel w) h → x.e ≠ 0 → ta < u.foot.tiles → u.verdict ta .trel = .go →
       Completes s c (.trel w) h (s.modUnit v.unit (fun y => y.tileEvent ta .trel))) ∧
      (let h := (headF w [] true).notHandler
       let s1 := s.modUnit v.unit (fun y => y.tileEvent ta .tzero)
       let g := geomOf (u.tile ta).desc
       Issues s c (.tzero w) h → x.e ≠ 0 → ta < u.foot.tiles → u.verdict ta .tzero = .go →
       Completes s c (.tzero w) h
         (((List.range (g.size / 16)).foldl (fun (s : State) j => s.queueWrite (.lane c.wave (lowestLane x.e)) (plainWrite (locBuf g.buf v.unit (g.off + 16 * j)) 16 0)
           s1.nextId) { s1 with nextId := s1.nextId + 1 }).releaseLanes c.wave x.e (.tile v.unit ta))) ∧
      (let h := headF w [] false
       Issues s c (.twait w) h → x.e ≠ 0 → ta < u.foot.tiles → u.verdict ta .twait = .go →
       Completes s c (.twait w) h ((s.modUnit v.unit (fun y => y.tileEvent ta .twait)).acquireLanes c.wave x.e (.tile v.unit ta))) ∧
      (let h := headF w [(w.d, 1)] (perWave w.d)
       Issues s c (.tstat w) h → x.e ≠ 0 → ta < u.foot.tiles →
       Writes s c (.tstat w) h w.d false tagN32 (fun _ => u.tileStatus ta))) ∧
  (∀ (u : UnitSt) (t : Nat) (use : TileUse),
      let a := u.tile t
      let b := (u.tileEvent t use).tile t
      b.desc = a.desc ∧ (use ≠ .tcfg → b.cfg = a.cfg) ∧ (∀ k, k ≠ t → (u.tileEvent t use).tile k = u.tile k) ∧
      (use = .tcfg → b.state = .empty ∧ b.cfg = true ∧ b.inv = false ∧ b.ovf = false ∧ b.err = false ∧ b.kstep = 0) ∧
      (use = .trel → b = { a with state := .empty }) ∧
      (use = .tzero → b = { a with state := .ready, inv := false, ovf := false }) ∧
      (use = .twait → b = a) ∧
      (use = .fill → b = { a with state := .filling }) ∧
      (use = .drain → b = { a with state := .draining }) ∧
      (use = .mmaAB → b = { a with readers := a.readers + 1 }) ∧
      (use = .mmaD → b = { a with state := .filling, kstep := 0 }) ∧
      (t < u.foot.tiles → a.state = .filling ∨ a.state = .draining → u.verdict t use = .wait) ∧
      (t < u.foot.tiles → a.state = .ready → a.readers ≠ 0 → use ≠ .twait → use ≠ .mmaAB → u.verdict t use = .wait) ∧
      (t < u.foot.tiles → a.state = .ready → a.readers = 0 → u.verdict t use = .go) ∧
      (u.foot.tiles ≤ t → u.verdict t use = .bad Code.tilecfg))

/-- O42. MOWN takes a free engine nobody waits for, and goes on where its unit has it; MPASS frees it once the unit's operations are complete;
MOWN_GRANT gives a free engine to the oldest that waits, in a cluster of an active range; GANG writes %gang (15 R375-R377; 08 R202). MMA,
MMA.CKS and MSTEP of a wave in no gang, whose checks pass and whose tiles let it go: an operation on e7, its tiles moved and its lanes'
views its start set (15 R378-R381). That it also waits for a tile that one operation has filled and is to fill again is the model's reading
(log 60). An MMA of a gang that names a wave of its unit that has exited faults GANGMIS (15 R380). -/
def Obligations.MatrixWords : Prop :=
  (∀ (s : State),
      (∀ (w : Full) (c : Cursor), let x := s.issOf c w.pn w.pm
       let v := s.wave c.wave
       let k := s.core v.core
       let h := (headF w [] true).notHandler
       x.e ≠ 0 →
       (Issues s c (.mown w) h → (s.unit v.unit).hasCtx 7 = true →
         (k.owner = some v.unit → Completes s c (.mown w) h s) ∧
         (k.owner = none → (∀ u ∈ k.mowners, s.mownWaits u = false) →
           Completes s c (.mown w) h (s.setCore v.core { k with owner := some v.unit, mowners := [] }))) ∧
       (Issues s c (.mpass w) h → k.owner = some v.unit → ((s.unit v.unit).ctx 7).outstanding = 0 →
         Completes s c (.mpass w) h (s.setCore v.core { k with owner := none })) ∧
       (∀ t, Issues s c (.gang w) (headF w [(w.a, 1)] true) →
         s.writeStatus c.wave 4 (BitVec.ofNat 32 (s.srcU x w.a 32 (lowestLane x.e))) = .ok t → Completes s c (.gang w) (headF w [(w.a, 1)] true) t)) ∧
      (∀ u rest, let k := s.core s.occ.a
       k.owner = none → k.mowners.filter s.mownWaits = u :: rest → s.clusterRuns (clusterOf s.occ.a) = true →
       exec .mownGrant s = .next (((s.setCore s.occ.a { k with owner := some u, mowners := rest }).modUnit u (fun y => { y with restoring := false })).endHolds u .mown))) ∧
  (∀ (w : Full) (s : State) (c : Cursor) (c0 cn : Nat),
      let x := s.issOf c w.pn w.pm
      let v := s.wave c.wave
      let u := s.unit v.unit
      let (td, ta, tb) := (tileNum w.d, tileNum w.a, tileNum w.b)
      let r := BitVec.ofNat 32 (s.srcU x w.c 32 (lowestLane x.e))
      x.e ≠ 0 → bits v.gang.toNat 26 24 < 2 → u.hasCtx 7 = true → (s.core v.core).owner = some v.unit →
      s.judgeTiles v.unit (matrixUses td tb [ta]) = .go → (u.ctx 7).outstanding < 16 →
      (let h := (headF w [] true).notHandler
       (Issues s c (.mma w) h → u.matrixCheck 0 1 td ta tb 0 = .ok (c0, cn) →
         Completes s c (.mma w) h (s.matrixIssue v.unit 0 td tb [(c.wave, x.e, ta)] c0 cn)) ∧
       (Issues s c (.mmaCks w) h → u.matrixCheck 1 1 td ta tb 0 = .ok (c0, cn) →
         Completes s c (.mmaCks w) h (s.matrixIssue v.unit 1 td tb [(c.wave, x.e, ta)] c0 cn))) ∧
      (let h := (headF w [(w.c, 1)] true).notHandler
       Issues s c (.mstep w) h → u.matrixCheck 3 1 td ta tb r = .ok (c0, cn) →
         Completes s c (.mstep w) h (s.matrixIssue v.unit 3 td tb [(c.wave, x.e, ta)] c0 cn))) ∧
  (∀ (w : Full) (s : State) (c : Cursor) (r : Nat × Nat),
      let x := s.issOf c w.pn w.pm
      let v := s.wave c.wave
      let u := s.unit v.unit
      let h := (headF w [] true).notHandler
      let n := bits v.gang.toNat 26 24
      x.e ≠ 0 → 2 ≤ n → u.hasCtx 7 = true → (s.core v.core).owner = some v.unit →
      (∃ k ∈ u.waves, (s.wave k).exited = true ∧ (s.wave k).idx ∈ gangMembers v.gang) →
      (Issues s c (.mma w) h → u.matrixCheck 0 n (tileNum w.d) (tileNum w.a) (tileNum w.b) 0 = .ok r →
        Traps s c (.mma w) h Code.gangmis (lowestLane c.group) 0xF 0))

/-- O43. A gang whose members agree leaves the latch with one operation; one whose members differ, or whose %gang comes to name no wave, faults
GANGMIS; and a running matrix operation asks for its current, then performs K-groups from the one its KSTEP records, at least one a step,
and after the last frees its tiles, releases into tD's set, returns its current and completes (15 R380, R381, R397; 02 R68; 21 R414). That a
member whose %gang comes to name no wave makes GANGMIS and that the members are judged again at the latch is the model's choice (log 41),
and so is how many K-groups one step performs (log 16). -/
def Obligations.MatrixRuns : Prop :=
  ∀ (s : State), let u := s.occ.a
    (∀ g hs a ms c0 cn, s.latchFull u = some (g, hs) → s.gangOrder g hs = a :: ms → (∀ h ∈ hs, s.awake h.wave = true) → s.latchClash g hs = false →
      (∀ h ∈ a :: ms, (s.unit u).matrixCheck a.sub (ms.length + 1) h.td h.ta h.tb h.r = .ok (c0, cn)) →
      s.judgeTiles u (matrixUses a.td a.tb ((a :: ms).map (·.ta))) = .go → ((s.unit u).ctx 7).outstanding < 16 →
      exec .gangLatchMatch s = .next ((s.matrixIssue u a.sub a.td a.tb ((a :: ms).map (fun h => (h.wave, h.lanes, h.ta))) c0 cn).latchLeave u hs)) ∧
    (∀ g hs, s.latchFull u = some (g, hs) → (∀ h ∈ hs, s.awake h.wave = true) → s.latchClash g hs = true →
      exec .gangLatchMatch s = .next (s.latchFault u Code.gangmis hs)) ∧
    (∀ o sub td tb ms c0 cn, (s.unit u).headOp 7 = some o → o.kind = .mma sub td tb ms c0 cn → o.phase = .running → s.enginesRun u = true →
      let left := (s.unit u).groupsLeft td c0 cn
      let done := fun (t : State) => (((t.modUnit u (fun y => y.mmaRelease td tb (ms.map (fun m => m.2)) true)).fullRelease (.op u 7 o.num)
        (.tile u td)).returnCurrent u 7 o.num 24).completeOp u 7 o.num
      (o.requested = false → exec .mmaComplete s = .next (s.requestCurrent u 7 o.num 24)) ∧
      (o.requested = true → o.reserved = true →
        (∃ k f, (left ≠ [] → 0 < k) ∧
          let t := (left.take k).foldl (fun s c => s.mmaGroup u o.num sub td tb ms c0 c) { s with fresh := f }
          exec .mmaComplete s = .next (if ((t.unit u).groupsLeft td c0 cn).isEmpty then done t else t)) ∧
        (∀ c, left = [c] → c + 1 = c0 + cn → exec .mmaComplete s = .next (done (s.mmaGroup u o.num sub td tb ms c0 c)))))

/-- O44. CGO, GGO and XGO whose checks pass: an operation joins the context with the number after ISS, and the views of the lanes of E as its
start set (15 R382; 04 R105, R107; 03 R100). TLGE, TLOUT, TLRD, TLISS, TLFLT and COMMIT, where their conditions hold, and the events that
end their waits where those did not (15 R383-R385; 04 R105, R106, R119, R120). -/
def Obligations.EngineWords : Prop :=
  (∀ (w : Full) (s : State) (c : Cursor),
      let x := s.issOf c w.pn w.pm
      let v := s.wave c.wave
      let e := engNum w.a
      let ea := s.addrBase x w.b (lowestLane x.e)
      let h := (headF w (chainRegs w) true).notHandler
      let r := s.releaseLanesView c.wave x.e
      let t := r.2.issueOp v.unit e c.wave (.chain ea (capOperand x w.c)) r.1
      x.e ≠ 0 → s.chainFault x e ea w.c = none → ((s.unit v.unit).ctx e).outstanding < 16 →
      (Issues s c (.cgo w) h → Completes s c (.cgo w) h t) ∧ (Issues s c (.ggo w) h → Completes s c (.ggo w) h t) ∧
      (Issues s c (.xgo w) h → Completes s c (.xgo w) h t)) ∧
  (∀ (s : State),
      (∀ (w : Full) (c : Cursor), let x := s.issOf c w.pn w.pm
       let v := s.wave c.wave
       let e := engNum w.a
       let k := (s.unit v.unit).ctx e
       x.e ≠ 0 → (s.unit v.unit).hasCtx e = true →
       (let h := headF w [(w.b, 2)] false
        let n := s.srcU x w.b 64 (lowestLane x.e)
        Issues s c (.tlge w) h →
        (n ≤ k.cnt.toNat → Completes s c (.tlge w) h (s.acquireLanes c.wave x.e (.timeline v.unit e))) ∧
        (k.cnt.toNat < n → Places s c (.tlge w) h (s.waitOn x x.e (.tlge x.e e (BitVec.ofNat 64 n))))) ∧
       (let h := headF w [(w.b, 1)] false
        let n := s.srcU x w.b 32 (lowestLane x.e)
        Issues s c (.tlout w) h →
        ((k.iss - k.cnt).toNat ≤ n → Completes s c (.tlout w) h s) ∧
        (n < (k.iss - k.cnt).toNat → Places s c (.tlout w) h (s.waitOn x x.e (.tlout e (BitVec.ofNat 32 n))))) ∧
       (let h := headF w [(w.d, 2)] (perWave w.d)
        (Issues s c (.tlrd w) h → Writes s c (.tlrd w) h w.d true tagN64 (fun _ => k.cnt.toNat)) ∧
        (Issues s c (.tliss w) h → Writes s c (.tliss w) h w.d true tagN64 (fun _ => k.iss.toNat))) ∧
       (let h := headF w [(w.d, 2)] true
        Issues s c (.tlflt w) h → Completes s c (.tlflt w) h ((s.put x w.d true tagN64 (fun _ => k.fault.toNat)).modUnit v.unit
          (fun y => y.setEng e { y.ctx e with fault := 0 })))) ∧
      (∀ (w : Full) (c : Cursor), let h := (headF w [(w.d, 1)] false).notHandler
       let v := s.wave c.wave
       let n := opndNum w.b % 8
       let lb := tget Landing.init v.landing n
       Issues s c (.commit w) h → lb.state = .full → (lb.rowBytes = 8 → regOk (s.footOf c.wave) c.vvirt (w.d, 2) = true) →
       Completes s c (.commit w) h (s.modWave c.wave (fun v => v.commitSlot (opndNum w.d) n c.group))) ∧
      (let w := s.occ.a
       let u := s.unit (s.wave w).unit
       let m := s.waiters w s.occ.b
       s.awake w = true →
       (∀ g e n, s.waitOf w s.occ.b = some (.tlge g e n) → n ≤ (u.ctx e).cnt →
         exec .tlgeResume s = .next ((s.acquireLanes w g (.timeline (s.wave w).unit e)).leaveWait w m)) ∧
       (∀ e n, s.waitOf w s.occ.b = some (.tlout e n) → (u.ctx e).outstanding ≤ n.toNat → exec .tloutResume s = .next (s.leaveWait w m)) ∧
       (∀ n, s.waitOf w s.occ.b = some (.hold (.commitSlot n)) → (tget Landing.init (s.wave w).landing n).state = .full →
         exec .commitResume s = .next (s.endHold w m)) ∧
       (∀ e, s.waitOf w s.occ.b = some (.hold (.engineLimit e)) → (u.ctx e).outstanding < 16 → exec .engineLimitResume s = .next (s.endHold w m)) ∧
       (∀ us, s.waitOf w s.occ.b = some (.hold (.tile us)) → s.judgeTiles (s.wave w).unit us ≠ .wait → exec .tileWaitResume s = .next (s.endHold w m))))

/-- O45. What completing an operation does: its writes have drained, in order, and nothing of its queue is left; memory, and the records of
writes that failed on their way, are as those drains leave them; its view joins the timeline's set, and no other set changes; its CNT is its
number, it is outstanding no more, and no other context of the unit changes (04 R105; 03 R94, R100). -/
def Obligations.OperationCompletes : Prop :=
  ∀ (s : State) (u e n : Nat), n < 2 ^ 64 → ((s.unit u).ctx e).op? n ≠ none →
    let ag := Agent.op u e n
    let d := s.drainAll ag
    let t := s.completeOp u e n
    (d.agent ag).queue = [] ∧ t.mem = d.mem ∧ t.failed = d.failed ∧
    (∀ loc, tget 0 (t.rel (.timeline u e)) loc = max (tget 0 (s.rel (.timeline u e)) loc) (viewTop (d.agent ag).view loc)) ∧
    (∀ k, k ≠ .timeline u e → t.rel k = s.rel k) ∧
    ((t.unit u).ctx e).cnt.toNat = n ∧ ((t.unit u).ctx e).iss = ((s.unit u).ctx e).iss ∧ (∀ o ∈ ((t.unit u).ctx e).ops, o.num ≠ n) ∧
    (∀ k, k ≠ e → (t.unit u).ctx k = (s.unit u).ctx k)

/-- O46. An operation starts at the head of its context, in the state its start set gives it: a matrix operation acquires its tiles' sets, a
chain reads its first entry, and in a context that has faulted it completes without effect; a first entry that cannot be read, or that no
kind can perform, faults the operation; a landing transfer's completion makes its slot FULL and the operation passes on (04 R105, R110,
R111, R118, R121; 03 R97, R100). -/
def Obligations.EngineStarts : Prop :=
  ∀ (s : State) (o : Op), let u := s.occ.a
    let e := s.occ.b
    (s.unit u).headOp e = some o → s.enginesRun u = true →
    (o.phase = .queued → bits ((s.unit u).ctx e).fault.toNat 63 63 = 1 → exec .engineOperationStart s = .next (s.abandonOp u e o)) ∧
    (o.phase = .queued → bits ((s.unit u).ctx e).fault.toNat 63 63 = 0 →
      let s1 := s.modOp u e o.num (fun o => { o with phase := .running })
      (∀ sub td tb ms c0 cn, o.kind = .mma sub td tb ms c0 cn → exec .engineOperationStart s =
        .next ((td :: tb :: ms.map (fun m => m.2)).foldl (fun s t => s.fullAcquire (.op u e o.num) (.tile u t)) s1)) ∧
      (∀ head cap s2, o.kind = .chain head cap →
        (∀ d, s1.readEntry u e o 0 = (.ok d, s2) →
          let s3 := s2.modOp u e o.num (fun o => { o with seen := tins o.seen 0 d })
          exec .engineOperationStart s = .next (if entryBad e 0 [] d then s3.engineFault u e o Code.chain (s3.unit u).core else s3)) ∧
        (∀ k, s1.readEntry u e o 0 = (.error k, s2) → exec .engineOperationStart s = .next (s2.engineFault u e o k (s2.unit u).core)))) ∧
    (∀ k d, o.phase = .landing k → tfind? o.seen o.entry = some d →
      (o.arrived = 0 → exec .landingTransferComplete s = .next ((s.modWave o.wave (fun v =>
        v.putSlot k { tget Landing.init v.landing k with state := .full })).passEntry u e o d)) ∧
      (o.arrived ≠ 0 → exec .landingTransferComplete s = .next (s.passEntry u e o d)))

/-- O47. Command-chain entries of a running operation, at the entry it stands at, read when first reached: END completes it, LOOP repeats or
passes its span, COND and ARRIVE_ONLY go on once their conditions hold; a copy, gather or collective entry moves its tiles and asks for its
current when it is reached, and moves rows once it has it, passing on after the last; a landing transfer takes an EMPTY slot, then reads its
rows; a collective entry gives its member's rows, then, once every member's are there, puts the result's rows at its destination; arrivals
are made one receiver's barrier after another; the tiles of an entry that completes are READY (04 R104-R118, R125; 03 R101; 02 R65; 21
R419). How many rows or arrivals one step makes is the device's choice (log 16); the order among the receivers of arrivals is the model's
(log 74), and so is which of several faults an entry records, about which this statement says nothing (log 62). The rows of a collective's
result, from every member's rows in rank order: a broadcast's are ROOT's, an all-reduce's the sums, an all-gather's every member's rows one
after another, a reduce-scatter's the sums of its own rank's slice, an all-to-all's its own rank's slice of each member's; each is put at
the destination as a row of the entry (04 R112, R115). What an all-gather is judged by, and that a source is converted before it is summed,
is the model's choice (log 63). -/
def Obligations.EngineEntries : Prop :=
  (∀ (s : State) (o : Op) (d : List DWord) (s1 : State), let u := s.occ.a
      let e := s.occ.b
      (s.unit u).headOp e = some o → o.phase = .running → s.enginesRun u = true → e ≠ 7 → s.entryNow u e o = (.ok d, s1) →
      let p := (((s1.unit u).ctx e).op? o.num).getD o
      let rs := ((s1.receivers u d).toOption).getD []
      let here := fun (t : State) => (((t.unit u).ctx e).op? o.num).getD p
      (entryKind d = 5 → exec .endEntry s = .next (s1.completeOp u e p.num)) ∧
      (entryKind d = 2 → bits (dw d 6) 63 32 = 0 → exec .loopEntry s = .next (s1.modOp u e p.num Op.advance)) ∧
      (entryKind d = 2 → bits (dw d 6) 63 32 ≠ 0 → exec .loopEntry s = .next (s1.modOp u e p.num (fun o =>
        { o with
          loop := some { at_ := o.entry, rep := 1, count := bits (dw d 6) 63 32, span := bits (dw d 6) 31 0,
                         sstep := sextNat (bits (dw d 7) 63 32) 32, dstep := sextNat (bits (dw d 7) 31 0) 32 }
          entry := o.entry - bits (dw d 6) 31 0 }))) ∧
      (∀ k, k = bits (dw d 6) 34 32 → entryKind d = 3 → bits (dw d 6) 1 0 = 0 → (s1.unit u).hasCtx k = true → (k = e → dw d 7 < p.num) →
        dw d 7 ≤ ((s1.unit u).ctx k).cnt.toNat →
        exec .condEntry s = .next ((s1.fullAcquire (.op u e p.num) (.timeline u k)).modOp u e p.num Op.advance)) ∧
      (∀ loc, entryKind d = 3 → bits (dw d 6) 1 0 ≠ 0 → s1.barrierAt u d = .ok loc → s1.mem.abarPhase loc ≠ bits (dw d 7) 31 0 →
        exec .condEntry s = .next ((s1.fullAcquire (.op u e p.num) (.abarPhase loc)).modOp u e p.num Op.advance)) ∧
      (entryKind d = 4 → s1.receivers u d = .ok rs → s1.barrierFaults u rs d = [] → (∀ r ∈ rs, (s1.unit r).begun = true) →
        let left := s1.barriersLeft u p d
        ∃ k f, 0 < k ∧ let t := { s1 with fresh := f }.arriveAt u e p.num d (left.take k)
          exec .arriveOnlyEntry s = .next (if left.length ≤ k then t.modOp u e p.num Op.advance else t)) ∧
      (∀ s2 moved, p.requested = false → s1.entryFaults u d = [] → (∀ r ∈ rs, (s1.unit r).begun = true) → s1.moveTiles u p d = (s2, moved, []) →
        let s3 := s2.modOp u e p.num (fun y => { y with moved })
        let slot := dw d 7 % 8
        (isLanding d = false →
          (entryKind d = 0 → exec .copyEntry s = .next (s3.requestCurrent u e p.num p.units)) ∧
          (entryKind d = 1 → exec .gatherEntry s = .next (s3.requestCurrent u e p.num p.units)) ∧
          (∀ g, entryKind d = 6 → tfind? s1.pkg.groups (s1.groupKey u d) = some g → g.usable = true →
            exec .collectiveEntry s = .next (s3.requestCurrent u e p.num p.units))) ∧
        (isLanding d = true → (p.slot = some slot ∨ (tget Landing.init (s1.wave p.wave).landing slot).state = .empty) →
          exec .gatherEntry s = .next (((s3.modWave p.wave (fun v => v.putSlot slot { Landing.init with state := .pending })).modOp u e p.num
            (fun y => { y with slot := some slot })).requestCurrent u e p.num p.units))) ∧
      (p.requested = true → p.reserved = true → (∀ r ∈ rs, (s1.unit r).begun = true) → s1.tileFaults u p d 1 = [] →
        (isLanding d = false → p.rowsDone d = true → ∃ f, let t := { s1 with fresh := f }.passEntry u e p d
          (entryKind d = 0 → exec .copyEntry s = .next t) ∧ (entryKind d = 1 → exec .gatherEntry s = .next t)) ∧
        (∀ s2, isLanding d = false → s1.someRows u e p d = (none, s2) →
          let t := if (here s2).rowsDone d then s2.passEntry u e (here s2) d else s2
          (entryKind d = 0 → exec .copyEntry s = .next t) ∧ (entryKind d = 1 → exec .gatherEntry s = .next t)) ∧
        (∀ s2, isLanding d = true → s1.landRows u e p d = (none, s2) → exec .gatherEntry s = .next s2)) ∧
      (∀ g, entryKind d = 6 → p.requested = true → p.reserved = true → tfind? s1.pkg.groups (s1.groupKey u d) = some g → s1.occ.c = 0 →
        s1.tileFaults u p d g.members.length = [] →
        (∀ s2, p.round = none → s1.collGive u e p d g = (none, s2) → exec .collectiveEntry s = .next s2) ∧
        (∀ r paced, p.round = some (r, paced) → (bits (dw d 6) 7 0 = 0 → bits (dw d 6) 15 8 < g.members.length) →
          (∀ m, m < g.members.length → ∃ x, s1.shareOf d (s1.groupKey u d) g r m = some x ∧ x.failed = false) →
          let xs := (List.range g.members.length).filterMap (s1.shareOf d (s1.groupKey u d) g r)
          let sp := if paced then s1 else (s1.modCluster (clusterOf (s1.unit u).core) (fun c =>
            c.takePace s1.pkg.ticks (xs.foldl (fun a x => lowerClock a x.clock) none) (s1.matrixHeld (clusterOf (s1.unit u).core)))).modOp u e p.num
            (fun y => { y with round := some (r, true) })
          let rows := if collRows d = 0 then [] else
            collectiveRows (bits (dw d 6) 7 0) (entDfmt d) (g.rank (s1.unit u).vf) (bits (dw d 6) 15 8) (collRows d) (xs.map (fun x => x.rows))
          let left := rows.drop p.row
          ∃ k f, 0 < k ∧ ∀ t, { sp with fresh := f }.putList u e p d (left.take k) = (none, t) →
            exec .collectiveEntry s = .next (if left.length ≤ k then t.passEntry u e p d else t))) ∧
      (∀ t : State, let left := t.barriersLeft u p d
        ∃ k f, 0 < k ∧ let y := { t with fresh := f }.arriveAt u e p.num d (left.take k)
          t.passEntry u e p d = if left.length ≤ k then y.finishEntry u e p.num else y) ∧
      (∀ (t : State) (y : Op), ((t.unit u).ctx e).op? p.num = some y → y.stops = false → ∀ q ∈ y.moved,
        (((t.finishEntry u e p.num).unit q.1).tile q.2).state = .ready)) ∧
  (∀ (df rank root rows : Nat) (xs : List (List (List Byte))), xs ≠ [] →
      let n := xs.length
      let sl := rows / n
      let row := fun (m r : Nat) => (xs.getD m []).getD r []
      let got := fun (op i : Nat) => (collectiveRows op df rank root rows xs)[i]?
      (∀ i, i < rows → got 0 i = some (.raw (row root i), false) ∧ got 1 i = some (sumRows df ((List.range n).map (fun m => row m i)))) ∧
      (∀ i, i < n * rows → got 2 i = some (.raw (row (i / rows) (i % rows)), false)) ∧
      (∀ i, i < sl → got 3 i = some (sumRows df ((List.range n).map (fun m => row m (rank * sl + i))))) ∧
      (∀ i, i < n * sl → got 4 i = some (.raw (row (i / sl) (rank * sl + i % sl)), false)) ∧
      (∀ (s : State) (u e : Nat) (o y : Op) (d : List DWord) (x : RowData × Bool) (t : State),
        ((s.unit u).ctx e).op? o.num = some y → (s.engSat o x.2).putRows u e o d y.row [x.1] = (.ok (), t) →
        s.putList u e o d [x] = (none, t.modOp u e o.num (fun o => { o with row := o.row + 1 }))))

/-- O48. SPAWN whose checks pass makes a child of the frame in its 16 registers, and JOIN goes on where COUNT is 0 and else waits, with its wave
in WAITER; JOIN_RESUME ends that wait once COUNT reads 0 (07 R171-R180). That a wait whose object no port reaches any more faults REMOTE,
and that WAITER is written with R alone, is the model's choice (log 26, log 77). What the dispatchers do: a core's newest frame that fits is
popped and started, an empty deque is refilled with up to 16 frames of a region, an idle core steals a frame of the nearest victim that has
one, and a core that must leave its context gives its frames up (07 R181-R186). -/
def Obligations.SpawnAndJoin : Prop :=
  (∀ (s : State),
      (∀ (w : Full) (c : Cursor) (k : Nat), let x := s.issOf c w.pn w.pm
       let y := s.unit (s.wave c.wave).unit
       let f := Frame.ofBytes ((List.range 16).flatMap (fun i => leBytes 4 ((s.wave c.wave).rs (k + i)).toNat)) 0
       let h := headF w [(w.a, 16)] true
       Issues s c (.spawn w) h → w.a = .s k → x.e ≠ 0 → y.depth ≠ 15 → (Foot.ofDW f.foot).ok = true →
       (f.join = 0 → s.framesOwned y.launch (s.wave c.wave).core + 17 ≤ (s.launch y.launch).slots →
         Completes s c (.spawn w) h (s.spawnChild x f none)) ∧
       (∀ p s1, f.join ≠ 0 →
         Reaches s x [{ lane := lowestLane x.e, ea := f.join, size := 16, kind := AccKind.atomic, align := 16, cap := none, paths := [0, 2] }] [p] s1 →
         Clean s1 [p] 16 → (pathOf f.join = 2 → y.handle = none → (s1.ctx y.vf).freeHandle ≠ none) →
         s1.framesOwned y.launch (s.wave c.wave).core + 17 ≤ (s1.launch y.launch).slots →
         Completes s c (.spawn w) h (s1.spawnChild x f (some p.loc)))) ∧
      (∀ (w : Full) (c : Cursor) (p : Place) (s1 : State), let x := s.issOf c w.pn w.pm
       let h := headF w [(w.d, 1), (w.a, 2)] true
       let vf := s1.vfOf c.wave
       Issues s c (.joinI w) h → x.e ≠ 0 →
       Reaches s x [{ lane := lowestLane x.e, ea := s.addrBase x w.a (lowestLane x.e), size := 16, kind := AccKind.load, align := 16, cap := none,
                      paths := [0, 2] }] [p] s1 →
       Clean s1 [p] 16 →
       ((s1.memOf vf).nat p.loc 4 = 0 → Completes s c (.joinI w) h (s1.joinPass x w.d p.loc)) ∧
       ((s1.memOf vf).nat p.loc 4 ≠ 0 → Places s c (.joinI w) h ((s1.storeNow (plainWrite (p.loc + 4) 4 (waveHandle c.wave).toNat) (s1.keyIndex vf)).waitOn x x.e
         (.joinW x.e w.d (s.addrBase x w.a (lowestLane x.e)) p.loc)))) ∧
      (∀ e d ea loc, s.waitOf s.occ.a s.occ.b = some (.joinW e d ea loc) → s.awake s.occ.a = true →
        (s.cutOff loc = true → exec .joinResume s =
          .next (s.takeFault s.occ.a ((s.issWait s.occ.a e).record Code.remote 1 (lowestLane e) AccKind.load ea))) ∧
        (s.cutOff loc = false → (s.memOf (s.vfOf s.occ.a)).nat loc 4 = 0 →
          exec .joinResume s = .next ((s.joinPass (s.issWait s.occ.a e) d loc).leaveWait s.occ.a (s.waiters s.occ.a s.occ.b))))) ∧
  (∀ (s : State), let core := s.occ.a
      (∀ q sp, s.popChoice core s.occ.b = some (q, sp) → s.takesWork core (s.launch q.launch).vf = true →
        exec .dequePop s = .next ((s.modCore core (fun c => { c with deque := c.deque.erase q })).startChild q sp)) ∧
      (let n := s.occ.b
       let vf := (s.launch n).vf
       let (h, k) := s.regionCtl n core
       let fs := s.regionFrames n core
       (s.core core).ctx = some vf → (s.core core).away = false → s.vfAt core = some vf → (s.core core).deque = [] → (s.launch n).complete = false →
       s.regionPoison n core = false → k ≠ 0 →
       exec .dequeRefill s = .next (((s.useRegion n core h ((List.range k).drop (k - min k 16))).setRegion n core h (fs.take (k - min k 16))).modCore core (fun c =>
         { c with deque := ((fs.drop (k - min k 16)).reverse).map (fun f => { frame := f, launch := n }) }))) ∧
      (∀ vf level q sp, let v := s.occ.b
       let cs := s.stealChoices core v s.occ.c vf
       s.vfAt core = some vf → s.stealLevel core v = some level → s.takesWork core vf = true → s.dequeEmpty vf core = true →
       (∀ l y, l < level → y ∈ s.victims core l → s.stealChoices core y s.occ.c vf = []) →
       (∀ k ∈ cs, k.2.2 = true → s.regionPoison k.1.launch v = false) →
       (cs ≠ [] → ∃ t, exec .dequeSteal s = .next t) ∧
       (cs[(s.pick cs.length).1]? = some (q, sp, false) →
       exec .dequeSteal s = .next (((s.pick cs.length).2.modCore v (fun c => { c with deque := c.deque.erase q })).startChild
         { q with frame := { q.frame with flags := q.frame.flags / 2 * 2 + 1 } } sp))) ∧
      (s.departs core = true → (s.core core).away = false → s.coreBusy core = false →
        exec .coreDepart s = .next ((s.departCore core).returnCluster (clusterOf core))))

/-- O49. EMIT writes its record into the queue of an open node and makes it ready, or retires it at once where its graph is cancelled; a full
queue's wait ends once TAIL minus HEAD is less than QCAP (15 R387; 08 R206, R207; 06 R149). That EMIT writes its slot directly and moves
TAIL and READY together, and when a cancelled graph's record is retired, is the model's choice (log 47), and so is that a record whose slot
no port reaches is lost and reported as a failed store (log 26). LAUNCH of a record that is right starts a launch whose %launch its
destination takes, and of a rejected one gives 0; its wait for a partition with room ends once the partition has fewer than 1024 launches in
flight (15 R388; 08 R189-R193). -/
def Obligations.EmitAndLaunch : Prop :=
  (∀ (s : State),
      (∀ (w : Full) (c : Cursor) (k : Nat) (p : Place) (s1 : State), let x := s.issOf c w.pn w.pm
       let vf := s.vfOf c.wave
       let n := s.srcU x w.a 32 (lowestLane x.e)
       let s0 := s.devUse vf (s.nodeAddr vf n) 64
       let cap := s0.nodeField vf n 0x10 4
       let tail := s0.nodeField vf n 0x1C 4
       let ea := BitVec.ofNat 64 (s0.nodeField vf n 8 8 + 64 * (tail % max 1 cap))
       let h := headF w [(w.a, 1), (w.b, 16)] true
       let key := RKey.record vf n tail
       let r := (s1.relDrop key).releaseLanes c.wave x.e key
       let s2 := r.storeOrFail (.lane c.wave (lowestLane x.e))
         (plainBytes p.loc ((List.range 16).flatMap (fun i => leBytes 4 ((s.wave c.wave).rs (k + i)).toNat))) ea c.pc
       let s3 := s2.relMerge key ((List.range 64).foldl (fun v i => vset v (p.loc + i) (s2.mem.lastOf (p.loc + i)).1) [])
       let s4 := (s3.setNode vf n 0x1C 4 ((tail + 1) % 2 ^ 32)).setNode vf n 0x20 4 ((tail + 1) % 2 ^ 32)
       Issues s c (.emit w) h → w.b = .s k → x.e ≠ 0 → (s.ctx vf).mgmt.gtbase ≠ 0 → n < (s.ctx vf).mgmt.gtnodes.toNat →
       Reaches s0 x [{ lane := lowestLane x.e, ea, size := 64, kind := AccKind.store, align := 64, cap := none, paths := [0] }] [p] s1 →
       countDiff tail (s1.nodeField vf n 0x18 4) < cap →
       let s5 := (s4.withGraph vf 0 0).modGraph vf (fun g => { g with
         counter := g.counter + 1, readySince := tins g.readySince (recordKey n tail) s4.pkg.ticks })
       (∀ g, (s5.ctx vf).graph = some g → (g.cancelled = false → Completes s c (.emit w) h s5) ∧
         (g.cancelled = true → Completes s c (.emit w) h ((s5.retireRecords vf n).graphJudge vf)))) ∧
      (∀ n, let w := s.occ.a
       let vf := s.vfOf w
       s.waitOf w s.occ.b = some (.hold (.emitFull n)) → s.awake w = true →
       countDiff (s.nodeField vf n 0x1C 4) (s.nodeField vf n 0x18 4) < s.nodeField vf n 0x10 4 →
       exec .emitResume s = .next ((s.devUse vf (s.nodeAddr vf n) 64).endHold w (s.waiters w s.occ.b)))) ∧
  (∀ (s : State),
      (∀ (w : Full) (c : Cursor) (p q : Place) (s1 : State), let x := s.issOf c w.pn w.pm
       let l := lowestLane x.e
       let vf := s.vfOf c.wave
       let h := headF w [(w.d, 1), (w.a, 2)] true
       let half := fun (ea : DWord) => ({ lane := l, ea, size := 64, kind := AccKind.load, align := 64, cap := none, paths := [0, 2] } : Req)
       let r := s1.launchBytes (.lane c.wave l) [p.loc, q.loc]
       let s2 := r.2.2.2
       let rec_ := s2.readRecord vf r.1 (.program (s2.launchOf c.wave).phase)
       let s3 := s2.recordReads vf r.1 rec_.1.code
       let start := s3.releaseLanesView c.wave x.e
       let t := start.2.startLaunch { rec_.1 with k0tag := rec_.1.k0tag && r.2.1, k1tag := rec_.1.k1tag && r.2.2.1 } start.1
       Issues s c (.launch w) h → x.e ≠ 0 →
       Reaches s x [half (s.addrBase x w.a l), half (s.addrBase x w.a l + 64)] [p, q] s1 → Clean s1 [p, q] 64 →
       (s2.completionOk vf r.1 = true → rec_.2 = 0 → s3.inFlight rec_.1.die rec_.1.part < 1024 →
         Completes s c (.launch w) h (t.2.put x w.d false tagN32 (fun _ => t.1))) ∧
       (s2.completionOk vf r.1 = true → rec_.2 ≠ 0 →
         Completes s c (.launch w) h ((s3.rejectRecord vf rec_.1 rec_.2).put x w.d false tagN32 (fun _ => 0))) ∧
       (s2.completionOk vf r.1 = false → Completes s c (.launch w) h ((s2.countReject vf).put x w.d false tagN32 (fun _ => 0)))) ∧
      (∀ d e, let w := s.occ.a
       s.waitOf w s.occ.b = some (.hold (.launchLimit d e)) → s.awake w = true → s.inFlight d e < 1024 →
       exec .launchLimitResume s = .next (s.endHold w (s.waiters w s.occ.b))))

/-- O50. CANCEL of each level and LVLCNT of any; a cancelled wave is retired at a blocking point, though not between the steps of a word's lanes
(15 R389; 06 R148, R149; 03 R82). -/
def Obligations.Cancelling : Prop :=
  ∀ (s : State),
    (∀ (w : Full) (c : Cursor), let x := s.issOf c w.pn w.pm
     let l := lowestLane x.e
     let vf := s.vfOf c.wave
     let lv := s.srcU x w.a 32 l
     let id := s.srcU x w.b 32 l
     x.e ≠ 0 → levelBad lv id = false →
     (let h := headF w [(w.a, 1), (w.b, 1)] true
      Issues s c (.cancel w) h →
      (lv = 1 → Completes s c (.cancel w) h (s.cancelUnit (s.wave c.wave).unit 1)) ∧
      (∀ n, lv = 2 → s.levelLaunch c.wave id = some n → Completes s c (.cancel w) h (s.cancelLaunch n 2)) ∧
      (lv = 2 → s.levelLaunch c.wave id = none → Completes s c (.cancel w) h s) ∧
      (lv = 3 → (s.launchOf c.wave).graphNode ≠ none → Completes s c (.cancel w) h (s.cancelGraph vf 3)) ∧
      (lv = 3 → (s.launchOf c.wave).graphNode = none → Completes s c (.cancel w) h s) ∧
      (lv = 4 → Completes s c (.cancel w) h (s.cancelPhase vf))) ∧
     (let h := headF w [(w.d, 1), (w.a, 1), (w.b, 1)] (perWave w.d)
      Issues s c (.lvlcnt w) h → Writes s c (.lvlcnt w) h w.d false tagN32 (fun _ =>
        if lv = 1 then ((s.unit (s.wave c.wave).unit).waves.filter (fun y => !(s.wave y).exited)).length
        else if lv = 2 then (s.levelLaunch c.wave id).elim 0 (fun n => (s.launch n).counter)
        else if lv = 3 then (if (s.launchOf c.wave).graphNode.isSome then ((s.ctx vf).graph.map (fun g => g.counter)).getD 0 else 0)
        else (s.ctx vf).phaseCnt))) ∧
    (s.retires s.occ.a = true → s.midSteps s.occ.a = false → exec .cancelRetire s = .next (s.retireWave s.occ.a))

/-- O51. Each candidate word: one that finds too little fuel retires its lane with FUEL and does nothing else; one that has enough pays its
cost, gives its register the value 10 R246 states, and goes on at the next word (10 R246, R247; 09 R230). The other candidate words:
branches, the words that retire their lane, OUT, LD and ST of the lane's sandbox, and HALT, which starts the next example or retires the
lane after the last (10 R243, R246-R249; 09 R230). That LD alone finds an uncorrectable word of the sandbox is the model's choice (log 43). -/
def Obligations.CandidateWords : Prop :=
  (∀ (s : State) (w l : Nat) (c : CandRun) (k : CWord),
      let v := s.wave w
      let a := v.cReg l k.a
      let b := v.cReg l k.b
      let i := BitVec.ofInt 32 k.imm
      ((∃ q, s.cur = some q ∧ q.cand = some l ∧ q.wave = w) → v.cand = some c →
        (v.cLeft l < 1 → ∀ j, (∃ op, j = .candIllegal op k) ∨ j ∈ [Instr.candHalt k, .candAdd k, .candSub k, .candMul k, .candAnd k, .candOr k, .candXor k,
            .candShl k, .candShr k, .candSar k, .candMin k, .candMax k, .candSlt k, .candSeq k, .candAddi k, .candMuli k, .candAndi k, .candLi k, .candLis k,
            .candNeg k, .candAbs k, .candLd k, .candSt k, .candLdx k, .candBeq k, .candBne k, .candBlt k, .candBge k, .candJmp k, .candOut k, .candSel k,
            .candClz k, .candPopc k] → exec j s = .next (s.candStop w l c Outc.fuel)) ∧
        (v.cLeft l < 4 → exec (.candDiv k) s = .next (s.candStop w l c Outc.fuel) ∧ exec (.candRem k) s = .next (s.candStop w l c Outc.fuel))) ∧
      (CandRuns s w l c 1 →
        CandVal s w l 1 (.candAdd k) k.d (a + b) ∧ CandVal s w l 1 (.candSub k) k.d (a - b) ∧ CandVal s w l 1 (.candMul k) k.d (a * b) ∧
        CandVal s w l 1 (.candAnd k) k.d (a &&& b) ∧ CandVal s w l 1 (.candOr k) k.d (a ||| b) ∧ CandVal s w l 1 (.candXor k) k.d (a ^^^ b) ∧
        CandVal s w l 1 (.candShl k) k.d (a <<< (b.toNat % 32)) ∧ CandVal s w l 1 (.candShr k) k.d (a >>> (b.toNat % 32)) ∧
        CandVal s w l 1 (.candSar k) k.d (a.sshiftRight (b.toNat % 32)) ∧
        CandVal s w l 1 (.candMin k) k.d (BitVec.ofInt 32 (min a.toInt b.toInt)) ∧ CandVal s w l 1 (.candMax k) k.d (BitVec.ofInt 32 (max a.toInt b.toInt)) ∧
        CandVal s w l 1 (.candSlt k) k.d (if a.toInt < b.toInt then 1 else 0) ∧ CandVal s w l 1 (.candSeq k) k.d (if a = b then 1 else 0) ∧
        CandVal s w l 1 (.candAddi k) k.d (a + i) ∧ CandVal s w l 1 (.candMuli k) k.d (a * i) ∧ CandVal s w l 1 (.candAndi k) k.d (a &&& i) ∧
        CandVal s w l 1 (.candLi k) k.d i ∧ CandVal s w l 1 (.candLis k) k.d (i <<< 15) ∧
        CandVal s w l 1 (.candNeg k) k.d (0 - a) ∧ CandVal s w l 1 (.candAbs k) k.d (if a.toInt < 0 then 0 - a else a) ∧
        CandVal s w l 1 (.candSel k) k.d (if v.cReg l k.d ≠ 0 then a else b) ∧
        CandVal s w l 1 (.candClz k) k.d (BitVec.ofNat 32 (clz 32 a.toNat)) ∧ CandVal s w l 1 (.candPopc k) k.d (BitVec.ofNat 32 (popCount 32 a.toNat)) ∧
        (0 ≤ k.imm → k.imm ≤ 7 → CandVal s w l 1 (.candLdx k) k.d ((((tfind? c.lanes l).map (·.inputs)).getD []).getD k.imm.toNat 0))) ∧
      (CandRuns s w l c 4 → b ≠ 0 →
        CandVal s w l 4 (.candDiv k) k.d (BitVec.ofInt 32 (a.toInt.tdiv b.toInt)) ∧ CandVal s w l 4 (.candRem k) k.d (BitVec.ofInt 32 (a.toInt.tmod b.toInt)))) ∧
  (∀ (s : State) (w l : Nat) (c : CandRun) (k : CWord),
      let v := s.wave w
      let a := v.cReg l k.a
      let b := v.cReg l k.b
      let p := s.paid w l 1
      let ex := bits (v.ctl l).toNat 23 20
      let outs := bits (v.ctl l).toNat 26 24
      let j := a.toInt + k.imm
      let loc := locScratch v.unit (c.sandbox + 256 * l + 4 * j.toNat)
      let next := fun (t : State) => t.modWave w (fun y => y.wv 247 l (setBits (y.ctl l) 5 0 (v.cPc l + 1)))
      (CandRuns s w l c 4 → b = 0 →
        exec (.candDiv k) s = .next ((s.paid w l 4).candStop w l c Outc.divzero) ∧
        exec (.candRem k) s = .next ((s.paid w l 4).candStop w l c Outc.divzero)) ∧
      (CandRuns s w l c 1 →
        CandBranch s w l c (.candBeq k) (a = b) k.imm ∧ CandBranch s w l c (.candBne k) (a ≠ b) k.imm ∧
        CandBranch s w l c (.candBlt k) (a.toInt < b.toInt) k.imm ∧ CandBranch s w l c (.candBge k) (b.toInt ≤ a.toInt) k.imm ∧
        CandBranch s w l c (.candJmp k) True k.imm ∧
        (∀ op, exec (.candIllegal op k) s = .next (p.candStop w l c Outc.illegal)) ∧
        (k.imm < 0 ∨ 7 < k.imm → exec (.candLdx k) s = .next (p.candStop w l c Outc.oob)) ∧
        (j < 0 ∨ 63 < j → exec (.candLd k) s = .next (p.candStop w l c Outc.oob) ∧ exec (.candSt k) s = .next (p.candStop w l c Outc.oob)) ∧
        (0 ≤ j → j ≤ 63 →
          (s.mem.badWord loc 4 = true → exec (.candLd k) s = .next (p.candStop w l c Outc.illegal)) ∧
          (s.mem.badWord loc 4 = false →
            let r := p.readStep (.lane w l) ((List.range 4).map (loc + ·))
            exec (.candLd k) s = .next (next (r.2.modWave w (fun y => y.wv (248 + k.d) l (BitVec.ofNat 32 (leNat r.1)))))) ∧
          exec (.candSt k) s = .next (next ({ p with nextId := s.nextId + 1 }.queueWrite (.lane w l) (plainWrite loc 4 b.toNat) s.nextId))) ∧
        (outs = 4 → exec (.candOut k) s = .next (p.candStop w l c Outc.outlimit)) ∧
        (outs ≠ 4 → exec (.candOut k) s = .next (next (p.modWave w (fun y =>
          (y.fold l (BitVec.ofNat 64 (ex * 2 ^ 40 + outs * 2 ^ 32 + a.toNat))).wv 247 l (setBits (y.ctl l) 26 24 (outs + 1)))))) ∧
        (let q := if outs = 0 then p.modWave w (fun y => y.fold l (BitVec.ofNat 64 (ex * 2 ^ 40 + 0xFF * 2 ^ 32))) else p
         (ex + 1 = c.nex → exec (.candHalt k) s = .next (q.candStop w l c Outc.ok)) ∧
         (ex + 1 ≠ c.nex → (q.startExample w l c (ex + 1)).1 = true → exec (.candHalt k) s = .next (q.startExample w l c (ex + 1)).2) ∧
         (ex + 1 ≠ c.nex → (q.startExample w l c (ex + 1)).1 = false →
           exec (.candHalt k) s = .next ((q.startExample w l c (ex + 1)).2.candStop w l c Outc.illegal)))))

/-- O52. CRUN whose checks pass enters candidate mode and starts a candidate in each lane of E; VSTI and VSTQ take one Vestibule step a lane, in
lane order, and VSTC empties the namespace (10 R240-R244, R252-R255). -/
def Obligations.CandidateRun : Prop :=
  ∀ (w : Full) (s : State) (c : Cursor),
    let x := s.issOf c w.pn w.pm
    let die := dieOf (s.wave c.wave).core
    (∀ vd ia ps1 s1 exs s2 os s3, let h := headF w [(w.d, 1), (w.a, 1), (w.b, 2)] false
     let l := lowestLane x.live
     let ea := s.addrBase x w.b l
     let loc := ps1.loc
     let r := s1.readDescriptor c.wave l loc
     let nat := fun (o n : Nat) => leNat ((r.1.drop o).take n)
     let gal := BitVec.ofNat 64 (nat 16 8)
     let norec := decide (nat 26 2 / 2 % 2 = 1)
     let index := (lanesOf x.e).foldl (fun (m : SMap Word) k => tset 0 m k (s1.candIndex x (.v ia) k)) []
     Issues s c (.crun w) h → w.d = .v vd → w.a = .v ia → vd < 240 → ia < 240 → 256 ≤ (s.footOf c.wave).vregs →
     c.group = x.live → (s.wave c.wave).rtag ia = tagN32 →
     Reaches s x (recordReqs l ea 1 AccKind.load [0, 2]) [ps1] s1 → Clean s1 [ps1] 32 →
     1 ≤ nat 24 1 → nat 24 1 ≤ 16 → nat 26 2 < 4 → (nat 25 1 = 0xFF ∨ r.2.2.nsAssigned die (r.2.2.vfOf c.wave) (nat 25 1) = true) →
     pathOf gal = 9 → canonical gal = true → gal.toNat % 256 = 0 →
     Reaches r.2.2 x (recordReqs l (BitVec.ofNat 64 (nat 0 8)) (nat 24 1) AccKind.load [0, 9]) exs s2 →
     Reaches s2 x (if norec then [] else recordReqs l (BitVec.ofNat 64 (nat 8 8)) 32 AccKind.store [0, 2]) os s3 →
     nat 30 2 % 256 = 0 → nat 30 2 + 8192 ≤ (s3.unit (s.wave c.wave).unit).scratchBytes →
     let run : CandRun := {
       vd, enabled := x.e, fuel := nat 28 2, nex := nat 24 1, ns := nat 25 1, qonly := nat 26 2 % 2 = 1, norec, sandbox := nat 30 2, pc := c.pc, desc := ea
       gallery := gal, examples := BitVec.ofNat 64 (nat 0 8), outcomes := BitVec.ofNat 64 (nat 8 8), index, exLocs := exs.map (·.loc)
       outLocs := os.map (·.loc), wrote := 0, lanes := [] }
     Completes s c (.crun w) h ((s3.setAgent (.lane c.wave l) r.2.1).candEnter x run (fun k s => s.candStart c.wave k run (tget 0 index k)))) ∧
    (∀ (s : State) (w l loc : Nat), let r := s.readDescriptor w l loc
     let t := { s with fresh := r.2.2.fresh, nextId := r.2.2.nextId }
     r.2.2 = t ∧ r.1.length = 32 ∧ (l < 32 → (tfind? s.waves w).isSome = true → r.2.1.queue = (s.agent (.lane w l)).queue)) ∧
    (∀ n ns, w.a = .v n → (s.wave c.wave).rtag n = tagN64 → (s.wave c.wave).rtag (n + 2) = tagN64 → s.nsOperand x w.b = some ns →
      let h := headF w [(w.d, 1), (w.a, 4), (w.b, 1)] false
      let r := fun (ins : Bool) => (lanesOf x.e).foldl (fun (acc : List (Nat × Nat) × State) l =>
        let (hit, s) := acc.2.vestStep die ns ((s.wave c.wave).rv2 (n + 2) l ++ (s.wave c.wave).rv2 n l) ins
        (acc.1 ++ [(l, if hit then 1 else 0)], s)) ([], s)
      (Issues s c (.vsti w) h → Completes s c (.vsti w) h ((r true).2.put x w.d false tagN32 (valOf (r true).1))) ∧
      (Issues s c (.vstq w) h → Completes s c (.vstq w) h ((r false).2.put x w.d false tagN32 (valOf (r false).1)))) ∧
    (∀ ns, let h := headF w [(w.a, 1)] true
     Issues s c (.vstc w) h → x.e ≠ 0 → s.nsOperand x w.a = some ns →
     Completes s c (.vstc w) h (s.modDie die (fun d =>
       let e := tget Namespace.init d.spaces ns
       { d with spaces := tset Namespace.init d.spaces ns { e with stamp := e.stamp + 1, entries := [] } })))

/-- O53. SRD, SWR, TIMENS, CYCLES and PERFRD: the registers they read and write (15 R390-R395; 22 R427). -/
def Obligations.SystemRegisters : Prop :=
  ∀ (w : Full) (s : State) (c : Cursor),
    let x := s.issOf c w.pn w.pm
    let v := s.wave c.wave
    let u := s.unit v.unit
    let h1 := headF w [(w.d, 1)] (perWave w.d)
    let h2 := headF w [(w.d, 2)] (perWave w.d)
    (Issues s c (.srd w) h1 → Writes s c (.srd w) h1 w.d false tagN32 (fun _ => (s.readStatus c.wave (litOf w.c)).toNat)) ∧
    (∀ t, let h := headF w [(w.a, 1)] true
     Issues s c (.swr w) h → x.e ≠ 0 → s.writeStatus c.wave (litOf w.c) (BitVec.ofNat 32 (s.srcU x w.a 32 (lowestLane x.e))) = .ok t →
     Completes s c (.swr w) h t) ∧
    (Issues s c (.timens w) h2 → x.e ≠ 0 →
      Completes s c (.timens w) h2 ((s.readTime (s.vfOf c.wave)).2.put x w.d true tagN64 (fun _ => (s.readTime (s.vfOf c.wave)).1.toNat))) ∧
    (Issues s c (.cycles w) h2 → Writes s c (.cycles w) h2 w.d true tagN64 (fun _ => (s.core v.core).cycles)) ∧
    (let h := headF w [(w.d, 2), (w.a, 1)] (perWave w.d)
     Issues s c (.perfrd w) h → x.e ≠ 0 → Writes s c (.perfrd w) h w.d true tagN64 (fun _ =>
       ([v.wwords, v.wopp, v.wstall, v.wtile, v.wblock, v.wcand, v.wtlb, u.umma, u.ueng, u.ucurr])[s.srcU x w.a 32 (lowestLane x.e) % 256]?.getD 0))

/-- O54. What reaches memory and agents from outside: host and fabric accesses to memory, a remote access that returns or fails, a group member
that becomes resident, and storage errors (03 R86, R87, R92, R103; 14 R360, R361; 09 R225-R227, R233; 01 R20; 02 R57, R72; 22 R421, R422).
The model's own are the physicalHole stop for an address in a hole and that a fabric access fails by delivering no bytes (log 52), the same
for what a torn-down context leaves and which key indexes are assigned (log 25), that a remote load is held until it returns, and the record
of a store that no port took (log 26). A host's read of a window gives the registers it covers, and a write of one whole register writes it
(22 R423); that other lengths are taken byte by byte is the model's (log 73). -/
def Obligations.OutsideAccesses : Prop :=
  ∀ (s : State),
    (∀ ep pa bytes, 384 ≤ ep → ep < 512 → bytes ≠ [] → paSpace pa bytes.length = .memory → exec (.hostWrite ep pa bytes) s = .next (s.hostStore pa bytes)) ∧
    (384 ≤ s.occ.a → s.occ.a < 512 → 0 < s.occ.c → s.occ.c ≤ 4096 → paSpace s.occ.b s.occ.c = .memory →
      exec .hostRead s = .next (s.deliver s.occ.a s.occ.b ((s.mem.under 0).bytes s.occ.b s.occ.c))) ∧
    (∀ win pa off v, off ∈ mgmtOffsets → off ≠ 0x80 → s.winVf win < 1024 → paSpace pa (mgmtSize off) = .mgmtWin win off →
      (384 ≤ s.occ.a → s.occ.a < 512 → s.occ.b = pa → s.occ.c = mgmtSize off →
        (if 0x80 ≤ off then s.winMgmt win else (s.ctx (s.winVf win)).mgmt).get off = some v →
        exec .hostRead s = .next (s.setPkg { s.pkg with hostReads := (s.occ.a, pa, leBytes (mgmtSize off) v.toNat) :: s.pkg.hostReads })) ∧
      (∀ ep bytes, 384 ≤ ep → ep < 512 → bytes.length = mgmtSize off →
        exec (.hostWrite ep pa bytes) s = .next (s.mgmtWrite ep win off (BitVec.ofNat 64 (leNat bytes))))) ∧
    (∀ pkg pa, s.hasAgent (.fabric pkg) = true → 1 ≤ s.occ.a → s.occ.a < 4096 →
      let here := fun (n : Nat) => paSpace pa n = .memory ∧ s.keyAssigned s.occ.a = true ∧ s.tornAt pa n = false ∧ s.tornPage pa n = false
      let gone := fun (n : Nat) => paSpace pa n = .memory ∧ (s.keyAssigned s.occ.a = false ∨ s.tornAt pa n = true ∨ s.tornPage pa n = true)
      (∀ n, here n → exec (.fabricAccess pkg pa (.read n)) s =
        .next ((s.readStep (.fabric pkg) ((List.range n).map (pa + ·))).2.deliver pkg pa (s.readStep (.fabric pkg) ((List.range n).map (pa + ·))).1)) ∧
      (∀ bytes, here bytes.length → exec (.fabricAccess pkg pa (.write bytes)) s =
        .next ({ s with nextId := s.nextId + 1 }.queueWrite (.fabric pkg) (plainBytes pa bytes) s.nextId)) ∧
      (∀ sub ty v, sub ≤ 11 → atomTypeOk sub ty = true → let n := if wide ty then 8 else 4
        here n → let r := s.atomicStep (.fabric pkg) pa n (fun o => some (atomNew sub ty o v))
        exec (.fabricAccess pkg pa (.atom sub ty v)) s = .next (r.2.deliver pkg pa (leBytes n r.1))) ∧
      (∀ n old new, n = 4 ∨ n = 8 → here n →
        let r := s.atomicStep (.fabric pkg) pa n (fun o => if o = old % 2 ^ (8 * n) then some new else none)
        exec (.fabricAccess pkg pa (.cas n old new)) s = .next (r.2.deliver pkg pa (leBytes n r.1))) ∧
      (∀ v runs, here 8 → exec (.fabricAccess pkg pa (.rel v runs)) s = .next (s.fabricRel (.fabric pkg) pa v runs)) ∧
      (here 8 → let r := s.acqStep (.fabric pkg) pa
        exec (.fabricAccess pkg pa .acq) s = .next (r.2.deliver pkg pa (leBytes 8 r.1))) ∧
      (exec (.fabricAccess pkg pa (.fence false)) s = .next ((s.fullRelease (.fabric pkg) (.fence 5 0)).fullAcquire (.fabric pkg) (.fence 5 0))) ∧
      (exec (.fabricAccess pkg pa (.fence true)) s = .next ((((s.fullRelease (.fabric pkg) (.fence 5 0)).fullRelease (.fabric pkg) (.fence 6 0)).fullAcquire
        (.fabric pkg) (.fence 5 0)).fullAcquire (.fabric pkg) (.fence 6 0))) ∧
      (∀ n, gone n → exec (.fabricAccess pkg pa (.read n)) s = .next (s.setPkg { s.pkg with hostReads := (pkg, pa, []) :: s.pkg.hostReads }))) ∧
    (∀ pa n, paSpace pa n = .hole → 384 ≤ s.occ.a → s.occ.a < 512 → 0 < s.occ.c → s.occ.c ≤ 4096 → s.occ.b = pa → s.occ.c = n →
      exec .hostRead s = .fault (.physicalHole pa)) ∧
    (∀ ag i e vf core slot lane lid, s.hasAgent ag = true → (s.agent ag).queue[i]? = some e → drainable (s.agent ag).queue i = true →
      s.agentPlace ag = some (vf, core, slot, lane, lid) → e.bytes.any (fun b => isRemote b.1) = true →
      exec (.remoteStoreFail ag i) s = .next ((s.setAgent ag { s.agent ag with queue := (s.agent ag).queue.eraseIdx i }).postFault vf {
        kind := 5, code := Code.remote, reason := 0, access := e.acc, core, slot, lane, lid
        addr := e.ea, pc := e.pc, subject := .none })) ∧
    (∀ p i vf r, s.failed[i]? = some (vf, r) →
      exec (.remoteStoreFail (.fabric p) i) s = .next (({ s with failed := s.failed.eraseIdx i } : State).postFault vf r)) ∧
    (let w := s.occ.a
     let m := s.waiters w s.occ.b
     s.awake w = true →
     (∀ locs, s.waitOf w s.occ.b = some (.hold (.remote locs)) → let up := s.occ.c = 1 ∧ ∀ x ∈ locs, s.cutOff x = false
       (up → exec .remoteLoadComplete s = .next ((s.modWave w (fun v => { v with remoteOk := v.remoteOk ||| m })).endHold w m)) ∧
       (¬ up → exec .remoteLoadComplete s = .next ((s.modWave w (fun v => { v with remoteBad := v.remoteBad ||| m })).endHold w m))) ∧
     (∀ k g j u, s.waitOf w s.occ.b = some (.hold (.member k)) → (s.unit (s.wave w).unit).group = some (g, j) → s.memberUnit g k = some u →
       (s.unit u).begun = true → exec .memberResidentWake s = .next (s.endHold w m))) ∧
    (∀ u off, classFits 0 off = true ∨ classFits 2 off = true →
      exec (.storageError u 4 off true) s = .next (s.setPkg { s.pkg with corrected := s.pkg.corrected + 1 }) ∧
      ∃ t, exec (.storageError u 4 off false) s = .next t ∧ SameBytes s t ∧ t.pkg.poisonedCount = s.pkg.poisonedCount + 1 ∧
        (poisonable off = true → t.poisoned off = true)) ∧
    (∀ u off, off < tget 0 (s.ctx (u / 4)).galWin (u % 4) →
      ∃ t, exec (.storageError u 5 off false) s = .next t ∧ SameBytes s t ∧ t.pkg.poisonedCount = s.pkg.poisonedCount + 1 ∧
        (∀ a, a / 64 = locGallery (u / 4) (u % 4) off / 64 → poisonable a = true → t.poisoned a = true)) ∧
    (∀ u buf off n, (s.unit u).bufSize? buf = some n → off < n → (s.unit u).released = false → (s.unit u).saved = none →
      exec (.storageError u buf off false) s = .next (s.badBufWord u buf off)) ∧
    (let w := s.occ.a
     let v := s.wave w
     v.storageTrap = true → v.trapState = .running → v.exited = false → v.cand = none → v.park = none → v.steps = [] → v.handles = none →
     (s.unit v.unit).resident = true → s.cur = none →
     ∃ t r, exec .storageTrap s = .next t ∧ (t.wave w).trapState = .trapped ∧ (t.wave w).storageTrap = false ∧ (t.wave w).trap = some r ∧
       r.code = Code.storage ∧ r.cls = 3)

/-- O55. Register writes of hosts, firmware and the management controller, ROOT and TOFFSET, and the doorbell of a slot that is not busy (08
R189, R190, R197, R201, R216; 22 R423, R424, R428; 07 R184; 02 R50; 21 R413). That TOFFSET's greater value is the greater of signed numbers
is the model's reading (log 34), and so is that the management controller writes its registers under the number 512 (log 1). The side band's
table writes: a partition entry whose fields keep their rules, a steal group and an owner are stored and answered with status 0 (08 R202; 07
R184; 21 R416; 22 R422). -/
def Obligations.RegisterWrites : Prop :=
  (∀ (s : State) (v : DWord),
      (∀ by_ vf off size, 384 ≤ by_ → by_ < 512 → vf < 1024 → 0 < size → size ≤ 8 → off + size ≤ 0x400 →
        (∀ i, i < size → (s.ctx vf).slotBusy.getLsbD ((off + i) / 128) = false) →
        exec (.registerWrite by_ (.launchWin vf off size) v) s = .next (s.modCtx vf (fun c => { c with
          slots := ((List.range (leBytes size v.toNat).length).zip (leBytes size v.toNat)).foldl (fun m (p : Nat × Byte) => tset 0 m (off + p.1) p.2) c.slots }))) ∧
      (∀ by_ win off, 384 ≤ by_ → by_ < 512 → s.winVf win < 1024 → off ≠ 0x80 →
        exec (.registerWrite by_ (.mgmt win off) v) s = .next (s.mgmtWrite by_ win off v)) ∧
      (∀ die e, die < 4 → (s.die die).schedDown = false → e < 16 → v.toNat ≤ 3 →
        exec (.registerWrite die (.fwStealScope die e) v) s = .next (s.modPart die e (fun p => { p with scope := v.toNat }))) ∧
      (∀ die idx off size, die < 4 → (s.die die).schedDown = false → idx < 4096 → off + size ≤ 32 → size ≤ 8 →
        (tfind? (s.die die).binds idx = none → exec (.registerWrite die (.fwRecord die idx off size) v) s = .next (s.setDie die { s.die die with
          slotTable := ((List.range size).zip (leBytes size v.toNat)).foldl (fun m (p : Nat × Byte) => tset 0 m (32 * idx + off + p.1) p.2)
            (s.die die).slotTable })) ∧
        ((tfind? (s.die die).binds idx).isSome = true → exec (.registerWrite die (.fwRecord die idx off size) v) s = .next (s.setDie die { s.die die with
          rejectCnt := (s.die die).rejectCnt + 1 }))) ∧
      (∀ vf, vf < 1024 → 1 ≤ v.toNat → v.toNat ≤ 15 →
        exec (.registerWrite mcWriter (.mcWeight vf) v) s = .next (s.modCtx vf (fun c => { c with weight := v.toNat }))) ∧
      (∀ die, die < 4 →
        exec (.registerWrite mcWriter (.mcDieColours die) v) s = .next (s.modDie die (fun d => { d with colourMask := v.toNat % 65536 })) ∧
        exec (.registerWrite mcWriter (.mcBoostLimit die) v) s = .next (s.modDie die (fun d => { d with boostLimit := v.toNat }))) ∧
      (let win := s.occ.win
       let vf := s.winVf win
       let val := BitVec.ofNat 64 s.occ.b
       384 ≤ s.occ.a → s.occ.a < 512 → vf < 1024 → s.isOwner s.occ.a win = true →
       (s.ctxInFlight vf = 0 → rootOk val = true → exec .rootWrite s = .next (s.modCtx vf (fun c => { c with mgmt := { c.mgmt with root := val } }))) ∧
       (exec .toffsetWrite s = .next (s.modCtx vf (fun c => { c with mgmt := { c.mgmt with
         toffset := BitVec.ofInt 64 (max val.toInt ((s.ctx vf).lastTime + 10 - 10 * (s.pkg.ticks : Int))) } })))) ∧
      (let vf := s.occ.a
       let slot := s.occ.b
       let k := s.ctx vf
       vf < 1024 → k.state ≠ .torn → slot < 8 → k.slotBusy.getLsbD slot = false →
       exec .doorbellLaunch s = .next ((s.setCtx vf { k with rung := k.rung ++ [slot], slotBusy := k.slotBusy ||| BitVec.ofNat 8 (2 ^ slot) }).serveRung vf
         (k.rung.length + 1))) ∧
      (let vf := s.occ.a
       let k := s.ctx vf
       vf < 1024 → k.state ≠ .torn → s.occ.b = 2 ^ 28 + k.phase → k.phase < 65536 → k.closed = false →
       exec .doorbellClose s = .next (s.setCtx vf { k with closed := true }))) ∧
  (∀ (s : State),
      (∀ die e bytes, die < 4 → e < 16 → bytes.length = 16 →
        let p := (tget Part.init (s.die die).parts e).ofBytes bytes
        let parts := tset Part.init (s.die die).parts e p
        p.state ≤ 2 → p.base ≤ p.limit → p.limit ≤ 63 → p.vf ≤ 1023 → p.lend ≤ 3 → (bytes.drop 11).all (· = 0) = true → partsBad parts = false →
        exec (.partw die e bytes) s = .next ((s.setDie die { s.die die with parts }).respond 0 [])) ∧
      (s.occ.a < 4 → s.occ.b < 16 → s.occ.c < 256 →
        exec .stealgrp s = .next ((s.modPart s.occ.a s.occ.b (fun p => { p with sgroup := s.occ.c })).respond 0 [])) ∧
      (s.occ.a < 1024 → 384 ≤ s.occ.b → s.occ.b < 512 →
        exec .owner s = .next ((s.modCtx s.occ.a (fun c => { c with owner := s.occ.b })).respond 0 [])))

/-- O56. A phase starts once the one before it is closed and complete; a launch that has nothing left to do completes, with its record, and its
phase counts it no more; a node's batch is taken and its timeout expires; and a waiting fault record is posted when there is room (03 R98;
08 R194-R196, R207, R208; 09 R226). -/
def Obligations.LaunchLife : Prop :=
  ∀ (s : State),
    (let vf := s.occ.a
     let k := s.ctx vf
     k.closed = true → k.phaseCnt = 0 → k.heldRecs ≠ [] → (∀ l ∈ k.heldRecs, l.phase ≠ k.phase) → k.state ≠ .torn →
     exec .phaseStart s = .next ((s.setCtx vf { k with phase := (k.phase + 1) % 65536, closed := false, phaseCancelled := false }).serveHeld vf)) ∧
    (let n := s.occ.a
     let l := s.launch n
     s.launchDone n = true →
     (∃ t, exec .launchComplete s = .next t) ∧
     (l.graphNode = none → l.batch = none →
      let t := (s.publishLaunch n).modLaunch n (fun l => { l with complete := true })
      let t := t.writeCompletion l.vf l.completion (completionWord true (l.faultCnt != 0) l.cancelled false ((l.firstFault.map (·.1)).getD 0) 0)
        (completionBytes l.faultCnt l.firstFault l.lid (t.timens l.vf))
      let t := (t.modCtx l.vf (fun c => { c with phaseCnt := c.phaseCnt - 1 })).graphJudge l.vf
      exec .launchComplete s = .next ((t.serveHeld l.vf).serveRung l.vf (t.ctx l.vf).rung.length))) ∧
    (let vf := s.occ.a
     ∀ r rest, (s.ctx vf).fwaiting = r :: rest → (s.ctx vf).mgmt.fqsize ≠ 0 → (s.ctx vf).queueFull = false →
       exec .xlateRecordPost s = .next ((s.setCtx vf { s.ctx vf with fwaiting := rest }).appendFault vf r)) ∧
    (let vf := s.occ.a
     let n := s.occ.b
     ∀ g, (s.ctx vf).graph = some g →
     let t := s.nodeField vf n 0x16 2
     let taken := s.nodeField vf n 0x28 4
     t ≠ 0 → s.nodeField vf n 0x20 4 ≠ taken → tget false g.expired n = false → tget 0 g.readySince (recordKey n taken) + 100 * t ≤ s.pkg.ticks →
     exec .nodeTimeoutExpiry s = .next ((s.devUse vf (s.nodeAddr vf n) 64).modGraph vf (fun g => { g with expired := tset false g.expired n true }))) ∧
    (let vf := s.occ.a
     let n := s.occ.b
     ∀ g, (s.ctx vf).graph = some g →
     let taken := s.nodeField vf n 0x28 4
     let ready := countDiff (s.nodeField vf n 0x20 4) taken
     let co := s.nodeField vf n 0x14 2
     let cap := max 1 (s.nodeField vf n 0x10 4)
     let live := s.nodeField vf n 0x24 2
     let k := min (min ready co) (cap - taken % cap)
     let bs := ((s.templateBytes vf n).toOption).getD []
     (s.ctx vf).state = .active → g.cancelled = false → n < (s.ctx vf).mgmt.gtnodes.toNat → live < s.nodeField vf n 0x26 2 → ready ≠ 0 →
     (co ≤ ready ∨ tget false g.expired n = true) → s.recordWaits vf bs = false →
     let t := (s.setNode vf n 0x28 4 ((taken + k) % 2 ^ 32)).setNode vf n 0x24 2 (live + 1)
     exec .nodeLaunchStart s = .next ((t.modGraph vf (fun g => { g with
       batches := g.batches ++ [{ node := n, start := taken, n := k, launch := t.nextId, finished := false }]
       readySince := (List.range k).foldl (fun m i => tdel m (recordKey n (taken + i))) g.readySince
       expired := tset false g.expired n false })).nodeLaunch vf n taken k (BitVec.ofNat 64 (s.nodeField vf n 8 8 + 64 * (taken % cap)))))

/-- O57. The dispatch hardware: commit, placement, eviction and restore by bind records, scrubs and the heartbeat (08 R197-R201, R209; 02 R73;
09 R232). The model's own are when a record is rejected and when an OP 3 record is cleared (log 46), that a failing scrub tears its context
down with cause 4 (log 25), and that a deadline's event comes when its time has passed (log 55). Lending and reclaiming a cluster, and
tenant slices (08 R203, R211; 20 R406). Who decides to lend, reclaim or end a slice, and when, is the model's choice (log 54), and a
deadline's event comes when its time has passed (log 55). -/
def Obligations.BindRecords : Prop :=
  (∀ (s : State), let die := s.occ.a
      let i := s.occ.b
      let d := s.die die
      let r := d.bindRec i
      let grp := d.bindGroup i
      (∀ n, die < 4 → d.schedDown = false → s.bindPasses die i = some n →
        exec .slotcommit s = .next (s.modDie die (fun d => { d with
          binds := grp.foldl (fun m p => tins m p.1 { launch := n, done := 0, unit := none, leader := i }) d.binds }))) ∧
      (die < 4 → d.schedDown = false → s.bindPasses die i = none → ∃ t, exec .slotcommit s = .next t ∧
        (t.die die).rejectCnt = d.rejectCnt + 1 ∧ (t.die die).binds = d.binds ∧ SameBytes s t ∧ t.waves = s.waves ∧ t.units = s.units) ∧
      (∀ b, tfind? d.binds i = some b →
        (b.leader = i → r.op ≠ 3 → ((s.launch b.launch).complete = true ∨ (s.launch b.launch).cancelled = true) →
          exec .bindRecordRun s = .next (s.clearGroup die i)) ∧
        (r.op = 3 → b.unit = none → s.namedUnit die r = none → exec .bindRecordEvict s = .next (s.clearBind die i)) ∧
        (∀ u, r.op = 3 → b.unit = none → s.namedUnit die r = some u → exec .bindRecordEvict s = .next ((s.stopUnits [u] none false).modDie die (fun d =>
          { d with binds := tins d.binds i { b with unit := some u } }))) ∧
        (let l := s.launch b.launch
         let k := r.first + b.done * r.step
         b.leader = i → r.op = 1 → b.unit = none → b.done < r.count → l.complete = false → l.cancelled = false → k < l.ux * l.uy * l.uz → l.group ≤ 1 →
         r.members = 1 → s.placeOpen die i b r = true → (∀ y ∈ s.unitSpans (r.coreOn die), y.overlaps (r.span die l.waves l.foot) = false) →
         let p := s.placeUnit die r b.launch k none 0
         exec .unitPlace s = .next (((p.2.modDie die (fun d => { d with binds := tins d.binds i { b with done := b.done + 1, unit := some p.1 } })).stopPlaced
           [p.1]).checkStore b.launch)) ∧
        (let l := s.launch b.launch
         let k := r.first + b.done * r.step
         let total := l.ux * l.uy * l.uz
         let members := grp.take (total - k)
         b.leader = i → r.op = 1 → b.unit = none → b.done < r.count → l.complete = false → l.cancelled = false → k < total → 1 < l.group →
         (∀ p ∈ members, s.placeOpen die i b p.2 = true ∧ ∀ y ∈ s.unitSpans (p.2.coreOn die), y.overlaps (p.2.span die l.waves l.foot) = false) →
         let placed := ((List.range members.length).zip members).foldl (fun (acc : List Nat × State) p =>
           let q := acc.2.placeUnit die p.2.2 b.launch (k + p.1) (some (s.nextId, p.1)) members.length
           (acc.1 ++ [q.1], q.2)) ([], { s with nextId := s.nextId + 1 })
         exec .unitPlace s = .next (((placed.2.modDie die (fun d => { d with binds := tins d.binds i { b with done := b.done + 1, unit := placed.1.head? } })).stopPlaced
           placed.1).checkStore b.launch)) ∧
        (let x := s.unit r.save
         b.leader = i → r.op = 2 → r.members = 1 → x.saved ≠ none → x.launch = b.launch → x.group = none → s.placeOpen die i b r = true →
         (∀ y ∈ s.unitSpans (r.coreOn die), y.overlaps (r.span die x.waves.length x.foot) = false) → (s.core (r.coreOn die)).newel = none →
         s.storePoison b.launch = false →
         let t := s.restoreUnit r.save (r.span die x.waves.length x.foot)
         exec .bindRecordResume s = .next ((((t.unit r.save).waves.foldl (fun s w => s.candResume w false) (t.clearGroup die i)).stopPlaced
           [r.save]).checkStore b.launch))) ∧
      (s.stopsNow s.occ.a = true → exec .unitEvict s = .next (s.evictUnit s.occ.a)) ∧
      (∀ vf, let k := s.core s.occ.a
        k.scrub = some vf →
        (s.occ.b = 1 → exec .scrubComplete s = .next (((s.scrubbed s.occ.a).setCore s.occ.a { k with scrub := none, ctx := some vf, away := false, icache := [], used := some [] }).resetDone
          (clusterOf s.occ.a))) ∧
        (s.occ.b ≠ 1 → exec .scrubComplete s = .next ((s.setCore s.occ.a { k with scrub := none }).teardown vf 4))) ∧
      (die < 4 → d.schedDown = false → d.heartAt + 100000 ≤ s.pkg.ticks →
        exec .heartbeatTimeout s = .next (s.setDie die { d with schedRst := d.schedRst + 1, schedDown := true, heartAt := s.pkg.ticks }))) ∧
  (∀ (s : State),
      (let k := s.occ.a
       let e := s.occ.b
       let die := k / 64
       ∀ o, s.ownPart k = some o → (s.die die).schedDown = false → o ≠ e → (s.part die e).state = 1 → (s.part die o).lend % 2 = 1 →
       (s.part die e).lend / 2 % 2 = 1 → (s.cluster k).lentTo = none → (∀ c ∈ coresOf k, s.coreIdle c = true) →
       exec .lendCluster s = .next ((coresOf k).foldl (fun t c => t.claimCore c (s.part die e).vf)
         (((coresOf k).foldl (fun t c => t.departCore c) s).modCluster k (fun c => { c with lentTo := some e })))) ∧
      (let k := s.occ.a
       let c := s.cluster k
       c.lentTo ≠ none → c.reclaiming = none →
       let t := (coresOf k).foldl (fun t c => t.unstart c) (s.setCluster k { c with reclaiming := some (s.pkg.ticks + 5000) })
       exec .reclaimCluster s = .next ((t.stopUnits (t.clusterUnits k) (some (s.pkg.ticks + 5000)) false).returnCluster k)) ∧
      (let k := s.occ.a
       let left := (s.clusterUnits k).filter (fun u => (s.unit u).stopping)
       ∀ t, (s.cluster k).reclaiming = some t → t ≤ s.pkg.ticks → left.any s.stopsNow = true →
       exec .reclaimDeadline s = .next (left.foldl (fun s u => if s.stopsNow u then s.evictUnit u else s) s)) ∧
      (let p := s.part s.occ.a s.occ.b
       let left := (s.partUnits s.occ.a s.occ.b).filter (fun u => (s.unit u).sliced)
       (p.state = 1 → p.sliceEnd = none → exec .tenantSliceEnd s = .next (s.endSlice s.occ.a s.occ.b)) ∧
       (∀ t, p.sliceEnd = some t → t + 20000 ≤ s.pkg.ticks → left.any s.stopsNow = true →
         exec .sliceLimitExpiry s = .next (left.foldl (fun s u => if s.stopsNow u then s.evictUnit u else s) s)) ∧
       (p.sliceEnd ≠ none → s.partUnits s.occ.a s.occ.b = [] → s.partLeft s.occ.a s.occ.b = true → (s.ctx p.vf).state = .active →
         exec .tenantSliceBegin s = .next (s.beginSlice s.occ.a s.occ.b))))

/-- O58. The management commands with arguments that are right, each written to a CMD register that accepts it: their effects, and RESULT 0; a
code that no command has gives RESULT 1 (22 R425-R430; 01 R21, R42; 10 R252). That an unknown code is judged before the context's state, and
a number of a group that has not ended is a bad argument (log 34), what SHOOTDOWN_COMPLETE waits for and which waits it makes afresh (log
33), and RESYNC's SEQ and address (log 52) are the model's choices. Pausing a running context, whose units stop as at a slice end, and
resuming one under FREEZE: the context's state, and the offset from which its time goes on (22 R425, R428; 08 R211). That RESUME keeps LAST
as a floor is the model's choice (log 34). -/
def Obligations.Commands : Prop :=
  (∀ (s : State), let win := s.occ.win
      let vf := s.winVf win
      let m := s.winMgmt win
      (Accepts s 1 → bits m.arg0.toNat 63 55 = 0 → m.arg0.toNat % 65536 = 0 → m.arg1.toNat % 65536 = 0 → exec .shootdown s = .next (((s.cmdIn 1).modCtx vf (fun c =>
        { c with shoot := c.shoot ++ [{ va := m.arg0.toNat, len := m.arg1.toNat, win }] })).cmdOut win 0 0 true)) ∧
      (∀ r rest, (s.ctx s.occ.a).shoot = r :: rest → s.runHolds s.occ.a r = false → s.accessesLeft s.occ.a r = false → exec .shootdownComplete s =
        .next (((((s.drainCtx s.occ.a).dropTranslations s.occ.a r).rewatchAll s.occ.a r).modCtx s.occ.a (fun c => { c with shoot := rest })).modWin r.win (fun m =>
          { m with cmdstat := 0, result := 0 }))) ∧
      (Accepts s 2 → (m.arg1 = 0 → exec .disposeReplay s = .next (((s.cmdIn 2).dispose vf m.arg0.toNat false).cmdOut win 0 0 false)) ∧
        (m.arg1 = 1 → exec .disposeFail s = .next (((s.cmdIn 2).dispose vf m.arg0.toNat true).cmdOut win 0 0 false))) ∧
      (Accepts s 3 → m.arg0.toNat ≤ 3 → m.arg1.toNat % 65536 = 0 → m.arg1.toNat ≤ 2 ^ 32 →
        (∀ p ∈ s.waves, (s.unit p.2.unit).vf = vf → p.2.cand.isSome = true → p.2.resident = true → dieOf p.2.core ≠ m.arg0.toNat) →
        exec .gallery s = .next (((s.cmdIn 3).modCtx vf (fun c => { c with galWin := tset 0 c.galWin m.arg0.toNat m.arg1.toNat })).cmdOut win 0 0 false)) ∧
      (let n := bits m.arg0.toNat 3 0
       let die := bits m.arg0.toNat 5 4
       let ls := bits m.arg0.toNat 12 8
       let old := tget Namespace.init (s.die die).spaces n
       (Accepts s 4 → bits m.arg0.toNat 63 13 = 0 → bits m.arg0.toNat 7 6 = 0 → ls ≤ 24 → m.arg1.toNat % 65536 = 0 → classFits 0 m.arg1.toNat = true →
         old.active = false → (s.die die).nsEntries + 16 * 2 ^ ls ≤ 2 ^ 28 →
         (let y : Namespace := { vf := vf, logsets := ls, active := true, base := m.arg1.toNat, entries := [], stamp := old.stamp }
          exec .nsnew s = .next (((s.cmdIn 4).modDie die (fun d => { d with spaces := tset Namespace.init d.spaces n y })).cmdOut win 0 0 false))) ∧
       (Accepts s 5 → bits m.arg0.toNat 63 6 = 0 → (old.active = true → old.vf = vf) →
         exec .nsfree s = .next (((s.cmdIn 5).modDie die (fun d => { d with spaces := tset Namespace.init d.spaces n { old with active := false } })).cmdOut win 0 0 false))) ∧
      (let key := groupNumber vf m.arg0
       (∀ ms, Accepts s 6 → bits m.arg0.toNat 63 32 = 0 → tfind? s.pkg.groups key = none → (s.cmdIn 6).memberList vf m.arg1 = some ms →
         let t := (s.cmdIn 6).devUse vf m.arg1 (4 + 4 * ms.length)
         exec .collnew s = .next ((t.setPkg { t.pkg.dropShares key with groups := tins t.pkg.groups key { vf, members := ms, usable := false, round := 0 } }).cmdOut
           win 0 0 false)) ∧
       (∀ g, Accepts s 7 → bits m.arg0.toNat 63 32 = 0 → tfind? s.pkg.groups key = some g →
         exec .collfree s = .next (((s.cmdIn 7).setPkg { s.pkg.dropShares key with groups := tdel s.pkg.groups key }).cmdOut win 0 0 false))) ∧
      (∀ g, tfind? s.pkg.groups s.occ.a = some g → g.usable = false →
        (∀ k ∈ g.members, k.1 = Config.packageNumber → ∃ h, tfind? s.pkg.groups (k.2 * 2 ^ 32 + s.occ.a % 2 ^ 32) = some h ∧ h.members = g.members) →
        ∃ t, exec .collectiveGroupUsable s = .next t ∧ ∃ h, tfind? t.pkg.groups s.occ.a = some h ∧ h.usable = true ∧ h.members = g.members) ∧
      (Accepts s 8 → (s.ctx vf).state = .paused → exec .pause s = .next ((s.cmdIn 8).cmdOut win 0 0 false)) ∧
      (Accepts s 9 → (s.ctx vf).state = .active → exec .resume s = .next ((s.cmdIn 9).cmdOut win 0 0 false)) ∧
      (Accepts s 10 → let t := (s.cmdIn 10).modCtx vf (fun c => { c with lastTime := max c.lastTime m.arg0.toNat })
        exec .migin s = .next ((t.modCtx vf (fun c => { c with mgmt := { c.mgmt with toffset := t.toffsetFor vf c.mgmt.toffset.toInt } })).cmdOut win 0 0 false)) ∧
      (Accepts s 11 → m.arg0.toNat % 4096 = 0 → let r := (s.cmdIn 11).resyncRecord (match win with
          | .vf n => some n
          | .pf => none)
        exec .resync s = .next ((r.2.hostStore (locPA 4 (s.occ.a * 2 ^ 43 + m.arg0.toNat % 2 ^ 43)) r.1).cmdOut win 0
          (zext64 (r.2.hostStore (locPA 4 (s.occ.a * 2 ^ 43 + m.arg0.toNat % 2 ^ 43)) r.1).pkg.resyncSeq) false)) ∧
      (Accepts s 12 → exec .teardown s = .next (((s.cmdIn 12).teardown vf 1).cmdOut win 0 0 false)) ∧
      (384 ≤ s.occ.a → s.occ.a < 512 → vf < 1024 → m.cmdstat.getLsbD 31 = false →
        (win = .pf → (s.ctx vf).state ≠ .torn →
          (∀ v, (s.ctx vf).mgmt.get s.pf.arg0.toNat = some v → exec .pfread s = .next ((s.cmdIn 14).cmdOut .pf 0 v false)) ∧
          (∀ t, pRegister s.pf.arg0.toNat = true → (s.cmdIn 15).regPut vf s.pf.arg0.toNat s.pf.arg1 = some t →
            exec .pfwrite s = .next (t.cmdOut .pf 0 0 false))) ∧
        (s.occ.b = 0 ∨ 16 ≤ s.occ.b → exec .cmdUnknown s = .next ((s.cmdIn s.occ.b).cmdOut win 1 0 false)))) ∧
  (∀ (s : State), let vf := s.winVf s.occ.win
      (Accepts s 8 → (s.ctx vf).state = .active → s.partsOf vf = [] → ∃ t, exec .pause s = .next t ∧ (t.ctx vf).state = .paused ∧
        (t.ctx vf).pausedAt = (if (s.ctx vf).mgmt.tpolicy.getLsbD 0 then some (s.timens vf).toNat else none) ∧ SameBytes s t) ∧
      (Accepts s 8 → (s.ctx vf).state = .active →
        let p := (s.cmdIn 8).modCtx vf (fun c =>
          { c with state := .paused, pausedAt := if (s.ctx vf).mgmt.tpolicy.getLsbD 0 then some (s.timens vf).toNat else none })
        exec .pause s = .next (((s.partsOf vf).foldl (fun t q =>
          if (t.part q.1 q.2).state = 1 ∧ (t.part q.1 q.2).sliceEnd = none then t.endSlice q.1 q.2 else t) p).cmdOut s.occ.win 0 0 false)) ∧
      (∀ die e, (∀ c ∈ s.partCores die e, ∀ y ∈ s.units, y.2.core = c → s.unbegun c y.2 = false) →
        s.endSlice die e = (s.modPart die e (fun p => { p with sliceEnd := some s.pkg.ticks })).stopUnits
          ((s.modPart die e (fun p => { p with sliceEnd := some s.pkg.ticks })).partUnits die e) (some (s.pkg.ticks + 20000)) true) ∧
      (∀ us d u, u ∈ us → (s.unit u).group = none → (s.unit u).released = false → (s.unit u).saved = none →
        let x := (s.stopUnits us (some d) true).unit u
        x.stopping = true ∧ x.sliced = true ∧ x.waves = (s.unit u).waves ∧ ∃ y, x.stopDeadline = some y ∧ y ≤ d) ∧
      (Accepts s 9 → (s.ctx vf).state = .paused → ∃ t, exec .resume s = .next t ∧ (t.ctx vf).state = .active ∧ (t.ctx vf).pausedAt = none ∧
        SameBytes s t ∧ (t.ctx vf).mgmt.toffset = match (s.ctx vf).pausedAt with
          | none => (s.ctx vf).mgmt.toffset
          | some v => BitVec.ofInt 64 ((max v (s.ctx vf).lastTime : Nat) + 10 - 10 * ((s.pkg.ticks : Int) + 1))))

/-- O59. Resets by command and by the side band, and the side band's other requests (22 R430-R432; 09 R232; 08 R201). FWACT's judging and
storing of an image (log 21), that a handoff marks its scheduler core down (log 52), and the targets and sides of the resets (log 29) are
the model's choices. Flit replays and links: a replay counts in the port's REPLAYS, the ninth of one flit is none and the link goes down,
training brings it up; a failed Mezzanine port's units go offline; a clause flag clears (22 R421; 02 R48; 12 R273). That a port failure is
an event where the package has Mezzanine units only is the model's reading (log 27). -/
def Obligations.ResetsAndSideBand : Prop :=
  (∀ (s : State), let win := s.occ.win
      let m := s.winMgmt win
      let tg := m.arg1.toNat
      (Accepts s 13 → s.occ.c ≠ 1 →
        (m.arg0 = 0 → tg < 64 → (s.part (tg / 16) (tg % 16)).state = 1 →
          exec .resetPartition s = .next (((s.cmdIn 13).resetPart (tg / 16) (tg % 16)).cmdOut win 0 0 false)) ∧
        (m.arg0 = 1 → tg < 8192 → exec .resetEngine s = .next (((s.cmdIn 13).resetEng (tg / 8) (tg % 8)).cmdOut win 0 0 false)) ∧
        (m.arg0 = 2 → tg < 32 → exec .resetLink s = .next (((s.cmdIn 13).resetPort tg).cmdOut win 0 0 false)) ∧
        (m.arg0 = 3 → exec .resetPackage s = .next (s.cmdIn 13).resetAll)) ∧
      (s.occ.c = 1 →
        (s.occ.b < 64 → (s.part (s.occ.b / 16) (s.occ.b % 16)).state = 1 →
          exec .resetPartition s = .next ((s.resetPart (s.occ.b / 16) (s.occ.b % 16)).respond 0 [])) ∧
        (s.occ.b < 8192 → exec .resetEngine s = .next ((s.resetEng (s.occ.b / 8) (s.occ.b % 8)).respond 0 [])) ∧
        (s.occ.b < 32 → exec .resetLink s = .next ((s.resetPort s.occ.b).respond 0 [])) ∧
        (exec .resetPackage s = .next (s.resetAll.respond 0 []))) ∧
      (s.occ.a = 0 → let r := s.resyncRecord none
        exec .sbResync s = .next ((r.2.setPkg { r.2.pkg with sideBand := r.1 }).respond 0 (r.1.take 64)) ∧ r.1.length = 4096 ∧
        r.2.pkg.resyncSeq = s.pkg.resyncSeq + 1 ∧ fieldAt r.1 0 2 = 1 ∧ fieldAt r.1 2 2 = Config.packageNumber % 65536 ∧
        fieldAt r.1 4 4 = (s.pkg.resyncSeq + 1).toNat ∧ fieldAt r.1 8 8 = 10 * s.pkg.ticks % 2 ^ 64) ∧
      (0 < s.occ.a → s.occ.a < 64 → exec .sbResync s = .next (s.respond 0 ((s.pkg.sideBand.drop (64 * s.occ.a)).take 64))) ∧
      (s.occ.a < 1024 → (s.ctx s.occ.a).state ≠ .torn → exec .sbTeardown s = .next ((s.teardown s.occ.a 1).respond 0 [])) ∧
      (∀ off bytes, bytes.length ≤ 56 → s.pkg.handoff ≠ 2 → exec (.fwstage off bytes) s = .next ((s.setPkg { s.pkg with
        handoff := 1, staged := ((List.range bytes.length).zip bytes).foldl (fun m (p : Nat × Byte) => tins m (off + p.1) p.2) s.pkg.staged }).respond 0 [])) ∧
      (let img := s.pkg.stagedImage
       s.pkg.handoff = 1 → (Config.authentic img = true → exec .fwact s = .next ((s.setPkg { s.pkg with
         image := Config.imageVersion img, digest := Config.sha384 img, handoff := 2, nextHandoff := 0, staged := [] }).respond 0 [])) ∧
         (Config.authentic img = false → exec .fwact s = .next (s.respond 1 []))) ∧
      (let die := s.occ.a
       s.pkg.handoff = 2 → die = s.pkg.nextHandoff → die < 4 → ∃ t, exec .schedulerHandoff s = .next t ∧
         (t.die die).schedVer = s.pkg.image ∧ (t.die die).schedDown = true ∧ t.pkg.nextHandoff = die + 1 ∧ t.pkg.handoff = (if die = 3 then 0 else 2)) ∧
      (s.occ.a < 256 → s.occ.b < 3 → (s.cluster s.occ.a).sensors.length = 3 → ∃ t, exec .sensclr s = .next t ∧
        (((t.cluster s.occ.a).sensors.getD s.occ.b Sensor.init).voted = false) ∧ (t.cluster s.occ.a).sensors.length = 3 ∧
        ∀ j, j < 3 → j ≠ s.occ.b → (t.cluster s.occ.a).sensors.getD j Sensor.init = (s.cluster s.occ.a).sensors.getD j Sensor.init)) ∧
  (∀ (s : State), let port := s.occ.a
      let l := tget Link.init s.pkg.links port
      let put := fun (x : Link) => s.setPkg { s.pkg with links := tset Link.init s.pkg.links port x }
      (port < 32 →
        (l.state = 2 → s.occ.b = 1 → l.attempts < 8 →
          exec .flitCrcFail s = .next (put { l with replays := l.replays + 1, attempts := l.attempts + 1 }) ∧
          exec .flitAckTimeout s = .next (put { l with replays := l.replays + 1, attempts := l.attempts + 1 })) ∧
        (l.state = 2 → s.occ.b ≠ 1 →
          exec .flitCrcFail s = .next (put { l with replays := l.replays + 1, attempts := 1 }) ∧
          exec .flitAckTimeout s = .next (put { l with replays := l.replays + 1, attempts := 1 })) ∧
        (l.attempts = 8 → exec .linkDown s = .next (put { l with state := 0, attempts := 0 })) ∧
        (l.state ≠ 2 → s.occ.b < 512 → s.occ.c < 32 →
          exec .linkUp s = .next (put { l with state := 2, peer := s.occ.b, peerPort := s.occ.c, attempts := 0 }))) ∧
      (port < 8 → s.pkg.moduleMemory = false → ∃ t, exec .mezzaninePortFail s = .next t ∧ t.pkg.mezzOff.testBit port = true ∧
        ∀ k, k ≠ port → t.pkg.mezzOff.testBit k = s.pkg.mezzOff.testBit k) ∧
      (s.occ.b < 12 → tget 0 (s.wave s.occ.a).flags s.occ.b ≠ 0 → s.cur = none →
        (∀ l ∈ lanesOf (s.wave s.occ.a).live, ((s.wave s.occ.a).lane l).flag = s.occ.b → ((s.wave s.occ.a).lane l).writing = false) → ∃ t, exec .clauseFlagClear s = .next t ∧ OnlyWave s t s.occ.a ∧
        SameRegs (s.wave s.occ.a) (t.wave s.occ.a) (.m 0) 0 ∧ tget 0 (t.wave s.occ.a).flags s.occ.b = 0 ∧
        ∀ k, k ≠ s.occ.b → tget 0 (t.wave s.occ.a).flags k = tget 0 (s.wave s.occ.a).flags k))

/-- O60. Power: the boost interval, step and budget, boost and current grants, rails, the meter and its throttle, and temperature (21 R407-R418,
R420). The model's own are equal shares of a partition's metered power, which clusters are neighbours and the median of their temperatures,
that a sample that votes a sensor out keeps the temperature, and the list of notices (log 35), and how intervals restart (log 67). -/
def Obligations.Power : Prop :=
  ∀ (s : State), let k := s.occ.a
    let c := s.cluster k
    let now := s.pkg.ticks
    let clock := fun (f : ClusterSt → ClusterSt) => s.setCluster k ((f c).reclock now (s.idleCluster k) (s.matrixHeld k))
    (k < 256 → c.intervalAt + 500 ≤ now →
      let held := s.units.any (fun p => clusterOf p.2.core = k && (p.2.ctx 7).ops.any (fun o => o.reserved))
      let y := { c with intervalAt := c.intervalAt + 500, matrixHeavy := c.matrixSeen, matrixSeen := held, boostSeen := false }
      (c.boostSeen = true → c.permits = 1 → exec .boostIntervalEnd s =
        .next (clock (fun _ => { y with permits := 0, denied := true, stepDue := some (now + 200), stepCap := min 1800 c.mhz }))) ∧
      (c.boostSeen = true → 1 < c.permits → exec .boostIntervalEnd s = .next (clock (fun _ => { y with permits := c.permits - 1 }))) ∧
      (c.boostSeen = false ∨ c.permits = 0 → exec .boostIntervalEnd s = .next (clock (fun _ => y)))) ∧
    (∀ t, c.stepDue = some t → t ≤ now → exec .boostStepdown s = .next (clock (fun c => { c with stepDue := none }))) ∧
    (k < 256 → c.mhz ≤ 1600 → c.permits < 64 → c.refillFrom + 2000 ≤ now → exec .permitRefill s = .next (clock (fun c =>
      { c with permits := c.permits + 1, refillFrom := c.refillFrom + 2000, denied := c.denied && c.permits + 1 < 4 }))) ∧
    (s.occ.c ≠ 1 → k < 256 → c.switching = false → c.railHigh ≠ (s.occ.b = 1) → s.wantsHigh k = (s.occ.b = 1) →
      exec .railSwitch s = .next (s.setCluster k { c.runAt now (min c.mhz 1200) with switching := true, switchHigh := s.occ.b = 1, switchAt := now })) ∧
    (s.occ.c = 1 → c.switching = true → exec .railSwitch s = .next (clock (fun c => { c with switching := false, railHigh := c.switchHigh }))) ∧
    (∀ r rest, c.requests = r :: rest → r.units ≤ c.unitsFree → c.switching = false → s.clusterRuns k = true → exec .currentReservationGrant s = .next ((s.setCluster k { c with
      requests := rest, unitsFree := c.unitsFree - r.units, matrixSeen := c.matrixSeen || r.who.isMatrix }).grantTo r.who)) ∧
    (∀ j t, let asks := s.clusters.filterMap (fun p => if p.1 / 64 = s.occ.a && !p.2.granted then p.2.requestedAt.map (fun t => (t, p.1)) else none)
      (t, j) ∈ asks → (∀ p ∈ asks, t < p.1 ∨ (t = p.1 ∧ j ≤ p.2)) →
      (s.dieCurrent s.occ.a < (s.die s.occ.a).boostLimit → exec .boostGrant s = .next (s.setCluster j
        ({ s.cluster j with granted := true }.reclock now (s.idleCluster j) (s.matrixHeld j)))) ∧
      ((s.die s.occ.a).boostLimit ≤ s.dieCurrent s.occ.a → exec .boostGrant s = .refused (.notEnabled "BOOST_GRANT"))) ∧
    (let p := s.part s.occ.a s.occ.b
     let ks := ((s.partCores s.occ.a s.occ.b).map clusterOf).eraseDups
     (p.state = 1 → p.sampleAt + 100 ≤ now → exec .meterSample s = .next (ks.foldl (fun t k => t.modCluster k (fun c =>
       c.metered now (s.occ.c / max 1 ks.length))) (s.modPart s.occ.a s.occ.b (fun p => { p with samples := (now, s.occ.c) :: p.recent now, sampleAt := now })))) ∧
     ((∀ x ∈ p.samples, x.1 + 1000 ≤ now) → exec .throttleStep s = .refused (.notEnabled "THROTTLE_STEP")) ∧
     (∀ x, p.state = 1 → p.mean now = some x → p.throttleAt + 1000 ≤ now →
       (1000 * p.watts < x → (∃ k ∈ ks, 800 < (s.cluster k).throttleMhz) →
         exec .throttleStep s = .next (ks.foldl (fun t k => t.modClock k (fun c => { c with throttleMhz := max 800 (min c.throttleMhz c.mhz - 100) }))
           (s.modPart s.occ.a s.occ.b (fun p => { p with throttleAt := now })))) ∧
       (100 * x < 95 * (1000 * p.watts) → (∃ k ∈ ks, (s.cluster k).throttleMhz < 2000) →
         exec .throttleStep s = .next (ks.foldl (fun t k => t.modClock k (fun c => { c with throttleMhz := min 2000 (c.throttleMhz + 100) }))
           (s.modPart s.occ.a s.occ.b (fun p => { p with throttleAt := now })))))) ∧
    (∀ t0 t1 t2, k < 256 →
      let xs := (c.sensors.zip [t0, t1, t2]).map (fun (p : Sensor × Int) =>
        p.1.sample now ((keepWindow now c.powers).map (·.2)) (median (s.neighbours k)) p.2)
      ∃ t, exec (.sensorSample k t0 t1 t2) s = .next t ∧ SameBytes s t ∧ t.waves = s.waves ∧ (t.cluster k).sensors = xs ∧
        (t.cluster k).temp = (if (c.sensors.zip xs).any (fun p => p.1.voted != p.2.voted) then c.temp else decideTemp xs) ∧
        t.pkg.hotNotices = (if (t.cluster k).temp.any (11000 ≤ ·) && !c.temp.any (11000 ≤ ·) then s.pkg.hotNotices ++ [k] else s.pkg.hotNotices)) ∧
    (∀ t, c.temp = some t → k < 256 → c.pinned = false →
      (10000 ≤ t → t < 11000 → c.thermalAt + 1000 ≤ now → 800 < c.thermalMhz →
        exec .thermalStep s = .next (clock (fun c => { c with hot := true, thermalAt := now, thermalMhz := max 800 (min c.thermalMhz c.mhz - 100) }))) ∧
      (t < 9500 → c.hot = true → exec .thermalStep s = .next (clock (fun c => { c with hot := false, thermalMhz := 2000 }))))
end

