-- ==== Sys2Proof/Laws/Table.lean ====
section
/-! SUPPORT. Tables with a default: a read after a write, and the folds that write several keys. -/
namespace Sys2Proof

variable {β : Type}

theorem tfind?_tins_same (m : SMap β) (x : Nat) (v : β) : tfind? (tins m x v) x = some v := by
  induction m with
  | nil => simp [tins, tfind?]
  | cons p t ih =>
    obtain ⟨k, w⟩ := p
    simp only [tins]
    split
    · simp [tfind?]
    · split
      · simp [tfind?]
      · rename_i h1 h2
        simp [tfind?, ih, Ne.symm h2]

theorem tfind?_tins_ne (m : SMap β) (x y : Nat) (v : β) (h : y ≠ x) : tfind? (tins m x v) y = tfind? m y := by
  induction m with
  | nil => simp [tins, tfind?, Ne.symm h]
  | cons p t ih =>
    obtain ⟨k, w⟩ := p
    simp only [tins]
    split
    · simp [tfind?, Ne.symm h]
    · split
      · rename_i h1 h2
        subst h2
        simp [tfind?, Ne.symm h]
      · simp only [tfind?, ih]

theorem tfind?_tdel_same (m : SMap β) (x : Nat) : tfind? (tdel m x) x = none := by
  induction m with
  | nil => simp [tdel, tfind?]
  | cons p t ih =>
    obtain ⟨k, w⟩ := p
    simp only [tdel]
    split
    · exact ih
    · rename_i h
      simp [tfind?, ih, h]

theorem tfind?_tdel_ne (m : SMap β) (x y : Nat) (h : y ≠ x) : tfind? (tdel m x) y = tfind? m y := by
  induction m with
  | nil => simp [tdel, tfind?]
  | cons p t ih =>
    obtain ⟨k, w⟩ := p
    simp only [tdel]
    split
    · rename_i hk
      subst hk
      simp [tfind?, ih, Ne.symm h]
    · simp only [tfind?, ih]

theorem tget_tins_same (d : β) (m : SMap β) (x : Nat) (v : β) : tget d (tins m x v) x = v := by
  simp [tget, tfind?_tins_same]

theorem tget_tins_ne (d : β) (m : SMap β) (x y : Nat) (v : β) (h : y ≠ x) : tget d (tins m x v) y = tget d m y := by
  simp [tget, tfind?_tins_ne m x y v h]

theorem tget_tset_same [DecidableEq β] (d : β) (m : SMap β) (x : Nat) (v : β) : tget d (tset d m x v) x = v := by
  unfold tset
  split
  · simp_all [tget, tfind?_tdel_same]
  · exact tget_tins_same d m x v

theorem tget_tset_ne [DecidableEq β] (d : β) (m : SMap β) (x y : Nat) (v : β) (h : y ≠ x) :
    tget d (tset d m x v) y = tget d m y := by
  unfold tset
  split
  · simp [tget, tfind?_tdel_ne m x y h]
  · exact tget_tins_ne d m x y v h

end Sys2Proof
end

