-- ==== Sys2Proof/Laws/State.lean ====
section
/-! SUPPORT. One lemma per field per update of the state, of a wave and of a lane, and what each read by name gives after a write by name. -/
namespace Sys2Proof.Machine

@[simp] theorem State.setWave_mem (s : State) (w : Nat) (x : Wave) : (s.setWave w x).mem = s.mem := rfl
@[simp] theorem State.setWave_rels (s : State) (w : Nat) (x : Wave) : (s.setWave w x).rels = s.rels := rfl
@[simp] theorem State.setWave_units (s : State) (w : Nat) (x : Wave) : (s.setWave w x).units = s.units := rfl
@[simp] theorem State.setWave_launches (s : State) (w : Nat) (x : Wave) : (s.setWave w x).launches = s.launches := rfl
@[simp] theorem State.setWave_frames (s : State) (w : Nat) (x : Wave) : (s.setWave w x).frames = s.frames := rfl
@[simp] theorem State.setWave_held (s : State) (w : Nat) (x : Wave) : (s.setWave w x).held = s.held := rfl
@[simp] theorem State.setWave_ctxs (s : State) (w : Nat) (x : Wave) : (s.setWave w x).ctxs = s.ctxs := rfl
@[simp] theorem State.setWave_pf (s : State) (w : Nat) (x : Wave) : (s.setWave w x).pf = s.pf := rfl
@[simp] theorem State.setWave_cores (s : State) (w : Nat) (x : Wave) : (s.setWave w x).cores = s.cores := rfl
@[simp] theorem State.setWave_clusters (s : State) (w : Nat) (x : Wave) : (s.setWave w x).clusters = s.clusters := rfl
@[simp] theorem State.setWave_dies (s : State) (w : Nat) (x : Wave) : (s.setWave w x).dies = s.dies := rfl
@[simp] theorem State.setWave_pkg (s : State) (w : Nat) (x : Wave) : (s.setWave w x).pkg = s.pkg := rfl
@[simp] theorem State.setWave_agenda (s : State) (w : Nat) (x : Wave) : (s.setWave w x).agenda = s.agenda := rfl
@[simp] theorem State.setWave_occ (s : State) (w : Nat) (x : Wave) : (s.setWave w x).occ = s.occ := rfl
@[simp] theorem State.setWave_cur (s : State) (w : Nat) (x : Wave) : (s.setWave w x).cur = s.cur := rfl
@[simp] theorem State.setWave_opp (s : State) (w : Nat) (x : Wave) : (s.setWave w x).opp = s.opp := rfl
@[simp] theorem State.setWave_fresh (s : State) (w : Nat) (x : Wave) : (s.setWave w x).fresh = s.fresh := rfl
@[simp] theorem State.setWave_passed (s : State) (w : Nat) (x : Wave) : (s.setWave w x).passed = s.passed := rfl
@[simp] theorem State.setWave_spilled (s : State) (w : Nat) (x : Wave) : (s.setWave w x).spilled = s.spilled := rfl
@[simp] theorem State.setWave_breaks (s : State) (w : Nat) (x : Wave) : (s.setWave w x).breaks = s.breaks := rfl
@[simp] theorem State.setWave_failed (s : State) (w : Nat) (x : Wave) : (s.setWave w x).failed = s.failed := rfl
@[simp] theorem State.setWave_nextId (s : State) (w : Nat) (x : Wave) : (s.setWave w x).nextId = s.nextId := rfl

@[simp] theorem State.setUnit_mem (s : State) (u : Nat) (x : UnitSt) : (s.setUnit u x).mem = s.mem := rfl
@[simp] theorem State.setUnit_rels (s : State) (u : Nat) (x : UnitSt) : (s.setUnit u x).rels = s.rels := rfl
@[simp] theorem State.setUnit_waves (s : State) (u : Nat) (x : UnitSt) : (s.setUnit u x).waves = s.waves := rfl
@[simp] theorem State.setUnit_launches (s : State) (u : Nat) (x : UnitSt) : (s.setUnit u x).launches = s.launches := rfl
@[simp] theorem State.setUnit_frames (s : State) (u : Nat) (x : UnitSt) : (s.setUnit u x).frames = s.frames := rfl
@[simp] theorem State.setUnit_held (s : State) (u : Nat) (x : UnitSt) : (s.setUnit u x).held = s.held := rfl
@[simp] theorem State.setUnit_ctxs (s : State) (u : Nat) (x : UnitSt) : (s.setUnit u x).ctxs = s.ctxs := rfl
@[simp] theorem State.setUnit_pf (s : State) (u : Nat) (x : UnitSt) : (s.setUnit u x).pf = s.pf := rfl
@[simp] theorem State.setUnit_cores (s : State) (u : Nat) (x : UnitSt) : (s.setUnit u x).cores = s.cores := rfl
@[simp] theorem State.setUnit_clusters (s : State) (u : Nat) (x : UnitSt) : (s.setUnit u x).clusters = s.clusters := rfl
@[simp] theorem State.setUnit_dies (s : State) (u : Nat) (x : UnitSt) : (s.setUnit u x).dies = s.dies := rfl
@[simp] theorem State.setUnit_pkg (s : State) (u : Nat) (x : UnitSt) : (s.setUnit u x).pkg = s.pkg := rfl
@[simp] theorem State.setUnit_agenda (s : State) (u : Nat) (x : UnitSt) : (s.setUnit u x).agenda = s.agenda := rfl
@[simp] theorem State.setUnit_occ (s : State) (u : Nat) (x : UnitSt) : (s.setUnit u x).occ = s.occ := rfl
@[simp] theorem State.setUnit_cur (s : State) (u : Nat) (x : UnitSt) : (s.setUnit u x).cur = s.cur := rfl
@[simp] theorem State.setUnit_opp (s : State) (u : Nat) (x : UnitSt) : (s.setUnit u x).opp = s.opp := rfl
@[simp] theorem State.setUnit_fresh (s : State) (u : Nat) (x : UnitSt) : (s.setUnit u x).fresh = s.fresh := rfl
@[simp] theorem State.setUnit_passed (s : State) (u : Nat) (x : UnitSt) : (s.setUnit u x).passed = s.passed := rfl
@[simp] theorem State.setUnit_spilled (s : State) (u : Nat) (x : UnitSt) : (s.setUnit u x).spilled = s.spilled := rfl
@[simp] theorem State.setUnit_breaks (s : State) (u : Nat) (x : UnitSt) : (s.setUnit u x).breaks = s.breaks := rfl
@[simp] theorem State.setUnit_failed (s : State) (u : Nat) (x : UnitSt) : (s.setUnit u x).failed = s.failed := rfl
@[simp] theorem State.setUnit_nextId (s : State) (u : Nat) (x : UnitSt) : (s.setUnit u x).nextId = s.nextId := rfl

@[simp] theorem State.setLaunch_mem (s : State) (n : Nat) (x : Launch) : (s.setLaunch n x).mem = s.mem := rfl
@[simp] theorem State.setLaunch_rels (s : State) (n : Nat) (x : Launch) : (s.setLaunch n x).rels = s.rels := rfl
@[simp] theorem State.setLaunch_waves (s : State) (n : Nat) (x : Launch) : (s.setLaunch n x).waves = s.waves := rfl
@[simp] theorem State.setLaunch_units (s : State) (n : Nat) (x : Launch) : (s.setLaunch n x).units = s.units := rfl
@[simp] theorem State.setLaunch_frames (s : State) (n : Nat) (x : Launch) : (s.setLaunch n x).frames = s.frames := rfl
@[simp] theorem State.setLaunch_held (s : State) (n : Nat) (x : Launch) : (s.setLaunch n x).held = s.held := rfl
@[simp] theorem State.setLaunch_ctxs (s : State) (n : Nat) (x : Launch) : (s.setLaunch n x).ctxs = s.ctxs := rfl
@[simp] theorem State.setLaunch_pf (s : State) (n : Nat) (x : Launch) : (s.setLaunch n x).pf = s.pf := rfl
@[simp] theorem State.setLaunch_cores (s : State) (n : Nat) (x : Launch) : (s.setLaunch n x).cores = s.cores := rfl
@[simp] theorem State.setLaunch_clusters (s : State) (n : Nat) (x : Launch) : (s.setLaunch n x).clusters = s.clusters := rfl
@[simp] theorem State.setLaunch_dies (s : State) (n : Nat) (x : Launch) : (s.setLaunch n x).dies = s.dies := rfl
@[simp] theorem State.setLaunch_pkg (s : State) (n : Nat) (x : Launch) : (s.setLaunch n x).pkg = s.pkg := rfl
@[simp] theorem State.setLaunch_agenda (s : State) (n : Nat) (x : Launch) : (s.setLaunch n x).agenda = s.agenda := rfl
@[simp] theorem State.setLaunch_occ (s : State) (n : Nat) (x : Launch) : (s.setLaunch n x).occ = s.occ := rfl
@[simp] theorem State.setLaunch_cur (s : State) (n : Nat) (x : Launch) : (s.setLaunch n x).cur = s.cur := rfl
@[simp] theorem State.setLaunch_opp (s : State) (n : Nat) (x : Launch) : (s.setLaunch n x).opp = s.opp := rfl
@[simp] theorem State.setLaunch_fresh (s : State) (n : Nat) (x : Launch) : (s.setLaunch n x).fresh = s.fresh := rfl
@[simp] theorem State.setLaunch_passed (s : State) (n : Nat) (x : Launch) : (s.setLaunch n x).passed = s.passed := rfl
@[simp] theorem State.setLaunch_spilled (s : State) (n : Nat) (x : Launch) : (s.setLaunch n x).spilled = s.spilled := rfl
@[simp] theorem State.setLaunch_breaks (s : State) (n : Nat) (x : Launch) : (s.setLaunch n x).breaks = s.breaks := rfl
@[simp] theorem State.setLaunch_failed (s : State) (n : Nat) (x : Launch) : (s.setLaunch n x).failed = s.failed := rfl
@[simp] theorem State.setLaunch_nextId (s : State) (n : Nat) (x : Launch) : (s.setLaunch n x).nextId = s.nextId := rfl

@[simp] theorem State.setCtx_mem (s : State) (v : Nat) (x : Ctx) : (s.setCtx v x).mem = s.mem := rfl
@[simp] theorem State.setCtx_rels (s : State) (v : Nat) (x : Ctx) : (s.setCtx v x).rels = s.rels := rfl
@[simp] theorem State.setCtx_waves (s : State) (v : Nat) (x : Ctx) : (s.setCtx v x).waves = s.waves := rfl
@[simp] theorem State.setCtx_units (s : State) (v : Nat) (x : Ctx) : (s.setCtx v x).units = s.units := rfl
@[simp] theorem State.setCtx_launches (s : State) (v : Nat) (x : Ctx) : (s.setCtx v x).launches = s.launches := rfl
@[simp] theorem State.setCtx_frames (s : State) (v : Nat) (x : Ctx) : (s.setCtx v x).frames = s.frames := rfl
@[simp] theorem State.setCtx_held (s : State) (v : Nat) (x : Ctx) : (s.setCtx v x).held = s.held := rfl
@[simp] theorem State.setCtx_pf (s : State) (v : Nat) (x : Ctx) : (s.setCtx v x).pf = s.pf := rfl
@[simp] theorem State.setCtx_cores (s : State) (v : Nat) (x : Ctx) : (s.setCtx v x).cores = s.cores := rfl
@[simp] theorem State.setCtx_clusters (s : State) (v : Nat) (x : Ctx) : (s.setCtx v x).clusters = s.clusters := rfl
@[simp] theorem State.setCtx_dies (s : State) (v : Nat) (x : Ctx) : (s.setCtx v x).dies = s.dies := rfl
@[simp] theorem State.setCtx_pkg (s : State) (v : Nat) (x : Ctx) : (s.setCtx v x).pkg = s.pkg := rfl
@[simp] theorem State.setCtx_agenda (s : State) (v : Nat) (x : Ctx) : (s.setCtx v x).agenda = s.agenda := rfl
@[simp] theorem State.setCtx_occ (s : State) (v : Nat) (x : Ctx) : (s.setCtx v x).occ = s.occ := rfl
@[simp] theorem State.setCtx_cur (s : State) (v : Nat) (x : Ctx) : (s.setCtx v x).cur = s.cur := rfl
@[simp] theorem State.setCtx_opp (s : State) (v : Nat) (x : Ctx) : (s.setCtx v x).opp = s.opp := rfl
@[simp] theorem State.setCtx_fresh (s : State) (v : Nat) (x : Ctx) : (s.setCtx v x).fresh = s.fresh := rfl
@[simp] theorem State.setCtx_passed (s : State) (v : Nat) (x : Ctx) : (s.setCtx v x).passed = s.passed := rfl
@[simp] theorem State.setCtx_spilled (s : State) (v : Nat) (x : Ctx) : (s.setCtx v x).spilled = s.spilled := rfl
@[simp] theorem State.setCtx_breaks (s : State) (v : Nat) (x : Ctx) : (s.setCtx v x).breaks = s.breaks := rfl
@[simp] theorem State.setCtx_failed (s : State) (v : Nat) (x : Ctx) : (s.setCtx v x).failed = s.failed := rfl
@[simp] theorem State.setCtx_nextId (s : State) (v : Nat) (x : Ctx) : (s.setCtx v x).nextId = s.nextId := rfl

@[simp] theorem State.setCore_mem (s : State) (k : Nat) (x : CoreSt) : (s.setCore k x).mem = s.mem := rfl
@[simp] theorem State.setCore_rels (s : State) (k : Nat) (x : CoreSt) : (s.setCore k x).rels = s.rels := rfl
@[simp] theorem State.setCore_waves (s : State) (k : Nat) (x : CoreSt) : (s.setCore k x).waves = s.waves := rfl
@[simp] theorem State.setCore_units (s : State) (k : Nat) (x : CoreSt) : (s.setCore k x).units = s.units := rfl
@[simp] theorem State.setCore_launches (s : State) (k : Nat) (x : CoreSt) : (s.setCore k x).launches = s.launches := rfl
@[simp] theorem State.setCore_frames (s : State) (k : Nat) (x : CoreSt) : (s.setCore k x).frames = s.frames := rfl
@[simp] theorem State.setCore_held (s : State) (k : Nat) (x : CoreSt) : (s.setCore k x).held = s.held := rfl
@[simp] theorem State.setCore_ctxs (s : State) (k : Nat) (x : CoreSt) : (s.setCore k x).ctxs = s.ctxs := rfl
@[simp] theorem State.setCore_pf (s : State) (k : Nat) (x : CoreSt) : (s.setCore k x).pf = s.pf := rfl
@[simp] theorem State.setCore_clusters (s : State) (k : Nat) (x : CoreSt) : (s.setCore k x).clusters = s.clusters := rfl
@[simp] theorem State.setCore_dies (s : State) (k : Nat) (x : CoreSt) : (s.setCore k x).dies = s.dies := rfl
@[simp] theorem State.setCore_pkg (s : State) (k : Nat) (x : CoreSt) : (s.setCore k x).pkg = s.pkg := rfl
@[simp] theorem State.setCore_agenda (s : State) (k : Nat) (x : CoreSt) : (s.setCore k x).agenda = s.agenda := rfl
@[simp] theorem State.setCore_occ (s : State) (k : Nat) (x : CoreSt) : (s.setCore k x).occ = s.occ := rfl
@[simp] theorem State.setCore_cur (s : State) (k : Nat) (x : CoreSt) : (s.setCore k x).cur = s.cur := rfl
@[simp] theorem State.setCore_opp (s : State) (k : Nat) (x : CoreSt) : (s.setCore k x).opp = s.opp := rfl
@[simp] theorem State.setCore_fresh (s : State) (k : Nat) (x : CoreSt) : (s.setCore k x).fresh = s.fresh := rfl
@[simp] theorem State.setCore_passed (s : State) (k : Nat) (x : CoreSt) : (s.setCore k x).passed = s.passed := rfl
@[simp] theorem State.setCore_spilled (s : State) (k : Nat) (x : CoreSt) : (s.setCore k x).spilled = s.spilled := rfl
@[simp] theorem State.setCore_breaks (s : State) (k : Nat) (x : CoreSt) : (s.setCore k x).breaks = s.breaks := rfl
@[simp] theorem State.setCore_failed (s : State) (k : Nat) (x : CoreSt) : (s.setCore k x).failed = s.failed := rfl
@[simp] theorem State.setCore_nextId (s : State) (k : Nat) (x : CoreSt) : (s.setCore k x).nextId = s.nextId := rfl

@[simp] theorem State.setCluster_mem (s : State) (k : Nat) (x : ClusterSt) : (s.setCluster k x).mem = s.mem := rfl
@[simp] theorem State.setCluster_rels (s : State) (k : Nat) (x : ClusterSt) : (s.setCluster k x).rels = s.rels := rfl
@[simp] theorem State.setCluster_waves (s : State) (k : Nat) (x : ClusterSt) : (s.setCluster k x).waves = s.waves := rfl
@[simp] theorem State.setCluster_units (s : State) (k : Nat) (x : ClusterSt) : (s.setCluster k x).units = s.units := rfl
@[simp] theorem State.setCluster_launches (s : State) (k : Nat) (x : ClusterSt) : (s.setCluster k x).launches = s.launches := rfl
@[simp] theorem State.setCluster_frames (s : State) (k : Nat) (x : ClusterSt) : (s.setCluster k x).frames = s.frames := rfl
@[simp] theorem State.setCluster_held (s : State) (k : Nat) (x : ClusterSt) : (s.setCluster k x).held = s.held := rfl
@[simp] theorem State.setCluster_ctxs (s : State) (k : Nat) (x : ClusterSt) : (s.setCluster k x).ctxs = s.ctxs := rfl
@[simp] theorem State.setCluster_pf (s : State) (k : Nat) (x : ClusterSt) : (s.setCluster k x).pf = s.pf := rfl
@[simp] theorem State.setCluster_cores (s : State) (k : Nat) (x : ClusterSt) : (s.setCluster k x).cores = s.cores := rfl
@[simp] theorem State.setCluster_dies (s : State) (k : Nat) (x : ClusterSt) : (s.setCluster k x).dies = s.dies := rfl
@[simp] theorem State.setCluster_pkg (s : State) (k : Nat) (x : ClusterSt) : (s.setCluster k x).pkg = s.pkg := rfl
@[simp] theorem State.setCluster_agenda (s : State) (k : Nat) (x : ClusterSt) : (s.setCluster k x).agenda = s.agenda := rfl
@[simp] theorem State.setCluster_occ (s : State) (k : Nat) (x : ClusterSt) : (s.setCluster k x).occ = s.occ := rfl
@[simp] theorem State.setCluster_cur (s : State) (k : Nat) (x : ClusterSt) : (s.setCluster k x).cur = s.cur := rfl
@[simp] theorem State.setCluster_opp (s : State) (k : Nat) (x : ClusterSt) : (s.setCluster k x).opp = s.opp := rfl
@[simp] theorem State.setCluster_fresh (s : State) (k : Nat) (x : ClusterSt) : (s.setCluster k x).fresh = s.fresh := rfl
@[simp] theorem State.setCluster_passed (s : State) (k : Nat) (x : ClusterSt) : (s.setCluster k x).passed = s.passed := rfl
@[simp] theorem State.setCluster_spilled (s : State) (k : Nat) (x : ClusterSt) : (s.setCluster k x).spilled = s.spilled := rfl
@[simp] theorem State.setCluster_breaks (s : State) (k : Nat) (x : ClusterSt) : (s.setCluster k x).breaks = s.breaks := rfl
@[simp] theorem State.setCluster_failed (s : State) (k : Nat) (x : ClusterSt) : (s.setCluster k x).failed = s.failed := rfl
@[simp] theorem State.setCluster_nextId (s : State) (k : Nat) (x : ClusterSt) : (s.setCluster k x).nextId = s.nextId := rfl

@[simp] theorem State.setDie_mem (s : State) (d : Nat) (x : DieSt) : (s.setDie d x).mem = s.mem := rfl
@[simp] theorem State.setDie_rels (s : State) (d : Nat) (x : DieSt) : (s.setDie d x).rels = s.rels := rfl
@[simp] theorem State.setDie_waves (s : State) (d : Nat) (x : DieSt) : (s.setDie d x).waves = s.waves := rfl
@[simp] theorem State.setDie_units (s : State) (d : Nat) (x : DieSt) : (s.setDie d x).units = s.units := rfl
@[simp] theorem State.setDie_launches (s : State) (d : Nat) (x : DieSt) : (s.setDie d x).launches = s.launches := rfl
@[simp] theorem State.setDie_frames (s : State) (d : Nat) (x : DieSt) : (s.setDie d x).frames = s.frames := rfl
@[simp] theorem State.setDie_held (s : State) (d : Nat) (x : DieSt) : (s.setDie d x).held = s.held := rfl
@[simp] theorem State.setDie_ctxs (s : State) (d : Nat) (x : DieSt) : (s.setDie d x).ctxs = s.ctxs := rfl
@[simp] theorem State.setDie_pf (s : State) (d : Nat) (x : DieSt) : (s.setDie d x).pf = s.pf := rfl
@[simp] theorem State.setDie_cores (s : State) (d : Nat) (x : DieSt) : (s.setDie d x).cores = s.cores := rfl
@[simp] theorem State.setDie_clusters (s : State) (d : Nat) (x : DieSt) : (s.setDie d x).clusters = s.clusters := rfl
@[simp] theorem State.setDie_pkg (s : State) (d : Nat) (x : DieSt) : (s.setDie d x).pkg = s.pkg := rfl
@[simp] theorem State.setDie_agenda (s : State) (d : Nat) (x : DieSt) : (s.setDie d x).agenda = s.agenda := rfl
@[simp] theorem State.setDie_occ (s : State) (d : Nat) (x : DieSt) : (s.setDie d x).occ = s.occ := rfl
@[simp] theorem State.setDie_cur (s : State) (d : Nat) (x : DieSt) : (s.setDie d x).cur = s.cur := rfl
@[simp] theorem State.setDie_opp (s : State) (d : Nat) (x : DieSt) : (s.setDie d x).opp = s.opp := rfl
@[simp] theorem State.setDie_fresh (s : State) (d : Nat) (x : DieSt) : (s.setDie d x).fresh = s.fresh := rfl
@[simp] theorem State.setDie_passed (s : State) (d : Nat) (x : DieSt) : (s.setDie d x).passed = s.passed := rfl
@[simp] theorem State.setDie_spilled (s : State) (d : Nat) (x : DieSt) : (s.setDie d x).spilled = s.spilled := rfl
@[simp] theorem State.setDie_breaks (s : State) (d : Nat) (x : DieSt) : (s.setDie d x).breaks = s.breaks := rfl
@[simp] theorem State.setDie_failed (s : State) (d : Nat) (x : DieSt) : (s.setDie d x).failed = s.failed := rfl
@[simp] theorem State.setDie_nextId (s : State) (d : Nat) (x : DieSt) : (s.setDie d x).nextId = s.nextId := rfl

@[simp] theorem State.setPkg_mem (s : State) (x : Package) : (s.setPkg x).mem = s.mem := rfl
@[simp] theorem State.setPkg_rels (s : State) (x : Package) : (s.setPkg x).rels = s.rels := rfl
@[simp] theorem State.setPkg_waves (s : State) (x : Package) : (s.setPkg x).waves = s.waves := rfl
@[simp] theorem State.setPkg_units (s : State) (x : Package) : (s.setPkg x).units = s.units := rfl
@[simp] theorem State.setPkg_launches (s : State) (x : Package) : (s.setPkg x).launches = s.launches := rfl
@[simp] theorem State.setPkg_frames (s : State) (x : Package) : (s.setPkg x).frames = s.frames := rfl
@[simp] theorem State.setPkg_held (s : State) (x : Package) : (s.setPkg x).held = s.held := rfl
@[simp] theorem State.setPkg_ctxs (s : State) (x : Package) : (s.setPkg x).ctxs = s.ctxs := rfl
@[simp] theorem State.setPkg_pf (s : State) (x : Package) : (s.setPkg x).pf = s.pf := rfl
@[simp] theorem State.setPkg_cores (s : State) (x : Package) : (s.setPkg x).cores = s.cores := rfl
@[simp] theorem State.setPkg_clusters (s : State) (x : Package) : (s.setPkg x).clusters = s.clusters := rfl
@[simp] theorem State.setPkg_dies (s : State) (x : Package) : (s.setPkg x).dies = s.dies := rfl
@[simp] theorem State.setPkg_agenda (s : State) (x : Package) : (s.setPkg x).agenda = s.agenda := rfl
@[simp] theorem State.setPkg_occ (s : State) (x : Package) : (s.setPkg x).occ = s.occ := rfl
@[simp] theorem State.setPkg_cur (s : State) (x : Package) : (s.setPkg x).cur = s.cur := rfl
@[simp] theorem State.setPkg_opp (s : State) (x : Package) : (s.setPkg x).opp = s.opp := rfl
@[simp] theorem State.setPkg_fresh (s : State) (x : Package) : (s.setPkg x).fresh = s.fresh := rfl
@[simp] theorem State.setPkg_passed (s : State) (x : Package) : (s.setPkg x).passed = s.passed := rfl
@[simp] theorem State.setPkg_spilled (s : State) (x : Package) : (s.setPkg x).spilled = s.spilled := rfl
@[simp] theorem State.setPkg_breaks (s : State) (x : Package) : (s.setPkg x).breaks = s.breaks := rfl
@[simp] theorem State.setPkg_failed (s : State) (x : Package) : (s.setPkg x).failed = s.failed := rfl
@[simp] theorem State.setPkg_nextId (s : State) (x : Package) : (s.setPkg x).nextId = s.nextId := rfl

@[simp] theorem State.modWave_mem (s : State) (n : Nat) (f : Wave → Wave) : (s.modWave n f).mem = s.mem := rfl
@[simp] theorem State.modWave_rels (s : State) (n : Nat) (f : Wave → Wave) : (s.modWave n f).rels = s.rels := rfl
@[simp] theorem State.modWave_units (s : State) (n : Nat) (f : Wave → Wave) : (s.modWave n f).units = s.units := rfl
@[simp] theorem State.modWave_launches (s : State) (n : Nat) (f : Wave → Wave) : (s.modWave n f).launches = s.launches := rfl
@[simp] theorem State.modWave_frames (s : State) (n : Nat) (f : Wave → Wave) : (s.modWave n f).frames = s.frames := rfl
@[simp] theorem State.modWave_held (s : State) (n : Nat) (f : Wave → Wave) : (s.modWave n f).held = s.held := rfl
@[simp] theorem State.modWave_ctxs (s : State) (n : Nat) (f : Wave → Wave) : (s.modWave n f).ctxs = s.ctxs := rfl
@[simp] theorem State.modWave_pf (s : State) (n : Nat) (f : Wave → Wave) : (s.modWave n f).pf = s.pf := rfl
@[simp] theorem State.modWave_cores (s : State) (n : Nat) (f : Wave → Wave) : (s.modWave n f).cores = s.cores := rfl
@[simp] theorem State.modWave_clusters (s : State) (n : Nat) (f : Wave → Wave) : (s.modWave n f).clusters = s.clusters := rfl
@[simp] theorem State.modWave_dies (s : State) (n : Nat) (f : Wave → Wave) : (s.modWave n f).dies = s.dies := rfl
@[simp] theorem State.modWave_pkg (s : State) (n : Nat) (f : Wave → Wave) : (s.modWave n f).pkg = s.pkg := rfl
@[simp] theorem State.modWave_agenda (s : State) (n : Nat) (f : Wave → Wave) : (s.modWave n f).agenda = s.agenda := rfl
@[simp] theorem State.modWave_occ (s : State) (n : Nat) (f : Wave → Wave) : (s.modWave n f).occ = s.occ := rfl
@[simp] theorem State.modWave_cur (s : State) (n : Nat) (f : Wave → Wave) : (s.modWave n f).cur = s.cur := rfl
@[simp] theorem State.modWave_opp (s : State) (n : Nat) (f : Wave → Wave) : (s.modWave n f).opp = s.opp := rfl
@[simp] theorem State.modWave_fresh (s : State) (n : Nat) (f : Wave → Wave) : (s.modWave n f).fresh = s.fresh := rfl
@[simp] theorem State.modWave_passed (s : State) (n : Nat) (f : Wave → Wave) : (s.modWave n f).passed = s.passed := rfl
@[simp] theorem State.modWave_spilled (s : State) (n : Nat) (f : Wave → Wave) : (s.modWave n f).spilled = s.spilled := rfl
@[simp] theorem State.modWave_breaks (s : State) (n : Nat) (f : Wave → Wave) : (s.modWave n f).breaks = s.breaks := rfl
@[simp] theorem State.modWave_failed (s : State) (n : Nat) (f : Wave → Wave) : (s.modWave n f).failed = s.failed := rfl
@[simp] theorem State.modWave_nextId (s : State) (n : Nat) (f : Wave → Wave) : (s.modWave n f).nextId = s.nextId := rfl

@[simp] theorem State.modUnit_mem (s : State) (n : Nat) (f : UnitSt → UnitSt) : (s.modUnit n f).mem = s.mem := rfl
@[simp] theorem State.modUnit_rels (s : State) (n : Nat) (f : UnitSt → UnitSt) : (s.modUnit n f).rels = s.rels := rfl
@[simp] theorem State.modUnit_waves (s : State) (n : Nat) (f : UnitSt → UnitSt) : (s.modUnit n f).waves = s.waves := rfl
@[simp] theorem State.modUnit_launches (s : State) (n : Nat) (f : UnitSt → UnitSt) : (s.modUnit n f).launches = s.launches := rfl
@[simp] theorem State.modUnit_frames (s : State) (n : Nat) (f : UnitSt → UnitSt) : (s.modUnit n f).frames = s.frames := rfl
@[simp] theorem State.modUnit_held (s : State) (n : Nat) (f : UnitSt → UnitSt) : (s.modUnit n f).held = s.held := rfl
@[simp] theorem State.modUnit_ctxs (s : State) (n : Nat) (f : UnitSt → UnitSt) : (s.modUnit n f).ctxs = s.ctxs := rfl
@[simp] theorem State.modUnit_pf (s : State) (n : Nat) (f : UnitSt → UnitSt) : (s.modUnit n f).pf = s.pf := rfl
@[simp] theorem State.modUnit_cores (s : State) (n : Nat) (f : UnitSt → UnitSt) : (s.modUnit n f).cores = s.cores := rfl
@[simp] theorem State.modUnit_clusters (s : State) (n : Nat) (f : UnitSt → UnitSt) : (s.modUnit n f).clusters = s.clusters := rfl
@[simp] theorem State.modUnit_dies (s : State) (n : Nat) (f : UnitSt → UnitSt) : (s.modUnit n f).dies = s.dies := rfl
@[simp] theorem State.modUnit_pkg (s : State) (n : Nat) (f : UnitSt → UnitSt) : (s.modUnit n f).pkg = s.pkg := rfl
@[simp] theorem State.modUnit_agenda (s : State) (n : Nat) (f : UnitSt → UnitSt) : (s.modUnit n f).agenda = s.agenda := rfl
@[simp] theorem State.modUnit_occ (s : State) (n : Nat) (f : UnitSt → UnitSt) : (s.modUnit n f).occ = s.occ := rfl
@[simp] theorem State.modUnit_cur (s : State) (n : Nat) (f : UnitSt → UnitSt) : (s.modUnit n f).cur = s.cur := rfl
@[simp] theorem State.modUnit_opp (s : State) (n : Nat) (f : UnitSt → UnitSt) : (s.modUnit n f).opp = s.opp := rfl
@[simp] theorem State.modUnit_fresh (s : State) (n : Nat) (f : UnitSt → UnitSt) : (s.modUnit n f).fresh = s.fresh := rfl
@[simp] theorem State.modUnit_passed (s : State) (n : Nat) (f : UnitSt → UnitSt) : (s.modUnit n f).passed = s.passed := rfl
@[simp] theorem State.modUnit_spilled (s : State) (n : Nat) (f : UnitSt → UnitSt) : (s.modUnit n f).spilled = s.spilled := rfl
@[simp] theorem State.modUnit_breaks (s : State) (n : Nat) (f : UnitSt → UnitSt) : (s.modUnit n f).breaks = s.breaks := rfl
@[simp] theorem State.modUnit_failed (s : State) (n : Nat) (f : UnitSt → UnitSt) : (s.modUnit n f).failed = s.failed := rfl
@[simp] theorem State.modUnit_nextId (s : State) (n : Nat) (f : UnitSt → UnitSt) : (s.modUnit n f).nextId = s.nextId := rfl

@[simp] theorem State.modLaunch_mem (s : State) (n : Nat) (f : Launch → Launch) : (s.modLaunch n f).mem = s.mem := rfl
@[simp] theorem State.modLaunch_rels (s : State) (n : Nat) (f : Launch → Launch) : (s.modLaunch n f).rels = s.rels := rfl
@[simp] theorem State.modLaunch_waves (s : State) (n : Nat) (f : Launch → Launch) : (s.modLaunch n f).waves = s.waves := rfl
@[simp] theorem State.modLaunch_units (s : State) (n : Nat) (f : Launch → Launch) : (s.modLaunch n f).units = s.units := rfl
@[simp] theorem State.modLaunch_frames (s : State) (n : Nat) (f : Launch → Launch) : (s.modLaunch n f).frames = s.frames := rfl
@[simp] theorem State.modLaunch_held (s : State) (n : Nat) (f : Launch → Launch) : (s.modLaunch n f).held = s.held := rfl
@[simp] theorem State.modLaunch_ctxs (s : State) (n : Nat) (f : Launch → Launch) : (s.modLaunch n f).ctxs = s.ctxs := rfl
@[simp] theorem State.modLaunch_pf (s : State) (n : Nat) (f : Launch → Launch) : (s.modLaunch n f).pf = s.pf := rfl
@[simp] theorem State.modLaunch_cores (s : State) (n : Nat) (f : Launch → Launch) : (s.modLaunch n f).cores = s.cores := rfl
@[simp] theorem State.modLaunch_clusters (s : State) (n : Nat) (f : Launch → Launch) : (s.modLaunch n f).clusters = s.clusters := rfl
@[simp] theorem State.modLaunch_dies (s : State) (n : Nat) (f : Launch → Launch) : (s.modLaunch n f).dies = s.dies := rfl
@[simp] theorem State.modLaunch_pkg (s : State) (n : Nat) (f : Launch → Launch) : (s.modLaunch n f).pkg = s.pkg := rfl
@[simp] theorem State.modLaunch_agenda (s : State) (n : Nat) (f : Launch → Launch) : (s.modLaunch n f).agenda = s.agenda := rfl
@[simp] theorem State.modLaunch_occ (s : State) (n : Nat) (f : Launch → Launch) : (s.modLaunch n f).occ = s.occ := rfl
@[simp] theorem State.modLaunch_cur (s : State) (n : Nat) (f : Launch → Launch) : (s.modLaunch n f).cur = s.cur := rfl
@[simp] theorem State.modLaunch_opp (s : State) (n : Nat) (f : Launch → Launch) : (s.modLaunch n f).opp = s.opp := rfl
@[simp] theorem State.modLaunch_fresh (s : State) (n : Nat) (f : Launch → Launch) : (s.modLaunch n f).fresh = s.fresh := rfl
@[simp] theorem State.modLaunch_passed (s : State) (n : Nat) (f : Launch → Launch) : (s.modLaunch n f).passed = s.passed := rfl
@[simp] theorem State.modLaunch_spilled (s : State) (n : Nat) (f : Launch → Launch) : (s.modLaunch n f).spilled = s.spilled := rfl
@[simp] theorem State.modLaunch_breaks (s : State) (n : Nat) (f : Launch → Launch) : (s.modLaunch n f).breaks = s.breaks := rfl
@[simp] theorem State.modLaunch_failed (s : State) (n : Nat) (f : Launch → Launch) : (s.modLaunch n f).failed = s.failed := rfl
@[simp] theorem State.modLaunch_nextId (s : State) (n : Nat) (f : Launch → Launch) : (s.modLaunch n f).nextId = s.nextId := rfl

@[simp] theorem State.modCtx_mem (s : State) (n : Nat) (f : Ctx → Ctx) : (s.modCtx n f).mem = s.mem := rfl
@[simp] theorem State.modCtx_rels (s : State) (n : Nat) (f : Ctx → Ctx) : (s.modCtx n f).rels = s.rels := rfl
@[simp] theorem State.modCtx_waves (s : State) (n : Nat) (f : Ctx → Ctx) : (s.modCtx n f).waves = s.waves := rfl
@[simp] theorem State.modCtx_units (s : State) (n : Nat) (f : Ctx → Ctx) : (s.modCtx n f).units = s.units := rfl
@[simp] theorem State.modCtx_launches (s : State) (n : Nat) (f : Ctx → Ctx) : (s.modCtx n f).launches = s.launches := rfl
@[simp] theorem State.modCtx_frames (s : State) (n : Nat) (f : Ctx → Ctx) : (s.modCtx n f).frames = s.frames := rfl
@[simp] theorem State.modCtx_held (s : State) (n : Nat) (f : Ctx → Ctx) : (s.modCtx n f).held = s.held := rfl
@[simp] theorem State.modCtx_pf (s : State) (n : Nat) (f : Ctx → Ctx) : (s.modCtx n f).pf = s.pf := rfl
@[simp] theorem State.modCtx_cores (s : State) (n : Nat) (f : Ctx → Ctx) : (s.modCtx n f).cores = s.cores := rfl
@[simp] theorem State.modCtx_clusters (s : State) (n : Nat) (f : Ctx → Ctx) : (s.modCtx n f).clusters = s.clusters := rfl
@[simp] theorem State.modCtx_dies (s : State) (n : Nat) (f : Ctx → Ctx) : (s.modCtx n f).dies = s.dies := rfl
@[simp] theorem State.modCtx_pkg (s : State) (n : Nat) (f : Ctx → Ctx) : (s.modCtx n f).pkg = s.pkg := rfl
@[simp] theorem State.modCtx_agenda (s : State) (n : Nat) (f : Ctx → Ctx) : (s.modCtx n f).agenda = s.agenda := rfl
@[simp] theorem State.modCtx_occ (s : State) (n : Nat) (f : Ctx → Ctx) : (s.modCtx n f).occ = s.occ := rfl
@[simp] theorem State.modCtx_cur (s : State) (n : Nat) (f : Ctx → Ctx) : (s.modCtx n f).cur = s.cur := rfl
@[simp] theorem State.modCtx_opp (s : State) (n : Nat) (f : Ctx → Ctx) : (s.modCtx n f).opp = s.opp := rfl
@[simp] theorem State.modCtx_fresh (s : State) (n : Nat) (f : Ctx → Ctx) : (s.modCtx n f).fresh = s.fresh := rfl
@[simp] theorem State.modCtx_passed (s : State) (n : Nat) (f : Ctx → Ctx) : (s.modCtx n f).passed = s.passed := rfl
@[simp] theorem State.modCtx_spilled (s : State) (n : Nat) (f : Ctx → Ctx) : (s.modCtx n f).spilled = s.spilled := rfl
@[simp] theorem State.modCtx_breaks (s : State) (n : Nat) (f : Ctx → Ctx) : (s.modCtx n f).breaks = s.breaks := rfl
@[simp] theorem State.modCtx_failed (s : State) (n : Nat) (f : Ctx → Ctx) : (s.modCtx n f).failed = s.failed := rfl
@[simp] theorem State.modCtx_nextId (s : State) (n : Nat) (f : Ctx → Ctx) : (s.modCtx n f).nextId = s.nextId := rfl

@[simp] theorem State.modCore_mem (s : State) (n : Nat) (f : CoreSt → CoreSt) : (s.modCore n f).mem = s.mem := rfl
@[simp] theorem State.modCore_rels (s : State) (n : Nat) (f : CoreSt → CoreSt) : (s.modCore n f).rels = s.rels := rfl
@[simp] theorem State.modCore_waves (s : State) (n : Nat) (f : CoreSt → CoreSt) : (s.modCore n f).waves = s.waves := rfl
@[simp] theorem State.modCore_units (s : State) (n : Nat) (f : CoreSt → CoreSt) : (s.modCore n f).units = s.units := rfl
@[simp] theorem State.modCore_launches (s : State) (n : Nat) (f : CoreSt → CoreSt) : (s.modCore n f).launches = s.launches := rfl
@[simp] theorem State.modCore_frames (s : State) (n : Nat) (f : CoreSt → CoreSt) : (s.modCore n f).frames = s.frames := rfl
@[simp] theorem State.modCore_held (s : State) (n : Nat) (f : CoreSt → CoreSt) : (s.modCore n f).held = s.held := rfl
@[simp] theorem State.modCore_ctxs (s : State) (n : Nat) (f : CoreSt → CoreSt) : (s.modCore n f).ctxs = s.ctxs := rfl
@[simp] theorem State.modCore_pf (s : State) (n : Nat) (f : CoreSt → CoreSt) : (s.modCore n f).pf = s.pf := rfl
@[simp] theorem State.modCore_clusters (s : State) (n : Nat) (f : CoreSt → CoreSt) : (s.modCore n f).clusters = s.clusters := rfl
@[simp] theorem State.modCore_dies (s : State) (n : Nat) (f : CoreSt → CoreSt) : (s.modCore n f).dies = s.dies := rfl
@[simp] theorem State.modCore_pkg (s : State) (n : Nat) (f : CoreSt → CoreSt) : (s.modCore n f).pkg = s.pkg := rfl
@[simp] theorem State.modCore_agenda (s : State) (n : Nat) (f : CoreSt → CoreSt) : (s.modCore n f).agenda = s.agenda := rfl
@[simp] theorem State.modCore_occ (s : State) (n : Nat) (f : CoreSt → CoreSt) : (s.modCore n f).occ = s.occ := rfl
@[simp] theorem State.modCore_cur (s : State) (n : Nat) (f : CoreSt → CoreSt) : (s.modCore n f).cur = s.cur := rfl
@[simp] theorem State.modCore_opp (s : State) (n : Nat) (f : CoreSt → CoreSt) : (s.modCore n f).opp = s.opp := rfl
@[simp] theorem State.modCore_fresh (s : State) (n : Nat) (f : CoreSt → CoreSt) : (s.modCore n f).fresh = s.fresh := rfl
@[simp] theorem State.modCore_passed (s : State) (n : Nat) (f : CoreSt → CoreSt) : (s.modCore n f).passed = s.passed := rfl
@[simp] theorem State.modCore_spilled (s : State) (n : Nat) (f : CoreSt → CoreSt) : (s.modCore n f).spilled = s.spilled := rfl
@[simp] theorem State.modCore_breaks (s : State) (n : Nat) (f : CoreSt → CoreSt) : (s.modCore n f).breaks = s.breaks := rfl
@[simp] theorem State.modCore_failed (s : State) (n : Nat) (f : CoreSt → CoreSt) : (s.modCore n f).failed = s.failed := rfl
@[simp] theorem State.modCore_nextId (s : State) (n : Nat) (f : CoreSt → CoreSt) : (s.modCore n f).nextId = s.nextId := rfl

@[simp] theorem State.modCluster_mem (s : State) (n : Nat) (f : ClusterSt → ClusterSt) : (s.modCluster n f).mem = s.mem := rfl
@[simp] theorem State.modCluster_rels (s : State) (n : Nat) (f : ClusterSt → ClusterSt) : (s.modCluster n f).rels = s.rels := rfl
@[simp] theorem State.modCluster_waves (s : State) (n : Nat) (f : ClusterSt → ClusterSt) : (s.modCluster n f).waves = s.waves := rfl
@[simp] theorem State.modCluster_units (s : State) (n : Nat) (f : ClusterSt → ClusterSt) : (s.modCluster n f).units = s.units := rfl
@[simp] theorem State.modCluster_launches (s : State) (n : Nat) (f : ClusterSt → ClusterSt) : (s.modCluster n f).launches = s.launches := rfl
@[simp] theorem State.modCluster_frames (s : State) (n : Nat) (f : ClusterSt → ClusterSt) : (s.modCluster n f).frames = s.frames := rfl
@[simp] theorem State.modCluster_held (s : State) (n : Nat) (f : ClusterSt → ClusterSt) : (s.modCluster n f).held = s.held := rfl
@[simp] theorem State.modCluster_ctxs (s : State) (n : Nat) (f : ClusterSt → ClusterSt) : (s.modCluster n f).ctxs = s.ctxs := rfl
@[simp] theorem State.modCluster_pf (s : State) (n : Nat) (f : ClusterSt → ClusterSt) : (s.modCluster n f).pf = s.pf := rfl
@[simp] theorem State.modCluster_cores (s : State) (n : Nat) (f : ClusterSt → ClusterSt) : (s.modCluster n f).cores = s.cores := rfl
@[simp] theorem State.modCluster_dies (s : State) (n : Nat) (f : ClusterSt → ClusterSt) : (s.modCluster n f).dies = s.dies := rfl
@[simp] theorem State.modCluster_pkg (s : State) (n : Nat) (f : ClusterSt → ClusterSt) : (s.modCluster n f).pkg = s.pkg := rfl
@[simp] theorem State.modCluster_agenda (s : State) (n : Nat) (f : ClusterSt → ClusterSt) : (s.modCluster n f).agenda = s.agenda := rfl
@[simp] theorem State.modCluster_occ (s : State) (n : Nat) (f : ClusterSt → ClusterSt) : (s.modCluster n f).occ = s.occ := rfl
@[simp] theorem State.modCluster_cur (s : State) (n : Nat) (f : ClusterSt → ClusterSt) : (s.modCluster n f).cur = s.cur := rfl
@[simp] theorem State.modCluster_opp (s : State) (n : Nat) (f : ClusterSt → ClusterSt) : (s.modCluster n f).opp = s.opp := rfl
@[simp] theorem State.modCluster_fresh (s : State) (n : Nat) (f : ClusterSt → ClusterSt) : (s.modCluster n f).fresh = s.fresh := rfl
@[simp] theorem State.modCluster_passed (s : State) (n : Nat) (f : ClusterSt → ClusterSt) : (s.modCluster n f).passed = s.passed := rfl
@[simp] theorem State.modCluster_spilled (s : State) (n : Nat) (f : ClusterSt → ClusterSt) : (s.modCluster n f).spilled = s.spilled := rfl
@[simp] theorem State.modCluster_breaks (s : State) (n : Nat) (f : ClusterSt → ClusterSt) : (s.modCluster n f).breaks = s.breaks := rfl
@[simp] theorem State.modCluster_failed (s : State) (n : Nat) (f : ClusterSt → ClusterSt) : (s.modCluster n f).failed = s.failed := rfl
@[simp] theorem State.modCluster_nextId (s : State) (n : Nat) (f : ClusterSt → ClusterSt) : (s.modCluster n f).nextId = s.nextId := rfl

@[simp] theorem State.modDie_mem (s : State) (n : Nat) (f : DieSt → DieSt) : (s.modDie n f).mem = s.mem := rfl
@[simp] theorem State.modDie_rels (s : State) (n : Nat) (f : DieSt → DieSt) : (s.modDie n f).rels = s.rels := rfl
@[simp] theorem State.modDie_waves (s : State) (n : Nat) (f : DieSt → DieSt) : (s.modDie n f).waves = s.waves := rfl
@[simp] theorem State.modDie_units (s : State) (n : Nat) (f : DieSt → DieSt) : (s.modDie n f).units = s.units := rfl
@[simp] theorem State.modDie_launches (s : State) (n : Nat) (f : DieSt → DieSt) : (s.modDie n f).launches = s.launches := rfl
@[simp] theorem State.modDie_frames (s : State) (n : Nat) (f : DieSt → DieSt) : (s.modDie n f).frames = s.frames := rfl
@[simp] theorem State.modDie_held (s : State) (n : Nat) (f : DieSt → DieSt) : (s.modDie n f).held = s.held := rfl
@[simp] theorem State.modDie_ctxs (s : State) (n : Nat) (f : DieSt → DieSt) : (s.modDie n f).ctxs = s.ctxs := rfl
@[simp] theorem State.modDie_pf (s : State) (n : Nat) (f : DieSt → DieSt) : (s.modDie n f).pf = s.pf := rfl
@[simp] theorem State.modDie_cores (s : State) (n : Nat) (f : DieSt → DieSt) : (s.modDie n f).cores = s.cores := rfl
@[simp] theorem State.modDie_clusters (s : State) (n : Nat) (f : DieSt → DieSt) : (s.modDie n f).clusters = s.clusters := rfl
@[simp] theorem State.modDie_pkg (s : State) (n : Nat) (f : DieSt → DieSt) : (s.modDie n f).pkg = s.pkg := rfl
@[simp] theorem State.modDie_agenda (s : State) (n : Nat) (f : DieSt → DieSt) : (s.modDie n f).agenda = s.agenda := rfl
@[simp] theorem State.modDie_occ (s : State) (n : Nat) (f : DieSt → DieSt) : (s.modDie n f).occ = s.occ := rfl
@[simp] theorem State.modDie_cur (s : State) (n : Nat) (f : DieSt → DieSt) : (s.modDie n f).cur = s.cur := rfl
@[simp] theorem State.modDie_opp (s : State) (n : Nat) (f : DieSt → DieSt) : (s.modDie n f).opp = s.opp := rfl
@[simp] theorem State.modDie_fresh (s : State) (n : Nat) (f : DieSt → DieSt) : (s.modDie n f).fresh = s.fresh := rfl
@[simp] theorem State.modDie_passed (s : State) (n : Nat) (f : DieSt → DieSt) : (s.modDie n f).passed = s.passed := rfl
@[simp] theorem State.modDie_spilled (s : State) (n : Nat) (f : DieSt → DieSt) : (s.modDie n f).spilled = s.spilled := rfl
@[simp] theorem State.modDie_breaks (s : State) (n : Nat) (f : DieSt → DieSt) : (s.modDie n f).breaks = s.breaks := rfl
@[simp] theorem State.modDie_failed (s : State) (n : Nat) (f : DieSt → DieSt) : (s.modDie n f).failed = s.failed := rfl
@[simp] theorem State.modDie_nextId (s : State) (n : Nat) (f : DieSt → DieSt) : (s.modDie n f).nextId = s.nextId := rfl

theorem State.wave_setWave (s : State) (n : Nat) (x : Wave) : (s.setWave n x).wave n = x := by simp [State.wave, State.setWave, tfind?_tins_same]
theorem State.wave_setWave_ne (s : State) (n k : Nat) (x : Wave) (h : k ≠ n) : (s.setWave n x).wave k = s.wave k := by simp [State.wave, State.setWave, tfind?_tins_ne _ _ _ _ h]
theorem State.wave_modWave (s : State) (n : Nat) (f : Wave → Wave) : (s.modWave n f).wave n = f (s.wave n) := State.wave_setWave s n _
theorem State.wave_modWave_ne (s : State) (n k : Nat) (f : Wave → Wave) (h : k ≠ n) : (s.modWave n f).wave k = s.wave k := State.wave_setWave_ne s n k _ h
theorem State.unit_setUnit (s : State) (n : Nat) (x : UnitSt) : (s.setUnit n x).unit n = x := by simp [State.unit, State.setUnit, tfind?_tins_same]
theorem State.unit_setUnit_ne (s : State) (n k : Nat) (x : UnitSt) (h : k ≠ n) : (s.setUnit n x).unit k = s.unit k := by simp [State.unit, State.setUnit, tfind?_tins_ne _ _ _ _ h]
theorem State.unit_modUnit (s : State) (n : Nat) (f : UnitSt → UnitSt) : (s.modUnit n f).unit n = f (s.unit n) := State.unit_setUnit s n _
theorem State.unit_modUnit_ne (s : State) (n k : Nat) (f : UnitSt → UnitSt) (h : k ≠ n) : (s.modUnit n f).unit k = s.unit k := State.unit_setUnit_ne s n k _ h
theorem State.launch_setLaunch (s : State) (n : Nat) (x : Launch) : (s.setLaunch n x).launch n = x := by simp [State.launch, State.setLaunch, tfind?_tins_same]
theorem State.launch_setLaunch_ne (s : State) (n k : Nat) (x : Launch) (h : k ≠ n) : (s.setLaunch n x).launch k = s.launch k := by simp [State.launch, State.setLaunch, tfind?_tins_ne _ _ _ _ h]
theorem State.launch_modLaunch (s : State) (n : Nat) (f : Launch → Launch) : (s.modLaunch n f).launch n = f (s.launch n) := State.launch_setLaunch s n _
theorem State.launch_modLaunch_ne (s : State) (n k : Nat) (f : Launch → Launch) (h : k ≠ n) : (s.modLaunch n f).launch k = s.launch k := State.launch_setLaunch_ne s n k _ h
theorem State.ctx_setCtx (s : State) (n : Nat) (x : Ctx) : (s.setCtx n x).ctx n = x := by simp [State.ctx, State.setCtx, tget_tset_same]
theorem State.ctx_setCtx_ne (s : State) (n k : Nat) (x : Ctx) (h : k ≠ n) : (s.setCtx n x).ctx k = s.ctx k := by simp [State.ctx, State.setCtx, tget_tset_ne _ _ _ _ _ h]
theorem State.ctx_modCtx (s : State) (n : Nat) (f : Ctx → Ctx) : (s.modCtx n f).ctx n = f (s.ctx n) := State.ctx_setCtx s n _
theorem State.ctx_modCtx_ne (s : State) (n k : Nat) (f : Ctx → Ctx) (h : k ≠ n) : (s.modCtx n f).ctx k = s.ctx k := State.ctx_setCtx_ne s n k _ h
theorem State.core_setCore (s : State) (n : Nat) (x : CoreSt) : (s.setCore n x).core n = x := by simp [State.core, State.setCore, tget_tset_same]
theorem State.core_setCore_ne (s : State) (n k : Nat) (x : CoreSt) (h : k ≠ n) : (s.setCore n x).core k = s.core k := by simp [State.core, State.setCore, tget_tset_ne _ _ _ _ _ h]
theorem State.core_modCore (s : State) (n : Nat) (f : CoreSt → CoreSt) : (s.modCore n f).core n = f (s.core n) := State.core_setCore s n _
theorem State.core_modCore_ne (s : State) (n k : Nat) (f : CoreSt → CoreSt) (h : k ≠ n) : (s.modCore n f).core k = s.core k := State.core_setCore_ne s n k _ h
theorem State.cluster_setCluster (s : State) (n : Nat) (x : ClusterSt) : (s.setCluster n x).cluster n = x := by
  change tget s.freshCluster (tset s.freshCluster s.clusters n x) n = x; rw [tget_tset_same]
theorem State.cluster_setCluster_ne (s : State) (n k : Nat) (x : ClusterSt) (h : k ≠ n) : (s.setCluster n x).cluster k = s.cluster k := by
  change tget s.freshCluster (tset s.freshCluster s.clusters n x) k = _; rw [tget_tset_ne _ _ _ _ _ h]; rfl
theorem State.cluster_modCluster (s : State) (n : Nat) (f : ClusterSt → ClusterSt) : (s.modCluster n f).cluster n = f (s.cluster n) := State.cluster_setCluster s n _
theorem State.cluster_modCluster_ne (s : State) (n k : Nat) (f : ClusterSt → ClusterSt) (h : k ≠ n) : (s.modCluster n f).cluster k = s.cluster k := State.cluster_setCluster_ne s n k _ h
theorem State.die_setDie (s : State) (n : Nat) (x : DieSt) : (s.setDie n x).die n = x := by simp [State.die, State.setDie, tget_tset_same]
theorem State.die_setDie_ne (s : State) (n k : Nat) (x : DieSt) (h : k ≠ n) : (s.setDie n x).die k = s.die k := by simp [State.die, State.setDie, tget_tset_ne _ _ _ _ _ h]
theorem State.die_modDie (s : State) (n : Nat) (f : DieSt → DieSt) : (s.modDie n f).die n = f (s.die n) := State.die_setDie s n _
theorem State.die_modDie_ne (s : State) (n k : Nat) (f : DieSt → DieSt) (h : k ≠ n) : (s.modDie n f).die k = s.die k := State.die_setDie_ne s n k _ h
@[simp] theorem State.modWave_unit (s : State) (n k : Nat) (f : Wave → Wave) : (s.modWave n f).unit k = s.unit k := rfl
@[simp] theorem State.modWave_launch (s : State) (n k : Nat) (f : Wave → Wave) : (s.modWave n f).launch k = s.launch k := rfl
@[simp] theorem State.modWave_ctx (s : State) (n k : Nat) (f : Wave → Wave) : (s.modWave n f).ctx k = s.ctx k := rfl
@[simp] theorem State.modWave_core (s : State) (n k : Nat) (f : Wave → Wave) : (s.modWave n f).core k = s.core k := rfl
@[simp] theorem State.modWave_cluster (s : State) (n k : Nat) (f : Wave → Wave) : (s.modWave n f).cluster k = s.cluster k := rfl
@[simp] theorem State.modWave_die (s : State) (n k : Nat) (f : Wave → Wave) : (s.modWave n f).die k = s.die k := rfl
@[simp] theorem State.modUnit_wave (s : State) (n k : Nat) (f : UnitSt → UnitSt) : (s.modUnit n f).wave k = s.wave k := rfl
@[simp] theorem State.modUnit_launch (s : State) (n k : Nat) (f : UnitSt → UnitSt) : (s.modUnit n f).launch k = s.launch k := rfl
@[simp] theorem State.modUnit_ctx (s : State) (n k : Nat) (f : UnitSt → UnitSt) : (s.modUnit n f).ctx k = s.ctx k := rfl
@[simp] theorem State.modUnit_core (s : State) (n k : Nat) (f : UnitSt → UnitSt) : (s.modUnit n f).core k = s.core k := rfl
@[simp] theorem State.modUnit_cluster (s : State) (n k : Nat) (f : UnitSt → UnitSt) : (s.modUnit n f).cluster k = s.cluster k := rfl
@[simp] theorem State.modUnit_die (s : State) (n k : Nat) (f : UnitSt → UnitSt) : (s.modUnit n f).die k = s.die k := rfl
@[simp] theorem State.modLaunch_wave (s : State) (n k : Nat) (f : Launch → Launch) : (s.modLaunch n f).wave k = s.wave k := rfl
@[simp] theorem State.modLaunch_unit (s : State) (n k : Nat) (f : Launch → Launch) : (s.modLaunch n f).unit k = s.unit k := rfl
@[simp] theorem State.modLaunch_ctx (s : State) (n k : Nat) (f : Launch → Launch) : (s.modLaunch n f).ctx k = s.ctx k := rfl
@[simp] theorem State.modLaunch_core (s : State) (n k : Nat) (f : Launch → Launch) : (s.modLaunch n f).core k = s.core k := rfl
@[simp] theorem State.modLaunch_cluster (s : State) (n k : Nat) (f : Launch → Launch) : (s.modLaunch n f).cluster k = s.cluster k := rfl
@[simp] theorem State.modLaunch_die (s : State) (n k : Nat) (f : Launch → Launch) : (s.modLaunch n f).die k = s.die k := rfl
@[simp] theorem State.modCtx_wave (s : State) (n k : Nat) (f : Ctx → Ctx) : (s.modCtx n f).wave k = s.wave k := rfl
@[simp] theorem State.modCtx_unit (s : State) (n k : Nat) (f : Ctx → Ctx) : (s.modCtx n f).unit k = s.unit k := rfl
@[simp] theorem State.modCtx_launch (s : State) (n k : Nat) (f : Ctx → Ctx) : (s.modCtx n f).launch k = s.launch k := rfl
@[simp] theorem State.modCtx_core (s : State) (n k : Nat) (f : Ctx → Ctx) : (s.modCtx n f).core k = s.core k := rfl
@[simp] theorem State.modCtx_cluster (s : State) (n k : Nat) (f : Ctx → Ctx) : (s.modCtx n f).cluster k = s.cluster k := rfl
@[simp] theorem State.modCtx_die (s : State) (n k : Nat) (f : Ctx → Ctx) : (s.modCtx n f).die k = s.die k := rfl
@[simp] theorem State.modCore_wave (s : State) (n k : Nat) (f : CoreSt → CoreSt) : (s.modCore n f).wave k = s.wave k := rfl
@[simp] theorem State.modCore_unit (s : State) (n k : Nat) (f : CoreSt → CoreSt) : (s.modCore n f).unit k = s.unit k := rfl
@[simp] theorem State.modCore_launch (s : State) (n k : Nat) (f : CoreSt → CoreSt) : (s.modCore n f).launch k = s.launch k := rfl
@[simp] theorem State.modCore_ctx (s : State) (n k : Nat) (f : CoreSt → CoreSt) : (s.modCore n f).ctx k = s.ctx k := rfl
@[simp] theorem State.modCore_cluster (s : State) (n k : Nat) (f : CoreSt → CoreSt) : (s.modCore n f).cluster k = s.cluster k := rfl
@[simp] theorem State.modCore_die (s : State) (n k : Nat) (f : CoreSt → CoreSt) : (s.modCore n f).die k = s.die k := rfl
@[simp] theorem State.modCluster_wave (s : State) (n k : Nat) (f : ClusterSt → ClusterSt) : (s.modCluster n f).wave k = s.wave k := rfl
@[simp] theorem State.modCluster_unit (s : State) (n k : Nat) (f : ClusterSt → ClusterSt) : (s.modCluster n f).unit k = s.unit k := rfl
@[simp] theorem State.modCluster_launch (s : State) (n k : Nat) (f : ClusterSt → ClusterSt) : (s.modCluster n f).launch k = s.launch k := rfl
@[simp] theorem State.modCluster_ctx (s : State) (n k : Nat) (f : ClusterSt → ClusterSt) : (s.modCluster n f).ctx k = s.ctx k := rfl
@[simp] theorem State.modCluster_core (s : State) (n k : Nat) (f : ClusterSt → ClusterSt) : (s.modCluster n f).core k = s.core k := rfl
@[simp] theorem State.modCluster_die (s : State) (n k : Nat) (f : ClusterSt → ClusterSt) : (s.modCluster n f).die k = s.die k := rfl
@[simp] theorem State.modDie_wave (s : State) (n k : Nat) (f : DieSt → DieSt) : (s.modDie n f).wave k = s.wave k := rfl
@[simp] theorem State.modDie_unit (s : State) (n k : Nat) (f : DieSt → DieSt) : (s.modDie n f).unit k = s.unit k := rfl
@[simp] theorem State.modDie_launch (s : State) (n k : Nat) (f : DieSt → DieSt) : (s.modDie n f).launch k = s.launch k := rfl
@[simp] theorem State.modDie_ctx (s : State) (n k : Nat) (f : DieSt → DieSt) : (s.modDie n f).ctx k = s.ctx k := rfl
@[simp] theorem State.modDie_core (s : State) (n k : Nat) (f : DieSt → DieSt) : (s.modDie n f).core k = s.core k := rfl
@[simp] theorem State.modDie_cluster (s : State) (n k : Nat) (f : DieSt → DieSt) : (s.modDie n f).cluster k = s.cluster k := rfl

@[simp] theorem Wave.modLane_unit (v : Wave) (l : Nat) (f : Lane → Lane) : (v.modLane l f).unit = v.unit := rfl
@[simp] theorem Wave.modLane_idx (v : Wave) (l : Nat) (f : Lane → Lane) : (v.modLane l f).idx = v.idx := rfl
@[simp] theorem Wave.modLane_core (v : Wave) (l : Nat) (f : Lane → Lane) : (v.modLane l f).core = v.core := rfl
@[simp] theorem Wave.modLane_slot (v : Wave) (l : Nat) (f : Lane → Lane) : (v.modLane l f).slot = v.slot := rfl
@[simp] theorem Wave.modLane_resident (v : Wave) (l : Nat) (f : Lane → Lane) : (v.modLane l f).resident = v.resident := rfl
@[simp] theorem Wave.modLane_live (v : Wave) (l : Nat) (f : Lane → Lane) : (v.modLane l f).live = v.live := rfl
@[simp] theorem Wave.modLane_exited (v : Wave) (l : Nat) (f : Lane → Lane) : (v.modLane l f).exited = v.exited := rfl
@[simp] theorem Wave.modLane_v (v : Wave) (l : Nat) (f : Lane → Lane) : (v.modLane l f).v = v.v := rfl
@[simp] theorem Wave.modLane_vtag (v : Wave) (l : Nat) (f : Lane → Lane) : (v.modLane l f).vtag = v.vtag := rfl
@[simp] theorem Wave.modLane_s (v : Wave) (l : Nat) (f : Lane → Lane) : (v.modLane l f).s = v.s := rfl
@[simp] theorem Wave.modLane_a (v : Wave) (l : Nat) (f : Lane → Lane) : (v.modLane l f).a = v.a := rfl
@[simp] theorem Wave.modLane_ktag (v : Wave) (l : Nat) (f : Lane → Lane) : (v.modLane l f).ktag = v.ktag := rfl
@[simp] theorem Wave.modLane_masks (v : Wave) (l : Nat) (f : Lane → Lane) : (v.modLane l f).masks = v.masks := rfl
@[simp] theorem Wave.modLane_lc (v : Wave) (l : Nat) (f : Lane → Lane) : (v.modLane l f).lc = v.lc := rfl
@[simp] theorem Wave.modLane_loops (v : Wave) (l : Nat) (f : Lane → Lane) : (v.modLane l f).loops = v.loops := rfl
@[simp] theorem Wave.modLane_flags (v : Wave) (l : Nat) (f : Lane → Lane) : (v.modLane l f).flags = v.flags := rfl
@[simp] theorem Wave.modLane_wstat (v : Wave) (l : Nat) (f : Lane → Lane) : (v.modLane l f).wstat = v.wstat := rfl
@[simp] theorem Wave.modLane_dzmask (v : Wave) (l : Nat) (f : Lane → Lane) : (v.modLane l f).dzmask = v.dzmask := rfl
@[simp] theorem Wave.modLane_iovmask (v : Wave) (l : Nat) (f : Lane → Lane) : (v.modLane l f).iovmask = v.iovmask := rfl
@[simp] theorem Wave.modLane_round (v : Wave) (l : Nat) (f : Lane → Lane) : (v.modLane l f).round = v.round := rfl
@[simp] theorem Wave.modLane_gang (v : Wave) (l : Nat) (f : Lane → Lane) : (v.modLane l f).gang = v.gang := rfl
@[simp] theorem Wave.modLane_cancel (v : Wave) (l : Nat) (f : Lane → Lane) : (v.modLane l f).cancel = v.cancel := rfl
@[simp] theorem Wave.modLane_fuelctl (v : Wave) (l : Nat) (f : Lane → Lane) : (v.modLane l f).fuelctl = v.fuelctl := rfl
@[simp] theorem Wave.modLane_age (v : Wave) (l : Nat) (f : Lane → Lane) : (v.modLane l f).age = v.age := rfl
@[simp] theorem Wave.modLane_skipCycle (v : Wave) (l : Nat) (f : Lane → Lane) : (v.modLane l f).skipCycle = v.skipCycle := rfl
@[simp] theorem Wave.modLane_replay (v : Wave) (l : Nat) (f : Lane → Lane) : (v.modLane l f).replay = v.replay := rfl
@[simp] theorem Wave.modLane_steps (v : Wave) (l : Nat) (f : Lane → Lane) : (v.modLane l f).steps = v.steps := rfl
@[simp] theorem Wave.modLane_debug (v : Wave) (l : Nat) (f : Lane → Lane) : (v.modLane l f).debug = v.debug := rfl
@[simp] theorem Wave.modLane_stepping (v : Wave) (l : Nat) (f : Lane → Lane) : (v.modLane l f).stepping = v.stepping := rfl
@[simp] theorem Wave.modLane_barArrived (v : Wave) (l : Nat) (f : Lane → Lane) : (v.modLane l f).barArrived = v.barArrived := rfl
@[simp] theorem Wave.modLane_barEver (v : Wave) (l : Nat) (f : Lane → Lane) : (v.modLane l f).barEver = v.barEver := rfl
@[simp] theorem Wave.modLane_barLast (v : Wave) (l : Nat) (f : Lane → Lane) : (v.modLane l f).barLast = v.barLast := rfl
@[simp] theorem Wave.modLane_barSite (v : Wave) (l : Nat) (f : Lane → Lane) : (v.modLane l f).barSite = v.barSite := rfl
@[simp] theorem Wave.modLane_landing (v : Wave) (l : Nat) (f : Lane → Lane) : (v.modLane l f).landing = v.landing := rfl
@[simp] theorem Wave.modLane_sb (v : Wave) (l : Nat) (f : Lane → Lane) : (v.modLane l f).sb = v.sb := rfl
@[simp] theorem Wave.modLane_cand (v : Wave) (l : Nat) (f : Lane → Lane) : (v.modLane l f).cand = v.cand := rfl
@[simp] theorem Wave.modLane_ran (v : Wave) (l : Nat) (f : Lane → Lane) : (v.modLane l f).ran = v.ran := rfl
@[simp] theorem Wave.modLane_trapState (v : Wave) (l : Nat) (f : Lane → Lane) : (v.modLane l f).trapState = v.trapState := rfl
@[simp] theorem Wave.modLane_trap (v : Wave) (l : Nat) (f : Lane → Lane) : (v.modLane l f).trap = v.trap := rfl
@[simp] theorem Wave.modLane_storageTrap (v : Wave) (l : Nat) (f : Lane → Lane) : (v.modLane l f).storageTrap = v.storageTrap := rfl
@[simp] theorem Wave.modLane_park (v : Wave) (l : Nat) (f : Lane → Lane) : (v.modLane l f).park = v.park := rfl
@[simp] theorem Wave.modLane_handles (v : Wave) (l : Nat) (f : Lane → Lane) : (v.modLane l f).handles = v.handles := rfl
@[simp] theorem Wave.modLane_handler (v : Wave) (l : Nat) (f : Lane → Lane) : (v.modLane l f).handler = v.handler := rfl
@[simp] theorem Wave.modLane_remoteOk (v : Wave) (l : Nat) (f : Lane → Lane) : (v.modLane l f).remoteOk = v.remoteOk := rfl
@[simp] theorem Wave.modLane_remoteBad (v : Wave) (l : Nat) (f : Lane → Lane) : (v.modLane l f).remoteBad = v.remoteBad := rfl
@[simp] theorem Wave.modLane_wwords (v : Wave) (l : Nat) (f : Lane → Lane) : (v.modLane l f).wwords = v.wwords := rfl
@[simp] theorem Wave.modLane_wopp (v : Wave) (l : Nat) (f : Lane → Lane) : (v.modLane l f).wopp = v.wopp := rfl
@[simp] theorem Wave.modLane_wstall (v : Wave) (l : Nat) (f : Lane → Lane) : (v.modLane l f).wstall = v.wstall := rfl
@[simp] theorem Wave.modLane_wtile (v : Wave) (l : Nat) (f : Lane → Lane) : (v.modLane l f).wtile = v.wtile := rfl
@[simp] theorem Wave.modLane_wblock (v : Wave) (l : Nat) (f : Lane → Lane) : (v.modLane l f).wblock = v.wblock := rfl
@[simp] theorem Wave.modLane_wcand (v : Wave) (l : Nat) (f : Lane → Lane) : (v.modLane l f).wcand = v.wcand := rfl
@[simp] theorem Wave.modLane_wtlb (v : Wave) (l : Nat) (f : Lane → Lane) : (v.modLane l f).wtlb = v.wtlb := rfl

/-- What every change of one lane keeps, every change of a set of lanes keeps. -/
theorem Wave.modLanes_keeps {α : Type} (p : Wave → α) (h : ∀ v l f, p (Wave.modLane v l f) = p v) (v : Wave) (g : Mask) (f : Lane → Lane) :
    p (v.modLanes g f) = p v := by
  unfold Wave.modLanes
  generalize lanesOf g = ls
  induction ls generalizing v with
  | nil => rfl
  | cons l ls ih => simp only [List.foldl_cons]; rw [ih, h]

@[simp] theorem Wave.modLanes_unit (v : Wave) (g : Mask) (f : Lane → Lane) : (v.modLanes g f).unit = v.unit := Wave.modLanes_keeps (·.unit) (fun _ _ _ => rfl) v g f
@[simp] theorem Wave.modLanes_idx (v : Wave) (g : Mask) (f : Lane → Lane) : (v.modLanes g f).idx = v.idx := Wave.modLanes_keeps (·.idx) (fun _ _ _ => rfl) v g f
@[simp] theorem Wave.modLanes_core (v : Wave) (g : Mask) (f : Lane → Lane) : (v.modLanes g f).core = v.core := Wave.modLanes_keeps (·.core) (fun _ _ _ => rfl) v g f
@[simp] theorem Wave.modLanes_slot (v : Wave) (g : Mask) (f : Lane → Lane) : (v.modLanes g f).slot = v.slot := Wave.modLanes_keeps (·.slot) (fun _ _ _ => rfl) v g f
@[simp] theorem Wave.modLanes_resident (v : Wave) (g : Mask) (f : Lane → Lane) : (v.modLanes g f).resident = v.resident := Wave.modLanes_keeps (·.resident) (fun _ _ _ => rfl) v g f
@[simp] theorem Wave.modLanes_live (v : Wave) (g : Mask) (f : Lane → Lane) : (v.modLanes g f).live = v.live := Wave.modLanes_keeps (·.live) (fun _ _ _ => rfl) v g f
@[simp] theorem Wave.modLanes_exited (v : Wave) (g : Mask) (f : Lane → Lane) : (v.modLanes g f).exited = v.exited := Wave.modLanes_keeps (·.exited) (fun _ _ _ => rfl) v g f
@[simp] theorem Wave.modLanes_v (v : Wave) (g : Mask) (f : Lane → Lane) : (v.modLanes g f).v = v.v := Wave.modLanes_keeps (·.v) (fun _ _ _ => rfl) v g f
@[simp] theorem Wave.modLanes_vtag (v : Wave) (g : Mask) (f : Lane → Lane) : (v.modLanes g f).vtag = v.vtag := Wave.modLanes_keeps (·.vtag) (fun _ _ _ => rfl) v g f
@[simp] theorem Wave.modLanes_s (v : Wave) (g : Mask) (f : Lane → Lane) : (v.modLanes g f).s = v.s := Wave.modLanes_keeps (·.s) (fun _ _ _ => rfl) v g f
@[simp] theorem Wave.modLanes_a (v : Wave) (g : Mask) (f : Lane → Lane) : (v.modLanes g f).a = v.a := Wave.modLanes_keeps (·.a) (fun _ _ _ => rfl) v g f
@[simp] theorem Wave.modLanes_ktag (v : Wave) (g : Mask) (f : Lane → Lane) : (v.modLanes g f).ktag = v.ktag := Wave.modLanes_keeps (·.ktag) (fun _ _ _ => rfl) v g f
@[simp] theorem Wave.modLanes_masks (v : Wave) (g : Mask) (f : Lane → Lane) : (v.modLanes g f).masks = v.masks := Wave.modLanes_keeps (·.masks) (fun _ _ _ => rfl) v g f
@[simp] theorem Wave.modLanes_lc (v : Wave) (g : Mask) (f : Lane → Lane) : (v.modLanes g f).lc = v.lc := Wave.modLanes_keeps (·.lc) (fun _ _ _ => rfl) v g f
@[simp] theorem Wave.modLanes_loops (v : Wave) (g : Mask) (f : Lane → Lane) : (v.modLanes g f).loops = v.loops := Wave.modLanes_keeps (·.loops) (fun _ _ _ => rfl) v g f
@[simp] theorem Wave.modLanes_flags (v : Wave) (g : Mask) (f : Lane → Lane) : (v.modLanes g f).flags = v.flags := Wave.modLanes_keeps (·.flags) (fun _ _ _ => rfl) v g f
@[simp] theorem Wave.modLanes_wstat (v : Wave) (g : Mask) (f : Lane → Lane) : (v.modLanes g f).wstat = v.wstat := Wave.modLanes_keeps (·.wstat) (fun _ _ _ => rfl) v g f
@[simp] theorem Wave.modLanes_dzmask (v : Wave) (g : Mask) (f : Lane → Lane) : (v.modLanes g f).dzmask = v.dzmask := Wave.modLanes_keeps (·.dzmask) (fun _ _ _ => rfl) v g f
@[simp] theorem Wave.modLanes_iovmask (v : Wave) (g : Mask) (f : Lane → Lane) : (v.modLanes g f).iovmask = v.iovmask := Wave.modLanes_keeps (·.iovmask) (fun _ _ _ => rfl) v g f
@[simp] theorem Wave.modLanes_round (v : Wave) (g : Mask) (f : Lane → Lane) : (v.modLanes g f).round = v.round := Wave.modLanes_keeps (·.round) (fun _ _ _ => rfl) v g f
@[simp] theorem Wave.modLanes_gang (v : Wave) (g : Mask) (f : Lane → Lane) : (v.modLanes g f).gang = v.gang := Wave.modLanes_keeps (·.gang) (fun _ _ _ => rfl) v g f
@[simp] theorem Wave.modLanes_cancel (v : Wave) (g : Mask) (f : Lane → Lane) : (v.modLanes g f).cancel = v.cancel := Wave.modLanes_keeps (·.cancel) (fun _ _ _ => rfl) v g f
@[simp] theorem Wave.modLanes_fuelctl (v : Wave) (g : Mask) (f : Lane → Lane) : (v.modLanes g f).fuelctl = v.fuelctl := Wave.modLanes_keeps (·.fuelctl) (fun _ _ _ => rfl) v g f
@[simp] theorem Wave.modLanes_age (v : Wave) (g : Mask) (f : Lane → Lane) : (v.modLanes g f).age = v.age := Wave.modLanes_keeps (·.age) (fun _ _ _ => rfl) v g f
@[simp] theorem Wave.modLanes_skipCycle (v : Wave) (g : Mask) (f : Lane → Lane) : (v.modLanes g f).skipCycle = v.skipCycle := Wave.modLanes_keeps (·.skipCycle) (fun _ _ _ => rfl) v g f
@[simp] theorem Wave.modLanes_replay (v : Wave) (g : Mask) (f : Lane → Lane) : (v.modLanes g f).replay = v.replay := Wave.modLanes_keeps (·.replay) (fun _ _ _ => rfl) v g f
@[simp] theorem Wave.modLanes_steps (v : Wave) (g : Mask) (f : Lane → Lane) : (v.modLanes g f).steps = v.steps := Wave.modLanes_keeps (·.steps) (fun _ _ _ => rfl) v g f
@[simp] theorem Wave.modLanes_debug (v : Wave) (g : Mask) (f : Lane → Lane) : (v.modLanes g f).debug = v.debug := Wave.modLanes_keeps (·.debug) (fun _ _ _ => rfl) v g f
@[simp] theorem Wave.modLanes_stepping (v : Wave) (g : Mask) (f : Lane → Lane) : (v.modLanes g f).stepping = v.stepping := Wave.modLanes_keeps (·.stepping) (fun _ _ _ => rfl) v g f
@[simp] theorem Wave.modLanes_barArrived (v : Wave) (g : Mask) (f : Lane → Lane) : (v.modLanes g f).barArrived = v.barArrived := Wave.modLanes_keeps (·.barArrived) (fun _ _ _ => rfl) v g f
@[simp] theorem Wave.modLanes_barEver (v : Wave) (g : Mask) (f : Lane → Lane) : (v.modLanes g f).barEver = v.barEver := Wave.modLanes_keeps (·.barEver) (fun _ _ _ => rfl) v g f
@[simp] theorem Wave.modLanes_barLast (v : Wave) (g : Mask) (f : Lane → Lane) : (v.modLanes g f).barLast = v.barLast := Wave.modLanes_keeps (·.barLast) (fun _ _ _ => rfl) v g f
@[simp] theorem Wave.modLanes_barSite (v : Wave) (g : Mask) (f : Lane → Lane) : (v.modLanes g f).barSite = v.barSite := Wave.modLanes_keeps (·.barSite) (fun _ _ _ => rfl) v g f
@[simp] theorem Wave.modLanes_landing (v : Wave) (g : Mask) (f : Lane → Lane) : (v.modLanes g f).landing = v.landing := Wave.modLanes_keeps (·.landing) (fun _ _ _ => rfl) v g f
@[simp] theorem Wave.modLanes_sb (v : Wave) (g : Mask) (f : Lane → Lane) : (v.modLanes g f).sb = v.sb := Wave.modLanes_keeps (·.sb) (fun _ _ _ => rfl) v g f
@[simp] theorem Wave.modLanes_cand (v : Wave) (g : Mask) (f : Lane → Lane) : (v.modLanes g f).cand = v.cand := Wave.modLanes_keeps (·.cand) (fun _ _ _ => rfl) v g f
@[simp] theorem Wave.modLanes_ran (v : Wave) (g : Mask) (f : Lane → Lane) : (v.modLanes g f).ran = v.ran := Wave.modLanes_keeps (·.ran) (fun _ _ _ => rfl) v g f
@[simp] theorem Wave.modLanes_trapState (v : Wave) (g : Mask) (f : Lane → Lane) : (v.modLanes g f).trapState = v.trapState := Wave.modLanes_keeps (·.trapState) (fun _ _ _ => rfl) v g f
@[simp] theorem Wave.modLanes_trap (v : Wave) (g : Mask) (f : Lane → Lane) : (v.modLanes g f).trap = v.trap := Wave.modLanes_keeps (·.trap) (fun _ _ _ => rfl) v g f
@[simp] theorem Wave.modLanes_storageTrap (v : Wave) (g : Mask) (f : Lane → Lane) : (v.modLanes g f).storageTrap = v.storageTrap := Wave.modLanes_keeps (·.storageTrap) (fun _ _ _ => rfl) v g f
@[simp] theorem Wave.modLanes_park (v : Wave) (g : Mask) (f : Lane → Lane) : (v.modLanes g f).park = v.park := Wave.modLanes_keeps (·.park) (fun _ _ _ => rfl) v g f
@[simp] theorem Wave.modLanes_handles (v : Wave) (g : Mask) (f : Lane → Lane) : (v.modLanes g f).handles = v.handles := Wave.modLanes_keeps (·.handles) (fun _ _ _ => rfl) v g f
@[simp] theorem Wave.modLanes_handler (v : Wave) (g : Mask) (f : Lane → Lane) : (v.modLanes g f).handler = v.handler := Wave.modLanes_keeps (·.handler) (fun _ _ _ => rfl) v g f
@[simp] theorem Wave.modLanes_remoteOk (v : Wave) (g : Mask) (f : Lane → Lane) : (v.modLanes g f).remoteOk = v.remoteOk := Wave.modLanes_keeps (·.remoteOk) (fun _ _ _ => rfl) v g f
@[simp] theorem Wave.modLanes_remoteBad (v : Wave) (g : Mask) (f : Lane → Lane) : (v.modLanes g f).remoteBad = v.remoteBad := Wave.modLanes_keeps (·.remoteBad) (fun _ _ _ => rfl) v g f
@[simp] theorem Wave.modLanes_wwords (v : Wave) (g : Mask) (f : Lane → Lane) : (v.modLanes g f).wwords = v.wwords := Wave.modLanes_keeps (·.wwords) (fun _ _ _ => rfl) v g f
@[simp] theorem Wave.modLanes_wopp (v : Wave) (g : Mask) (f : Lane → Lane) : (v.modLanes g f).wopp = v.wopp := Wave.modLanes_keeps (·.wopp) (fun _ _ _ => rfl) v g f
@[simp] theorem Wave.modLanes_wstall (v : Wave) (g : Mask) (f : Lane → Lane) : (v.modLanes g f).wstall = v.wstall := Wave.modLanes_keeps (·.wstall) (fun _ _ _ => rfl) v g f
@[simp] theorem Wave.modLanes_wtile (v : Wave) (g : Mask) (f : Lane → Lane) : (v.modLanes g f).wtile = v.wtile := Wave.modLanes_keeps (·.wtile) (fun _ _ _ => rfl) v g f
@[simp] theorem Wave.modLanes_wblock (v : Wave) (g : Mask) (f : Lane → Lane) : (v.modLanes g f).wblock = v.wblock := Wave.modLanes_keeps (·.wblock) (fun _ _ _ => rfl) v g f
@[simp] theorem Wave.modLanes_wcand (v : Wave) (g : Mask) (f : Lane → Lane) : (v.modLanes g f).wcand = v.wcand := Wave.modLanes_keeps (·.wcand) (fun _ _ _ => rfl) v g f
@[simp] theorem Wave.modLanes_wtlb (v : Wave) (g : Mask) (f : Lane → Lane) : (v.modLanes g f).wtlb = v.wtlb := Wave.modLanes_keeps (·.wtlb) (fun _ _ _ => rfl) v g f

theorem Wave.lane_setLane (v : Wave) (l : Nat) (x : Lane) : (v.setLane l x).lane l = x := by
  simp [Wave.lane, Wave.setLane, tget_tset_same]

theorem Wave.lane_setLane_ne (v : Wave) (l k : Nat) (x : Lane) (h : k ≠ l) : (v.setLane l x).lane k = v.lane k := by
  simp [Wave.lane, Wave.setLane, tget_tset_ne _ _ _ _ _ h]

theorem Wave.lane_modLane (v : Wave) (l : Nat) (f : Lane → Lane) : (v.modLane l f).lane l = f (v.lane l) := Wave.lane_setLane v l _

theorem Wave.lane_modLane_ne (v : Wave) (l k : Nat) (f : Lane → Lane) (h : k ≠ l) : (v.modLane l f).lane k = v.lane k :=
  Wave.lane_setLane_ne v l k _ h

end Sys2Proof.Machine
end

