-- ==== Sys2Proof/Laws/Words.lean ====
section
/-! SUPPORT. What every word does around its effect, and the frame of a word that writes a register. -/
namespace Sys2Proof.Machine

/-- A word that passes the checks before its own answers what its effect comes to. -/
theorem perform_eq {s : State} {c : Cursor} {i : Instr} {h : Head} (hi : Issues s c i h) (body : Iss → State → Res) :
    s.perform i h body = .next (State.settle (s.issOf c h.pn h.pm) h.fs (body (s.issOf c h.pn h.pm) s)) := by
  simp only [State.perform, hi.cur, hi.ok]

/-- A word with an effect retires. -/
theorem perform_done {s : State} {c : Cursor} {i : Instr} {h : Head} (hi : Issues s c i h) {body : Iss → State → Res} {eff : State}
    (hb : body (s.issOf c h.pn h.pm) s = .done eff) : s.perform i h body = .next (s.retire c h eff) := by
  rw [perform_eq hi, hb]; rfl

/-- A word that places its lanes has issued. -/
theorem perform_moved {s : State} {c : Cursor} {i : Instr} {h : Head} (hi : Issues s c i h) {body : Iss → State → Res} {eff : State}
    (hb : body (s.issOf c h.pn h.pm) s = .moved eff) : s.perform i h body = .next (s.retireMoved c h eff) := by
  rw [perform_eq hi, hb]; rfl

/-- A word whose meaning comes to an effect completes. -/
theorem completes {s : State} {c : Cursor} {i : Instr} {h : Head} {body : Iss → State → Res} {eff : State} (hi : Issues s c i h)
    (he : exec i s = s.perform i h body) (hb : body (s.issOf c h.pn h.pm) s = .done eff) : Completes s c i h eff :=
  he.trans (perform_done hi hb)

/-- A word whose meaning places its lanes completes. -/
theorem places {s : State} {c : Cursor} {i : Instr} {h : Head} {body : Iss → State → Res} {eff : State} (hi : Issues s c i h)
    (he : exec i s = s.perform i h body) (hb : body (s.issOf c h.pn h.pm) s = .moved eff) : Places s c i h eff :=
  he.trans (perform_moved hi hb)

/-- A word whose meaning comes to a fault traps, where its wave still runs. -/
theorem traps {s : State} {c : Cursor} {i : Instr} {h : Head} {body : Iss → State → Res} {code lane acc : Nat} {ea : DWord}
    (hi : Issues s c i h) (hs : (s.wave c.wave).stoppable = true) (he : exec i s = s.perform i h body)
    (hb : body (s.issOf c h.pn h.pm) s = .fault code lane acc ea s) : Traps s c i h code lane acc ea := by
  unfold Traps
  rw [he, perform_eq hi, hb]
  simp only [State.settle]
  rw [if_pos (by exact hs)]
  rfl

theorem OnlyWave.refl (s : State) (w : Nat) : OnlyWave s s w := by
  constructor <;> intros <;> rfl

theorem OnlyWave.trans {s t u : State} {w : Nat} (h : OnlyWave s t w) (k : OnlyWave t u w) : OnlyWave s u w := by
  constructor
  all_goals first
    | (first | rw [k.mem, h.mem] | rw [k.rels, h.rels] | rw [k.units, h.units] | rw [k.launches, h.launches] | rw [k.held, h.held]
             | rw [k.ctxs, h.ctxs] | rw [k.pf, h.pf] | rw [k.clusters, h.clusters] | rw [k.dies, h.dies] | rw [k.pkg, h.pkg]
             | rw [k.agenda, h.agenda] | rw [k.occ, h.occ] | rw [k.cur, h.cur] | rw [k.opp, h.opp] | rw [k.fresh, h.fresh]
             | rw [k.nextId, h.nextId] | rw [k.breaks, h.breaks] | rw [k.failed, h.failed])
    | (intro n; rw [k.cores n, h.cores n])
    | (intro n hn; rw [k.waves n hn, h.waves n hn])

theorem onlyWave_setWave (s : State) (w : Nat) (x : Wave) : OnlyWave s (s.setWave w x) w := by
  constructor
  all_goals first
    | rfl
    | (intro n; rfl)
    | (intro n hn; exact State.wave_setWave_ne s w n _ hn)

theorem onlyWave_modWave (s : State) (w : Nat) (f : Wave → Wave) : OnlyWave s (s.modWave w f) w := onlyWave_setWave s w _

theorem onlyWave_unpend (s : State) (w id : Nat) (ns : List Nat) : OnlyWave s (s.unpend id ns) w := by
  induction ns with
  | nil => exact OnlyWave.refl s w
  | cons k ns ih =>
    refine ih.trans ?_
    change OnlyWave _ ((s.unpend id ns).modCore k _) w
    generalize s.unpend id ns = t
    constructor
    all_goals first
      | rfl
      | (intro n _; rfl)
      | skip
    intro n
    by_cases hn : n = k
    · subst hn; rw [State.core_modCore]
    · rw [State.core_modCore_ne _ _ _ _ hn]

theorem unpend_wave (s : State) (id n : Nat) (ns : List Nat) : (s.unpend id ns).wave n = s.wave n := by
  induction ns with
  | nil => rfl
  | cons k ns ih => exact ih

theorem onlyWave_beginChild (s : State) (w k : Nat) : OnlyWave s (s.beginChild k) w := by
  unfold State.beginChild
  dsimp only
  split
  · exact OnlyWave.refl s w
  · rename_i f _
    have h := onlyWave_unpend s w f.id (s.cores.map (·.1))
    exact ⟨h.mem, h.rels, h.units, h.launches, h.held, h.ctxs, h.pf, h.clusters, h.dies, h.pkg, h.breaks, h.failed, h.agenda, h.occ, h.cur, h.opp,
      h.fresh, h.nextId, h.cores, h.waves⟩

theorem beginChild_wave (s : State) (k n : Nat) : (s.beginChild k).wave n = s.wave n := by
  unfold State.beginChild
  dsimp only
  split
  · rfl
  · exact unpend_wave s _ n _

theorem onlyWave_walked (s : State) (x : Iss) : OnlyWave s (s.walked x) x.w := onlyWave_modWave _ _ _

theorem onlyWave_flagged (s : State) (x : Iss) (fs : Nat) : OnlyWave s (s.flagged x fs) x.w := by
  unfold State.flagged
  dsimp only
  split
  · exact OnlyWave.refl s _
  · exact onlyWave_modWave _ _ _

theorem onlyWave_issued (s : State) (x : Iss) (fs : Nat) : OnlyWave s (s.issued x fs) x.w :=
  (onlyWave_flagged s x fs).trans (onlyWave_modWave _ _ _)

theorem onlyWave_advance (s : State) (c : Cursor) (g : Mask) : OnlyWave s (s.advance c g) c.wave := onlyWave_modWave _ _ _

/-- Retiring changes the word's own wave and the pending frames only. -/
theorem onlyWave_retire {s eff : State} {c : Cursor} {h : Head} (he : OnlyWave s eff c.wave) : OnlyWave s (s.retire c h eff) c.wave :=
  (((he.trans (onlyWave_walked eff (s.issOf c h.pn h.pm))).trans (onlyWave_issued _ (s.issOf c h.pn h.pm) h.fs)).trans
    (onlyWave_beginChild _ c.wave c.wave)).trans (onlyWave_advance _ c c.group)

/-- A part of its wave that retiring does not touch. -/
theorem retire_keeps {α : Type} (p : Wave → α) (hl : ∀ v g f, p (Wave.modLanes v g f) = p v)
    (hw : ∀ (v : Wave) k f r, p { v with wwords := k, flags := f, replay := r } = p v) (s eff : State) (c : Cursor) (h : Head) :
    p ((s.retire c h eff).wave c.wave) = p (eff.wave c.wave) := by
  have h1 : ∀ (a : State) (x : Iss), x.w = c.wave → p ((a.walked x).wave c.wave) = p (a.wave c.wave) := fun a x e => by
    rw [← e]; unfold State.walked; rw [State.wave_modWave]; exact hw (a.wave x.w) _ _ _
  have h3 : ∀ (a : State) (x : Iss) (fs : Nat), p ((a.flagged x fs).wave x.w) = p (a.wave x.w) := fun a x fs => by
    unfold State.flagged; dsimp only
    split
    · rfl
    · rw [State.wave_modWave]; exact (hw ((a.wave x.w).modLanes x.g _) _ _ _).trans (hl _ _ _)
  have h2 : ∀ (a : State) (x : Iss) (fs : Nat), x.w = c.wave → p ((a.issued x fs).wave c.wave) = p (a.wave c.wave) := fun a x fs e => by
    rw [← e]; unfold State.issued; dsimp only; rw [State.wave_modWave]
    exact ((hw (((a.flagged x fs).wave x.w).modLanes x.g _) _ _ _).trans (hl _ _ _)).trans (h3 a x fs)
  unfold State.retire State.advance
  dsimp only
  rw [State.wave_modWave, hl, beginChild_wave, h2 _ _ _ rfl, h1 _ _ rfl]

theorem retire_wwords (s eff : State) (c : Cursor) (h : Head) :
    ((s.retire c h eff).wave c.wave).wwords = (eff.wave c.wave).wwords + 1 := by
  have h1 : ∀ (a : State) (x : Iss), x.w = c.wave → ((a.walked x).wave c.wave).wwords = (a.wave c.wave).wwords := fun a x e => by
    rw [← e]; unfold State.walked; rw [State.wave_modWave]
  have h2 : ∀ (a : State) (x : Iss) (fs : Nat), x.w = c.wave → ((a.issued x fs).wave c.wave).wwords = (a.wave c.wave).wwords + 1 :=
    fun a x fs e => by
      have h3 : ((a.flagged x fs).wave x.w).wwords = (a.wave x.w).wwords := by
        unfold State.flagged; dsimp only
        split
        · rfl
        · rw [State.wave_modWave]; exact Wave.modLanes_wwords _ _ _
      rw [← e]; unfold State.issued; dsimp only; rw [State.wave_modWave, h3]
  unfold State.retire State.advance
  dsimp only
  rw [State.wave_modWave, Wave.modLanes_wwords, beginChild_wave, h2 _ _ _ rfl, h1 _ _ rfl]

/-- Retiring keeps everything of its wave but lanes, WWORDS and the clause flags. -/
theorem sameWave_retire {s eff : State} {c : Cursor} {h : Head} {v : Wave} {st : Bool}
    (he : SameWave v { eff.wave c.wave with wwords := v.wwords + 1 } st) (hw : (eff.wave c.wave).wwords = v.wwords) :
    SameWave v ((s.retire c h eff).wave c.wave) st := by
  have k : ∀ {α : Type} (p : Wave → α), (∀ v g f, p (Wave.modLanes v g f) = p v) →
      (∀ (v : Wave) k f r, p { v with wwords := k, flags := f, replay := r } = p v) →
      p ((s.retire c h eff).wave c.wave) = p (eff.wave c.wave) := fun p h1 h2 => retire_keeps p h1 h2 s eff c h
  constructor
  · rw [k (·.unit) (by simp) (by simp)]; exact he.unit
  · rw [k (·.idx) (by simp) (by simp)]; exact he.idx
  · rw [k (·.core) (by simp) (by simp)]; exact he.core
  · rw [k (·.slot) (by simp) (by simp)]; exact he.slot
  · rw [k (·.resident) (by simp) (by simp)]; exact he.resident
  · rw [k (·.live) (by simp) (by simp)]; exact he.live
  · rw [k (·.exited) (by simp) (by simp)]; exact he.exited
  · rw [k (·.lc) (by simp) (by simp)]; exact he.lc
  · rw [k (·.loops) (by simp) (by simp)]; exact he.loops
  · rw [k (·.wstat) (by simp) (by simp)]; exact he.wstat
  · rw [k (·.dzmask) (by simp) (by simp)]; exact he.dzmask
  · rw [k (·.iovmask) (by simp) (by simp)]; exact he.iovmask
  · rw [k (·.round) (by simp) (by simp)]; exact he.round
  · rw [k (·.gang) (by simp) (by simp)]; exact he.gang
  · rw [k (·.cancel) (by simp) (by simp)]; exact he.cancel
  · rw [k (·.fuelctl) (by simp) (by simp)]; exact he.fuelctl
  · rw [k (·.steps) (by simp) (by simp)]; exact he.steps
  · rw [k (·.debug) (by simp) (by simp)]; exact he.debug
  · rw [k (·.stepping) (by simp) (by simp)]; exact he.stepping
  · rw [k (·.barArrived) (by simp) (by simp)]; exact he.barArrived
  · rw [k (·.barEver) (by simp) (by simp)]; exact he.barEver
  · rw [k (·.barLast) (by simp) (by simp)]; exact he.barLast
  · rw [k (·.landing) (by simp) (by simp)]; exact he.landing
  · rw [k (·.sb) (by simp) (by simp)]; exact he.sb
  · rw [k (·.cand) (by simp) (by simp)]; exact he.cand
  · rw [k (·.ran) (by simp) (by simp)]; exact he.ran
  · rw [k (·.trapState) (by simp) (by simp)]; exact he.trapState
  · rw [k (·.trap) (by simp) (by simp)]; exact he.trap
  · rw [k (·.park) (by simp) (by simp)]; exact he.park
  · rw [k (·.handles) (by simp) (by simp)]; exact he.handles
  · rw [k (·.handler) (by simp) (by simp)]; exact he.handler
  · rw [retire_wwords, hw]

/-- Retiring changes no register. -/
theorem sameRegs_retire {s eff : State} {c : Cursor} {h : Head} {v : Wave} {d : Opnd} {n : Nat}
    (he : SameRegs v (eff.wave c.wave) d n) : SameRegs v ((s.retire c h eff).wave c.wave) d n := by
  have k : ∀ {α : Type} (p : Wave → α), (∀ v g f, p (Wave.modLanes v g f) = p v) →
      (∀ (v : Wave) k f r, p { v with wwords := k, flags := f, replay := r } = p v) →
      p ((s.retire c h eff).wave c.wave) = p (eff.wave c.wave) := fun p h1 h2 => retire_keeps p h1 h2 s eff c h
  constructor
  · intro r hr; rw [k (·.rs r) (by simp [Wave.rs]) (by simp [Wave.rs])]; exact he.uni r hr
  · intro r l hl hr; rw [k (·.rv r l) (by simp [Wave.rv]) (by simp [Wave.rv])]; exact he.vary r l hl hr
  · intro r hr; rw [k (·.rtag r) (by simp [Wave.rtag]) (by simp [Wave.rtag])]; exact he.tag r hr
  · intro r hr; rw [k (·.ra r) (by simp [Wave.ra]) (by simp [Wave.ra])]; exact he.aff r hr
  · intro g r hr; rw [k (·.rm g r) (by simp [Wave.rm]) (by simp [Wave.rm])]; exact he.mask g r hr
  · intro q hq; rw [k (·.rktag q) (by simp [Wave.rktag]) (by simp [Wave.rktag])]; exact he.cap q hq

end Sys2Proof.Machine
end

