-- ==== Sys2Proof/Laws/Registers.lean ====
section
/-! SUPPORT. What writing a destination changes: the registers it names, in the lanes it names, and nothing else. -/
namespace Sys2Proof.Machine

/-- A wave that differs from another in registers and tags at most. -/
def RegsOnly (v u : Wave) : Prop :=
  ∃ s a vv vt kt ms, u = { v with s := s, a := a, v := vv, vtag := vt, ktag := kt, masks := ms }

theorem RegsOnly.refl (v : Wave) : RegsOnly v v := ⟨v.s, v.a, v.v, v.vtag, v.ktag, v.masks, rfl⟩

theorem RegsOnly.trans {v u x : Wave} (h : RegsOnly v u) (k : RegsOnly u x) : RegsOnly v x := by
  obtain ⟨s, a, vv, vt, kt, ms, rfl⟩ := h
  obtain ⟨s', a', vv', vt', kt', ms', rfl⟩ := k
  exact ⟨s', a', vv', vt', kt', ms', rfl⟩

theorem regsOnly_ws (v : Wave) (n : Nat) (x : Word) : RegsOnly v (v.ws n x) := ⟨_, v.a, v.v, v.vtag, _, v.masks, rfl⟩
theorem regsOnly_wa (v : Wave) (n : Nat) (x : Affine) : RegsOnly v (v.wa n x) := ⟨v.s, _, v.v, v.vtag, v.ktag, v.masks, rfl⟩
theorem regsOnly_wv (v : Wave) (n l : Nat) (x : Word) : RegsOnly v (v.wv n l x) := ⟨v.s, v.a, _, v.vtag, v.ktag, v.masks, rfl⟩
theorem regsOnly_wtag (v : Wave) (n t : Nat) : RegsOnly v (v.wtag n t) := ⟨v.s, v.a, v.v, _, v.ktag, v.masks, rfl⟩
theorem regsOnly_wm (v : Wave) (n : Nat) (e x : Mask) : RegsOnly v (v.wm n e x) := ⟨v.s, v.a, v.v, v.vtag, v.ktag, _, rfl⟩

theorem SameRegs.refl (v : Wave) (d : Opnd) (n : Nat) : SameRegs v v d n := by constructor <;> intros <;> rfl

theorem SameRegs.trans {v u x : Wave} {d : Opnd} {n : Nat} (h : SameRegs v u d n) (k : SameRegs u x d n) : SameRegs v x d n := by
  constructor
  · intro r hr; rw [k.uni r hr, h.uni r hr]
  · intro r l hl hr; rw [k.vary r l hl hr, h.vary r l hl hr]
  · intro r hr; rw [k.tag r hr, h.tag r hr]
  · intro r hr; rw [k.aff r hr, h.aff r hr]
  · intro g r hr; rw [k.mask g r hr, h.mask g r hr]
  · intro q hq; rw [k.cap q hq, h.cap q hq]

theorem sameRegs_ws (v : Wave) (r : Nat) (x : Word) {d : Opnd} {n : Nat} (h : namesReg d n (.s r) = true) : SameRegs v (v.ws r x) d n := by
  constructor
  · intro k hk
    exact tget_tset_ne _ _ _ _ _ (by rintro rfl; simp [h] at hk)
  · intros; rfl
  · intros; rfl
  · intros; rfl
  · intros; rfl
  · intro q hq
    have hne : q ≠ r / 4 := by
      intro e
      have := hq r (by omega) (by omega)
      simp [h] at this
    exact tget_tset_ne false v.ktag (r / 4) q false hne

theorem sameRegs_wa (v : Wave) (r : Nat) (x : Affine) {n : Nat} : SameRegs v (v.wa r x) (.a r) n := by
  constructor
  · intros; rfl
  · intros; rfl
  · intros; rfl
  · intro k hk
    exact tget_tset_ne _ _ _ _ _ (by rintro rfl; simp [namesReg] at hk)
  · intros; rfl
  · intros; rfl

theorem sameRegs_wv (v : Wave) (r l : Nat) (x : Word) {d : Opnd} {n : Nat} (hl : l < 32) (h : namesReg d n (.v r) = true) :
    SameRegs v (v.wv r l x) d n := by
  constructor
  · intros; rfl
  · intro k j hj hk
    refine tget_tset_ne _ _ _ _ _ ?_
    intro e
    have : k = r := by omega
    subst this
    simp [h] at hk
  · intros; rfl
  · intros; rfl
  · intros; rfl
  · intros; rfl

theorem sameRegs_wtag (v : Wave) (r t : Nat) {d : Opnd} {n : Nat} (h : namesReg d n (.v r) = true) : SameRegs v (v.wtag r t) d n := by
  constructor
  · intros; rfl
  · intros; rfl
  · intro k hk
    exact tget_tset_ne _ _ _ _ _ (by rintro rfl; simp [h] at hk)
  · intros; rfl
  · intros; rfl
  · intros; rfl

theorem sameRegs_wm (v : Wave) (r : Nat) (e x : Mask) {n : Nat} : SameRegs v (v.wm r e x) (.m r) n := by
  constructor
  · intros; rfl
  · intros; rfl
  · intros; rfl
  · intros; rfl
  · intro g k hk
    have : k ≠ r := by rintro rfl; simp [namesReg] at hk
    simp only [Wave.rm, Wave.wm]
    split
    · rfl
    · exact tget_tset_ne _ _ _ _ _ this
  · intros; rfl

/-- A change made lane by lane keeps what each lane's change keeps. -/
theorem foldl_rel {α : Type} (R : Wave → Wave → Prop) (hr : ∀ v, R v v) (ht : ∀ {v u x}, R v u → R u x → R v x)
    (f : Wave → α → Wave) (ls : List α) (h : ∀ v, ∀ l ∈ ls, R v (f v l)) (v : Wave) : R v (ls.foldl f v) := by
  induction ls generalizing v with
  | nil => exact hr v
  | cons l ls ih =>
    exact ht (h v l (List.mem_cons_self ..)) (ih (fun v k hk => h v k (List.mem_cons_of_mem _ hk)) (f v l))

theorem mem_lanesOf {l : Nat} {m : Mask} : l ∈ lanesOf m ↔ l < 32 ∧ m.getLsbD l = true := by
  simp [lanesOf]

/-- A varying destination written: only registers and tags change. -/
theorem regsOnly_putV (v : Wave) (n : Nat) (wd : Bool) (tag : Nat) (e : Mask) (f : Nat → Nat) : RegsOnly v (v.putV n wd tag e f) := by
  unfold Wave.putV
  split
  · exact RegsOnly.refl v
  · have R := @foldl_rel Nat RegsOnly RegsOnly.refl (fun h k => h.trans k)
    cases wd
    · exact (R _ _ (fun v l _ => regsOnly_wv v n l _) v).trans (regsOnly_wtag _ n tag)
    · exact ((R _ _ (fun v l _ => (regsOnly_wv v n l _).trans (regsOnly_wv _ (n + 1) l _)) v).trans (regsOnly_wtag _ n tag)).trans
        (regsOnly_wtag _ (n + 1) tagN32)

/-- A varying destination written: only its registers and their tags change. -/
theorem sameRegs_putV (v : Wave) (n : Nat) (wd : Bool) (tag : Nat) (e : Mask) (f : Nat → Nat) :
    SameRegs v (v.putV n wd tag e f) (.v n) (if wd = true then 2 else 1) := by
  unfold Wave.putV
  split
  · exact SameRegs.refl v _ _
  · cases wd
    · have h0 : namesReg (.v n) 1 (.v n) = true := by simp [namesReg]
      have R := @foldl_rel Nat (fun v u => SameRegs v u (.v n) 1) (fun v => SameRegs.refl v _ _) (fun h k => h.trans k)
      exact (R _ _ (fun v l hl => sameRegs_wv v n l _ (mem_lanesOf.mp hl).1 h0) v).trans (sameRegs_wtag _ n tag h0)
    · have h0 : namesReg (.v n) 2 (.v n) = true := by simp [namesReg]
      have h1 : namesReg (.v n) 2 (.v (n + 1)) = true := by simp [namesReg]
      have R := @foldl_rel Nat (fun v u => SameRegs v u (.v n) 2) (fun v => SameRegs.refl v _ _) (fun h k => h.trans k)
      exact ((R _ _ (fun v l hl => (sameRegs_wv v n l _ (mem_lanesOf.mp hl).1 h0).trans
        (sameRegs_wv _ (n + 1) l _ (mem_lanesOf.mp hl).1 h1)) v).trans (sameRegs_wtag _ n tag h0)).trans (sameRegs_wtag _ (n + 1) tagN32 h1)

/-- What writing a destination does to its wave. -/
theorem put_wave (s : State) (x : Iss) (d : Opnd) (wd : Bool) (tag : Nat) (f : Nat → Nat) :
    RegsOnly (s.wave x.w) ((s.put x d wd tag f).wave x.w) ∧
    SameRegs (s.wave x.w) ((s.put x d wd tag f).wave x.w) d (if wd = true then 2 else 1) := by
  unfold State.put
  cases d <;> dsimp only
  case s n =>
    split
    · exact ⟨RegsOnly.refl _, SameRegs.refl _ _ _⟩
    · rw [State.wave_modWave]
      cases wd
      · exact ⟨regsOnly_ws _ _ _, sameRegs_ws _ _ _ (by simp [namesReg])⟩
      · exact ⟨(regsOnly_ws _ _ _).trans (regsOnly_ws _ _ _),
          (sameRegs_ws _ _ _ (by simp [namesReg])).trans (sameRegs_ws _ _ _ (by simp [namesReg]))⟩
  case a n =>
    split
    · exact ⟨RegsOnly.refl _, SameRegs.refl _ _ _⟩
    · rw [State.wave_modWave]
      exact ⟨regsOnly_wa _ _ _, sameRegs_wa _ _ _⟩
  case v n =>
    rw [State.wave_modWave]
    exact ⟨regsOnly_putV _ _ _ _ _ _, sameRegs_putV _ _ _ _ _ _⟩
  all_goals exact ⟨RegsOnly.refl _, SameRegs.refl _ _ _⟩

theorem put_onlyWave (s : State) (x : Iss) (d : Opnd) (wd : Bool) (tag : Nat) (f : Nat → Nat) : OnlyWave s (s.put x d wd tag f) x.w := by
  unfold State.put
  cases d <;> dsimp only
  case s n => 
    split
    · exact OnlyWave.refl _ _
    · exact onlyWave_modWave _ _ _
  case a n => 
    split
    · exact OnlyWave.refl _ _
    · exact onlyWave_modWave _ _ _
  case v n => exact onlyWave_modWave _ _ _
  all_goals exact OnlyWave.refl _ _

/-- What writing an affine result does to its wave. -/
theorem putAffine_wave (s : State) (x : Iss) (d : Opnd) (wd : Bool) (tag : Nat) (b : DWord) (st : Int) :
    RegsOnly (s.wave x.w) ((s.putAffine x d wd tag b st).wave x.w) ∧
    SameRegs (s.wave x.w) ((s.putAffine x d wd tag b st).wave x.w) d (if wd = true then 2 else 1) := by
  unfold State.putAffine
  cases d <;> dsimp only
  case a n =>
    split
    · exact ⟨RegsOnly.refl _, SameRegs.refl _ _ _⟩
    · rw [State.wave_modWave]
      exact ⟨regsOnly_wa _ _ _, sameRegs_wa _ _ _⟩
  case v n =>
    rw [State.wave_modWave]
    exact ⟨regsOnly_putV _ _ _ _ _ _, sameRegs_putV _ _ _ _ _ _⟩
  all_goals exact ⟨RegsOnly.refl _, SameRegs.refl _ _ _⟩

theorem putAffine_onlyWave (s : State) (x : Iss) (d : Opnd) (wd : Bool) (tag : Nat) (b : DWord) (st : Int) :
    OnlyWave s (s.putAffine x d wd tag b st) x.w := by
  unfold State.putAffine
  cases d <;> dsimp only
  case a n => 
    split
    · exact OnlyWave.refl _ _
    · exact onlyWave_modWave _ _ _
  case v n => exact onlyWave_modWave _ _ _
  all_goals exact OnlyWave.refl _ _

/-- What writing a mask does to its wave. -/
theorem putMask_wave (s : State) (x : Iss) (d : Opnd) (p : Nat → Bool) :
    RegsOnly (s.wave x.w) ((s.putMask x d p).wave x.w) ∧ SameRegs (s.wave x.w) ((s.putMask x d p).wave x.w) d 1 := by
  unfold State.putMask
  cases d <;> dsimp only
  case m n =>
    rw [State.wave_modWave]
    exact ⟨regsOnly_wm _ _ _ _, sameRegs_wm _ _ _ _⟩
  all_goals exact ⟨RegsOnly.refl _, SameRegs.refl _ _ _⟩

theorem putMask_onlyWave (s : State) (x : Iss) (d : Opnd) (p : Nat → Bool) : OnlyWave s (s.putMask x d p) x.w := by
  unfold State.putMask
  cases d <;> dsimp only
  case m n => exact onlyWave_modWave _ _ _
  all_goals exact OnlyWave.refl _ _

/-- An effect on registers alone leaves the wave's other state. -/
theorem sameWave_of_regsOnly {v u : Wave} (h : RegsOnly v u) (st : Bool) : SameWave v { u with wwords := v.wwords + 1 } st := by
  obtain ⟨s, a, vv, vt, kt, ms, rfl⟩ := h
  constructor <;> intros <;> rfl

/-- THE FRAME of a word whose effect writes registers alone. -/
theorem regFrame_of {s eff : State} {c : Cursor} {h : Head} {d : Opnd} {n : Nat} (st : Bool) (ho : OnlyWave s eff c.wave)
    (hw : RegsOnly (s.wave c.wave) (eff.wave c.wave)) (hs : SameRegs (s.wave c.wave) (eff.wave c.wave) d n) :
    RegFrame s (s.retire c h eff) c.wave d n st := by
  refine ⟨onlyWave_retire ho, sameWave_retire (sameWave_of_regsOnly hw st) ?_, sameRegs_retire hs⟩
  obtain ⟨_, _, _, _, _, _, e⟩ := hw
  rw [e]

/-- A word that writes a destination with a value by lane. -/
theorem writes_of {s : State} {c : Cursor} {i : Instr} {h : Head} {d : Opnd} {wd : Bool} {tag : Nat} {f : Nat → Nat}
    (e : exec i s = .next (s.retire c h (s.put (s.issOf c h.pn h.pm) d wd tag f))) : Writes s c i h d wd tag f :=
  ⟨e, regFrame_of _ (put_onlyWave _ _ _ _ _ _) (put_wave _ (s.issOf c h.pn h.pm) _ _ _ _).1 (put_wave _ (s.issOf c h.pn h.pm) _ _ _ _).2⟩

/-- A word that writes a destination with an affine result. -/
theorem writesAffine_of {s : State} {c : Cursor} {i : Instr} {h : Head} {d : Opnd} {wd : Bool} {tag : Nat} {b : DWord} {st : Int}
    (e : exec i s = .next (s.retire c h (s.putAffine (s.issOf c h.pn h.pm) d wd tag b st))) : WritesAffine s c i h d wd tag b st :=
  ⟨e, regFrame_of _ (putAffine_onlyWave _ _ _ _ _ _ _) (putAffine_wave _ (s.issOf c h.pn h.pm) _ _ _ _ _).1
    (putAffine_wave _ (s.issOf c h.pn h.pm) _ _ _ _ _).2⟩

/-- A word that writes a mask destination. -/
theorem writesMask_of {s : State} {c : Cursor} {i : Instr} {h : Head} {d : Opnd} {p : Nat → Bool}
    (e : exec i s = .next (s.retire c h (s.putMask (s.issOf c h.pn h.pm) d p))) : WritesMask s c i h d p :=
  ⟨e, regFrame_of _ (putMask_onlyWave _ _ _ _) (putMask_wave _ (s.issOf c h.pn h.pm) _ _).1 (putMask_wave _ (s.issOf c h.pn h.pm) _ _).2⟩

end Sys2Proof.Machine
end

