-- ==== Sys2Proof/Laws/Access.lean ====
section
/-! SUPPORT. What an access that passes its checks does, and what a word that sets sticky bits leaves. -/
namespace Sys2Proof.Machine

/-- An access whose checks pass goes on with its places in the state the checks left. -/
theorem access_of_reaches {s : State} {x : Iss} {reqs : List Req} {ps : List Place} {s1 : State} (h : Reaches s x reqs ps s1)
    (k : List Place → State → Res) : s.access x reqs k = k ps s1 := by
  unfold State.access
  unfold Reaches at h
  dsimp only
  rw [show (s.modWave x.w fun v => { v with wtlb := v.wtlb + s.misses x reqs }).unit x.wave.unit = s.unit x.wave.unit from rfl, h]

/-- An access that reads clean bytes of this package is neither held nor parked by poison. -/
theorem consume_of_clean {s : State} {x : Iss} {ps : List Place} {n : Nat} (h : Clean s ps n) (kind : Nat) (k : State → Res) :
    s.consume x ps n kind k = k s := by
  unfold State.consume State.reach
  rw [if_neg]
  · have : s.poisonLane ps n = none := by
      unfold State.poisonLane
      rw [List.find?_eq_none]
      intro p hp
      have := (h p hp).2
      simp; intro _ i hi; simp [this i hi]
    simp only [this]
    rw [if_neg]
    simp; intro p hp i hi; exact (h p hp).2 i hi
  · simp; intro p hp; exact (h p hp).1

/-- A pick moves nothing but the count of free choices, and names one of the alternatives. -/
theorem pick_spec (s : State) (n : Nat) : (∃ f, (s.pick n).2 = { s with fresh := f }) ∧ (n ≠ 0 → (s.pick n).1 < n) := by
  unfold State.pick
  split
  · exact ⟨⟨s.fresh, rfl⟩, fun h => by omega⟩
  · exact ⟨⟨s.fresh + 1, rfl⟩, fun h => Nat.mod_lt _ (by omega)⟩

/-- A list is a permutation of one of its elements before the rest. -/
theorem perm_eraseIdx {α : Type} : ∀ (l : List α) (i : Nat) (h : i < l.length), (l[i] :: l.eraseIdx i).Perm l
  | _ :: _, 0, _ => .refl _
  | a :: l, i + 1, h => (List.Perm.swap a _ _).trans ((perm_eraseIdx l i (by simpa using h)).cons a)

/-- A shuffled list holds what the list holds, and moves nothing but the count of free choices. -/
theorem shuffle_spec {α : Type} (n : Nat) : ∀ (l : List α) (s : State), l.length ≤ n →
    (State.shuffle n l s).1.Perm l ∧ ∃ f, (State.shuffle n l s).2 = { s with fresh := f } := by
  induction n with
  | zero => exact fun l s _ => ⟨.refl l, s.fresh, rfl⟩
  | succ n ih =>
    intro l s hl
    obtain ⟨⟨f, hf⟩, hlt⟩ := pick_spec s l.length
    unfold State.shuffle
    dsimp only
    rw [hf]
    cases hi : l[(s.pick l.length).1]? with
    | none => exact ⟨.refl l, f, rfl⟩
    | some a =>
      obtain ⟨hb, ha⟩ := List.getElem?_eq_some_iff.mp hi
      obtain ⟨hp, g, hg⟩ := ih (l.eraseIdx (s.pick l.length).1) { s with fresh := f } (by rw [List.length_eraseIdx_of_lt hb]; omega)
      exact ⟨(hp.cons a).trans (ha ▸ perm_eraseIdx l _ hb), g, hg⟩

/-- All that the steps of an instruction's lanes can come to: some of them now, the last with what follows it. -/
theorem stepsApart_of {s s1 : State} {c : Cursor} {i : Instr} {h : Head} {ls vals : List (Nat × Nat)} {one : Nat → Nat → State → Nat × State}
    {fin : List (Nat × Nat) → State → State}
    (e : exec i s = .next (State.settle (s.issOf c h.pn h.pm) h.fs
      (s1.laneSteps (s.issOf c h.pn h.pm) i ls vals one (fun v t => .done (fin v t))))) :
    StepsApart s c i h s1 ls vals one fin := by
  obtain ⟨hp, f, hf⟩ := shuffle_spec ls.length ls s1 (Nat.le_refl _)
  unfold State.laneSteps at e
  generalize State.shuffle ls.length ls s1 = r at hp hf e
  obtain ⟨l, s2⟩ := r
  obtain ⟨⟨g, hg⟩, -⟩ := pick_spec s2 l.length
  dsimp only at hp hf e
  subst hf
  generalize State.pick { s1 with fresh := f } l.length = q at hg e
  obtain ⟨k, s3⟩ := q
  dsimp only at hg e
  subst hg
  refine ⟨l.take (k + 1), l.drop (k + 1), g, by rw [List.take_append_drop]; exact hp, ?_, ?_⟩
  · intro hne hnil
    have h1 := congrArg List.length hnil
    have h2 := hp.length_eq
    have h3 := List.length_pos_iff.mpr hne
    simp only [List.length_take, List.length_nil] at h1
    omega
  · split at e
    · rename_i hd
      rw [hd]
      exact ⟨fun _ => e, fun h => absurd rfl h⟩
    · rename_i hd
      exact ⟨fun h => absurd h hd, fun _ => e⟩

/-- Setting sticky bits changes %dzmask and %iovmask alone. -/
theorem sticky_wave (s : State) (x : Iss) (d : Opnd) (dz iov : Mask) : ∃ a b,
    (s.sticky x d dz iov).wave x.w = { s.wave x.w with dzmask := a, iovmask := b } ∧ OnlyWave s (s.sticky x d dz iov) x.w := by
  unfold State.sticky
  dsimp only
  split
  · exact ⟨_, _, rfl, OnlyWave.refl _ _⟩
  · exact ⟨_, _, State.wave_modWave _ _ _, onlyWave_modWave _ _ _⟩

theorem writesSticky_of {s : State} {c : Cursor} {i : Instr} {h : Head} {d : Opnd} {wd : Bool} {tag : Nat} {r : Nat → Nat × Bool × Bool}
    (e : Completes s c i h ((s.put (s.issOf c h.pn h.pm) d wd tag (fun l => (r l).1)).sticky (s.issOf c h.pn h.pm) d
    ((s.issOf c h.pn h.pm).where_ (fun l => (r l).2.1)) ((s.issOf c h.pn h.pm).where_ (fun l => (r l).2.2)))) :
    WritesSticky s c i h d wd tag r := by
  refine ⟨e, ?_⟩
  obtain ⟨a, b, hw, ho⟩ := sticky_wave (s.put (s.issOf c h.pn h.pm) d wd tag (fun l => (r l).1)) (s.issOf c h.pn h.pm) d
    ((s.issOf c h.pn h.pm).where_ (fun l => (r l).2.1)) ((s.issOf c h.pn h.pm).where_ (fun l => (r l).2.2))
  have hp := put_wave s (s.issOf c h.pn h.pm) d wd tag (fun l => (r l).1)
  refine ⟨onlyWave_retire ((put_onlyWave _ _ _ _ _ _).trans ho), sameWave_retire ?_ ?_, sameRegs_retire ?_⟩
  · change SameWave _ { State.wave _ (s.issOf c h.pn h.pm).w with wwords := _ } _
    rw [hw]
    obtain ⟨_, _, _, _, _, _, e⟩ := hp.1
    rw [e]
    constructor <;> intros <;> first | rfl | contradiction
  · change (State.wave _ (s.issOf c h.pn h.pm).w).wwords = _
    rw [hw]
    obtain ⟨_, _, _, _, _, _, e⟩ := hp.1
    rw [e]
    rfl
  · change SameRegs _ (State.wave _ (s.issOf c h.pn h.pm).w) _ _
    rw [hw]
    exact ⟨hp.2.uni, hp.2.vary, hp.2.tag, hp.2.aff, hp.2.mask, hp.2.cap⟩

end Sys2Proof.Machine
end

