-- ==== Sys2Proof/Laws/Memory.lean ====
section
/-! SUPPORT. The backing stores: every operation that writes them keeps the canonical form, and what it leaves alone (03 R77, R80, R86, R89, R92). -/
namespace Sys2Proof.Machine

/-! The canonical form of a list of cells. -/

theorem cellsWf_cons (c : Host.Cell) (t : List Host.Cell) :
    cellsWf (c :: t) = true ↔ c.2 ≠ unlisted ∧ (∀ d ∈ t, c.1 < d.1) ∧ cellsWf t = true := by
  induction t generalizing c with
  | nil => simp [cellsWf]
  | cons d t ih =>
    simp only [cellsWf, Bool.and_eq_true, bne_iff_ne, ne_eq, decide_eq_true_eq, List.mem_cons, forall_eq_or_imp]
    constructor
    · rintro ⟨⟨h1, h2⟩, h3⟩
      exact ⟨h1, ⟨h2, fun e he => Nat.lt_trans h2 (((ih d).mp h3).2.1 e he)⟩, h3⟩
    · rintro ⟨h1, ⟨h2, _⟩, h3⟩
      exact ⟨⟨h1, h2⟩, h3⟩

theorem cellsWf_filter (t : List Host.Cell) (p : Host.Cell → Bool) (h : cellsWf t = true) : cellsWf (t.filter p) = true := by
  induction t with
  | nil => exact h
  | cons c t ih =>
    obtain ⟨h1, h2, h3⟩ := (cellsWf_cons c t).mp h
    simp only [List.filter_cons]
    split
    · exact (cellsWf_cons _ _).mpr ⟨h1, fun d hd => h2 d (List.mem_filter.mp hd).1, ih h3⟩
    · exact ih h3

theorem mem_tdel {β : Type} {t : SMap β} {x : Nat} {p : Nat × β} (h : p ∈ tdel t x) : p ∈ t := by
  induction t with
  | nil => exact h
  | cons c t ih =>
    simp only [tdel] at h
    split at h
    · exact List.mem_cons_of_mem _ (ih h)
    · rcases List.mem_cons.mp h with h | h
      · exact h ▸ List.mem_cons_self
      · exact List.mem_cons_of_mem _ (ih h)

theorem mem_tins {β : Type} {t : SMap β} {x : Nat} {v : β} {p : Nat × β} (h : p ∈ tins t x v) : p = (x, v) ∨ p ∈ t := by
  induction t with
  | nil => exact .inl (by simpa [tins] using h)
  | cons c t ih =>
    simp only [tins] at h
    split at h
    · rcases List.mem_cons.mp h with h | h
      · exact .inl h
      · exact .inr h
    · split at h
      · rcases List.mem_cons.mp h with h | h
        · exact .inl h
        · exact .inr (List.mem_cons_of_mem _ h)
      · rcases List.mem_cons.mp h with h | h
        · exact .inr (h ▸ List.mem_cons_self)
        · exact (ih h).imp id (List.mem_cons_of_mem _)

theorem cellsWf_tdel (t : List Host.Cell) (x : Nat) (h : cellsWf t = true) : cellsWf (tdel t x) = true := by
  induction t with
  | nil => exact h
  | cons c t ih =>
    obtain ⟨h1, h2, h3⟩ := (cellsWf_cons c t).mp h
    simp only [tdel]
    split
    · exact ih h3
    · exact (cellsWf_cons _ _).mpr ⟨h1, fun d hd => h2 d (mem_tdel hd), ih h3⟩

theorem cellsWf_tins (t : List Host.Cell) (x : Nat) (b : Byte) (hb : b ≠ unlisted) (h : cellsWf t = true) : cellsWf (tins t x b) = true := by
  induction t with
  | nil => simp [tins, cellsWf, hb]
  | cons c t ih =>
    obtain ⟨h1, h2, h3⟩ := (cellsWf_cons c t).mp h
    simp only [tins]
    split
    · rename_i hx
      refine (cellsWf_cons _ _).mpr ⟨hb, fun d hd => ?_, h⟩
      rcases List.mem_cons.mp hd with hd | hd
      · exact hd ▸ hx
      · exact Nat.lt_trans hx (h2 d hd)
    · split
      · rename_i hx
        exact (cellsWf_cons _ _).mpr ⟨hb, fun d hd => hx ▸ h2 d hd, h3⟩
      · rename_i hx hne
        refine (cellsWf_cons _ _).mpr ⟨h1, fun d hd => ?_, ih h3⟩
        rcases mem_tins hd with hd | hd
        · subst hd
          change c.1 < x
          omega
        · exact h2 d hd

theorem cellsWf_tset (t : List Host.Cell) (x : Nat) (b : Byte) (h : cellsWf t = true) : cellsWf (tset unlisted t x b) = true := by
  unfold tset
  split
  · exact cellsWf_tdel t x h
  · rename_i hb
    exact cellsWf_tins t x b hb h

theorem cellsWf_tsets (l : List (Nat × Byte)) (t : List Host.Cell) (h : cellsWf t = true) : cellsWf (tsets unlisted t l) = true := by
  induction l generalizing t with
  | nil => exact h
  | cons p l ih => exact ih _ (cellsWf_tset t p.1 p.2 h)

/-! One byte, and one write. -/

theorem Mem.put_wf (m : Mem) (st ext loc : Nat) (b : Byte) (h : m.wf = true) : (m.put st ext loc b).wf = true := cellsWf_tset _ _ _ h

/-- A byte reads as the value put there. -/
theorem Mem.put_byte_same (m : Mem) (st ext loc : Nat) (b : Byte) : (m.put st ext loc b).byte loc = b := tget_tset_same _ _ _ _

/-- Putting a byte leaves every other byte alone. -/
theorem Mem.put_byte_ne (m : Mem) (st ext loc : Nat) (b : Byte) (a : Nat) (h : a ≠ loc) : (m.put st ext loc b).byte a = m.byte a :=
  tget_tset_ne _ _ _ _ _ h

theorem Mem.puts_wf (l : List (Nat × Byte)) (st ext : Nat) (m : Mem) (h : m.wf = true) :
    (l.foldl (fun m p => m.put st ext p.1 p.2) m).wf = true := by
  induction l generalizing m with
  | nil => exact h
  | cons p l ih => exact ih _ (m.put_wf st ext p.1 p.2 h)

theorem Mem.puts_byte_other (l : List (Nat × Byte)) (st ext : Nat) (m : Mem) (a : Nat) (h : ∀ p ∈ l, p.1 ≠ a) :
    (l.foldl (fun m p => m.put st ext p.1 p.2) m).byte a = m.byte a := by
  induction l generalizing m with
  | nil => rfl
  | cons p l ih =>
    refine (ih _ fun q hq => h q (List.mem_cons_of_mem _ hq)).trans ?_
    exact m.put_byte_ne st ext p.1 p.2 a (Ne.symm (h p List.mem_cons_self))

/-- The last of a write's bytes at a location is the one it leaves there. -/
theorem Mem.puts_byte_last (l r : List (Nat × Byte)) (p : Nat × Byte) (st ext : Nat) (m : Mem) (h : ∀ q ∈ r, q.1 ≠ p.1) :
    ((l ++ p :: r).foldl (fun m q => m.put st ext q.1 q.2) m).byte p.1 = p.2 := by
  rw [List.foldl_append, List.foldl_cons, Mem.puts_byte_other r _ _ _ _ h, Mem.put_byte_same]

theorem Mem.drain_wf (m : Mem) (e : QEntry) (h : m.wf = true) : (m.drain e).2.wf = true := Mem.puts_wf e.bytes _ _ m h

theorem Mem.drain_byte (m : Mem) (e : QEntry) (a : Nat) :
    (m.drain e).2.byte a = (e.bytes.foldl (fun m p => m.put (m.clock + 1) (extentOf e.bytes e.acc) p.1 p.2) m).byte a := by
  have : ∀ (l : List (Nat × Byte)) (c x : Nat) (m n : Mem), m.cells = n.cells →
      (l.foldl (fun m p => m.put c x p.1 p.2) m).cells = (l.foldl (fun m p => m.put (m.clock + 1) x p.1 p.2) n).cells := by
    intro l c x
    induction l with
    | nil => exact fun _ _ h => h
    | cons p l ih =>
      intro m n h
      exact ih _ _ (by simp only [Mem.put]; rw [h])
  unfold Mem.byte
  rw [← this e.bytes (m.clock + 1) (extentOf e.bytes e.acc) m m rfl]
  rfl

/-! The operations of the ordering machine. -/

theorem drainEntries_wf (l : List QEntry) (m : Mem) (v : View) (h : m.wf = true) : (drainEntries m v l).1.wf = true := by
  induction l generalizing m v with
  | nil => exact h
  | cons e l ih => exact ih _ _ (m.drain_wf e h)

theorem setAgent_mem (s : State) (ag : Agent) (x : AgentSt) : (s.setAgent ag x).mem = s.mem := by
  cases ag <;> rfl

/-- What a drain of some entries does to memory: those that do not fail on their way are drained in turn. -/
theorem drainList_mem (s : State) (ag : Agent) (es rest : List QEntry) :
    (s.drainList ag es rest).mem = (drainEntries s.mem (s.agent ag).view (es.filter (fun e => !s.entryFails e))).1 := setAgent_mem _ _ _

theorem drainList_wf (s : State) (ag : Agent) (es rest : List QEntry) (h : s.mem.wf = true) : (s.drainList ag es rest).mem.wf = true := by
  rw [drainList_mem]
  exact drainEntries_wf _ _ _ h

theorem drainWhere_wf (s : State) (ag : Agent) (p : Nat → Bool) (h : s.mem.wf = true) : (s.drainWhere ag p).mem.wf = true :=
  drainList_wf _ _ _ _ h

theorem drainAll_wf (s : State) (ag : Agent) (h : s.mem.wf = true) : (s.drainAll ag).mem.wf = true := drainList_wf _ _ _ _ h

theorem drainOne_wf (s : State) (ag : Agent) (i : Nat) (h : s.mem.wf = true) : (s.drainOne ag i).mem.wf = true := by
  unfold State.drainOne
  dsimp only
  split
  · exact h
  · exact drainList_wf _ _ _ _ h

theorem storeNow_wf (s : State) (bs : List (Nat × Byte)) (key : Nat) (h : s.mem.wf = true) : (s.storeNow bs key).mem.wf = true :=
  Mem.drain_wf s.mem _ h

theorem atomicStep_wf (s : State) (ag : Agent) (loc n : Nat) (f : Nat → Option Nat) (h : s.mem.wf = true) :
    (s.atomicStep ag loc n f).2.mem.wf = true := by
  have hd := drainWhere_wf s ag (fun x => loc ≤ x && x < loc + n) h
  unfold State.atomicStep
  dsimp only
  unfold State.viewLatest
  dsimp only
  rw [setAgent_mem]
  split
  · exact hd
  · exact storeNow_wf _ _ _ hd

theorem deviceAtomic_wf (s : State) (loc n : Nat) (f : Nat → Nat) (key : Nat) (h : s.mem.wf = true) :
    (s.deviceAtomic loc n f key).2.mem.wf = true := storeNow_wf _ _ _ h

/-- Memory as it reads under a key is canonical too, and memory that no context has written reads alike under every key. -/
theorem Mem.under_wf (m : Mem) (key : Nat) (h : m.wf = true) : (m.under key).wf = true := by
  unfold Mem.under Mem.wf
  dsimp only
  split
  · exact h
  · exact cellsWf_tsets _ _ h

theorem Mem.under_of_no_keys (m : Mem) (key : Nat) (h : m.keys = []) (hp : ∀ p ∈ m.past, ∀ y ∈ p.2, y.hidden key = false) : m.under key = m := by
  have e : m.past.map (fun p => (p.1, p.2.map (fun y => y.under key p.1))) = m.past := by
    conv => rhs; rw [← List.map_id m.past]
    refine List.map_congr_left (fun p mem => ?_)
    have e2 : p.2.map (fun y => y.under key p.1) = p.2 := by
      conv => rhs; rw [← List.map_id p.2]
      exact List.map_congr_left (fun y hy => by simp [Version.under, hp p mem y hy])
    rw [e2]; rfl
  obtain ⟨cells, last, past, clock, poison, bad, after, keys⟩ := m
  dsimp only at h e
  subst h
  simp [Mem.under, e]

theorem queueWrite_mem (s : State) (ag : Agent) (bs : List (Nat × Byte)) (i : Nat) : (s.queueWrite ag bs i).mem = s.mem := setAgent_mem _ _ _

/-! Bytes that are lost, and bytes placed. -/

theorem forget_wf (s : State) (p : Nat → Bool) (h : s.mem.wf = true) : (s.forget p).mem.wf = true := cellsWf_filter _ _ h

theorem scrubbed_wf (s : State) (core : Nat) (h : s.mem.wf = true) : (s.scrubbed core).mem.wf = true := cellsWf_filter _ _ h

theorem Mem.place_wf (m : Mem) (loc n x : Nat) (h : m.wf = true) : (m.place loc n x).wf = true := by
  unfold Mem.place Mem.wf
  dsimp only
  have : ∀ (l : List (Nat × Byte)) (t : List Host.Cell), cellsWf t = true →
      cellsWf (l.foldl (fun (c : List Host.Cell) (p : Nat × Byte) => tset unlisted c (loc + p.1) p.2) t) = true := by
    intro l
    induction l with
    | nil => exact fun _ h => h
    | cons p l ih => exact fun t ht => ih _ (cellsWf_tset t _ p.2 ht)
  exact this _ _ h

theorem placedCode_wf (m : Mem) (w : Nat) (h : m.wf = true) : (placedCode m w).wf = true := by
  have keep : ∀ (m : Mem) (q : SMap (List (Nat × Nat))), m.wf = true → Mem.wf { m with poison := q } = true := fun _ _ h => h
  unfold placedCode
  apply keep
  exact Mem.place_wf _ _ _ _ (Mem.place_wf _ _ _ _ (Mem.place_wf _ _ _ _ (Mem.place_wf _ _ _ _ (Mem.place_wf _ _ _ _ (Mem.place_wf _ _ _ _ h)))))

theorem withFetchWord_wf (s : State) (nbits w : Nat) (h : s.mem.wf = true) : (s.withFetchWord nbits w).mem.wf = true := by
  have hm : (s.withFetchWord nbits w).mem = placedCode s.mem w := by
    unfold State.withFetchWord State.placeWord
    have h1 : ∀ (s : State) f, (s.modCore 0 f).mem = s.mem := fun _ _ => rfl
    have h2 : ∀ (s : State) k, (s.setCluster 0 k).mem = s.mem := fun _ _ => rfl
    have h3 : ∀ (s : State) f, (s.modPart 0 0 f).mem = s.mem := fun _ _ => rfl
    have h4 : ∀ (s : State) f, (s.modCtx 0 f).mem = s.mem := fun _ _ => rfl
    have h5 : ∀ (b : Bool) (s : State) f, (if b then s else s.modPart 0 0 f).mem = s.mem := by
      intro b s f; cases b <;> rfl
    simp only [h4, h5, h2, h1]
  rw [hm]
  exact placedCode_wf _ _ h

theorem fillFree_wf (s : State) (u : Nat) (ks : List Nat) (h : s.mem.wf = true) : (s.fillFree u ks).mem.wf = true := cellsWf_tsets _ _ h

theorem inherit_wf (s : State) (u : Nat) (h : s.mem.wf = true) : (s.inherit u).mem.wf = true := cellsWf_tsets _ _ h

theorem leftover_wf (s : State) (u : Nat) (h : s.mem.wf = true) : (s.leftover u).mem.wf = true := by
  unfold State.leftover
  dsimp only
  split
  · exact h
  · split
    · exact h
    · split
      · exact fillFree_wf _ _ _ h
      · exact inherit_wf _ _ h

/-- The machine is reset with its memory in canonical form. -/
theorem reset_mem_wf : State.reset.mem.wf = true := rfl

end Sys2Proof.Machine
end

