-- ==== Sys2Proof/Tests/Slice0.lean ====
section
/-! SUPPORT. The model's own tests: ill-formed terms, words written out from the spec's encodings, one step of some instructions
on small states, and for every statement a state and operands that meet its hypotheses. -/
namespace Sys2Proof.Tests
open Sys2Proof Sys2Proof.Machine

-- one theorem at a time: their evaluations side by side would take more memory than a check has
set_option Elab.async false

/-! Well-formedness: one ill-formed term for each check. -/

/-- The fields of a word that are all zero. -/
def z : Full := { sub := 0, d := .s 0, a := .s 0, b := .s 0, c := .s 0, pn := false, pm := 0, fs := 0, m5 := false, ty := 0 }
/-- The same of the M-form. -/
def zm : MForm := { sub := 0, d := .s 0, a := .s 0, b := .imm 0, off := 0, pn := false, pm := 0, fs := 0, ty := 0 }
/-- The same of a candidate word. -/
def zc : CWord := { d := 0, a := 0, b := 0, imm := 0 }
/-- The same of a pair slot. -/
def zs : Slot := { pop := 0, d := .s 0, b := .s 0, ty := 0 }

theorem test_wf_operands : [Opnd.s 64, .a 32, .v 256, .t 64, .m 8, .lc 3, .sp 0x4F, .sp 0x5D, .k 16, .e 8, .imm 64, .imm (-65)].all
    (fun o => !(Instr.iadd { z with d := o }).wf && !(Instr.iadd { z with a := o }).wf && !(Instr.iadd { z with b := o }).wf &&
      !(Instr.iadd { z with c := o }).wf) = true := by decide +kernel
theorem test_wf_full : [{ z with sub := 16 }, { z with pm := 8 }, { z with fs := 4 }, { z with ty := 32 }].all
    (fun w => !(Instr.nop w).wf) = true := by decide +kernel
theorem test_wf_mform : [{ zm with sub := 16 }, { zm with d := .v 256 }, { zm with a := .k 16 }, { zm with b := .imm 64 }, { zm with off := 512 },
    { zm with off := -513 }, { zm with pm := 8 }, { zm with fs := 4 }, { zm with ty := 32 }].all (fun w => !(Instr.ld w).wf) = true := by decide +kernel
theorem test_wf_pair : [{ zs with pop := 64 }, { zs with d := .v 256 }, { zs with b := .s 64 }, { zs with ty := 32 }].all
    (fun x => !(Instr.pairWord x zs).wf && !(Instr.pairWord zs x).wf) = true := by decide +kernel
theorem test_wf_candidate : [{ zc with d := 8 }, { zc with a := 8 }, { zc with b := 8 }, { zc with imm := 65536 }, { zc with imm := -65537 }].all
    (fun c => !(Instr.candAdd c).wf) = true := by decide +kernel
theorem test_wf_branches : [Instr.bra 16 (.s 0) 0, .bra 0 (.s 64) 0, .bra 0 (.s 0) 4, .bra 0 (.s 0) 67108864, .brc 0 (.m 1) (-67108872),
    .call 0 (.s 0) (.v 256) 0, .loop (.lc 3) (.s 1) 1, .loop (.lc 0) (.s 1) 0, .loop (.lc 0) (.s 1) 257, .movi (.v 256) 11 0, .movi (.v 0) 32 0].all
    (fun i => !i.wf) = true := by decide +kernel
theorem test_wf_others : [Instr.expr z (.s 0) [1, 0], .expr z (.s 64) (List.replicate 13 0), .expr z (.s 0) (16 :: List.replicate 12 0),
    .reservedOpcode 0, .candIllegal 0x22 zc, .candIllegal 64 zc].all (fun i => !i.wf) = true := by decide +kernel
theorem test_wf_accepts : [Instr.iadd { z with d := .v 255, a := .a 31, b := .imm (-64), ty := 31 }, .ld { zm with off := -512 }, .pairWord zs zs,
    .candLi { zc with imm := -65536 }, .bra 1 (.s 63) (-67108864), .reservedOpcode 0x3F00000000000000, .unitPlace].all (fun i => i.wf) = true := by
  decide +kernel

/-! Decoding: every native and candidate constructor from a word written out field by field (12 R275, R282-R284; 10 R245). -/

/-- A full-form word from its raw fields: OP, SUB, ten bits each of D, A, B and C, PN with PM, MOD (12 R275). -/
def raw (op sub d a b c p md : Nat) : Nat := op * 2 ^ 56 + sub * 2 ^ 52 + d * 2 ^ 42 + a * 2 ^ 32 + b * 2 ^ 22 + c * 2 ^ 12 + p * 2 ^ 8 + md
/-- A candidate word from its raw fields (10 R245). -/
def rawCand (op d a b imm : Nat) : Nat := op * 2 ^ 26 + d * 2 ^ 23 + a * 2 ^ 20 + b * 2 ^ 17 + imm
/-- Each word decodes to its instruction, which is well formed and encodes to it. -/
def reads (l : List (Nat × Instr)) : Bool := l.all (fun p => decodeTableWord 64 p.1 = some p.2 && p.2.wf && encode p.2 = [p.1])
/-- The same for candidate words. -/
def readsCand (l : List (Nat × Instr)) : Bool := l.all (fun p => decodeTableWord 32 p.1 = some p.2 && p.2.wf && encode p.2 = [p.1])

theorem test_decode_control : reads [
    (raw 0x00 0 0x000 0x000 0x000 0x000 0x0 0x00, .nop ⟨0, .s 0, .s 0, .s 0, .s 0, false, 0, 0, false, 0⟩),
    (raw 0x03 0 0x000 0x208 0x000 0x000 0x0 0x00, .jmpi ⟨0, .s 0, .v 8, .s 0, .s 0, false, 0, 0, false, 0⟩),
    (raw 0x05 0 0x000 0x208 0x000 0x000 0x0 0x00, .ret ⟨0, .s 0, .v 8, .s 0, .s 0, false, 0, 0, false, 0⟩),
    (raw 0x06 0 0x000 0x000 0x000 0x000 0x0 0x00, .syncw ⟨0, .s 0, .s 0, .s 0, .s 0, false, 0, 0, false, 0⟩),
    (raw 0x08 0 0x000 0x000 0x000 0x000 0x0 0x00, .lbrk ⟨0, .s 0, .s 0, .s 0, .s 0, false, 0, 0, false, 0⟩),
    (raw 0x09 0 0x000 0x000 0x000 0x000 0xD 0x00, .exitI ⟨0, .s 0, .s 0, .s 0, .s 0, true, 5, 0, false, 0⟩),
    (raw 0x09 1 0x000 0x000 0x000 0x000 0x0 0x00, .exitW ⟨1, .s 0, .s 0, .s 0, .s 0, false, 0, 0, false, 0⟩),
    (raw 0x0A 0 0x000 0x000 0x000 0x000 0x0 0x00, .yield ⟨0, .s 0, .s 0, .s 0, .s 0, false, 0, 0, false, 0⟩),
    (raw 0x0B 0 0x000 0x000 0x000 0x000 0x0 0x00, .bkpt ⟨0, .s 0, .s 0, .s 0, .s 0, false, 0, 0, false, 0⟩),
    (raw 0x0C 0 0x000 0x000 0x000 0x000 0x0 0x00, .trapI ⟨0, .s 0, .s 0, .s 0, .s 0, false, 0, 0, false, 0⟩),
    (raw 0x0D 0 0x000 0x000 0x000 0x000 0x0 0x00, .barSync ⟨0, .s 0, .s 0, .s 0, .s 0, false, 0, 0, false, 0⟩),
    (raw 0x0D 1 0x000 0x000 0x000 0x000 0x0 0x00, .barArrive ⟨1, .s 0, .s 0, .s 0, .s 0, false, 0, 0, false, 0⟩),
    (raw 0x0D 2 0x000 0x000 0x000 0x000 0x0 0x00, .barWait ⟨2, .s 0, .s 0, .s 0, .s 0, false, 0, 0, false, 0⟩),
    (raw 0x0E 0 0x205 0x008 0x3C5 0x000 0x0 0x00, .mwait ⟨0, .v 5, .s 8, .imm 5, .s 0, false, 0, 0, false, 0⟩),
    (raw 0x0F 0 0x000 0x008 0x000 0x000 0x0 0x00, .waitt ⟨0, .s 0, .s 8, .s 0, .s 0, false, 0, 0, false, 0⟩)] = true := by decide +kernel

theorem test_decode_integer : reads [
    (raw 0x10 1 0x205 0x204 0x3C3 0x000 0xD 0x0B, .iadd ⟨1, .v 5, .v 4, .imm 3, .s 0, true, 5, 0, false, 11⟩),
    (raw 0x11 0 0x205 0x204 0x3C3 0x000 0xD 0x0B, .isub ⟨0, .v 5, .v 4, .imm 3, .s 0, true, 5, 0, false, 11⟩),
    (raw 0x12 0 0x205 0x204 0x3C3 0x000 0x0 0x2C, .imul ⟨0, .v 5, .v 4, .imm 3, .s 0, false, 0, 0, true, 12⟩),
    (raw 0x13 0 0x205 0x204 0x3C3 0x000 0x0 0x0B, .imulh ⟨0, .v 5, .v 4, .imm 3, .s 0, false, 0, 0, false, 11⟩),
    (raw 0x14 0 0x205 0x204 0x3C3 0x208 0x0 0x0B, .imad ⟨0, .v 5, .v 4, .imm 3, .v 8, false, 0, 0, false, 11⟩),
    (raw 0x15 0 0x205 0x204 0x3C3 0x000 0x0 0x0B, .idiv ⟨0, .v 5, .v 4, .imm 3, .s 0, false, 0, 0, false, 11⟩),
    (raw 0x16 0 0x205 0x204 0x3C3 0x000 0x0 0x0B, .irem ⟨0, .v 5, .v 4, .imm 3, .s 0, false, 0, 0, false, 11⟩),
    (raw 0x17 0 0x205 0x204 0x000 0x000 0x0 0x0B, .ineg ⟨0, .v 5, .v 4, .s 0, .s 0, false, 0, 0, false, 11⟩),
    (raw 0x18 0 0x205 0x204 0x000 0x000 0x0 0x0B, .iabs ⟨0, .v 5, .v 4, .s 0, .s 0, false, 0, 0, false, 11⟩),
    (raw 0x19 0 0x205 0x204 0x3C3 0x000 0x0 0x0B, .imin ⟨0, .v 5, .v 4, .imm 3, .s 0, false, 0, 0, false, 11⟩),
    (raw 0x1A 0 0x205 0x204 0x3C3 0x000 0x0 0x0B, .imax ⟨0, .v 5, .v 4, .imm 3, .s 0, false, 0, 0, false, 11⟩),
    (raw 0x1B 0 0x205 0x204 0x3C3 0x000 0x0 0x0B, .andI ⟨0, .v 5, .v 4, .imm 3, .s 0, false, 0, 0, false, 11⟩),
    (raw 0x1C 0 0x205 0x204 0x3C3 0x000 0x0 0x0B, .orI ⟨0, .v 5, .v 4, .imm 3, .s 0, false, 0, 0, false, 11⟩),
    (raw 0x1D 0 0x205 0x204 0x3C3 0x000 0x0 0x0B, .xorI ⟨0, .v 5, .v 4, .imm 3, .s 0, false, 0, 0, false, 11⟩),
    (raw 0x1E 0 0x205 0x204 0x3C3 0x000 0x0 0x0B, .andn ⟨0, .v 5, .v 4, .imm 3, .s 0, false, 0, 0, false, 11⟩),
    (raw 0x1F 0 0x205 0x204 0x000 0x000 0x0 0x0B, .notI ⟨0, .v 5, .v 4, .s 0, .s 0, false, 0, 0, false, 11⟩),
    (raw 0x20 0 0x205 0x204 0x3C3 0x000 0x0 0x0B, .shl ⟨0, .v 5, .v 4, .imm 3, .s 0, false, 0, 0, false, 11⟩),
    (raw 0x21 0 0x205 0x204 0x3C3 0x000 0x0 0x0B, .shr ⟨0, .v 5, .v 4, .imm 3, .s 0, false, 0, 0, false, 11⟩),
    (raw 0x22 0 0x205 0x204 0x3C3 0x000 0x0 0x0B, .sar ⟨0, .v 5, .v 4, .imm 3, .s 0, false, 0, 0, false, 11⟩),
    (raw 0x23 0 0x205 0x204 0x3C3 0x000 0x0 0x0B, .rot ⟨0, .v 5, .v 4, .imm 3, .s 0, false, 0, 0, false, 11⟩)] = true := by decide +kernel

theorem test_decode_bits_and_moves : reads [
    (raw 0x24 0 0x205 0x204 0x3C3 0x208 0x0 0x0B, .bfe ⟨0, .v 5, .v 4, .imm 3, .v 8, false, 0, 0, false, 11⟩),
    (raw 0x25 0 0x205 0x204 0x3C3 0x208 0x0 0x0B, .bfi ⟨0, .v 5, .v 4, .imm 3, .v 8, false, 0, 0, false, 11⟩),
    (raw 0x26 0 0x205 0x204 0x000 0x000 0x0 0x0B, .popc ⟨0, .v 5, .v 4, .s 0, .s 0, false, 0, 0, false, 11⟩),
    (raw 0x27 0 0x205 0x204 0x000 0x000 0x0 0x0B, .clz ⟨0, .v 5, .v 4, .s 0, .s 0, false, 0, 0, false, 11⟩),
    (raw 0x28 0 0x205 0x204 0x000 0x000 0x0 0x0B, .ctz ⟨0, .v 5, .v 4, .s 0, .s 0, false, 0, 0, false, 11⟩),
    (raw 0x29 0 0x205 0x204 0x000 0x000 0x0 0x0B, .brev ⟨0, .v 5, .v 4, .s 0, .s 0, false, 0, 0, false, 11⟩),
    (raw 0x2A 6 0x343 0x204 0x3C3 0x000 0x0 0x0B, .icmp ⟨6, .m 3, .v 4, .imm 3, .s 0, false, 0, 0, false, 11⟩),
    (raw 0x2B 0 0x205 0x204 0x3C3 0x344 0x0 0x0B, .isel ⟨0, .v 5, .v 4, .imm 3, .m 4, false, 0, 0, false, 11⟩),
    (raw 0x2C 0 0x205 0x208 0x000 0x000 0x0 0x0B, .movI ⟨0, .v 5, .v 8, .s 0, .s 0, false, 0, 0, false, 11⟩),
    (raw 0x2E 0 0x205 0x204 0x00F 0x000 0x0 0x0B, .cvti ⟨0, .v 5, .v 4, .s 15, .s 0, false, 0, 0, false, 11⟩),
    (raw 0x2F 0 0x205 0x204 0x3C3 0x00C 0x0 0x0B, .lea ⟨0, .v 5, .v 4, .imm 3, .s 12, false, 0, 0, false, 11⟩),
    (raw 0x30 0 0x205 0x008 0x000 0x000 0x0 0x0B, .prom ⟨0, .v 5, .s 8, .s 0, .s 0, false, 0, 0, false, 11⟩),
    (raw 0x31 0 0x005 0x208 0x3C5 0x000 0x0 0x0B, .pickl ⟨0, .s 5, .v 8, .imm 5, .s 0, false, 0, 0, false, 11⟩),
    (raw 0x32 0 0x107 0x208 0x000 0x000 0x0 0x0B, .vtoa ⟨0, .a 7, .v 8, .s 0, .s 0, false, 0, 0, false, 11⟩),
    (raw 0x33 0 0x107 0x008 0x3C5 0x000 0x0 0x2D, .mkaff ⟨0, .a 7, .s 8, .imm 5, .s 0, false, 0, 0, true, 13⟩),
    (raw 0x33 1 0x005 0x103 0x000 0x000 0x0 0x2D, .abase ⟨1, .s 5, .a 3, .s 0, .s 0, false, 0, 0, true, 13⟩),
    (raw 0x33 2 0x005 0x103 0x000 0x000 0x0 0x2D, .astride ⟨2, .s 5, .a 3, .s 0, .s 0, false, 0, 0, true, 13⟩),
    (raw 0x34 0 0x343 0x341 0x342 0x000 0xD 0x00, .mand ⟨0, .m 3, .m 1, .m 2, .s 0, true, 5, 0, false, 0⟩),
    (raw 0x34 1 0x343 0x341 0x342 0x000 0x0 0x00, .mor ⟨1, .m 3, .m 1, .m 2, .s 0, false, 0, 0, false, 0⟩),
    (raw 0x34 2 0x343 0x341 0x342 0x000 0x0 0x00, .mxor ⟨2, .m 3, .m 1, .m 2, .s 0, false, 0, 0, false, 0⟩),
    (raw 0x34 3 0x343 0x341 0x000 0x000 0x0 0x00, .mnot ⟨3, .m 3, .m 1, .s 0, .s 0, false, 0, 0, false, 0⟩),
    (raw 0x34 4 0x343 0x341 0x342 0x000 0x0 0x00, .mandn ⟨4, .m 3, .m 1, .m 2, .s 0, false, 0, 0, false, 0⟩),
    (raw 0x35 0 0x205 0x341 0x000 0x000 0x0 0x00, .mpopc ⟨0, .v 5, .m 1, .s 0, .s 0, false, 0, 0, false, 0⟩),
    (raw 0x35 1 0x205 0x341 0x000 0x000 0x0 0x00, .mffs ⟨1, .v 5, .m 1, .s 0, .s 0, false, 0, 0, false, 0⟩),
    (raw 0x35 2 0x205 0x341 0x000 0x000 0x0 0x00, .mtos ⟨2, .v 5, .m 1, .s 0, .s 0, false, 0, 0, false, 0⟩),
    (raw 0x35 3 0x343 0x204 0x000 0x000 0x0 0x00, .stom ⟨3, .m 3, .v 4, .s 0, .s 0, false, 0, 0, false, 0⟩),
    (raw 0x35 4 0x205 0x000 0x000 0x000 0x0 0x00, .mlive ⟨4, .v 5, .s 0, .s 0, .s 0, false, 0, 0, false, 0⟩)] = true := by decide +kernel

theorem test_decode_capabilities : reads [
    (raw 0x36 0 0x205 0x208 0x102 0x000 0x0 0x0B, .vrdx ⟨0, .v 5, .v 8, .a 2, .s 0, false, 0, 0, false, 11⟩),
    (raw 0x37 0 0x205 0x208 0x102 0x000 0x0 0x0B, .vwrx ⟨0, .v 5, .v 8, .a 2, .s 0, false, 0, 0, false, 11⟩),
    (raw 0x38 0 0x362 0x363 0x00A 0x00C 0x0 0x00, .cnarrow ⟨0, .k 2, .k 3, .s 10, .s 12, false, 0, 0, false, 0⟩),
    (raw 0x39 0 0x362 0x363 0x3C5 0x000 0xD 0x00, .cperm ⟨0, .k 2, .k 3, .imm 5, .s 0, true, 5, 0, false, 0⟩),
    (raw 0x3A 0 0x005 0x363 0x000 0x000 0x0 0x00, .cget ⟨0, .s 5, .k 3, .s 0, .s 0, false, 0, 0, false, 0⟩),
    (raw 0x3B 0 0x005 0x363 0x000 0x000 0x0 0x00, .ctag ⟨0, .s 5, .k 3, .s 0, .s 0, false, 0, 0, false, 0⟩),
    (raw 0x3E 0 0x362 0x363 0x3C5 0x00C 0x0 0x00, .cfmt ⟨0, .k 2, .k 3, .imm 5, .s 12, false, 0, 0, false, 0⟩)] = true := by decide +kernel

theorem test_decode_float : reads [
    (raw 0x40 1 0x205 0x204 0x3C3 0x000 0xD 0x17, .fadd ⟨1, .v 5, .v 4, .imm 3, .s 0, true, 5, 0, false, 23⟩),
    (raw 0x41 0 0x205 0x204 0x3C3 0x000 0x0 0x17, .fsub ⟨0, .v 5, .v 4, .imm 3, .s 0, false, 0, 0, false, 23⟩),
    (raw 0x42 0 0x205 0x204 0x3C3 0x000 0x0 0x37, .fmul ⟨0, .v 5, .v 4, .imm 3, .s 0, false, 0, 0, true, 23⟩),
    (raw 0x43 0 0x205 0x204 0x3C3 0x208 0x0 0x17, .ffma ⟨0, .v 5, .v 4, .imm 3, .v 8, false, 0, 0, false, 23⟩),
    (raw 0x44 0 0x205 0x204 0x3C3 0x000 0x0 0x17, .fmin ⟨0, .v 5, .v 4, .imm 3, .s 0, false, 0, 0, false, 23⟩),
    (raw 0x45 0 0x205 0x204 0x3C3 0x000 0x0 0x17, .fmax ⟨0, .v 5, .v 4, .imm 3, .s 0, false, 0, 0, false, 23⟩),
    (raw 0x46 0 0x205 0x204 0x000 0x000 0x0 0x17, .fabs ⟨0, .v 5, .v 4, .s 0, .s 0, false, 0, 0, false, 23⟩),
    (raw 0x47 0 0x205 0x204 0x000 0x000 0x0 0x17, .fneg ⟨0, .v 5, .v 4, .s 0, .s 0, false, 0, 0, false, 23⟩),
    (raw 0x48 0 0x343 0x204 0x3C3 0x000 0x0 0x17, .fcmp ⟨0, .m 3, .v 4, .imm 3, .s 0, false, 0, 0, false, 23⟩),
    (raw 0x49 0 0x205 0x204 0x3C3 0x000 0x0 0x17, .fdiv ⟨0, .v 5, .v 4, .imm 3, .s 0, false, 0, 0, false, 23⟩),
    (raw 0x4A 0 0x205 0x204 0x000 0x000 0x0 0x17, .fsqrt ⟨0, .v 5, .v 4, .s 0, .s 0, false, 0, 0, false, 23⟩),
    (raw 0x4B 0 0x205 0x204 0x000 0x000 0x0 0x17, .frcp ⟨0, .v 5, .v 4, .s 0, .s 0, false, 0, 0, false, 23⟩),
    (raw 0x4B 1 0x205 0x204 0x000 0x000 0x0 0x17, .frsq ⟨1, .v 5, .v 4, .s 0, .s 0, false, 0, 0, false, 23⟩),
    (raw 0x4B 2 0x205 0x204 0x000 0x000 0x0 0x17, .fexp2 ⟨2, .v 5, .v 4, .s 0, .s 0, false, 0, 0, false, 23⟩),
    (raw 0x4B 3 0x205 0x204 0x000 0x000 0x0 0x17, .flog2 ⟨3, .v 5, .v 4, .s 0, .s 0, false, 0, 0, false, 23⟩),
    (raw 0x4B 4 0x205 0x204 0x000 0x000 0x0 0x17, .fsinpi ⟨4, .v 5, .v 4, .s 0, .s 0, false, 0, 0, false, 23⟩),
    (raw 0x4B 5 0x205 0x204 0x000 0x000 0x0 0x17, .fcospi ⟨5, .v 5, .v 4, .s 0, .s 0, false, 0, 0, false, 23⟩),
    (raw 0x4B 6 0x205 0x204 0x000 0x000 0x0 0x17, .ftanh ⟨6, .v 5, .v 4, .s 0, .s 0, false, 0, 0, false, 23⟩),
    (raw 0x4B 7 0x205 0x204 0x000 0x000 0x0 0x17, .fsigm ⟨7, .v 5, .v 4, .s 0, .s 0, false, 0, 0, false, 23⟩),
    (raw 0x4C 0 0x205 0x204 0x000 0x000 0x0 0x17, .frnd ⟨0, .v 5, .v 4, .s 0, .s 0, false, 0, 0, false, 23⟩),
    (raw 0x4D 0 0x205 0x204 0x017 0x000 0x0 0x16, .fcvt ⟨0, .v 5, .v 4, .s 23, .s 0, false, 0, 0, false, 22⟩),
    (raw 0x4E 0 0x205 0x204 0x000 0x000 0x0 0x0B, .retag ⟨0, .v 5, .v 4, .s 0, .s 0, false, 0, 0, false, 11⟩),
    (raw 0x4F 0 0x205 0x204 0x000 0x000 0x0 0x0B, .fclass ⟨0, .v 5, .v 4, .s 0, .s 0, false, 0, 0, false, 11⟩),
    (raw 0x50 0 0x205 0x208 0x20A 0x208 0x0 0x17, .dotp ⟨0, .v 5, .v 8, .v 10, .v 8, false, 0, 0, false, 23⟩),
    (raw 0x52 0 0x205 0x204 0x102 0x000 0x0 0x17, .fscale ⟨0, .v 5, .v 4, .a 2, .s 0, false, 0, 0, false, 23⟩)] = true := by decide +kernel

theorem test_decode_cross_lane : reads [
    (raw 0x58 0 0x205 0x204 0x206 0x000 0xD 0x0B, .shfl ⟨0, .v 5, .v 4, .v 6, .s 0, true, 5, 0, false, 11⟩),
    (raw 0x59 0 0x205 0x208 0x000 0x000 0x0 0x00, .vote ⟨0, .v 5, .v 8, .s 0, .s 0, false, 0, 0, false, 0⟩),
    (raw 0x5A 8 0x205 0x204 0x000 0x000 0x0 0x17, .vred ⟨8, .v 5, .v 4, .s 0, .s 0, false, 0, 0, false, 23⟩),
    (raw 0x5B 4 0x205 0x204 0x001 0x000 0x0 0x17, .vscan ⟨4, .v 5, .v 4, .s 1, .s 0, false, 0, 0, false, 23⟩),
    (raw 0x5C 0 0x205 0x204 0x000 0x000 0x0 0x0B, .matchI ⟨0, .v 5, .v 4, .s 0, .s 0, false, 0, 0, false, 11⟩)] = true := by decide +kernel

theorem test_decode_memory : reads [
    (raw 0x63 9 0x205 0x208 0x3C3 0x206 0xD 0x0B, .atom ⟨9, .v 5, .v 8, .imm 3, .v 6, true, 5, 0, false, 11⟩),
    (raw 0x64 0 0x205 0x208 0x3C3 0x208 0x0 0x0B, .atcas ⟨0, .v 5, .v 8, .imm 3, .v 8, false, 0, 0, false, 11⟩),
    (raw 0x65 4 0x000 0x000 0x000 0x000 0x0 0x00, .fence ⟨4, .s 0, .s 0, .s 0, .s 0, false, 0, 0, false, 0⟩),
    (raw 0x65 7 0x000 0x000 0x000 0x000 0x0 0x00, .fencePath ⟨7, .s 0, .s 0, .s 0, .s 0, false, 0, 0, false, 0⟩),
    (raw 0x66 0 0x205 0x008 0x000 0x000 0xD 0x2D, .acq ⟨0, .v 5, .s 8, .s 0, .s 0, true, 5, 0, true, 13⟩),
    (raw 0x67 0 0x000 0x008 0x3C3 0x000 0x0 0x2D, .relI ⟨0, .s 0, .s 8, .imm 3, .s 0, false, 0, 0, true, 13⟩),
    (raw 0x68 0 0x000 0x008 0x3C5 0x00C 0x0 0x2D, .bindI ⟨0, .s 0, .s 8, .imm 5, .s 12, false, 0, 0, true, 13⟩),
    (raw 0x69 0 0x000 0x008 0x000 0x000 0x0 0x00, .unbind ⟨0, .s 0, .s 8, .s 0, .s 0, false, 0, 0, false, 0⟩),
    (raw 0x6A 0 0x000 0x008 0x3C5 0x000 0x0 0x00, .abarInit ⟨0, .s 0, .s 8, .imm 5, .s 0, false, 0, 0, false, 0⟩),
    (raw 0x6A 1 0x000 0x008 0x3C5 0x000 0x0 0x00, .abarArrive ⟨1, .s 0, .s 8, .imm 5, .s 0, false, 0, 0, false, 0⟩),
    (raw 0x6A 2 0x000 0x008 0x3C5 0x000 0x0 0x00, .abarWait ⟨2, .s 0, .s 8, .imm 5, .s 0, false, 0, 0, false, 0⟩),
    (raw 0x6A 3 0x205 0x008 0x3C5 0x000 0x0 0x00, .abarTest ⟨3, .v 5, .s 8, .imm 5, .s 0, false, 0, 0, false, 0⟩),
    (raw 0x6B 0 0x000 0x208 0x000 0x206 0x0 0x00, .cflush ⟨0, .s 0, .v 8, .s 0, .v 6, false, 0, 0, false, 0⟩),
    (raw 0x6C 0 0x000 0x008 0x3C5 0x000 0x0 0x00, .icinv ⟨0, .s 0, .s 8, .imm 5, .s 0, false, 0, 0, false, 0⟩)] = true := by decide +kernel

theorem test_decode_tiles_and_engines : reads [
    (raw 0x70 0 0x309 0x008 0x000 0x000 0xD 0x00, .tcfg ⟨0, .t 9, .s 8, .s 0, .s 0, true, 5, 0, false, 0⟩),
    (raw 0x71 0 0x000 0x30A 0x000 0x000 0x0 0x00, .trel ⟨0, .s 0, .t 10, .s 0, .s 0, false, 0, 0, false, 0⟩),
    (raw 0x72 0 0x205 0x30A 0x000 0x000 0x0 0x00, .tstat ⟨0, .v 5, .t 10, .s 0, .s 0, false, 0, 0, false, 0⟩),
    (raw 0x72 1 0x000 0x30A 0x000 0x000 0x0 0x00, .tzero ⟨1, .s 0, .t 10, .s 0, .s 0, false, 0, 0, false, 0⟩),
    (raw 0x72 2 0x000 0x30A 0x000 0x000 0x0 0x00, .twait ⟨2, .s 0, .t 10, .s 0, .s 0, false, 0, 0, false, 0⟩),
    (raw 0x73 0 0x309 0x30A 0x30B 0x000 0x0 0x00, .mma ⟨0, .t 9, .t 10, .t 11, .s 0, false, 0, 0, false, 0⟩),
    (raw 0x73 1 0x309 0x30A 0x30B 0x000 0x0 0x00, .mmaCks ⟨1, .t 9, .t 10, .t 11, .s 0, false, 0, 0, false, 0⟩),
    (raw 0x74 3 0x309 0x30A 0x30B 0x00C 0x0 0x00, .mstep ⟨3, .t 9, .t 10, .t 11, .s 12, false, 0, 0, false, 0⟩),
    (raw 0x74 0 0x000 0x3B9 0x000 0x000 0x0 0x00, .gang ⟨0, .s 0, .imm (-7), .s 0, .s 0, false, 0, 0, false, 0⟩),
    (raw 0x74 1 0x000 0x000 0x000 0x000 0x0 0x00, .mown ⟨1, .s 0, .s 0, .s 0, .s 0, false, 0, 0, false, 0⟩),
    (raw 0x74 2 0x000 0x000 0x000 0x000 0x0 0x00, .mpass ⟨2, .s 0, .s 0, .s 0, .s 0, false, 0, 0, false, 0⟩),
    (raw 0x75 0 0x000 0x371 0x00A 0x364 0x0 0x00, .cgo ⟨0, .s 0, .e 1, .s 10, .k 4, false, 0, 0, false, 0⟩),
    (raw 0x75 1 0x000 0x374 0x00A 0x364 0x0 0x00, .ggo ⟨1, .s 0, .e 4, .s 10, .k 4, false, 0, 0, false, 0⟩),
    (raw 0x75 2 0x000 0x376 0x00A 0x364 0x0 0x00, .xgo ⟨2, .s 0, .e 6, .s 10, .k 4, false, 0, 0, false, 0⟩),
    (raw 0x76 0 0x000 0x371 0x00A 0x000 0x0 0x00, .tlge ⟨0, .s 0, .e 1, .s 10, .s 0, false, 0, 0, false, 0⟩),
    (raw 0x76 1 0x000 0x371 0x3C5 0x000 0x0 0x00, .tlout ⟨1, .s 0, .e 1, .imm 5, .s 0, false, 0, 0, false, 0⟩),
    (raw 0x76 2 0x205 0x371 0x000 0x000 0x0 0x00, .tlrd ⟨2, .v 5, .e 1, .s 0, .s 0, false, 0, 0, false, 0⟩),
    (raw 0x76 3 0x205 0x371 0x000 0x000 0x0 0x00, .tliss ⟨3, .v 5, .e 1, .s 0, .s 0, false, 0, 0, false, 0⟩),
    (raw 0x76 4 0x205 0x371 0x000 0x000 0x0 0x00, .tlflt ⟨4, .v 5, .e 1, .s 0, .s 0, false, 0, 0, false, 0⟩),
    (raw 0x77 0 0x205 0x000 0x007 0x000 0x0 0x00, .commit ⟨0, .v 5, .s 0, .s 7, .s 0, false, 0, 0, false, 0⟩)] = true := by decide +kernel

theorem test_decode_system : reads [
    (raw 0x78 0 0x000 0x010 0x000 0x000 0x0 0x00, .spawn ⟨0, .s 0, .s 16, .s 0, .s 0, false, 0, 0, false, 0⟩),
    (raw 0x79 0 0x005 0x008 0x000 0x000 0x0 0x00, .joinI ⟨0, .s 5, .s 8, .s 0, .s 0, false, 0, 0, false, 0⟩),
    (raw 0x7A 0 0x000 0x008 0x010 0x000 0x0 0x00, .emit ⟨0, .s 0, .s 8, .s 16, .s 0, false, 0, 0, false, 0⟩),
    (raw 0x7A 1 0x005 0x008 0x000 0x000 0x0 0x00, .launch ⟨1, .s 5, .s 8, .s 0, .s 0, false, 0, 0, false, 0⟩),
    (raw 0x7A 2 0x000 0x008 0x3C5 0x000 0x0 0x00, .cancel ⟨2, .s 0, .s 8, .imm 5, .s 0, false, 0, 0, false, 0⟩),
    (raw 0x7A 3 0x205 0x008 0x3C5 0x000 0x0 0x00, .lvlcnt ⟨3, .v 5, .s 8, .imm 5, .s 0, false, 0, 0, false, 0⟩),
    (raw 0x7B 0 0x205 0x208 0x00A 0x000 0x0 0x00, .crun ⟨0, .v 5, .v 8, .s 10, .s 0, false, 0, 0, false, 0⟩),
    (raw 0x7B 1 0x205 0x208 0x00A 0x000 0x0 0x00, .vsti ⟨1, .v 5, .v 8, .s 10, .s 0, false, 0, 0, false, 0⟩),
    (raw 0x7B 2 0x205 0x208 0x00A 0x000 0x0 0x00, .vstq ⟨2, .v 5, .v 8, .s 10, .s 0, false, 0, 0, false, 0⟩),
    (raw 0x7B 3 0x000 0x3B9 0x000 0x000 0x0 0x00, .vstc ⟨3, .s 0, .imm (-7), .s 0, .s 0, false, 0, 0, false, 0⟩),
    (raw 0x7C 0 0x205 0x000 0x000 0x002 0xD 0x00, .srd ⟨0, .v 5, .s 0, .s 0, .s 2, true, 5, 0, false, 0⟩),
    (raw 0x7C 1 0x000 0x008 0x000 0x003 0x0 0x00, .swr ⟨1, .s 0, .s 8, .s 0, .s 3, false, 0, 0, false, 0⟩),
    (raw 0x7D 0 0x205 0x000 0x000 0x000 0x0 0x00, .timens ⟨0, .v 5, .s 0, .s 0, .s 0, false, 0, 0, false, 0⟩),
    (raw 0x7D 1 0x205 0x000 0x000 0x000 0x0 0x00, .cycles ⟨1, .v 5, .s 0, .s 0, .s 0, false, 0, 0, false, 0⟩),
    (raw 0x7F 0 0x205 0x008 0x000 0x000 0x0 0x00, .perfrd ⟨0, .v 5, .s 8, .s 0, .s 0, false, 0, 0, false, 0⟩),
    (raw 0x7E 0 0x205 0x008 0x000 0x000 0x0 0x00, .winrd ⟨0, .v 5, .s 8, .s 0, .s 0, false, 0, 0, false, 0⟩),
    (raw 0x7E 1 0x000 0x008 0x20A 0x000 0x0 0x00, .winwr ⟨1, .s 0, .s 8, .v 10, .s 0, false, 0, 0, false, 0⟩),
    (raw 0x7E 2 0x000 0x000 0x000 0x000 0x0 0x00, .tresume ⟨2, .s 0, .s 0, .s 0, .s 0, false, 0, 0, false, 0⟩),
    (raw 0x7E 3 0x000 0x000 0x000 0x000 0x0 0x00, .tkill ⟨3, .s 0, .s 0, .s 0, .s 0, false, 0, 0, false, 0⟩),
    (raw 0x7E 4 0x000 0x000 0x000 0x000 0x0 0x00, .tescal ⟨4, .s 0, .s 0, .s 0, .s 0, false, 0, 0, false, 0⟩)] = true := by decide +kernel

theorem test_decode_candidate : readsCand [
    (rawCand 0x00 1 2 3 0x1FFFB, .candHalt ⟨1, 2, 3, -5⟩),
    (rawCand 0x01 1 2 3 0x1FFFB, .candAdd ⟨1, 2, 3, -5⟩),
    (rawCand 0x02 1 2 3 0x1FFFB, .candSub ⟨1, 2, 3, -5⟩),
    (rawCand 0x03 1 2 3 0x1FFFB, .candMul ⟨1, 2, 3, -5⟩),
    (rawCand 0x04 1 2 3 0x1FFFB, .candDiv ⟨1, 2, 3, -5⟩),
    (rawCand 0x05 1 2 3 0x1FFFB, .candRem ⟨1, 2, 3, -5⟩),
    (rawCand 0x06 1 2 3 0x1FFFB, .candAnd ⟨1, 2, 3, -5⟩),
    (rawCand 0x07 1 2 3 0x1FFFB, .candOr ⟨1, 2, 3, -5⟩),
    (rawCand 0x08 1 2 3 0x1FFFB, .candXor ⟨1, 2, 3, -5⟩),
    (rawCand 0x09 1 2 3 0x1FFFB, .candShl ⟨1, 2, 3, -5⟩),
    (rawCand 0x0A 1 2 3 0x1FFFB, .candShr ⟨1, 2, 3, -5⟩),
    (rawCand 0x0B 1 2 3 0x1FFFB, .candSar ⟨1, 2, 3, -5⟩),
    (rawCand 0x0C 1 2 3 0x1FFFB, .candMin ⟨1, 2, 3, -5⟩),
    (rawCand 0x0D 1 2 3 0x1FFFB, .candMax ⟨1, 2, 3, -5⟩),
    (rawCand 0x0E 1 2 3 0x1FFFB, .candSlt ⟨1, 2, 3, -5⟩),
    (rawCand 0x0F 1 2 3 0x1FFFB, .candSeq ⟨1, 2, 3, -5⟩),
    (rawCand 0x10 1 2 3 0x1FFFB, .candAddi ⟨1, 2, 3, -5⟩),
    (rawCand 0x11 1 2 3 0x1FFFB, .candMuli ⟨1, 2, 3, -5⟩),
    (rawCand 0x12 1 2 3 0x1FFFB, .candAndi ⟨1, 2, 3, -5⟩),
    (rawCand 0x13 1 2 3 0x1FFFB, .candLi ⟨1, 2, 3, -5⟩),
    (rawCand 0x14 1 2 3 0x1FFFB, .candLis ⟨1, 2, 3, -5⟩),
    (rawCand 0x15 1 2 3 0x1FFFB, .candNeg ⟨1, 2, 3, -5⟩),
    (rawCand 0x16 1 2 3 0x1FFFB, .candAbs ⟨1, 2, 3, -5⟩),
    (rawCand 0x17 1 2 3 0x1FFFB, .candLd ⟨1, 2, 3, -5⟩),
    (rawCand 0x18 1 2 3 0x1FFFB, .candSt ⟨1, 2, 3, -5⟩),
    (rawCand 0x19 1 2 3 0x1FFFB, .candLdx ⟨1, 2, 3, -5⟩),
    (rawCand 0x1A 1 2 3 0x1FFFB, .candBeq ⟨1, 2, 3, -5⟩),
    (rawCand 0x1B 1 2 3 0x1FFFB, .candBne ⟨1, 2, 3, -5⟩),
    (rawCand 0x1C 1 2 3 0x1FFFB, .candBlt ⟨1, 2, 3, -5⟩),
    (rawCand 0x1D 1 2 3 0x1FFFB, .candBge ⟨1, 2, 3, -5⟩),
    (rawCand 0x1E 1 2 3 0x1FFFB, .candJmp ⟨1, 2, 3, -5⟩),
    (rawCand 0x1F 1 2 3 0x1FFFB, .candOut ⟨1, 2, 3, -5⟩),
    (rawCand 0x20 1 2 3 0x1FFFB, .candSel ⟨1, 2, 3, -5⟩),
    (rawCand 0x21 1 2 3 0x1FFFB, .candClz ⟨1, 2, 3, -5⟩),
    (rawCand 0x22 1 2 3 0x1FFFB, .candPopc ⟨1, 2, 3, -5⟩),
    (rawCand 0x23 7 6 5 0x0FFFF, .candIllegal 0x23 ⟨7, 6, 5, 65535⟩),
    (rawCand 0x3F 0 0 0 0x10000, .candIllegal 0x3F ⟨0, 0, 0, -65536⟩)] = true := by decide +kernel

theorem test_decode_branches : reads [
    (raw 0x01 1 0x009 0 0 0 0 0, .bra 1 (.s 9) 0),
    (0x01 * 2 ^ 56 + 0xFFFFFE * 2 ^ 8, .bra 0 (.s 0) (-16)),
    (0x02 * 2 ^ 56 + 1 * 2 ^ 52 + (768 + 0x45) * 2 ^ 42 + 0x7FFFFF * 2 ^ 8, .brc 1 (.m 5) 67108856),
    (0x04 * 2 ^ 56 + (512 + 6) * 2 ^ 32 + 3 * 2 ^ 8, .call 0 (.s 0) (.v 6) 24),
    (0x04 * 2 ^ 56 + 1 * 2 ^ 52 + 10 * 2 ^ 42 + (512 + 6) * 2 ^ 32, .call 1 (.s 10) (.v 6) 0),
    (0x07 * 2 ^ 56 + (768 + 0xC5) * 2 ^ 42 + (768 + 0x49) * 2 ^ 32 + 255, .loop (.lc 1) (.imm 5) 256)] = true := by decide +kernel
theorem test_decode_forms : reads [
    (0x2D08181700000000, .movi (.v 6) 23 0),
    (0x60081101F000202E, .ld { zm with d := .v 4, a := .a 1, off := 2, ty := 23 }),
    (0x61 * 2 ^ 56 + 2 * 2 ^ 52 + 520 * 2 ^ 42 + 522 * 2 ^ 32 + 518 * 2 ^ 22 + 0x3FF * 2 ^ 12 + 2 * 2 ^ 8 + 10 * 2,
      .st { zm with sub := 2, d := .v 8, a := .v 10, b := .v 6, off := -1, pm := 2, ty := 10 }),
    (0x62 * 2 ^ 56 + (768 + 0x63) * 2 ^ 32 + (768 + 0xC0) * 2 ^ 22, .pfetch { zm with a := .k 3 }),
    (0x3C * 2 ^ 56 + (768 + 0x61) * 2 ^ 42 + 8 * 2 ^ 32 + (768 + 0xC0) * 2 ^ 22, .cld { zm with d := .k 1, a := .s 8 }),
    (0x3D * 2 ^ 56 + (768 + 0x61) * 2 ^ 42 + (768 + 0x62) * 2 ^ 32 + 9 * 2 ^ 22, .cst { zm with d := .k 1, a := .k 2, b := .s 9 }),
    (0x8300C0AB250140D7, .pairWord { pop := 1, d := .v 1, b := .v 5, ty := 11 } { pop := 0x12, d := .v 2, b := .v 6, ty := 23 }),
    (0x5300000000000001, .reservedOpcode 0x5300000000000001), (0x6F00000000000000, .reservedOpcode 0x6F00000000000000)] = true := by decide +kernel
/-- The worked encodings of the spec (12 R288; 10 R240, R254; 07 R173, R180). -/
theorem test_decode_worked : reads [
    (0x40180E0481400017, .fadd { z with sub := 1, d := .v 3, a := .v 4, b := .v 5, ty := 23 }),
    (0x0110240000000000, .bra 1 (.s 9) 0),
    (0x7B08220905000000, .crun { z with d := .v 8, a := .v 9, b := .s 20 }),
    (0x7B180EF201400000, .vsti { z with sub := 1, d := .v 3, a := .v 242, b := .s 5 }),
    (0x7B3003C300000000, .vstc { z with sub := 3, a := .imm 3 }),
    (0x7800001000000000, .spawn { z with a := .s 16 }),
    (0x79000C1400000000, .joinI { z with d := .s 3, a := .s 20 })] = true := by decide +kernel
/-- The EXPR of 12 R288's table; and one whose program leaves two values, which is refused (12 R283). -/
theorem test_decode_expr :
    decodeTableWord 128 (0x517826040280B017 + 0x0001238F00000000 * 2 ^ 64) = some (.expr
      { z with sub := 7, d := .v 9, a := .v 4, b := .s 10, c := .s 11, ty := 23 } (.s 0) [1, 2, 3, 8, 15, 0, 0, 0, 0, 0, 0, 0, 0]) ∧
    decodeTableWord 128 (0x517826040280B017 + 0x0001230000000000 * 2 ^ 64) = none := by decide +kernel
/-- Encodings that 12 R288 refuses: a reserved code, a field out of its file, an unlisted SUB, a stray field, FS 3, PN with m0, MOD against 12 R279. -/
theorem test_decode_refuses : [raw 0x10 3 0x205 0x204 0x206 0 0 11, raw 0x10 0 0x34B 0x204 0x206 0 0 11, raw 0x10 0 0x040 0x204 0x206 0 0 11,
    raw 0x10 0 0x205 0x204 0x206 1 0 11, raw 0x10 0 0x205 0x204 0x206 0 0 (3 * 64 + 11), raw 0x10 0 0x205 0x204 0x206 0 8 11,
    raw 0x10 0 0x205 0x204 0x206 0 0 13, raw 0x10 0 0x005 0x204 0x006 0 0 11, raw 0x40 5 0x205 0x204 0x206 0 0 23, raw 0x0A 0 0 0 0 0 1 0].all
    (fun w => (decodeTableWord 64 w).isNone) = true := by decide +kernel
/-- The interchange record of the spec (12 R290), and BLOCK and END. -/
theorem test_decode_records :
    (decodeRecord 8 [0x60, 0x20, 0x12, 0x05, 0x83, 0x06, 0x00, 0x17, 0x04]).toOption =
      some (.ld { zm with d := .v 4, a := .a 1, off := 2, ty := 23 }, 9) ∧
    (decodeRecord 8 [0xFE, 0xA0, 0x01]).toOption = some (.blockRecord 160, 3) ∧
    (decodeRecord 8 [0xFF]).toOption = some (.endRecord, 1) ∧ (decodeRecord 8 [0x80]).toOption = some (.reservedOpcode 0x8000000000000000, 1) := by decide +kernel
/-- The first step of a state into which a word is placed runs it. -/
theorem test_first_step_runs :
    (match step (State.reset.withFetchWord 64 (raw 0x10 0 0x205 0x303 0x303 0 0 11 + 0xC0 * 2 ^ 32 + 0xC0 * 2 ^ 22)) with
      | .next t => (t.wave 0).rv 5 31 == 6
      | _ => false) = true := by decide +kernel

/-! Witnesses: a state, operands and cursors that meet the hypotheses of each statement, clause by clause. -/

/-- Full register declarations. -/
def foot : Foot := { vregs := 256, sregs := 64, aregs := 32, scratch := 512, tiles := 64, engines := 255 }
/-- A clause header with f0 in SETA and f1 in SETB (12 R271). -/
def hdr : DWord := 0xE100001000000000
/-- A wave whose lanes stand at the first word of a clause: v20 to v23 hold FP32 ones and twos, k1 a tagged capability of 16 MiB of scratch. -/
def wv : Wave :=
  let v : Wave := { placedWave with
    lanes := (List.range 32).map (fun l => (l, { Lane.init with pc := 8, clause := some (0, hdr) }))
    v := (List.range 32).map (fun l => (4 * 32 + l, BitVec.ofNat 32 (l + 1))) ++ (List.range 64).map (fun l => (20 * 32 + l, 0x3F800000#32)) ++
      (List.range 64).map (fun l => (22 * 32 + l, 0x40000000#32))
    vtag := [(20, 23), (21, 23), (22, 23), (23, 23)], masks := [(1, 0xFFFF), (2, 0xFF00FF)], a := [(0, { base := 4096, stride := 4 })], age := 5 }
  ((v.wk 1 (capOf 0x2000000000000000 0x1000000 0xFF 11 0) true).ws2 8 0x2000000000000000).ws2 10 64
/-- One unit of one wave. -/
def base : State := { State.reset.modPart 0 0 (fun p => { p with limit := 63, state := 1 }) with
  waves := [(0, wv)], units := [(0, { placedUnit with foot })], launches := [(0, { Launch.blank with complete := false, foot })]
  cores := [(0, { CoreSt.init with ctx := some 0 })], nextId := 9 }
/-- The cursor of the whole wave at that word. -/
def cur : Cursor := { wave := 0, group := 0xFFFFFFFF, pc := 8, next := 16, clause := some (0, hdr), modBase := none, lastInClause := false, minor := 0, vvirt := 0, cand := none }
/-- The cursor of lane 31 alone, at the last word. -/
def cur1 : Cursor := { cur with group := 0x80000000, lastInClause := true }
/-- The state in which a cursor's word executes. -/
def at_ (s : State) (c : Cursor) : State := { s with cur := some c }

/-- Whether a word issues at a cursor. -/
def issuesB (s : State) (c : Cursor) (i : Instr) (h : Head) : Bool :=
  decide (s.cur = some c) && (s.issueFault (s.issOf c h.pn h.pm) i h).isNone

theorem issuesB_iff (s : State) (c : Cursor) (i : Instr) (h : Head) : issuesB s c i h = true ↔ Issues s c i h := by
  constructor
  · intro k
    simp only [issuesB, Bool.and_eq_true, decide_eq_true_eq, Option.isNone_iff_eq_none] at k
    exact ⟨k.1, k.2⟩
  · intro k
    simp only [issuesB, k.cur, k.ok, decide_true, Option.isNone_none, Bool.and_self]

/-- The issuing word of `base` at a cursor. -/
def iss (c : Cursor) (w : Full) : Iss := (at_ base c).issOf c w.pn w.pm

/-- Hypotheses of IntWord for a word in both cursors. -/
def intMeets (i : Full → Instr) (srcs : Full → List Opnd) (cls : ClsPol) (w : Full) (cs : List Cursor) : Bool :=
  cs.all (fun c => issuesB (at_ base c) c (i w) (headT w (srcs w)) && intGroup w.ty && tagsAre (iss c w) (srcs w) w.ty && (iss c w).e != 0 &&
    computedLevel cls w != 1)

/-- A two-operand integer word. -/
def w2 : Full := { z with d := .v 5, a := .v 4, b := .imm 3, ty := 11 }
/-- A wide one at the last pair, predicated. -/
def w2w : Full := { z with d := .v 254, a := .a 31, b := .imm (-64), m5 := true, ty := 13, pm := 1 }
/-- The fields of a one-operand word. -/
def un (w : Full) : Full := { w with b := .s 0 }

theorem witness_Destinations : (iss cur w2).e ≠ 0 ∧ (iss cur1 w2).e ≠ 0 ∧ 31 < 32 ∧ 0 < 1 := by decide +kernel
theorem witness_IntegerResults :
    (let ab := fun (w : Full) => [w.a, w.b]
     let a1 := fun (w : Full) => [w.a]
     let cs := [cur, cur1]
     intMeets .iadd ab .add w2 cs && intMeets .iadd ab .add { w2 with sub := 1 } cs && intMeets .iadd ab .add { w2 with sub := 2, a := .imm 63, ty := 7 } cs.tail &&
     intMeets .isub ab .add w2 cs && intMeets .isub ab .add { w2 with sub := 2 } cs && intMeets .imul ab .mul w2 cs && intMeets .imulh ab .join w2w [cur] &&
     intMeets .imad (fun w => [w.a, w.b, w.c]) .join { w2 with c := .s 63 } cs && intMeets .idiv ab .join { w2 with b := .imm 0 } cs &&
     intMeets .irem ab .join { w2 with b := .imm 0 } cs && intMeets .ineg a1 .join (un w2) cs && intMeets .iabs a1 .join (un w2w) [cur] &&
     intMeets .imin ab .join w2 cs && intMeets .imax ab .join w2w [cur] && intMeets .shl ab .shl { w2 with b := .imm 63 } cs &&
     intMeets .shr ab .join { w2 with b := .imm (-1) } cs && intMeets .sar ab .join w2 cs && intMeets .rot ab .join { w2 with sub := 1 } cs &&
     intMeets .iadd ab .add { w2 with d := .s 63, a := .s 62 } [cur]) = true := by decide +kernel
theorem witness_IntegerResults_affine :
    (let m := fun (i : Full → Instr) (cls : ClsPol) (w : Full) (st : Int) => issuesB (at_ base cur) cur (i w) (headT w [w.a, w.b]) && intGroup w.ty &&
       tagsAre (iss cur w) [w.a, w.b] w.ty && (iss cur w).e != 0 && computedLevel cls w = 1 && strideOk st
     let w : Full := { z with d := .a 31, a := .a 0, b := .imm 63, ty := 11 }
     m .iadd .add w 4 && m .isub .add { w with a := .imm 1, b := .a 0 } (-4) && m .imul .mul w (4 * 63) && m .imul .mul { w with a := .s 9, b := .a 0 } 0 &&
     m .shl .shl { w with b := .imm 28 } (4 * 2 ^ 28) && strideOk (-(2 ^ 31 : Nat)) && !strideOk (2 ^ 31 : Nat)) = true := by decide +kernel
theorem witness_BitAndMaskResults :
    (let b := fun (i : Full → Instr) (srcs : List Opnd) (w : Full) (c : Cursor) =>
       issuesB (at_ base c) c (i w) (headT w srcs) && (keptTag (iss c w) srcs w.ty).isSome
     let k := fun (i : Full → Instr) (w : Full) (regs : List (Opnd × Nat)) => issuesB (at_ base cur) cur (i w) (headF w regs (perWave w.d)) &&
       wordInts w.ty && tagsAre (iss cur w) [w.a] w.ty
     let m : Full := { z with d := .m 7, a := .m 0, b := .m 1 }
     let g : Full := { z with d := .v 5, a := .m 1 }
     b .andI [w2.a, w2.b] w2 cur && b .orI [w2.a, w2.b] w2 cur1 && b .xorI [.v 20, .imm 3] { w2 with a := .v 20, ty := 23 } cur &&
     b .andn [w2.a, w2.b] w2 cur && b .notI [w2.a] (un w2) cur1 &&
     k .bfe { w2 with c := .imm 31 } [(.v 5, 1), (.v 4, 1), (.imm 3, 1), (.imm 31, 1)] && k .bfe { w2 with sub := 1, c := .s 8 } [(.v 5, 1), (.v 4, 1), (.imm 3, 1), (.s 8, 1)] &&
     k .bfi { w2 with c := .imm 31 } [(.v 5, 1), (.v 4, 1), (.imm 3, 1), (.imm 31, 1)] && tagsAre (iss cur w2) [.v 4, .v 5] 11 &&
     k .popc (un w2) [(.v 5, 1), (.v 4, 1)] && k .clz (un w2w) [(.v 254, 2), (.a 31, 2)] && k .ctz (un w2) [(.v 5, 1), (.v 4, 1)] &&
     k .brev (un w2) [(.v 5, 1), (.v 4, 1)] &&
     [Instr.mand m, .mor { m with sub := 1 }, .mxor { m with sub := 2 }, .mnot { m with sub := 3, b := .s 0 }, .mandn { m with sub := 4 }].all
       (fun i => issuesB (at_ base cur1) cur1 i (headF m [] false)) &&
     [Instr.mpopc g, .mffs { g with sub := 1 }, .mtos { g with sub := 2 }, .mlive { g with sub := 4, a := .s 0 }].all
       (fun i => issuesB (at_ base cur) cur i (headF g [(.v 5, 1)] false)) &&
     [Opnd.v 4, .s 8].all (fun a => issuesB (at_ base cur) cur (.stom { m with sub := 3, a, b := .s 0 }) (headF m [(a, 1)] false))) = true := by
  decide +kernel
theorem witness_MoveResults :
    (let t := fun (i : Instr) (h : Head) (c : Cursor) => issuesB (at_ base c) c i h
     let d : Full := { z with d := .v 5, a := .v 4, ty := 11 }
     let aff : Full := { z with d := .a 3, a := .a 0, ty := 13, m5 := true }
     let reg : List (Opnd × Nat) := [(.v 5, 1), (.v 4, 1)]
     [w2, { w2 with ty := 15 }].all (fun w => (wordInts w.ty || w.ty = 15) && w.ty = 15 || tagsAre (iss cur w) [w.a, w.b] w.ty &&
       t (.icmp { w with sub := 9, d := .m 7 }) (headF w [(.v 4, 1), (.imm 3, 1)] false) cur1) &&
     t (.isel { w2 with c := .m 0 }) (headF w2 [(.v 5, 1), (.v 4, 1), (.imm 3, 1)] false) cur && (keptTag (iss cur w2) [w2.a, w2.b] 11).isSome &&
     t (.movI d) (headT d [d.a]) cur1 && (keptTag (iss cur d) [d.a] 11).isSome && (d.a.level != 1 : Bool) && t (.prom { d with a := .s 8 }) (headT d [.s 8]) cur &&
     t (.movI aff) (headT aff [aff.a]) cur && (aff.a.level = 1 : Bool) && t (.prom { aff with d := .v 6 }) (headT { aff with d := .v 6 } [aff.a]) cur1 &&
     [Opnd.s 63, .a 31, .v 255].all (fun o => t (.movi o 11 0xFFFFFFFF) (Head.plain [(o, 1)] (perWave o)) cur) &&
     t (.lea { d with b := .v 6, c := .imm 63 }) (headF d (reg ++ [(.v 6, 1), (.imm 63, 1)]) false) cur && computedLevel .lea { d with b := .v 6, c := .imm 63 } != 1 &&
     t (.lea { aff with b := .s 10 }) (headF aff [(.a 3, 2), (.a 0, 2), (.s 10, 2), (.s 0, 1)] true) cur && computedLevel .lea { aff with b := .s 10 } = 1 &&
     t (.pickl { d with d := .s 5, b := .imm 31 }) (headF d [(.s 5, 1), (.v 4, 1), (.imm 31, 1)] true) cur &&
     t (.vtoa { d with d := .a 3 }) (headF d [(.a 3, 1), (.v 4, 1)] true) cur &&
     (affineFit 32 (lanesOf (iss cur d).live) (fun l => base.src (iss cur d) (.v 4) 11 false l)).isSome &&
     t (.mkaff { z with d := .a 31, a := .s 8, b := .imm (-64), m5 := true, ty := 13 }) (headF z [(.a 31, 1), (.s 8, 2), (.imm (-64), 1)] true) cur &&
     t (.abase { z with sub := 1, d := .s 8, a := .a 0, m5 := true, ty := 13 }) (headF z [(.s 8, 2), (.a 0, 1)] true) cur &&
     t (.astride { z with sub := 2, d := .s 8, a := .sp 0x50, ty := 11 }) (headF z [(.s 8, 1), (.sp 0x50, 1)] true) cur &&
     t (.vrdx { d with a := .v 254, b := .imm 1 }) (headF d [(.v 5, 1), (.v 254, 1), (.imm 1, 1)] false) cur && (iss cur d).wave.rtag 255 = 11 && 254 + 1 * 1 + 1 ≤ 256 &&
     t (.vwrx { d with b := .imm 0 }) (headF d [(.v 5, 1), (.v 4, 1), (.imm 0, 1)] false) cur1) = true := by decide +kernel
theorem witness_ConversionResults :
    (let m := fun (i : Instr) (w : Full) (src : Nat) => (intGroup src || floatGroup src || convGroup src) && convOk src w.ty &&
       tagsAre (iss cur w) [w.a] src && (iss cur w).e != 0 && issuesB (at_ base cur) cur i (headF w [(w.d, regsFor w.ty), (w.a, regsFor src)] (perWave w.d))
     let w : Full := { z with d := .v 6, a := .v 20, b := .s 23, ty := 11, sub := 1 }
     m (.cvti w) w 23 && intGroup w.ty && m (.cvti { w with d := .v 255, ty := 7 }) { w with d := .v 255, ty := 7 } 23 &&
     m (.fcvt { w with ty := 22, sub := 7 }) { w with ty := 22, sub := 7 } 23 && floatGroup 22 &&
     m (.fcvt { w with a := .v 4, b := .s 11, ty := 23 }) { w with a := .v 4, b := .s 11, ty := 23 } 11) = true := by decide +kernel
theorem witness_CapabilityResults :
    (let w : Full := { z with d := .k 15, a := .k 1, b := .s 10, c := .s 12 }
     let x := iss cur w
     x.e != 0 && x.wave.rktag 1 && issuesB (at_ base cur) cur (.cnarrow w) (headF w [(.k 15, 4), (.k 1, 4), (.s 10, 2), (.s 12, 2)] true) &&
     (base.addrBase x w.b 0).toNat + (base.addrBase x w.c 0).toNat ≤ (x.wave.rk 1).length &&
     issuesB (at_ base cur) cur (.cperm { w with b := .imm (-1), c := .s 0 }) (headF w [(.k 15, 4), (.k 1, 4), (.imm (-1), 1)] true) &&
     issuesB (at_ base cur) cur (.cfmt { w with b := .imm 31, c := .imm 63 }) (headF w [(.k 15, 4), (.k 1, 4), (.imm 31, 1), (.imm 63, 1)] true) &&
     [0, 1, 4].all (fun sub => issuesB (at_ base cur) cur (.cget { z with sub, d := .s 8, a := .k 0 }) (headF z [(.s 8, if sub < 2 then 2 else 1), (.k 0, 4)] true)) &&
     issuesB (at_ base cur) cur (.ctag { z with d := .s 9, a := .k 15 }) (headF z [(.s 9, 1), (.k 15, 4)] true)) = true := by decide +kernel
theorem witness_CapabilityFormatRule :
    (let w : Full := { z with d := .k 15, a := .k 1, b := .imm 31, c := .imm 63 }
     let h := fun (a : Opnd) => headF w [(.k 15, 4), (a, 4), (.imm 31, 1), (.imm 63, 1)] true
     issuesB (at_ base cur) cur (.cfmt w) (h (.k 1)) && (iss cur w).e != 0 && (iss cur w).wave.rktag 1 && (Instr.cfmt w).illegal.isNone &&
     issuesB (at_ base cur) cur (.cfmt { w with a := .k 0 }) (h (.k 0)) && !(iss cur w).wave.rktag 0 && (base.wave 0).stoppable) = true := by decide +kernel
theorem witness_FloatResults :
    (let f : Full := { z with d := .v 24, a := .v 20, b := .v 22, ty := 23 }
     let m := fun (i : Full → Instr) (w : Full) (srcs : List Opnd) => [cur, cur1].all (fun c => issuesB (at_ base c) c (i w) (headT w srcs) && floatGroup w.ty &&
       shortFloat w.ty && tagsAre (iss c w) srcs w.ty)
     let ab : List Opnd := [.v 20, .v 22]
     let a : List Opnd := [.v 20]
     m .fadd { f with sub := 7 } ab && m .fsub f ab && m .fmul { f with m5 := true } ab && m .ffma { f with sub := 4, c := .v 21 } [.v 20, .v 22, .v 21] && m .fdiv f ab &&
     m .fmin f ab && m .fmax f ab &&
     [Instr.fsqrt, .fabs, .fneg, .frnd].all (fun i => m i (un f) a) &&
     ([(Instr.frcp, 0), (.frsq, 1), (.fexp2, 2), (.flog2, 3), (.fsinpi, 4), (.fcospi, 5), (.ftanh, 6), (.fsigm, 7)] : List ((Full → Instr) × Nat)).all
       (fun p => m p.1 { un f with sub := p.2 } a) &&
     issuesB (at_ base cur1) cur1 (.fcmp { f with sub := 7, d := .m 1 }) (headF f [(.v 20, 1), (.v 22, 1)] false) && tagsAre (iss cur f) ab 23 &&
     issuesB (at_ base cur) cur (.retag { un f with ty := 11 }) (headT { un f with ty := 11 } a) &&
     issuesB (at_ base cur) cur (.fclass (un f)) (headF f [(.v 24, 1), (.v 20, 1)] false) &&
     issuesB (at_ base cur) cur (.fscale { f with b := .imm (-64) }) (headF f [(.v 24, 1), (.v 20, 1), (.imm (-64), 1)] false) &&
     issuesB (at_ base cur) cur (.dotp { f with c := .imm 0 }) (headF f [(.v 24, 1), (.v 20, 2), (.v 22, 2), (.imm 0, 1)] false) &&
     tagsAre (iss cur f) [.v 20, secondOf (.v 20), .v 22, secondOf (.v 22), .imm 0] 23 &&
     issuesB (at_ base cur) cur (.dotp { f with a := .v 4, b := .v 6, c := .imm 0, ty := 11 }) (headF f [(.v 24, 1), (.v 4, 2), (.v 6, 2), (.imm 0, 1)] false) &&
     tagsAre (iss cur f) [.v 4, secondOf (.v 4), .v 6, secondOf (.v 6), .imm 0] 11 &&
     issuesB (at_ base cur) cur (.expr { f with b := .s 0 } (.s 0) [1, 12, 0, 0, 0, 0, 0, 0, 0, 0, 0, 0, 0]) (headF f [(.v 24, 1), (.v 20, 1)] false)) = true := by
  decide +kernel
theorem witness_PairAndCrossLane :
    (let p : Slot := { pop := 1, d := .v 4, b := .v 5, ty := 11 }
     let q : Slot := { pop := 0x12, d := .v 22, b := .v 23, ty := 23 }
     let d : Full := { z with d := .v 5, a := .v 4, ty := 11 }
     let done := fun (r : Res) => match r with
       | .done _ => true
       | _ => false
     let bad := fun (r : Res) => match r with
       | .fault _ _ _ _ _ => true
       | _ => false
     let x := (at_ base cur).issOf cur false 0
     issuesB (at_ base cur) cur (.pairWord p q) (Head.plain [] false) &&
     (match slotRun p x (at_ base cur) with
       | .done s1 => done (slotRun q x s1) && bad (slotRun { q with d := .v 6, b := .v 7 } x s1)
       | _ => false) &&
     bad (slotRun { p with d := .v 20, b := .v 21 } x (at_ base cur)) &&
     issuesB (at_ base cur) cur (.pairWord { p with d := .v 20, b := .v 21 } q) (Head.plain [] false) &&
     issuesB (at_ base cur) cur (.pairWord p { q with d := .v 6, b := .v 7 }) (Head.plain [] false) && issuesB (at_ base cur1) cur1 (.pairWord zs zs) (Head.plain [] false) &&
     issuesB (at_ base cur1) cur1 (.shfl { d with sub := 3, b := .imm 31 }) (headF d [(.v 5, 1), (.v 4, 1), (.imm 31, 1)] false) &&
     issuesB (at_ base cur1) cur1 (.shfl { d with a := .s 8, b := .v 6 }) (headF d [(.v 5, 1), (.s 8, 1), (.v 6, 1)] false) &&
     (keptTag (iss cur d) [.v 4, .imm 31] 11).isSome && (keptTag (iss cur d) [.s 8, .v 6] 11).isSome &&
     [Opnd.m 0, .v 4, .imm 0].all (fun a => issuesB (at_ base cur) cur (.vote { z with sub := 2, d := .s 63, a }) (headF z [(.s 63, 1), (a, 1)] true)) &&
     issuesB (at_ base cur) cur (.vred { d with d := .s 5 }) (headT { d with d := .s 5 } [.v 4]) && intGroup 11 && tagsAre (iss cur d) [.v 4] 11 &&
     issuesB (at_ base cur) cur (.vscan { d with sub := 6, a := .v 20, b := .s 1, ty := 23 }) (headT { d with ty := 23 } [.v 20]) && floatGroup 23 &&
     tagsAre (iss cur d) [.v 20] 23 &&
     issuesB (at_ base cur1) cur1 (.matchI d) (headF d [(.v 5, 1), (.v 4, 1)] false)) = true := by decide +kernel
theorem witness_PairSlots :
    (let x := (at_ base cur).issOf cur false 0
     let ok := fun (p : Slot) => p.pop != 0 && !p.illclass && (p.d :: slotSrcs p).all (fun o => regOk (base.footOf 0) 0 (o, regsFor p.ty)) && !(perWave p.d && x.diverges)
     let int : Slot := { pop := 1, d := .v 4, b := .imm 3, ty := 11 }
     let aff : Slot := { int with d := .a 0 }
     let flt : Slot := { pop := 0x10, d := .v 20, b := .v 22, ty := 23 }
     let level := fun (p : Slot) => computedLevel (if p.pop < 3 then .add else if p.pop = 3 then .mul else .shl) (slotFull p)
     x.e != 0 && intGroup 11 && floatGroup 23 && [1, 2, 3, 7, 8, 9, 0xA, 0xB, 0xD].all (fun pop => ok { int with pop }) &&
     [1, 2, 3, 7].all (fun pop => level { int with pop } != 1 && ok { aff with pop } && level { aff with pop } = 1) &&
     tagsAre x (slotSrcs int) 11 && tagsAre x (slotSrcs aff) 11 && tagsAre x (slotSrcs flt) 23 && strideOk (4 * 2 ^ 3) && !strideOk (4 * 2 ^ 63) &&
     [4, 5, 6, 0xE].all (fun pop => ok { int with pop, b := .v 4 } && (keptTag x (slotSrcs { int with pop, b := .v 4 }) 11).isSome) &&
     ok { int with pop := 0xC, b := .v 4 } && ok { aff with pop := 0xC, d := .a 3, b := .a 0 } && ok { int with pop := 0x18, b := .s 8 } &&
     [Opnd.v 4, .a 0, .s 8].all (fun b => (keptTag x [b] 11).isSome) && [0x10, 0x11, 0x12, 0x13, 0x14, 0x15, 0x16].all (fun pop => ok { flt with pop }) &&
     { int with d := .s 5, b := .v 4 }.illclass && !regOk (base.footOf 0) 0 (.v 255, 2) && !{ flt with d := .v 255, ty := 24 }.illclass &&
     ((at_ base cur1).issOf cur1 false 0).diverges && !{ int with d := .s 5 }.illclass) = true := by decide +kernel

/-- What a word's accesses answer, as `Reaches` has it. -/
def accessed (s : State) (x : Iss) (reqs : List Req) : Checked × State :=
  (s.modWave x.w (fun v => { v with wtlb := v.wtlb + s.misses x reqs })).checkAccess
    x.wave.core (s.unit x.wave.unit).vf x.wave.unit x.wave.sb reqs (x.wave.replay &&& x.g != 0)
/-- A request per lane, all of which pass and reach clean local memory; the test on the places and the state holds. -/
def reachesB (s : State) (x : Iss) (reqs : List Req) (n : Nat) (p : List Place → State → Bool := fun _ _ => true) : Bool :=
  !reqs.isEmpty && match accessed s x reqs with
  | (.ok ps, s1) => ps.length = reqs.length && ps.all (fun p => !isRemote p.loc && (List.range n).all (fun i => !s1.poisoned (p.loc + i))) && p ps s1
  | _ => false

theorem reachesB_iff (s : State) (x : Iss) (reqs : List Req) (n : Nat) (p : List Place → State → Bool) (h : reachesB s x reqs n p = true) :
    ∃ ps s1, Reaches s x reqs ps s1 ∧ Clean s1 ps n ∧ p ps s1 = true := by
  unfold reachesB at h
  simp only [Bool.and_eq_true] at h
  split at h
  · rename_i ps s1 heq
    simp only [Bool.and_eq_true, List.all_eq_true, decide_eq_true_eq, Bool.not_eq_true', List.mem_range] at h
    exact ⟨ps, s1, heq, fun q hq => h.2.1.2 q hq, h.2.2⟩
  · exact absurd h.2 (by decide)

/-- A load in M-form through the scratch base in s8:s9. -/
def ml : MForm := { zm with d := .v 6, a := .s 8, b := .imm 4, off := -1, ty := 11 }
/-- The requests of such a word in `base` at a cursor. -/
def mreqs (c : Cursor) (w : MForm) (size : Nat) (kind : AccKind) (acc : Nat) (paths lanes : List Nat) : List Req :=
  let x := (at_ base c).issOf c w.pn w.pm
  lanes.map (fun l => (at_ base c).reqAt x w.a ((at_ base c).offM x w size l) size size kind acc paths l)
/-- A word issues and its accesses pass. -/
def doesM (c : Cursor) (i : Instr) (h : Head) (reqs : List Req) (n : Nat) (p : List Place → State → Bool := fun _ _ => true) : Bool :=
  issuesB (at_ base c) c i h && reachesB (at_ base c) ((at_ base c).issOf c h.pn h.pm) reqs n p

/-- `base` with virtual page 0 of context 0 mapped to the page at 0x40000, readable and writable (01 R23-R25). -/
def mapped : State :=
  { base.modCtx 0 (fun c => { c with mgmt := { c.mgmt with root := 0x10000 } }) with
    mem := ((base.mem.place 0x10000 8 (0x20000 + 64)).place 0x20000 8 (0x30000 + 64)).place 0x30000 8 (0x40000 + 2 * 64 + 0x36) }
/-- A word whose accesses pass in `mapped`. -/
def doesP (c : Cursor) (i : Instr) (h : Head) (reqs : List Req) (n : Nat) : Bool :=
  issuesB (at_ mapped c) c i h && reachesB (at_ mapped c) ((at_ mapped c).issOf c h.pn h.pm) reqs n

/-- `base` at the word of an instruction whose lanes 5 and 31 have still to take their steps, at a word of scratch. -/
def apart (i : Instr) : State :=
  at_ (base.modWave 0 (fun v => { v with steps := [{ cur, instr := i, left := [(5, locScratch 0 64), (31, locScratch 0 68)], vals := [(0, 7)] }] })) cur
/-- Such a word issues again. -/
def parted (i : Instr) (h : Head) : Bool := issuesB (apart i) cur i h && (((apart i).wave 0).stepsOf cur.group).isSome

theorem witness_AccessFrame : reachesB (at_ base cur) ((at_ base cur).issOf cur false 0)
    (mreqs cur ml 4 AccKind.load 1 pathsAll (List.range 32)) 4 = true := by decide +kernel
theorem witness_Loads :
    (let l := fun (c : Cursor) (w : MForm) => let size := accSize w
       doesM c (.ld w) (headM w [(w.d, if size = 8 then 2 else 1), (w.a, 2), (w.b, 1)] (perWave w.d))
         (mreqs c w size AccKind.load 1 pathsAll (loadLanes ((at_ base c).issOf c w.pn w.pm) w.d)) size
     let k : MForm := { ml with d := .k 15, a := .k 1, b := .imm 16, off := 0, ty := 0 }
     l cur ml && l cur1 { ml with sub := 1, b := .v 4, off := 511 } && l cur { ml with sub := 2, d := .v 254, a := .k 1 } && l cur { ml with d := .s 62, b := .imm 0, off := 3, ty := 13 } &&
     doesM cur (.cld k) (headM k [(.k 15, 4), (.k 1, 2), (.imm 16, 1)] true)
       [(at_ base cur).reqAt ((at_ base cur).issOf cur false 0) (.k 1) ((at_ base cur).srcI ((at_ base cur).issOf cur false 0) (.imm 16) 0 + 0 * 16) 16 16
         AccKind.cld 9 pathsAll 0] 16) = true := by decide +kernel
theorem witness_Stores :
    (let st := fun (c : Cursor) (w : MForm) => let size := accSize w
       doesM c (.st w) (headM w [(w.d, if size = 8 then 2 else 1), (w.a, 2), (w.b, 1)] false)
         (mreqs c w size AccKind.store 2 pathsStore (lanesOf ((at_ base c).issOf c w.pn w.pm).e)) size
     let k : MForm := { ml with d := .k 1, b := .imm 16, off := 0, ty := 0 }
     st cur { ml with d := .v 4, b := .a 0 } && st cur1 { ml with sub := 1, d := .imm 63, a := .k 1 } && st cur { ml with d := .s 62, b := .imm 0, off := 2, ty := 13 } &&
     doesM cur1 (.cst k) (headM k [(.k 1, 4), (.s 8, 2), (.imm 16, 1)] false)
       [(at_ base cur1).reqAt ((at_ base cur1).issOf cur1 false 0) (.s 8) ((at_ base cur1).srcI ((at_ base cur1).issOf cur1 false 0) (.imm 16) 31 + 0 * 16) 16 16
         AccKind.cst 10 pathsStore 31] 16) = true := by decide +kernel
theorem witness_Atomics :
    (let at1 := fun (i : Full → Instr) (c : Cursor) (w : Full) (regs : List (Opnd × Nat)) (off : Nat → Int) (tags : List Opnd) =>
       let x := (at_ base c).issOf c w.pn w.pm
       let size := if wide w.ty then 8 else 4
       tagsAre x tags w.ty && doesM c (i w) (headF w regs (perWave w.d))
         ((lanesOf x.e).map (fun l => (at_ base c).reqAt x w.a (off l) size size AccKind.atomic 4 pathsAtomic l)) size
         (fun _ s1 => (List.range 32).all (fun l => ((s1.wave c.wave).lane l).ag.queue.isEmpty))
     let g : Full := { z with d := .v 5, a := .s 8, b := .v 4, c := .imm 16, ty := 11 }
     at1 .atom cur g [(.v 5, 1), (.s 8, 2), (.v 4, 1), (.imm 16, 1)] (fun _ => 16) [.v 4] && atomTypeOk 0 11 &&
     at1 .atom cur { g with d := .imm 0, b := .s 10, m5 := true, ty := 13, sub := 9 } [(.s 8, 2), (.s 10, 2), (.imm 16, 1)] (fun _ => 16) [.s 10] && atomTypeOk 9 13 &&
     at1 .atom cur { g with b := .v 20, ty := 23, sub := 11 } [(.v 5, 1), (.s 8, 2), (.v 20, 1), (.imm 16, 1)] (fun _ => 16) [.v 20] && atomTypeOk 11 23 &&
     at1 .atcas cur { g with c := .v 4 } [(.v 5, 1), (.s 8, 2), (.v 4, 1), (.v 4, 1)] (fun _ => 0) [.v 4, .v 4] &&
     [cur, cur1].all (fun c => ((at_ base c).wave 0).stepsOf c.group = none) &&
     parted (.atom g) (headF g [(.v 5, 1), (.s 8, 2), (.v 4, 1), (.imm 16, 1)] false) &&
     parted (.atcas { g with c := .v 4 }) (headF g [(.v 5, 1), (.s 8, 2), (.v 4, 1), (.v 4, 1)] false)) = true := by decide +kernel
theorem witness_FencesAndFlushes :
    (let p : MForm := { ml with d := .s 0, off := 0, ty := 0 }
     let f : Full := { z with a := .s 0, c := .imm 5 }
     let ic : Full := { z with a := .s 0, b := .imm 63 }
     [cur, cur1].all (fun c =>
       let x := (at_ base c).issOf c false 0
       (List.range 3).all (fun sub => issuesB (at_ base c) c (.fence { z with sub }) (headF z [] false)) &&
       parted (.fence z) (headF z [] false) && issuesB (at_ base c) c (.fencePath { z with sub := 7 }) (headF z [] false) &&
       doesM c (.pfetch p) (headM p [(.s 8, 2), (.imm 4, 1)] false)
         ((lanesOf x.e).map (fun l => (at_ base c).lineReq x (.s 8) ((at_ base c).offM x p 64 l) AccKind.prefetch pathsAll l)) 64 &&
       issuesB (at_ mapped c) c (.cflush f) (headF f [(.s 0, 2), (.imm 5, 1)] false) && reachesB (at_ mapped c) x
         ((lanesOf x.e).map (fun l => (at_ mapped c).lineReq x (.s 0) ((at_ mapped c).srcI x (.imm 5) l) AccKind.load [0, 1, 7, 8] l)) 64 &&
       x.e != 0 && (c != cur || issuesB (at_ base c) c (.icinv ic) (headF ic [(.s 0, 2), (.imm 63, 1)] true)) &&
       (fetchPathFault ((at_ base c).addrBase x (.s 0) (lowestLane x.e)) false).isNone && (at_ base c).srcU x (.imm 63) 32 (lowestLane x.e) != 0)) = true := by
  decide +kernel
theorem witness_SyncObjects :
    (let x := fun (c : Cursor) => (at_ mapped c).issOf c false 0
     let w : Full := { z with d := .v 5, a := .s 0, ty := 11 }
     let r : Full := { z with a := .s 0, b := .v 4, ty := 11 }
     let b : Full := { z with a := .s 0, b := .s 10, c := .s 0 }
     let s := at_ mapped cur
     [cur, cur1].all (fun c =>
       doesP c (.acq w) (headF w [(.v 5, 1), (.s 0, 2)] false) ((at_ mapped c).uniReqs (x c) (.s 0) 8 8 AccKind.load [0]) 8 &&
       doesP c (.relI r) (headF r [(.s 0, 2), (.v 4, 1)] false) ((at_ mapped c).uniReqs (x c) (.s 0) 8 8 AccKind.store [0]) 8) &&
     doesP cur (.acq { w with d := .s 62, m5 := true, ty := 13 }) (headF w [(.s 62, 2), (.s 0, 2)] true) (s.uniReqs (x cur) (.s 0) 8 8 AccKind.load [0]) 8 &&
     doesP cur (.relI { r with b := .imm (-1), m5 := true, ty := 13 }) (headF r [(.s 0, 2), (.imm (-1), 2)] false)
       (s.uniReqs (x cur) (.s 0) 8 8 AccKind.store [0]) 8 &&
     issuesB s cur (.bindI b) (headF b [(.s 0, 2), (.s 10, 1), (.s 0, 2)] true) && (x cur).e != 0 && (plainPathFault (s.addrBase (x cur) (.s 0) 0) 8 8).isNone &&
     (plainPathFault (s.addrBase (x cur) (.s 0) 0) 64 64).isNone && s.srcU (x cur) (.s 10) 32 0 = 64 && !(s.ctx 0).bindOverlap 0 64 &&
     issuesB s cur (.unbind { z with a := .s 0 }) (headF z [(.s 0, 2)] true) && [cur, cur1].all (fun c => (s.wave 0).stepsOf c.group = none) &&
     parted (.acq w) (headF w [(.v 5, 1), (.s 0, 2)] false) && parted (.relI r) (headF r [(.s 0, 2), (.v 4, 1)] false) &&
     (tfind? s.waves 0).isSome && 31 < 32 && (List.range 8).all (fun i => !s.cutOff (0x40000 + i) && s.cutOff (2 ^ 52 + i)) && 0x40000 + 8 ≤ 2 ^ 96) = true := by decide +kernel
theorem witness_ArrivalBarriers :
    (let s := at_ base cur
     let x := s.issOf cur false 0
     let ok := fun (i : Instr) (h : Head) => issuesB s cur i h
     let w : Full := { z with a := .s 8, b := .imm 0 }
     let d : Full := { w with sub := 3, d := .s 5 }
     let h := fun (u : Bool) => headF w [(.s 8, 2), (.imm 0, 1)] u
     x.e != 0 && reachesB s x [{ lane := 0, ea := s.addrBase x (.s 8) 0, size := 16, kind := AccKind.atomic, align := 16, cap := none, paths := [2] }] 16
       (fun ps s1 => ps.all (fun p => (s1.abarWaiters p.loc 1).mem.abarPhase p.loc = 0 && s1.srcU x (.imm 0) 32 0 = 0 && s1.srcU x (.imm 1) 32 0 = 1)) &&
     ok (.abarInit w) (h true) && ok (.abarArrive { w with sub := 1 }) (h true) && ok (.abarWait { w with sub := 2 }) (h false) &&
     ok (.abarWait { w with sub := 2, b := .imm 1 }) (headF w [(.s 8, 2), (.imm 1, 1)] false) &&
     ok (.abarTest d) (headF d [(.s 5, 1), (.s 8, 2), (.imm 0, 1)] true) &&
     ok (.abarTest { d with d := .v 5, b := .imm 1 }) (headF d [(.v 5, 1), (.s 8, 2), (.imm 1, 1)] false) &&
     (let t := { base.setWave 0 (wv.modLane 0 (fun l => { l with wait := some (.abar 1 (locScratch 0 0) 1) })) with occ := { Occasion.none with a := 0, b := 0 } }
      t.waitOf 0 0 = some (.abar 1 (locScratch 0 0) 1) && t.awake 0 && t.mem.abarPhase (locScratch 0 0) != 1)) = true := by decide +kernel

theorem witness_ArrivalBarriers_phases :
    (let arrive := fun (o : Nat) =>
       let s : State := { base with mem := base.mem.place (locScratch 0 0) 16 o }
       (s.memOf (s.unit (s.wave 0).unit).vf).nat (locScratch 0 0) 16
     31 < 32 && locScratch 0 0 + 16 ≤ 2 ^ 96 && (tfind? base.waves 0).isSome && ((base.wave 0).lane 31).ag.queue.isEmpty &&
     arrive (2 ^ 32 + 2) / 2 ^ 64 = arriveNew (arrive (2 ^ 32 + 2)) 0 / 2 ^ 64 && arrive (2 ^ 32 + 1) / 2 ^ 64 != arriveNew (arrive (2 ^ 32 + 1)) 0 / 2 ^ 64 &&
     RKey.abar 0 != RKey.abarPhase 0) = true := by decide +kernel

/-- `mapped` with page 0 readable and executable, and clause headers of one word at 24 and at 40. -/
def coded : State := { mapped with mem :=
  ((mapped.mem.place 0x30000 8 (0x40000 + 2 * 64 + 0x3A)).place 0x40018 8 (placedHeader false)).place 0x40028 8 (placedHeader false) }
/-- A loop frame. -/
def frame (lc : Nat) (first after : DWord) : LoopFrame := { lc, first, last := after - 8, after, body := 1, buf := [] }
/-- The first wave of a state changed. -/
def with0 (s : State) (f : Wave → Wave) : State := s.setWave 0 (f (s.wave 0))
/-- `base` in an event of wave 0, its lanes of a mask waiting. -/
def waiting (m : Mask) (wt : Wait) : State :=
  { with0 base (fun v => v.modLanes m (fun l => { l with wait := some wt, after := 16 })) with occ := { Occasion.none with a := 0, b := 0 } }
/-- Every lane. -/
def every : Mask := 0xFFFFFFFF
/-- The whole wave at the last word of its clause. -/
def curL : Cursor := { cur with pc := 16, next := 24, lastInClause := true }
/-- A word whose group is all of a wave's live lanes. -/
def full0 (s : State) (c : Cursor) : Bool := c.group &&& (s.wave 0).live = c.group

/-- The whole wave at a record of a module. -/
def curM : Cursor := { cur with clause := none, modBase := some 0 }

theorem witness_Branches :
    (let s := at_ (with0 base (fun v => { v with loops := [frame 0 8 48] }))
     let inB := fun (a : DWord) => (8 : DWord) ≤ a && a < (48 : DWord)
     let home := ((s cur).issOf cur false 0).home
     let w : Full := { z with a := .v 200 }
     [cur, curL].all (fun c => full0 (s c) c &&
       issuesB (s c) c (.bra 0 (.s 0) 8) (Head.plain [] false) && [1, 2].all (fun sub => issuesB (s c) c (.bra sub (.s 10) 40) (Head.plain [(.s 10, 1)] false)) &&
       [0, 1].all (fun sub => issuesB (s c) c (.brc sub (.m 1) 8) (Head.plain [] false))) &&
     inB (home + 8) && inB (home + 40) && !inB (home + 48) && !inB home &&
     (let u := at_ (with0 base (fun v => { v with v := tset 0 v.v (200 * 32) 48 })) cur
      issuesB u cur (.jmpi { w with a := .s 10 }) (headF { z with a := .s 10 } [(.s 10, 2)] false) && issuesB u cur (.ret w) (headF w [(.v 200, 2)] false) && (u.wave 0).loops.isEmpty) &&
     issuesB (s curL) curL (.call 0 (.s 0) (.v 254) 8) (Head.plain [(.v 254, 2)] false) &&
     issuesB (s curL) curL (.call 1 (.s 10) (.v 22) 0) (Head.plain [(.v 22, 2), (.s 10, 2)] false) && (base.wave 0).stoppable &&
     (let t := at_ coded curM
      let x := t.issOf curM false 0
      t.noBlock x (x.home + 8) && !(s cur).noBlock ((s cur).issOf cur false 0) 8 && issuesB t curM (.bra 0 (.s 0) 8) (Head.plain [] false) &&
      issuesB t curM (.brc 1 (.m 1) 8) (Head.plain [] false) && issuesB t curM (.call 0 (.s 0) (.v 254) 8) (Head.plain [(.v 254, 2)] false))) = true := by decide +kernel
theorem witness_WaveWaits :
    (let sw : Full := { z with sub := 0 }
     let mw : Full := { z with d := .v 5, a := .s 8, b := .imm 0 }
     let wt : Full := { z with a := .s 10 }
     let x := (at_ base cur).issOf cur false 0
     let reqs := fun (l : Nat) => [{ lane := l, ea := base.addrBase x (.s 8) l, size := 4, kind := AccKind.load, align := 4, cap := none, paths := pathsAtomic : Req }]
     [cur, cur1].all (fun c => issuesB (at_ base c) c (.syncw sw) (headF sw [] false)) && cur.group = wv.live && (cur1.group != wv.live : Bool) &&
     [(waiting every .syncw, Wait.syncw)].all (fun p => p.1.awake 0 && p.1.allWait 0 p.2) &&
     [cur, cur1].all (fun c => issuesB (at_ base c) c (.mwait mw) (headF mw [(.v 5, 1), (.s 8, 2), (.imm 0, 1)] false)) && x.e != 0 &&
     reachesB (at_ base cur) x (reqs 0) 4 (fun ps s1 => ps.all (fun p => (s1.memOf (s1.vfOf 0)).nat p.loc 4 = 0)) &&
     issuesB (at_ base cur) cur (.mwait { mw with d := .s 63, b := .imm 1 }) (headF mw [(.s 63, 1), (.s 8, 2), (.imm 1, 1)] true) &&
     issuesB (at_ base cur) cur (.waitt { wt with a := .s 0 }) (headF wt [(.s 0, 2)] false) && base.addrBase x (.s 0) 0 ≤ base.timens 0 &&
     issuesB (at_ base cur1) cur1 (.waitt wt) (headF wt [(.s 10, 2)] false) && base.timens 0 < base.addrBase x (.s 10) 31 &&
     (let s := waiting 1 (.mwait 1 (.v 5) 0 0x2000000000000000 (locScratch 0 0) false 1)
      s.awake 0 && s.waitOf 0 0 = some (.mwait 1 (.v 5) 0 0x2000000000000000 (locScratch 0 0) false 1) && (s.memOf (s.vfOf 0)).differed 0 (locScratch 0 0) 1 &&
      !s.cutOff (locScratch 0 0) && (List.range 4).all (fun i => !s.poisoned (locScratch 0 0 + i))) &&
     (let s := waiting 1 (.mwait 1 (.v 5) 0 8 (2 ^ 52) false 1)
      s.awake 0 && s.waitOf 0 0 = some (.mwait 1 (.v 5) 0 8 (2 ^ 52) false 1) && s.cutOff (2 ^ 52)) &&
     (let s := waiting 1 (.waitt 0)
      s.awake 0 && s.waitOf 0 0 = some (.waitt 0) && (0 : DWord) ≤ s.timens 0) &&
     x.cur.wave = x.w && x.g &&& wv.live = x.g && (0x80000001 : Mask) &&& x.g = 0x80000001) = true := by decide +kernel
theorem witness_Loops :
    (let scan := fun (s : State) => s.scanClauses 0 every 257 24 1
     let h := Head.plain [(.s 10, 1)] true
     let nested := fun (lc : Nat) (after : DWord) => with0 coded (fun v => { v with loops := [frame lc 8 after, frame 2 8 64] })
     let ends := fun (s : State) => (scan s).1 = .ends 40 32
     [coded, nested 1 40].all (fun s => issuesB (at_ s curL) curL (.loop (.lc 0) (.s 10) 1) h && ends (at_ s curL) &&
       (s.wave 0).loops.length < 3 && (s.wave 0).loops.all (fun f => f.lc != 0) && ((s.wave 0).loops.head?.all (fun f => (40 : DWord) ≤ f.after))) &&
     issuesB (at_ coded curL) curL (.loop (.lc 2) (.imm 0) 1) (Head.plain [(.imm 0, 1)] true) && clauseAfter 0 hdr = 24 &&
     [0, 1, 2].all (fun n => let s := with0 (waiting every .loopEnd) (fun v => { v with loops := [frame 2 8 16, frame 0 8 64] }.wlc 2 (BitVec.ofNat 32 n))
       s.awake 0 && (lanesOf every).all (fun l => ((s.wave 0).lane l).wait = some .loopEnd) && ((s.wave 0).rlc 2).toNat = n) &&
     [base, nested 1 40].all (fun s => issuesB (at_ s cur) cur (.lbrk z) (headF z [] true)) &&
     (let m := fun (s : State) => at_ { s with mem := s.mem.place 0x40010 1 0xFF } curM
      [coded, nested 1 40].all (fun s => issuesB (m s) curM (.loop (.lc 0) (.s 10) 1) h && ((m s).scanRecords 0 every 0 1024 16 1).1 = .endless) &&
      ((at_ coded curM).scanRecords 0 every 0 1024 16 1).1 = .ends 23 16)) = true := by decide +kernel
theorem witness_YieldRule :
    (let s := with0 base (fun v => { v with skipCycle := true })
     issuesB (at_ base cur) cur (.yield z) (headF z [] false) && issuesB (at_ base cur1) cur1 (.yield z) (headF z [] false) && (Instr.yield z).illegal.isNone &&
     (s.wave 0).skipCycle && (tfind? s.waves 0).isSome && (s.portWaves 0 0).contains 0 && ((none : Option Nat) != some 0)) = true := by decide +kernel
theorem witness_LaneEndingAndTraps :
    (let t := fun (c : Cursor) (i : Instr) => issuesB (at_ base c) c i (headF z [] false)
     let p : Full := { z with pm := 7 }
     [cur, cur1].all (fun c => [Instr.nop z, .exitI z, .exitW { z with sub := 1 }, .bkpt z, .trapI z].all (t c) &&
       [Instr.blockRecord 3, .endRecord].all (fun i => issuesB (at_ base c) c i (Head.plain [] false)) && ((at_ base c).issOf c false 0).e != 0) &&
     [Instr.bkpt p, .trapI p].all (fun i => issuesB (at_ base cur) cur i (headF p [] false)) && ((at_ base cur).issOf cur false 7).e = 0 &&
     wv.handles.isNone && wv.live &&& ~~~(0x80000000#32) != 0 && !wv.exited && wv.trapState = .running) = true := by decide +kernel
theorem witness_UnitBarrier :
    (let arrived := with0 base (fun v => { v with barArrived := true, barEver := true, barLast := 0 })
     let passed := with0 base (fun v => { v with barEver := true, barLast := 1 })
     let t := fun (s : State) (i : Instr) => issuesB (at_ s cur) cur i (headF z [] true)
     [base, arrived, passed].all (fun s => t s (.barArrive { z with sub := 1 }) && t s (.barWait { z with sub := 2 }) && t s (.barSync z)) &&
     base.barPasses 0 && !arrived.barPasses 0 && passed.barPasses 0 &&
     (base.barArrive 0 every).barPasses 0 &&
     (let two := { base with units := [(0, { placedUnit with foot, waves := [0, 1] })], waves := [(0, wv), (1, { wv with idx := 1, slot := 1 })] }
      !(two.barArrive 0 every).barPasses 0 && !(two.wave 0).barArrived && two.barJudge 0 = two) &&
     (let s := waiting every .barWait
      s.awake 0 && s.allWait 0 .barWait && s.barPasses 0) &&
     (let s := waiting every .barArrive
      s.awake 0 && s.allWait 0 .barArrive && !(s.wave 0).barArrived) &&
     (let s := waiting every .barSyncArrive
      s.allWait 0 .barSyncArrive && !(s.wave 0).barArrived && (s.barArrive 0 every).barPasses 0 &&
      (let two := { s with units := [(0, { placedUnit with foot, waves := [0, 1] })], waves := s.waves ++ [(1, { wv with idx := 1, slot := 1 })] }
       two.awake 0 && two.allWait 0 .barSyncArrive && !(two.barArrive 0 every).barPasses 0)) &&
     (let ps := (arrived.unit 0).waves.filter (fun w => !(arrived.wave w).exited)
      !ps.isEmpty && ps.all (fun w => (arrived.wave w).barArrived))) = true := by decide +kernel

/-- A trap record. -/
def trapRec : TrapRec := { code := Code.trapsw, cls := 1, lane := 31, access := 15, pc := 8, nextpc := 16, ea := 0, group := 0x80000000 }
/-- `base` with its wave trapped and first in line for the Newel slot. -/
def trapped : State := { base.takeFault 0 trapRec with occ := { Occasion.none with a := 0 } }
/-- The state in which its handler, wave 9, has started, with an index in s10 and one in s11. -/
def handling : State := match exec .handlerStart trapped with
  | .next t => (t.modWave 9 (fun v => (v.ws 10 0x104).ws 11 0x300)).modWave 9 (fun v => v.ws 12 0x308)
  | _ => base
/-- The handler's cursor. -/
def curH : Cursor := { cur with wave := 9, pc := 0, next := 8, clause := none }

theorem witness_TakingAFault : (wv.handles.isNone && (base.wave 0).resident) = true := by decide +kernel
theorem witness_Handlers :
    ((trapped.core 0).newel.isNone && trapped.nextTrapped 0 = some 0 && trapped.readCancel 0 = 0 && 0 < trapped.nextId && trapped.nextId = 9 &&
     (trapped.wave 0).steps.isEmpty && trapped.clusterRuns 0 &&
     (handling.wave 9).handles = some 0 &&
     [Instr.tresume { z with sub := 2 }, .tkill { z with sub := 3 }, .tescal { z with sub := 4 }].all
       (fun i => issuesB (at_ handling curH) curH i (headF z [] true).handlerOnly)) = true := by decide +kernel
theorem witness_HandlerWindow :
    (let s := at_ handling curH
     let x := s.issOf curH false 0
     let r := fun (d a : Opnd) (e : WinEntry) => issuesB s curH (.winrd { z with d, a }) (headF z [(d, 1), (a, 1)] false).handlerOnly &&
       winEntry (s.footOf 0) (s.srcU x a 32 0 % 65536) = some e && (!e.varying || isVarying d) && (!perWave d || !x.diverges)
     let w := fun (a b : Opnd) (e : WinEntry) => issuesB s curH (.winwr { z with sub := 1, a, b }) (headF z [(a, 1), (b, 1)] false).handlerOnly &&
       winEntry (s.footOf 0) (s.srcU x a 32 0 % 65536) = some e && !e.readOnly && (!isVarying b || e.varying) && (e.varying || !x.diverges) && x.e != 0 &&
       (match s.winWrite 0 e x.e (fun l => BitVec.ofNat 32 (s.srcU x b 32 l)) with
        | .ok _ => true
        | .error _ => false)
     r (.s 20) (.imm 0) (.s 0) && r (.v 5) (.imm 63) (.s 63) && r (.v 5) (.s 10) (.v 4) && r (.s 20) (.s 11) .live &&
     w (.imm 0) (.s 0) (.s 0) && w (.imm 63) (.imm (-1)) (.s 63) && w (.s 10) (.v 5) (.v 4) && w (.s 12) (.imm 63) .pcLo &&
     [(at_ base cur, cur), (s, curH)].all (fun p => p.1.cur = some p.2 && (p.1.wave p.2.wave).stoppable && (p.1.wave p.2.wave).stepsOf p.2.group = none) &&
     (wv.handles.isNone : Bool) && (x.wave.handles != none : Bool)) = true := by decide +kernel

/-- A tile descriptor (02 R58). -/
def tdesc (buf off rows cols fmt : Nat) : DWord := BitVec.ofNat 64 (buf * 2 ^ 62 + off / 64 * 2 ^ 40 + (rows - 1) * 2 ^ 32 + (cols - 1) * 2 ^ 24 + fmt * 2 ^ 19)
/-- The unit of `base` changed. -/
def unit0 (s : State) (f : UnitSt → UnitSt) : State := s.setUnit 0 (f (s.unit 0))
/-- A unit that owns the engine, with tiles t0 an accumulator, t1 activations, t2 weights, t3 READY with a reader and t4 FILLING. -/
def tiled : State :=
  let t : Tile := { Tile.init with cfg := true }
  (unit0 base (fun u => (((((u.setTile 0 { t with desc := tdesc 2 0 16 64 23, state := .ready }).setTile 1 { t with desc := tdesc 1 0 16 32 23, state := .ready }).setTile 2
    { t with desc := tdesc 0 0 32 64 23, state := .ready }).setTile 3 { t with state := .ready, readers := 1 }).setTile 4 { t with state := .filling }))).setCore 0
    { CoreSt.init with ctx := some 0, owner := some 0 }
/-- A word in a state, at the whole wave's cursor. -/
def okIn (s : State) (i : Instr) (h : Head) : Bool := issuesB (at_ s cur) cur i h

theorem witness_TileWords :
    (let u := tiled.unit 0
     let x := (at_ tiled cur).issOf cur false 0
     let s := at_ (with0 tiled (fun v => v.ws2 10 (tdesc 1 64 16 16 23))) cur
     let d := s.addrBase (s.issOf cur false 0) (.s 10) 0
     let t := fun (n : Nat) => ({ z with a := .t n } : Full)
     x.e != 0 && okIn s (.tcfg { z with d := .t 63, a := .s 10 }) (headF z [(.s 10, 2)] true).notHandler && !u.descBad d && u.verdict 63 .tcfg = .go && u.verdict 0 .tcfg = .go &&
     okIn tiled (.trel (t 63)) (headF z [] true).notHandler && u.verdict 63 .trel = .go && u.verdict 0 .trel = .go &&
     okIn tiled (.tzero { t 1 with sub := 1 }) (headF z [] true).notHandler && u.verdict 1 .tzero = .go &&
     okIn tiled (.twait { t 3 with sub := 2 }) (headF z [] false) && u.verdict 3 .twait = .go &&
     okIn tiled (.tstat { t 63 with d := .v 5 }) (headF z [(.v 5, 1)] false) && okIn tiled (.tstat { t 0 with d := .s 63 }) (headF z [(.s 63, 1)] true) && u.foot.tiles = 64 &&
     (u.tile 4).state = .filling && (u.tile 3).state = .ready && (u.tile 3).readers != 0 && (u.tile 0).state = .ready && (u.tile 0).readers = 0) = true := by decide +kernel
theorem witness_MatrixWords :
    (let free := tiled.setCore 0 { CoreSt.init with ctx := some 0 }
     let g : Full := { z with a := .s 10 }
     let gs := with0 tiled (fun v => v.ws 10 0)
     let ok := fun (e : Except Code State) => match e with
       | .ok _ => true
       | .error _ => false
     let x := (at_ gs cur).issOf cur false 0
     let q := { waiting every (.hold .mown) with occ := { Occasion.none with a := 0 } }
     let q := q.setCore 0 { q.core 0 with owner := none, mowners := [0] }
     let m : Full := { z with d := .t 0, a := .t 1, b := .t 2 }
     let r := with0 tiled (fun v => v.ws 10 (BitVec.ofNat 32 (1 + 256 * 1)))
     [tiled, free].all (fun s => okIn s (.mown { z with sub := 1 }) (headF z [] true).notHandler && (s.unit 0).hasCtx 7) &&
     (tiled.core 0).owner = some 0 && (free.core 0).owner.isNone && (free.core 0).mowners.all (fun u => !free.mownWaits u) &&
     okIn tiled (.mpass { z with sub := 2 }) (headF z [] true).notHandler && ((tiled.unit 0).ctx 7).outstanding = 0 &&
     okIn gs (.gang g) (headF g [(.s 10, 1)] true) && ok ((at_ gs cur).writeStatus 0 4 (BitVec.ofNat 32 (gs.srcU x (.s 10) 32 0))) &&
     (q.core 0).owner.isNone && (q.core 0).mowners.filter q.mownWaits = [0] && q.clusterRuns (clusterOf 0) &&
     bits wv.gang.toNat 26 24 < 2 && tiled.judgeTiles 0 (matrixUses 0 2 [1]) = .go && ((tiled.unit 0).ctx 7).outstanding < 16 &&
     okIn tiled (.mma m) (headF z [] true).notHandler && ((tiled.unit 0).matrixCheck 0 1 0 1 2 0).toOption = some (0, 2) &&
     (let k := unit0 tiled (fun u => u.setTile 5 { Tile.init with cfg := true, desc := tdesc 2 0 17 65 23, state := .ready })
      okIn k (.mmaCks { m with sub := 1, d := .t 5 }) (headF z [] true).notHandler && ((k.unit 0).matrixCheck 1 1 5 1 2 0).toOption = some (0, 2) &&
      k.judgeTiles 0 (matrixUses 5 2 [1]) = .go) &&
     (let s := { unit0 tiled (fun u => { (u.setTile 0 { u.tile 0 with desc := tdesc 2 0 32 64 23 }) with waves := [0, 1] }) with
        waves := [(0, { wv with gang := BitVec.ofNat 32 (2 * 2 ^ 24 + 16) }), (1, { wv with idx := 1, slot := 1, exited := true })] }
      okIn s (.mma m) (headF z [] true).notHandler && bits (s.wave 0).gang.toNat 26 24 = 2 && (s.unit 0).waves.contains 1 && (s.wave 1).exited &&
      (gangMembers (s.wave 0).gang).contains (s.wave 1).idx && ((s.unit 0).matrixCheck 0 2 0 1 2 0).toOption.isSome) &&
     okIn r (.mstep { m with sub := 3, c := .s 10 }) (headF z [(.s 10, 1)] true).notHandler &&
     ((tiled.unit 0).matrixCheck 3 1 0 1 2 (BitVec.ofNat 32 (r.srcU ((at_ r cur).issOf cur false 0) (.s 10) 32 0))).toOption = some (1, 1)) = true := by decide +kernel

/-- An operation at the head of a context. -/
def opOf (kind : OpKind) (phase : OpPhase) (d : List DWord) : Op :=
  { num := 3, kind, wave := 0, phase, entry := 1, loop := none, row := 0, got := [], reserved := false, requested := false, round := none, moved := [],
    slot := none, filled := [], arrived := 0, afresh := false, stops := false, seen := [(1, d)], ag := AgentSt.init }
/-- `tiled` in an event of a context of its unit, with an operation. -/
def running (e : Nat) (o : Op) : State :=
  { unit0 tiled (fun u => u.setEng e { EngCtx.init with iss := 3, cnt := 2, ops := [o] }) with occ := { Occasion.none with a := 0, b := e } }
/-- The doublewords of an entry: kind and flags, then D1 to D7. -/
def ent (d0 : Nat) (ds : List Nat) : List DWord := BitVec.ofNat 64 d0 :: ds.map (BitVec.ofNat 64)
/-- A chain in scratch. -/
def chain0 : OpKind := .chain 0x2000000000000000 none
/-- A matrix operation of wave 0 on tiles 0, 1 and 2. -/
def mma0 : OpKind := .mma 0 0 2 [(0, 1)] 0 2
/-- The operation at the head runs, and its entry has been read. -/
def atHead (s : State) (e : Nat) (o : Op) : Bool :=
  (s.unit 0).headOp e = some o && o.phase = .running && s.enginesRun 0 && e != 7 && (match s.entryNow 0 e o with
    | (.ok d, _) => tfind? o.seen o.entry = some d
    | _ => false)

theorem witness_MatrixRuns :
    (let g : Word := BitVec.ofNat 32 (2 * 2 ^ 24 + 0 + 16 * 1)
     let h := fun (w ta : Nat) => ({ wave := w, lanes := every, op := 0x73, sub := 0, td := 0, ta, tb := 2, r := 0, flag := 15 } : LatchEntry)
     let w0 := { wv with gang := g }.modLanes every (fun l => { l with wait := some (.hold .gangLatch) })
     let t : Tile := { Tile.init with cfg := true, desc := tdesc 1 0 16 32 23, state := .ready }
     let s := { unit0 tiled (fun u => { (u.setTile 5 t).setTile 0 { t with desc := tdesc 2 0 32 64 23 } with waves := [0, 1], latch := [h 1 5, h 0 1] }) with
       waves := [(0, w0), (1, { w0 with idx := 1, slot := 1 })], occ := { Occasion.none with a := 0 } }
     s.latchFull 0 = some (g, [h 1 5, h 0 1]) && s.gangOrder g [h 1 5, h 0 1] = [h 0 1, h 1 5] && s.awake 0 && s.awake 1 && !s.latchClash g [h 1 5, h 0 1] &&
     [h 0 1, h 1 5].all (fun k => ((s.unit 0).matrixCheck 0 2 k.td k.ta k.tb k.r).toOption = some (0, 2)) && s.judgeTiles 0 (matrixUses 0 2 [1, 5]) = .go &&
     ((s.unit 0).ctx 7).outstanding = 0 &&
     (let c := s.modWave 1 (fun v => { v with gang := BitVec.ofNat 32 (3 * 2 ^ 24 + 16 + 2 * 256) })
      let l := unit0 s (fun u => { u with latch := [h 1 4, { h 0 1 with td := 1 }] })
      [(l, g)].all (fun p => p.1.latchFull 0 = some (p.2, (p.1.unit 0).latch) && p.1.latchClash p.2 (p.1.unit 0).latch) &&
      (let z := (s.modWave 1 (fun v => { v with gang := 0 })).modWave 0 (fun v => { v with gang := 0 })
       z.latchFull 0 = some (0, (z.unit 0).latch) && z.latchClash 0 (z.unit 0).latch) && c.awake 1) &&
     ((running 7 (opOf mma0 .running [])).unit 0).groupsLeft 0 0 2 = [0, 1] &&
     (((unit0 (running 7 (opOf mma0 .running [])) (fun u => u.setTile 0 { u.tile 0 with kstep := 1 })).unit 0).groupsLeft 0 0 2) = [1] &&
     [opOf mma0 .running [], { opOf mma0 .running [] with requested := true, reserved := true }].all (fun o =>
       (running 7 o).enginesRun 0 && ((running 7 o).unit 0).headOp 7 = some o)) = true := by decide +kernel
theorem witness_EngineWords :
    (let w : Full := { z with a := .e 0, b := .s 8, c := .k 1 }
     let t : Full := { z with a := .e 7, b := .imm 0 }
     let k := (running 7 (opOf mma0 .running [])).unit 0 |>.ctx 7
     let busy := running 7 (opOf mma0 .running [])
     let x := (at_ tiled cur).issOf cur false 0
     let ea := tiled.addrBase x (.s 8) 0
     let full := { Landing.init with state := .full }
     let ld := with0 tiled (fun v => { v with landing := [(7, full), (0, { full with rowBytes := 8 })] })
     let ev := fun (wt : Wait) => waiting every wt
     x.e != 0 && (tiled.chainFault x 0 ea (.k 1)).isNone && (tiled.chainFault x 5 ea (.s 0)).isNone && (tiled.chainFault x 6 ea (.s 0)).isNone &&
     ((tiled.unit 0).ctx 0).outstanding < 16 && okIn tiled (.cgo w) (headF w (chainRegs w) true).notHandler &&
     (let w : Full := { w with a := .e 5, c := .s 0 }
      okIn tiled (.ggo { w with sub := 1 }) (headF w (chainRegs w) true).notHandler && okIn tiled (.xgo { w with sub := 2, a := .e 6 }) (headF w (chainRegs w) true).notHandler) &&
     [tiled, busy].all (fun s => okIn s (.tlge t) (headF t [(.imm 0, 2)] false) && okIn s (.tlout { t with sub := 1 }) (headF t [(.imm 0, 1)] false) && (s.unit 0).hasCtx 7) &&
     okIn busy (.tlge { t with b := .imm 3 }) (headF t [(.imm 3, 2)] false) && k.cnt.toNat = 2 && (k.iss - k.cnt).toNat = 1 &&
     okIn busy (.tlrd { z with sub := 2, d := .v 254, a := .e 7 }) (headF z [(.v 254, 2)] false) &&
     okIn busy (.tliss { z with sub := 3, d := .s 62, a := .e 7 }) (headF z [(.s 62, 2)] true) &&
     okIn busy (.tlflt { z with sub := 4, d := .s 62, a := .e 7 }) (headF z [(.s 62, 2)] true) &&
     okIn ld (.commit { z with d := .v 255, b := .s 7 }) (headF z [(.v 255, 1)] false).notHandler &&
     okIn ld (.commit { z with d := .v 254, b := .s 0 }) (headF z [(.v 254, 1)] false).notHandler && regOk (ld.footOf 0) 0 (.v 254, 2) &&
     [Wait.tlge every 7 0, .tlout 7 0, .hold (.commitSlot 7), .hold (.engineLimit 7), .hold (.tile [(0, .trel)])].all (fun wt =>
       (ev wt).awake 0 && (ev wt).waitOf 0 0 = some wt) &&
     (0 : DWord) ≤ ((base.unit 0).ctx 7).cnt && ((base.unit 0).ctx 7).outstanding = 0 && base.judgeTiles 0 [(0, .trel)] != .wait) = true := by decide +kernel
theorem witness_OperationCompletes :
    (let s := running 6 (opOf chain0 .running [])
     3 < 2 ^ 64 && (((s.unit 0).ctx 6).op? 3).isSome) = true := by decide +kernel
/-- A collective group of this package's VF 0 and another package's. -/
def collG : CollGroup := { vf := 0, members := [(0, 0), (1, 0)], usable := true, round := 5 }
/-- A running collective operation of that group, to which every member in this package, whatever its number, has contributed. -/
def collS (o : Op) : State :=
  let s := running 6 o
  let up := fun (p : Nat) => { Link.init with state := 2, peer := p }
  { s with pkg := { s.pkg with
    groups := [(7, collG)], links := [(0, up 0), (1, up 1)], shares := [{ key := 7, round := 5, rows := [], clock := none, failed := false }] } }

theorem witness_EngineEntries :
    (let k := fun (n : Nat) => n * 2 ^ 60
     let sc := 2 * 2 ^ 60
     let go := fun (e : Nat) (d : List DWord) => let o := opOf chain0 .running d
       atHead (running e o) e o && !entryBad e 1 [(0, ent (k 5) [0, 0, 0, 0, 0, 0, 0])] d
     let lp := fun (count : Nat) => ent (k 2) [0, 0, 0, 0, 0, count * 2 ^ 32 + 1, 2 ^ 64 - 1]
     let bar := 2 ^ 40
     let cp := ent 0 [sc, sc + 256, 2 ^ 32 + 64, 64 * 2 ^ 32 + 64, 0, 0, 0]
     let ga := ent (k 1) [sc, sc + 256, 2 ^ 32 + 64, 64 * 2 ^ 32 + 64, 0, sc + 512, 0]
     let co := ent (k 6) [sc, sc, 2 ^ 32, 0, 0, 7 * 2 ^ 32, 0]
     let held := fun (d : List DWord) => { opOf chain0 .running d with requested := true, reserved := true }
     go 0 (ent (k 5) [0, 0, 0, 0, 0, 0, 0]) && go 5 (lp 0) && go 6 (lp 0xFFFFFFFF) && bits (dw (lp 0) 6) 63 32 = 0 && bits (dw (lp 0xFFFFFFFF) 6) 63 32 != 0 &&
     go 0 (ent (k 3) [0, 0, 0, 0, 0, 7 * 2 ^ 32, 0]) && go 0 (ent (k 3) [0, 0, 0, 0, 0, 0, 2]) &&
     go 4 (ent (k 3) [0, 0, 0, 0, sc + 16, 1, 1]) && ((base.barrierAt 0 (ent (k 3) [0, 0, 0, 0, sc + 16, 1, 1])).toOption).any (fun loc => base.mem.abarPhase loc != 1) &&
     (let d := ent (k 4 + bar) [0, 0, 1, 0, sc, 0, 0]
      base.barrierFaults 0 [0] d = []) && go 0 (ent (k 4 + bar) [0, 0, 1, 0, sc, 0, 0]) && (base.receivers 0 (ent (k 4 + bar) [0, 0, 1, 0, sc, 0, 0])).toOption = some [0] &&
     (base.barrierAt 0 (ent (k 4 + bar) [0, 0, 1, 0, sc, 0, 0])).toOption.isSome && (base.unit 0).begun &&
     [(0, cp), (4, ga)].all (fun p => go p.1 p.2 &&
       (let s := running p.1 (opOf chain0 .running p.2)
        s.entryFaults 0 p.2 = [] && (s.moveTiles 0 (opOf chain0 .running p.2) p.2).2.2 = [] && (s.receivers 0 p.2).toOption = some [0] && !isLanding p.2) &&
       (let o := held p.2
        let s := running p.1 o
        atHead s p.1 o && s.tileFaults 0 o p.2 1 = [] && !o.rowsDone p.2 && { o with row := 1 }.rowsDone p.2 &&
        (let r := s.someRows 0 p.1 o p.2
         r.1.isNone && ((((r.2.unit 0).ctx p.1).op? 3).map (fun o => o.row)) = some 1))) &&
     (let la := ent (k 1) [sc, 0, 2 ^ 32 + 8, 64 * 2 ^ 32 + 64, 0, sc + 512, 2 ^ 63 + 7]
      let s := running 4 (opOf chain0 .running la)
      go 4 la && isLanding la && s.entryFaults 0 la = [] && (s.moveTiles 0 (opOf chain0 .running la) la).2.2 = [] &&
      (tget Landing.init (s.wave 0).landing 7).state = .empty &&
      (let o := { held la with slot := some 7 }
       (running 4 o).tileFaults 0 o la 1 = [] && ((running 4 o).landRows 0 4 o la).1.isNone)) &&
     (let s := collS (held co)
      atHead s 6 (held co) && s.groupKey 0 co = 7 && s.occ.c = 0 && s.entryFaults 0 co = [] && s.tileFaults 0 (held co) co 2 = [] &&
      (s.collGive 0 6 (held co) co collG).1.isNone && bits (dw co 6) 15 8 < 2 && collRows co = 0 &&
      atHead (collS { held co with round := some (5, true) }) 6 { held co with round := some (5, true) } &&
      (let y := { held co with moved := [(0, 0), (0, 3)] }
       let t := running 6 y
       ((t.unit 0).ctx 6).op? 3 = some y && !y.stops && (((t.finishEntry 0 6 3).unit 0).tile 3).state = .ready) &&
      (let d := ent (k 6) [sc, sc + 256, 2 ^ 32 + 64, 64 * 2 ^ 32 + 64, 0, 7 * 2 ^ 32, 0]
       ((collS (held d)).putList 0 6 (held d) d [(.raw (List.replicate 64 7), false)]).1.isNone))) = true := by decide +kernel
theorem witness_EngineEntries_shares : ∀ m, m < 2 → ∃ x, (collS (opOf chain0 .running [])).shareOf [] 7 collG 5 m = some x ∧ x.failed = false := by
  intro m hm
  have hl : ∀ p, p < 2 → (collS (opOf chain0 .running [])).linked p = true := by decide +kernel
  have hp : (collG.members.getD m (0, 0)).1 < 2 ∧ (collG.members.getD m (0, 0)).2 = 0 := by
    match m, hm with
    | 0, _ => decide
    | 1, _ => decide
  simp only [State.shareOf, hp.2]
  split
  · exact ⟨_, rfl, by dsimp only; split <;> rfl⟩
  · exact ⟨_, rfl, by rw [hl _ hp.1]; rfl⟩
theorem witness_EngineStarts :
    ((let o := opOf mma0 .queued []
      (running 7 o).enginesRun 0 && ((running 7 o).unit 0).headOp 7 = some o) &&
     (let go := fun (scratch : Nat) => let o := { opOf chain0 .queued [] with entry := 0, seen := [] }
      let s := unit0 (running 0 o) (fun u => { u with foot := { u.foot with scratch } })
      let s1 := s.modOp 0 0 3 (fun o => { o with phase := .running })
      (s.unit 0).headOp 0 = some o && s.enginesRun 0 && bits ((s.unit 0).ctx 0).fault.toNat 63 63 = 0 &&
      (let s := unit0 s (fun u => u.setEng 0 { u.ctx 0 with fault := 0x8000000000000000 })
       bits ((s.unit 0).ctx 0).fault.toNat 63 63 = 1 && (s.unit 0).headOp 0 = some o) &&
      (match s1.readEntry 0 0 o 0 with
       | (.ok d, _) => scratch != 0 && d = ent 0 [0, 0, 0, 0, 0, 0, 0] && !entryBad 0 0 [] d
       | (.error _, _) => scratch = 0)
      go 512 && go 0) &&
     (let o := opOf chain0 (.landing 7) (ent (2 ^ 60) [0, 0, 0, 0, 0, 0, 2 ^ 63 + 7])
      ((running 5 o).unit 0).headOp 5 = some o && (running 5 o).enginesRun 0)) = true := by decide +kernel

/-- Bytes placed in a state's memory. -/
def poke (s : State) (loc n x : Nat) : State := { s with mem := s.mem.place loc n x }
/-- `mapped` with a partition of cluster 0 that its context runs on, a launch whose spill area is page 0, and a scratch pointer in s8:s9. -/
def based : State :=
  let s := mapped.modDie 0 (fun d => { d with parts := [(0, { Part.init with state := 1, scope := 1, limit := 63 })] })
  (poke (poke s 0x40000 4 4096) 0x40008 8 0x1000000).modLaunch 0 (fun l => { l with spill := 0, trapBase := 0 })
/-- A frame without a join object that needs little. -/
def aFrame : Frame := { entry := 0, join := 0, args := List.replicate 8 7, foot := 0x0000000000040008, depth := 1, flags := 0, parent := 1, seq := 0, id := 0 }
/-- Registers of the first wave from s16. -/
def sregs16 (s : State) (xs : List (Nat × Word)) : State := with0 s (fun v => xs.foldl (fun (v : Wave) p => v.ws (16 + p.1) p.2) v)
/-- Word 12 of a frame: its footprint. -/
def spawner (join : Nat) : State := sregs16 based [(2, BitVec.ofNat 32 join), (3, BitVec.ofNat 32 (join / 2 ^ 32)), (12, 0x00040008)]

theorem witness_SpawnAndJoin :
    (let h := headF z [(.s 16, 16)] true
     let i : Instr := .spawn { z with a := .s 16 }
     let f := fun (s : State) => Frame.ofBytes ((List.range 16).flatMap (fun i => leBytes 4 ((s.wave 0).rs (16 + i)).toNat)) 0
     let req := fun (ea : DWord) (k : AccKind) => [{ lane := 0, ea, size := 16, kind := k, align := 16, cap := none, paths := [0, 2] : Req }]
     let x := fun (s : State) => (at_ s cur).issOf cur false 0
     let room := fun (s : State) => s.framesOwned 0 0 + 17 ≤ (s.launch 0).slots
     let w : Full := { z with d := .s 20, a := .s 8 }
     let ea := based.addrBase (x based) (.s 8) 0
     let one := poke based (locScratch 0 0) 4 1
     [spawner 0, spawner (2 * 2 ^ 60), spawner 16].all (fun s => okIn s i h && (Foot.ofDW (f s).foot).ok && (s.unit 0).depth != 15 && (x s).e != 0) &&
     (f (spawner 0)).join = 0 && room (spawner 0) && (f (spawner 16)).join != 0 &&
     reachesB (at_ (spawner 16) cur) (x (spawner 16)) (req 16 AccKind.atomic) 16 (fun _ s1 => room s1) &&
     reachesB (at_ (spawner (2 * 2 ^ 60)) cur) (x (spawner (2 * 2 ^ 60))) (req 0x2000000000000000 AccKind.atomic) 16 (fun _ s1 => room s1 && (s1.ctx 0).freeHandle.isSome) &&
     okIn based (.joinI w) (headF w [(.s 20, 1), (.s 8, 2)] true) && reachesB (at_ based cur) (x based) (req ea AccKind.load) 16 (fun ps s1 =>
       ps.all (fun p => (s1.memOf (s1.vfOf 0)).nat p.loc 4 = 0)) &&
     okIn one (.joinI w) (headF w [(.s 20, 1), (.s 8, 2)] true) && reachesB (at_ one cur) (x one) (req ea AccKind.load) 16 (fun ps s1 =>
       ps.all (fun p => (s1.memOf (s1.vfOf 0)).nat p.loc 4 != 0)) &&
     (let s := waiting 1 (.joinW 1 (.s 20) 0x2000000000000000 (locScratch 0 0))
      s.waitOf 0 0 = some (.joinW 1 (.s 20) 0x2000000000000000 (locScratch 0 0)) && s.awake 0 && !s.cutOff (locScratch 0 0) && (s.memOf (s.vfOf 0)).nat (locScratch 0 0) 4 = 0) &&
     (let s := waiting 1 (.joinW 1 (.s 20) 8 (2 ^ 52))
      s.waitOf 0 0 = some (.joinW 1 (.s 20) 8 (2 ^ 52)) && s.awake 0 && s.cutOff (2 ^ 52))) = true := by decide +kernel

/-- `based` in an event of a core with two operands. -/
def event (s : State) (a b c : Nat) : State := { s with occ := { Occasion.none with a, b, c } }
/-- A frame of launch 0 in a deque. -/
def aQ : QFrame := { frame := aFrame, launch := 0 }

theorem witness_SpawnAndJoin_dispatchers :
    (let pop := event (based.setCore 0 { CoreSt.init with ctx := some 0, deque := [aQ] }) 0 15 0
     let ref := event (poke ((based.setCore 1 { CoreSt.init with ctx := some 0 }).modLaunch 0 (fun l => { l with spill := 0xFFFFFFFFFFFF0000, regions := [1] })) 0x41004 4 2) 1 0 0
     let steal := event ((based.setCore 0 { CoreSt.init with ctx := some 0, deque := [aQ] }).setCore 1 { CoreSt.init with ctx := some 0 }) 1 0 3
     let gone := event (based.setCore 1 { CoreSt.init with ctx := some 5 }) 1 0 0
     (pop.popChoice 0 15).isSome && pop.takesWork 0 0 &&
     (ref.core 1).ctx = some 0 && !(ref.core 1).away && ref.vfAt 1 = some 0 && (ref.core 1).deque.isEmpty && !(ref.launch 0).complete && !ref.regionPoison 0 1 &&
     (ref.regionCtl 0 1).2 = 2 &&
     steal.vfAt 1 = some 0 && steal.stealLevel 1 0 = some 0 && steal.takesWork 1 0 && steal.dequeEmpty 0 1 && (steal.stealChoices 1 0 3 0).length = 1 &&
     (steal.stealChoices 1 0 3 0).all (fun k => !k.2.2) && (steal.pick 1).1 = 0 &&
     gone.departs 1 && !(gone.core 1).away && !gone.coreBusy 1) = true := by decide +kernel
/-- `based` with a graph table at virtual address 0x100 whose node 0 has a queue of 4 records at 0x1000. -/
def noded : State :=
  (poke (poke based 0x40108 8 0x1000) 0x40110 4 4).modCtx 0 (fun c => { c with mgmt := { c.mgmt with gtbase := 0x100, gtnodes := 1 } })
/-- A launch record's fields. -/
def recordOf : List (Nat × Nat × Nat) := [(8, 4, 1), (12, 4, 1), (16, 4, 1), (20, 2, 1), (0x28, 8, 0x2000), (0x30, 8, 0x20000000)]
/-- A launch record in scratch: one unit of one wave, its completion record at 0x2000, its spill area in a block that holds it whole. -/
def recorded : State :=
  let s := poke (poke (poke based 0x20008 8 (0x20000000 + 2 * 64 + 0x36)) 0x20000000 4 4096) 0x20000008 8 0x40000
  recordOf.foldl (fun s f => poke s (locScratch 0 f.1) f.2.1 f.2.2) s

theorem witness_EmitAndLaunch :
    (let w : Full := { z with a := .s 0, b := .s 16 }
     let x := (at_ noded cur).issOf cur false 0
     let n0 := noded.devUse 0 (noded.nodeAddr 0 0) 64
     let gone := (noded.withGraph 0 0 0).modGraph 0 (fun g => { g with cancelled := true })
     [noded, gone].all (fun s => okIn s (.emit w) (headF w [(.s 0, 1), (.s 16, 16)] true)) && (gone.ctx 0).graph.any (fun g => g.cancelled) && x.e != 0 && (noded.ctx 0).mgmt.gtbase != 0 && noded.srcU x (.s 0) 32 0 < (noded.ctx 0).mgmt.gtnodes.toNat &&
     reachesB (at_ n0 cur) x [{ lane := 0, ea := 0x1000, size := 64, kind := AccKind.store, align := 64, cap := none, paths := [0] }] 64
       (fun _ s1 => countDiff (n0.nodeField 0 0 0x1C 4) (s1.nodeField 0 0 0x18 4) < n0.nodeField 0 0 0x10 4) &&
     BitVec.ofNat 64 (n0.nodeField 0 0 8 8) = (0x1000 : DWord) &&
     (let s := { noded with waves := (waiting 1 (.hold (.emitFull 0))).waves, occ := { Occasion.none with a := 0, b := 0 } }
      s.waitOf 0 0 = some (.hold (.emitFull 0)) && s.awake 0 && countDiff (s.nodeField 0 0 0x1C 4) (s.nodeField 0 0 0x18 4) < s.nodeField 0 0 0x10 4) &&
     (let lw : Full := { z with sub := 1, d := .s 20, a := .s 8 }
      let h := headF lw [(.s 20, 1), (.s 8, 2)] true
      let can := fun (s : State) (p : List Byte → State → Bool) => okIn s (.launch lw) h && reachesB (at_ s cur) ((at_ s cur).issOf cur false 0)
        ([0x2000000000000000, 0x2000000000000040].map (fun ea => { lane := 0, ea, size := 64, kind := AccKind.load, align := 64, cap := none, paths := [0, 2] })) 64
        (fun ps s1 => let r := s1.launchBytes (.lane 0 0) (ps.map (·.loc))
          p r.1 r.2.2.2)
      can recorded (fun bs s1 =>
        let r := s1.readRecord 0 bs (.program (s1.launchOf 0).phase)
        s1.completionOk 0 bs && r.2 = 0 && (s1.recordReads 0 bs r.1.code).inFlight r.1.die r.1.part < 1024) &&
      can (poke recorded (locScratch 0 8) 4 0) (fun bs s1 => s1.completionOk 0 bs && (s1.readRecord 0 bs (.program 0)).2 = 2) && can base (fun bs s1 => !s1.completionOk 0 bs)) &&
     (let s := waiting 1 (.hold (.launchLimit 0 0))
      s.waitOf 0 0 = some (.hold (.launchLimit 0 0)) && s.awake 0 && s.inFlight 0 0 < 1024)) = true := by decide +kernel
theorem witness_Cancelling :
    (let c := fun (s : State) (lv id : Nat) => let w : Full := { z with sub := 2, a := .imm lv, b := .imm id }
       okIn s (.cancel w) (headF w [(.imm lv, 1), (.imm id, 1)] true) && !levelBad lv id
     let n := fun (lv id : Nat) => let w : Full := { z with sub := 3, d := .v 5, a := .imm lv, b := .imm id }
       okIn base (.lvlcnt w) (headF w [(.v 5, 1), (.imm lv, 1), (.imm id, 1)] false) && !levelBad lv id
     let g := base.modLaunch 0 (fun l => { l with graphNode := some 0 })
     let r := event (with0 (waiting every .barWait) (fun v => { v with cancel := 2 })) 0 0 0
     c base 1 0 && c base 2 0 && base.levelLaunch 0 0 = some 0 && c base 2 63 && (base.levelLaunch 0 63).isNone && c g 3 0 && (g.launchOf 0).graphNode.isSome && c base 3 0 &&
     (base.launchOf 0).graphNode.isNone && c base 4 0 && [1, 2, 3, 4].all (fun lv => n lv 0) && n 2 63 && r.retires 0 && !r.midSteps 0) = true := by decide +kernel

/-- A candidate run in scratch without a namespace, of two examples, its second poisoned where `bad`. -/
def aRun : CandRun :=
  let k : CandLane := { words := [0], inputs := [1, 2, 3, 4, 5, 6, 7, 8] }
  { placedRun 0 with enabled := every, nex := 2, norec := false, exLocs := [0x50000, 0x50020], outLocs := (List.range 32).map (fun l => locScratch 0 (8192 + 32 * l)), lanes := [(31, k)] }
/-- Lane 31 of wave 0 runs a candidate of 60 words at word 5, with fuel left, in example `ex` with `outs` outputs. -/
def candRunning (fuel ex outs b : Nat) : State :=
  let v := { wv with cand := some aRun }
  { with0 base (fun _ => (((v.wv 247 31 (BitVec.ofNat 32 (2 ^ 31 + 60 * 2 ^ 14 + ex * 2 ^ 20 + outs * 2 ^ 24 + 5))).wv 246 31 (BitVec.ofNat 32 fuel)).wv 249 31 (BitVec.ofNat 32 b)).wv
      250 31 2) with cur := some { cur1 with cand := some 31 } }
/-- The words of a candidate with registers c1 and c2. -/
def aWord (imm : Int) : CWord := { d := 7, a := 1, b := 2, imm }

theorem witness_CandidateWords :
    (let ok := fun (s : State) (n : Nat) => (s.wave 0).cand = some aRun && n ≤ (s.wave 0).cLeft 31
     ok (candRunning 1 0 0 0) 1 && ok (candRunning 4 15 4 0xFFFFFFFF) 4 && ((candRunning 0 0 0 0).wave 0).cLeft 31 < 1) = true := by decide +kernel
theorem witness_CandidateRun :
    (let c := fun (s : State) => (s.wave 0).cand = some aRun && 4 ≤ (s.wave 0).cLeft 31
     let v := fun (b : Nat) => (candRunning 4 0 0 b).wave 0
     c (candRunning 4 0 0 0) && (v 0).cReg 31 1 = 0 && (v 2).cReg 31 1 = (v 2).cReg 31 2 && ((v 1).cReg 31 1).toInt < ((v 1).cReg 31 2).toInt && (v 0).cPc 31 = 5 &&
     bits ((v 0).ctl 31).toNat 19 14 = 60 && bits ((v 0).ctl 31).toNat 26 24 = 0 && bits (((candRunning 4 1 4 0).wave 0).ctl 31).toNat 26 24 = 4 &&
     bits (((candRunning 4 1 4 0).wave 0).ctl 31).toNat 23 20 + 1 = aRun.nex && ((candRunning 4 0 0 0).startExample 0 31 aRun 1).1 &&
     (let s := { candRunning 4 0 0 0 with mem := { base.mem with poison := [(0x50020 / 64, [])] } }
      !(s.startExample 0 31 aRun 1).1) &&
     !(candRunning 4 0 0 0).mem.badWord (locScratch 0 0) 4 && (let s := { base.mem with bad := [locScratch 0 0 / 8] }
      s.badWord (locScratch 0 0) 4) &&
     (let s := poke (poke (poke (poke (poke mapped (locScratch 0 0) 8 0x1000) (locScratch 0 8) 8 0x2000000000002000) (locScratch 0 16) 8 0x9000000000000000)
        (locScratch 0 24) 4 (1 + 0xFF * 256)) (locScratch 0 28) 4 100
      let w : Full := { z with d := .v 6, a := .v 4, b := .s 8 }
      let x := (at_ s cur).issOf cur false 0
      let r := fun (s : State) (l : List Req) => reachesB (at_ s cur) x l 32
      okIn s (.crun w) (headF w [(.v 6, 1), (.v 4, 1), (.s 8, 2)] false) && (s.footOf 0).vregs = 256 && cur.group = (s.wave 0).live && (s.wave 0).rtag 4 = tagN32 &&
      r s (recordReqs 0 0x2000000000000000 1 AccKind.load [0, 2]) && r s (recordReqs 0 0x1000 1 AccKind.load [0, 9]) && r s (recordReqs 0 0x2000000000002000 32 AccKind.store [0, 2]) &&
      pathOf 0x9000000000000000 = 9 && canonical 0x9000000000000000 && 8192 ≤ (s.unit 0).scratchBytes) &&
     (let s := with0 (base.modDie 0 (fun d => { d with spaces := [(15, { Namespace.init with active := true })] })) (fun v => { v with vtag := [(20, 13), (22, 13)] })
      let w : Full := { z with d := .v 5, a := .v 20, b := .imm 15 }
      okIn s (.vsti { w with sub := 1 }) (headF w [(.v 5, 1), (.v 20, 4), (.imm 15, 1)] false) && okIn s (.vstq { w with sub := 2 }) (headF w [(.v 5, 1), (.v 20, 4), (.imm 15, 1)] false) &&
      okIn s (.vstc { z with sub := 3, a := .imm 15 }) (headF z [(.imm 15, 1)] true) && s.nsOperand ((at_ s cur).issOf cur false 0) (.imm 15) = some 15)) = true := by decide +kernel

/-- `Accepts`, as a test. -/
def acceptsB (s : State) (code : Nat) : Bool :=
  384 ≤ s.occ.a && s.occ.a < 512 && s.winVf s.occ.win < 1024 && !(s.winMgmt s.occ.win).cmdstat.getLsbD 31 && (!pCommand code || s.isOwner s.occ.a s.occ.win) &&
  code < 14 && (s.ctx (s.winVf s.occ.win)).state != .torn

theorem acceptsB_iff (s : State) (code : Nat) (h : acceptsB s code = true) : Accepts s code := by
  simp only [acceptsB, Bool.and_eq_true, Bool.or_eq_true, Bool.not_eq_true', decide_eq_true_eq, bne_iff_ne, ne_eq] at h
  obtain ⟨⟨⟨⟨⟨⟨h1, h2⟩, h3⟩, h4⟩, h5⟩, h6⟩, h7⟩ := h
  refine ⟨⟨h1, h2⟩, h3, h4, fun hp => ?_, h6, h7⟩
  rcases h5 with h5 | h5
  · exact absurd hp (by simp [h5])
  · exact h5

/-- A command by host endpoint 384, owner of context 0, through its window, with two arguments. -/
def commanding (s : State) (a0 a1 : DWord) : State :=
  { s.modCtx 0 (fun c => { c with owner := 384, mgmt := { c.mgmt with arg0 := a0, arg1 := a1 } }) with occ := { Occasion.none with a := 384, win := .vf 0 } }
/-- A queued write of one byte. -/
def queued (loc : Nat) : State :=
  with0 base (fun v => v.modLane 31 (fun l => { l with ag := { AgentSt.init with queue := [{ bytes := [(loc, 1)], instr := 0, key := 0, ea := 0, pc := 8, acc := AccKind.store }] } }))

/-- `based` with one bind record of die 0: its operation, count and slot; the launch has a wave, and no unit runs. -/
def binding (op : Nat) (b : Option Bind) : State :=
  let s := { based with waves := [], units := [], launches := [(0, { Launch.blank with complete := false, foot := { Foot.zero with vregs := 8, sregs := 8 }, spill := 0, group := 1 })] }
  let t := [(2, op), (3, 1), (8, 1), (12, 1), (18, 1), (22, 1)]
  event (s.modDie 0 (fun d => { d with slotTable := t.map (fun p => (p.1, BitVec.ofNat 8 p.2)), binds := (b.map (fun x => (0, x))).toList })) 0 0 0
/-- A committed record that has placed nothing. -/
def aBind : Bind := { launch := 0, done := 0, unit := none, leader := 0 }

theorem witness_SystemRegisters :
    (let rd := fun (k d : Nat) => let w : Full := { z with d := .v d, c := .s k }
       okIn base (.srd w) (headF w [(.v d, 1)] false)
     let w : Full := { z with sub := 1, a := .imm 3, c := .s 3 }
     let ok := fun (k v : Nat) => match base.writeStatus 0 k (BitVec.ofNat 32 v) with
       | .ok _ => true
       | .error _ => false
     (List.range 7).all (fun k => rd k 255) && okIn base (.swr w) (headF w [(.imm 3, 1)] true) && [(0, 15), (1, 2 ^ 32 - 1), (2, 0), (3, 4), (4, 0), (6, 0)].all (fun p => ok p.1 p.2) &&
     okIn base (.timens { z with d := .v 254 }) (headF z [(.v 254, 2)] false) && okIn base (.cycles { z with sub := 1, d := .s 62 }) (headF z [(.s 62, 2)] true) &&
     [0, 9, 63].all (fun k => let w : Full := { z with d := .v 4, a := .imm k }
       okIn base (.perfrd w) (headF w [(.v 4, 2), (.imm k, 1)] false)) && ((at_ base cur).issOf cur false 0).e != 0) = true := by decide +kernel
theorem witness_DrainMovesOneWrite :
    (let s := queued 5
     let far := queued (2 ^ 52)
     [s, far].all (fun s => s.hasAgent (.lane 0 31) && drainable (s.agent (.lane 0 31)).queue 0) &&
     (s.agent (.lane 0 31)).queue[0]?.any (fun e => !s.entryFails e) && (far.agent (.lane 0 31)).queue[0]?.any (fun e => far.entryFails e)) = true := by decide +kernel
theorem witness_OutsideAccesses :
    (let far := queued (2 ^ 52)
     let ag := Agent.lane 0 31
     let rem := waiting every (.hold (.remote [2 ^ 52]))
     let up := { rem with pkg := { rem.pkg with links := [(0, { Link.init with state := 2 })] }, occ := { Occasion.none with c := 1 } }
     let mem := unit0 (waiting every (.hold (.member 0))) (fun u => { u with group := some (7, 0), groupSize := 1 })
     let trap := with0 base (fun v => { v with storageTrap := true })
     let gone := { base with mem := { base.mem with keys := [(4, { key := 0, keyed := 0, lost := 0xFF })] } }
     let gal := base.modCtx 0 (fun c => { c with galWin := [(3, 0x10000)] })
     let page := base.modCtx 5 (fun c => { c with state := .torn, tornRuns := [(0x10000, 0x10000)] })
     let lost := exec (.drain ag 0) far
     page.tornPage 0x1FFFF 2 && !page.tornPage 0x20000 8 && (match lost with
       | .next t => !t.failed.isEmpty
       | _ => false) && paSpace 0 1 = .memory && paSpace (2 ^ 38 - 8) 8 = .memory && paSpace (2 ^ 38) 1 = .hole && paSpace (2 ^ 38 - 4) 8 = .hole &&
     (let k := event (base.modCtx 0 (fun c => { c with keyed := true })) 1 0 0
      k.keyAssigned k.occ.a && (event base 4095 0 0).keyAssigned 4095 && !(event (base.modCtx 1023 (fun c => { c with keyed := false })) 1024 0 0).keyAssigned 1024) &&
     [0x00, 0x48, 0xA8].all (fun off => mgmtOffsets.contains off && off != 0x80 && base.winVf .pf < 1024 &&
       ((if 0x80 ≤ off then base.winMgmt .pf else (base.ctx (base.winVf .pf)).mgmt).get off).isSome) &&
     far.hasAgent ag && drainable (far.agent ag).queue 0 && (far.agentPlace ag).isSome && (far.agent ag).queue.any (fun e => e.bytes.any (fun b => isRemote b.1)) &&
     [rem, up].all (fun s => s.awake 0 && s.waitOf 0 0 = some (.hold (.remote [2 ^ 52]))) && rem.cutOff (2 ^ 52) && !up.cutOff (2 ^ 52) && up.occ.c = 1 && mem.awake 0 && mem.waitOf 0 0 = some (.hold (.member 0)) && (mem.unit 0).group = some (7, 0) &&
     mem.memberUnit 7 0 = some 0 && (mem.unit 0).begun && classFits 0 0 &&
     [(0, 1), (2 ^ 38 - 8, 8)].all (fun p => !base.tornAt p.1 p.2 && !base.tornPage p.1 p.2) && gone.tornAt 0x107 1 && !gone.tornAt 0x140 8 && paSpace 0x107 1 = .memory &&
     0xFFFF < tget 0 (gal.ctx 0).galWin 3 && (List.range 4).all (fun b => ((tiled.unit 0).bufSize? b).any (0 < ·)) && !(tiled.unit 0).released &&
     (tiled.unit 0).saved.isNone && (trap.wave 0).steps.isEmpty && (trap.wave 0).storageTrap && (trap.wave 0).trapState = .running && !(trap.wave 0).exited && (trap.wave 0).cand.isNone && (trap.wave 0).park.isNone &&
     (trap.wave 0).handles.isNone && (trap.unit 0).resident && trap.cur.isNone) = true := by decide +kernel
theorem witness_OutsideAccesses_windows : paSpace 0x7FE_0000_0000 (mgmtSize 0) = .mgmtWin .pf 0 ∧ paSpace 0x7FE_0000_0048 (mgmtSize 0x48) = .mgmtWin .pf 0x48 ∧
    paSpace 0x7FF_0000_1018 (mgmtSize 0x18) = .mgmtWin (.vf 0) 0x18 ∧ paSpace 0x7FF_03FF_10A8 (mgmtSize 0xA8) = .mgmtWin (.vf 1023) 0xA8 := by
  have := Config.mezz.isLt
  refine ⟨?_, ?_, ?_, ?_⟩ <;> simp [paSpace, mgmtSize, Config.mezzBytes] <;> omega
theorem witness_OutsideAccesses_fabric (s : State) : ∃ p, s.hasAgent (.fabric p) = true := by
  by_cases h : Config.packageNumber = 0
  · exact ⟨1, by simp [State.hasAgent, h]⟩
  · exact ⟨0, by simp [State.hasAgent]; exact fun k => h k.symm⟩
theorem witness_RegisterWrites :
    (let own := commanding base 0 0
     let free := commanding { base with launches := [] } 0 0
     let part := ([0, 63, 0, 0, 2, 0, 0, 0] ++ List.replicate 8 0 : List Byte)
     (base.ctx 1023).slotBusy = 0 && (tfind? (base.die 3).binds 4095).isNone && (let b := base.modDie 3 (fun d => { d with binds := [(4095, aBind)] })
      (tfind? (b.die 3).binds 4095).isSome && !(b.die 3).schedDown) && base.winVf (.vf 1023) = 1023 && !(base.die 3).schedDown && own.isOwner 384 (.vf 0) && own.winVf own.occ.win = 0 && free.ctxInFlight 0 = 0 &&
     rootOk 0x10000 && (base.ctx 1023).state != .torn && !(base.ctx 1023).slotBusy.getLsbD 7 && !(base.ctx 1023).closed && (base.ctx 1023).phase = 0 && part.length = 16 &&
     (let p := Part.init.ofBytes part
      p.state ≤ 2 && p.base ≤ p.limit && p.limit ≤ 63 && p.vf ≤ 1023 && p.lend ≤ 3 && (part.drop 11).all (· = 0) && !partsBad (tset Part.init [] 15 p))) = true := by decide +kernel
theorem witness_LaunchLife :
    (let ph := (base.modCtx 5 (fun c => { c with closed := true, heldRecs := [{ Launch.blank with phase := 9 }] }))
     let dn := event { base with launches := [(3, { Launch.blank with complete := false, placed := 1 })] } 3 0 0
     let fr := fun (sub : FSubject) => ({ kind := 1, code := 0, reason := 0, access := 0, core := 0, slot := 0, lane := 0, lid := 0, addr := 0, pc := 0, subject := sub } : FRec)
     let fq := base.modCtx 0 (fun c => { c with fwaiting := [fr .none], mgmt := { c.mgmt with fqsize := 64 } })
     let nd := (poke (poke (poke (poke noded 0x40116 2 1) 0x40120 4 2) 0x40114 2 2) 0x40126 2 1).withGraph 0 0 0
     let nd := { nd with pkg := { nd.pkg with ticks := 100 } }
     let taken := nd.nodeField 0 0 0x28 4
     (ph.ctx 5).closed && (ph.ctx 5).phaseCnt = 0 && !(ph.ctx 5).heldRecs.isEmpty && (ph.ctx 5).heldRecs.all (fun l => l.phase != (ph.ctx 5).phase) && (ph.ctx 5).state != .torn && dn.launchDone 3 && (dn.launch 3).graphNode.isNone &&
     (dn.launch 3).batch.isNone && (fq.ctx 0).fwaiting.length = 1 && (fq.ctx 0).mgmt.fqsize = 64 && !(fq.ctx 0).queueFull &&
     (nd.ctx 0).graph.any (fun g => !(tget false g.expired 0) && tget 0 g.readySince (recordKey 0 taken) + 100 * nd.nodeField 0 0 0x16 2 ≤ nd.pkg.ticks && !g.cancelled) &&
     nd.nodeField 0 0 0x16 2 != 0 && nd.nodeField 0 0 0x20 4 != taken && (nd.ctx 0).state = .active && 0 < (nd.ctx 0).mgmt.gtnodes.toNat &&
     nd.nodeField 0 0 0x24 2 < nd.nodeField 0 0 0x26 2 && countDiff (nd.nodeField 0 0 0x20 4) taken = 2 && nd.nodeField 0 0 0x14 2 ≤ 2 &&
     !nd.recordWaits 0 (((nd.templateBytes 0 0).toOption).getD [])) = true := by decide +kernel

theorem witness_BindRecords :
    (let c := binding 1 none
     let bad := binding 7 none
     let run := (binding 1 (some aBind)).modLaunch 0 (fun l => { l with cancelled := true })
     let ev := binding 3 (some aBind)
     let ev1 := { ev with units := [(4, { placedUnit with waves := [], wslot := 1 })] }
     let pl := binding 1 (some aBind)
     let re := { binding 2 (some aBind) with units := [(0, { placedUnit with waves := [], foot := Foot.zero, resident := false, saved := some .full })] }
     let r := fun (s : State) => (s.die 0).bindRec 0
     let stop := event (unit0 base (fun u => { u with stopping := true, stopDeadline := some 0 })) 0 0 0
     let sc := event (base.modCore 1023 (fun k => { k with scrub := some 5 })) 1023 1 0
     let hb := { base with pkg := { base.pkg with ticks := 100000 } }
     c.bindPasses 0 0 = some 0 && !(c.die 0).schedDown && (bad.bindPasses 0 0).isNone && (run.launch 0).cancelled && (r run).op = 1 && tfind? (run.die 0).binds 0 = some aBind &&
     (r ev).op = 3 && (ev.namedUnit 0 (r ev)).isNone && ev1.namedUnit 0 (r ev1) = some 4 &&
     (r pl).op = 1 && (r pl).members = 1 && (r pl).first + 0 * (r pl).step < 1 && 0 < (r pl).count && !(pl.launch 0).complete && !(pl.launch 0).cancelled && (pl.launch 0).group ≤ 1 &&
     pl.placeOpen 0 0 aBind (r pl) && (pl.unitSpans ((r pl).coreOn 0)).isEmpty &&
     (r re).op = 2 && (r re).members = 1 && (re.unit (r re).save).saved.isSome && (re.unit 0).launch = 0 && (re.unit 0).group.isNone && re.placeOpen 0 0 aBind (r re) &&
     (re.unitSpans ((r re).coreOn 0)).all (fun y => !y.overlaps ((r re).span 0 0 Foot.zero)) && (re.core 0).newel.isNone && !re.storePoison 0 &&
     (let mine := [(0, { (pl.launch 0) with group := 2, ux := 3 })]
      let rec0 := [(2, 1), (3, 2), (8, 2), (12, 2), (18, 1), (22, 1), (32 + 2, 1), (32 + 17, 1), (32 + 18, 1), (32 + 22, 1)]
      let g := { pl with launches := mine }.modDie 0 (fun d => { d with slotTable := rec0.map (fun (p : Nat × Nat) => (p.1, BitVec.ofNat 8 p.2)), binds := [(0, aBind), (1, aBind)] })
      let last := g.modDie 0 (fun d => { d with binds := [(0, { aBind with done := 1 }), (1, aBind)] })
      [(g, aBind, 2), (last, { aBind with done := 1 }, 1)].all (fun (q : State × Bind × Nat) =>
        let members := ((q.1.die 0).bindGroup 0).take (3 - ((r q.1).first + q.2.1.done * (r q.1).step))
        q.1.occ.a = 0 && q.1.occ.b = 0 && (q.2.1.done < (r q.1).count : Bool) && tfind? (q.1.die 0).binds 0 = some q.2.1 && members.length = q.2.2 && !(q.1.launch 0).complete &&
        members.all (fun (p : Nat × BindRec) => q.1.placeOpen 0 0 q.2.1 p.2 && (q.1.unitSpans (p.2.coreOn 0)).isEmpty))) &&
     stop.stopsNow 0 && (sc.core 1023).scrub = some 5 && (hb.die 3).heartAt + 100000 ≤ hb.pkg.ticks && !(hb.die 3).schedDown) = true := by decide +kernel
theorem witness_BindRecords_lending :
    (let lend := event ({ based with waves := [], units := [] }.modDie 0 (fun d => { d with parts := [(0, { Part.init with state := 1, lend := 1 }),
       (1, { Part.init with base := 1, limit := 1, state := 1, lend := 2 })] })) 0 1 0
     let lent := event (lend.modCluster 0 (fun c => { c with lentTo := some 1 })) 0 0 0
     let due := event (unit0 (based.modCluster 0 (fun c => { c with lentTo := some 0, reclaiming := some 0 })) (fun u => { u with stopping := true, stopDeadline := some 0 })) 0 0 0
     let slice := event (unit0 (based.modPart 0 0 (fun p => { p with sliceEnd := some 0 })) (fun u => { u with stopping := true, sliced := true, stopDeadline := some 0 })) 0 0 0
     let slice := { slice with pkg := { slice.pkg with ticks := 20000 } }
     let next := event { slice with waves := [], units := [], cores := [(0, { CoreSt.init with ctx := some 0, away := true })] } 0 0 0
     lend.ownPart 0 = some 0 && (lend.part 0 1).state = 1 && (lend.part 0 0).lend % 2 = 1 && (lend.part 0 1).lend / 2 % 2 = 1 && (lend.cluster 0).lentTo.isNone &&
     (coresOf 0).all lend.coreIdle && !(lend.die 0).schedDown && (lent.cluster 0).lentTo.isSome && (lent.cluster 0).reclaiming.isNone &&
     (due.cluster 0).reclaiming = some 0 && ((due.clusterUnits 0).filter (fun u => (due.unit u).stopping)).any due.stopsNow &&
     (based.part 0 0).state = 1 && (based.part 0 0).sliceEnd.isNone && (slice.part 0 0).sliceEnd = some 0 && 0 + 20000 ≤ slice.pkg.ticks &&
     ((slice.partUnits 0 0).filter (fun u => (slice.unit u).sliced)).any slice.stopsNow && next.partLeft 0 0 && (next.part 0 0).sliceEnd.isSome && (next.partUnits 0 0).isEmpty &&
     (next.ctx 0).state = .active) = true := by decide +kernel
theorem witness_Commands :
    (let c := commanding base
     let q := event (base.modCtx 0 (fun c => { c with shoot := [{ va := 0, len := 0, win := .vf 0 }] })) 0 0 0
     let ok := fun (a0 a1 : DWord) (code : Nat) => acceptsB (c a0 a1) code
     let m := fun (a0 a1 : DWord) => (c a0 a1).winMgmt (.vf 0)
     let ns := ((base.die 3).spaces)
     let g := commanding { base with pkg := { base.pkg with groups := [(7, { vf := 0, members := [], usable := false, round := 0 })] } } 7 0
     let pf := { base with occ := { Occasion.none with a := 511, win := .pf }, pf := { base.pf with arg0 := 0x48, arg1 := 1 } }
     ok 0x7FFFFFFFFF0000 0x10000 1 && bits (m 0x7FFFFFFFFF0000 0).arg0.toNat 63 55 = 0 && !q.runHolds 0 { va := 0, len := 0, win := .vf 0 } && !q.accessesLeft 0 { va := 0, len := 0, win := .vf 0 } && (q.ctx 0).shoot.length = 1 &&
     ok 5 0 2 && ok 5 1 2 && ok 3 0x100000000 3 && base.waves.all (fun p => p.2.cand.isNone) &&
     ok 0x183F 0 4 && bits 0x183F 63 13 = 0 && bits 0x183F 7 6 = 0 && bits 0x183F 12 8 = 24 && classFits 0 0 && ns.isEmpty && (base.die 3).nsEntries + 16 * 2 ^ 24 ≤ 2 ^ 28 &&
     ok 0x3F 0 5 && acceptsB g 7 && (tfind? g.pkg.groups (groupNumber 0 7)).isSome &&
     (let s := event g 7 0 0
      (tfind? s.pkg.groups s.occ.a).any (fun k => !k.usable && k.members.isEmpty)) &&
     acceptsB (c 0 0 |>.modCtx 0 (fun k => { k with state := .paused })) 8 && ok 0 0 9 && ok 99 0 10 && ok 0x1000 0 11 && ok 0 0 12 && ok 0 0 8 && (base.ctx 0).state = .active &&
     (let p := commanding based 0 0
      acceptsB p 8 && (p.ctx 0).state = .active && p.partsOf 0 = [(0, 0)] && (p.part 0 0).state = 1 && (p.part 0 0).sliceEnd.isNone &&
      (p.partCores 0 0).all (fun k => p.units.all (fun y => y.2.core != k || !p.unbegun k y.2)) && (p.unit 0).group.isNone && !(p.unit 0).released && (p.unit 0).saved.isNone &&
      p.partUnits 0 0 = [0]) &&
     acceptsB (c 0 0 |>.modCtx 0 (fun k => { k with state := .paused })) 9 && ((base.modDie 0 (fun d => { d with parts := [] })).partsOf 0).isEmpty &&
     pf.winVf .pf < 1024 && !(pf.winMgmt .pf).cmdstat.getLsbD 31 && ((pf.ctx 0).mgmt.get 0x48).isSome && pRegister 0x48 && ((pf.cmdIn 15).regPut 0 0x48 1).isSome) = true := by
  decide +kernel
/-- A device read below 64 KiB in a state with the page table of `mapped` reads the page at 0x40000. -/
theorem mapped_devRead (s : State) (h : s.mem.poison = []) (hk : s.mem.keys = []) (hp : s.mem.past = []) (hr : (s.ctx 0).mgmt.root = 0x10000#64) (h1 : s.mem.nat 0x10000 8 = 0x20040)
    (h2 : s.mem.nat 0x20000 8 = 0x30040) (h3 : s.mem.nat 0x30000 8 = 0x400B6) (i : Nat) (hi : i < 0x10000) :
    s.devRead 0 (BitVec.ofNat 64 i) 4 = some (s.mem.nat (0x40000 + i) 4) := by
  have hm : s.memOf 0 = s.mem := Mem.under_of_no_keys _ _ hk (by simp [hp])
  have off : ∀ loc, loc < 0x100_0000_0000 → s.poisoned loc = false := fun loc h2 => by simp [State.poisoned, h, tfind?]; omega
  have a1 : i % 18446744073709551616 = i := Nat.mod_eq_of_lt (by omega)
  have a2 : i / 4398046511104 % 8192 = 0 := by omega
  have a3 : i / 536870912 % 8192 = 0 := by omega
  have a4 : i / 65536 % 8192 = 0 := by omega
  have a5 : i % 65536 = i := Nat.mod_eq_of_lt (by omega)
  have hw : s.walk 0 i = .leaf 3 0x400B6 0x30000 := by
    simp only [State.walk, hr, if_pos (show classFits (bits (0x10000#64).toNat 57 55) (bits (0x10000#64).toNat 51 16 * 65536) = true by decide +kernel),
      show locPA (bits (0x10000#64).toNat 57 55) (bits (0x10000#64).toNat 51 16 * 65536) = 0x10000 by decide +kernel]
    simp [State.walkFrom, hm, a2, h1, off, show pteKind 0x20040 1 = .table 0 0x20000 by decide +kernel, a3, h2,
      show locPA 0 0x20000 = 0x20000 by decide, show pteKind 0x30040 2 = .table 0 0x30000 by decide +kernel, a4, h3,
      show locPA 0 0x30000 = 0x30000 by decide, show pteKind 0x400B6 3 = .leaf by decide +kernel]
  have hl : leafLoc 3 0x400B6 i = 0x40000 + i := by
    simp [leafLoc, leafShift, show bits 0x400B6 57 55 = 0 by decide, show bits 0x400B6 51 16 = 4 by decide, locPA]; omega
  have hp := off (0x40000 + i) (by omega)
  simp [State.devRead, State.devPlace, hm, a1, hw, hl, hp, show s.cutOff (0x40000 + i) = false by simp [State.cutOff, isRemote]; omega, show bits 0x400B6 1 1 = 1 by decide]

/-- Context 0 with the page table of `mapped` and a list of package p's functions 0 and 1 at virtual address 0x1000, and COLLNEW asked for it. -/
def collecting (p : Nat) : State :=
  { commanding mapped 9 0x1000 with mem := { base.mem with cells :=
    [(0x10000, 0x40), (0x10002, 2), (0x20000, 0x40), (0x20002, 3), (0x30000, 0xB6), (0x30002, 4), (0x41000, 2), (0x41006, BitVec.ofNat 8 p),
     (0x41007, BitVec.ofNat 8 (p / 256)), (0x41008, 1), (0x4100A, BitVec.ofNat 8 p), (0x4100B, BitVec.ofNat 8 (p / 256))] } }
theorem collecting_mem (p : Nat) : ((collecting p).cmdIn 6).mem.cells = (collecting p).mem.cells ∧ ((collecting p).cmdIn 6).mem.poison = [] ∧
    ((collecting p).cmdIn 6).mem.keys = [] ∧ ((collecting p).cmdIn 6).mem.past = [] := ⟨rfl, rfl, rfl, rfl⟩
theorem collecting_root (p : Nat) : (((collecting p).cmdIn 6).ctx 0).mgmt.root = 0x10000#64 := by
  rw [show ((collecting p).cmdIn 6).ctx 0 = ((commanding mapped 9 0x1000).cmdIn 6).ctx 0 from rfl]
  decide +kernel
theorem collecting_nat (p loc n : Nat) : ((collecting p).cmdIn 6).mem.nat loc n = (collecting p).mem.nat loc n := by
  simp only [Mem.nat, Mem.bytes, Mem.byte, collecting_mem]
theorem collecting_devRead (p i : Nat) (hi : i < 0x10000) :
    ((collecting p).cmdIn 6).devRead 0 (BitVec.ofNat 64 i) 4 = some ((collecting p).mem.nat (0x40000 + i) 4) := by
  rw [← collecting_nat]
  refine mapped_devRead _ (collecting_mem p).2.1 (collecting_mem p).2.2.1 (collecting_mem p).2.2.2 (collecting_root p) ?_ ?_ ?_ i hi <;>
    · rw [collecting_nat]
      simp [collecting, Mem.nat, Mem.bytes, Mem.byte, tget, tfind?, List.range, List.range.loop, leNat, unlisted]
theorem witness_Commands_collnew : ∃ s ms, Accepts s 6 ∧ (s.cmdIn 6).memberList 0 0x1000#64 = some ms ∧
    tfind? s.pkg.groups (groupNumber 0 9) = none := by
  have hp : Config.packageNumber < 384 := Config.package.isLt
  refine ⟨collecting Config.packageNumber, [(Config.packageNumber, 0), (Config.packageNumber, 1)], ?_, ?_, by rfl⟩
  · exact acceptsB_iff _ _ (by rw [show acceptsB (collecting Config.packageNumber) 6 = acceptsB (commanding mapped 9 0x1000) 6 from rfl]; decide +kernel)
  have h := collecting_devRead Config.packageNumber
  unfold State.memberList
  generalize Config.packageNumber = p at hp h ⊢
  have e0 := h 0x1000 (by decide)
  have e1 := h 0x1004 (by decide)
  have e2 := h 0x1008 (by decide)
  have n0 : (collecting p).mem.nat 0x41000 4 = 2 := by
    simp [collecting, Mem.nat, Mem.bytes, Mem.byte, tget, tfind?, List.range, List.range.loop, leNat, unlisted]
  have n1 : (collecting p).mem.nat 0x41004 4 = p * 65536 := by
    simp [collecting, Mem.nat, Mem.bytes, Mem.byte, tget, tfind?, List.range, List.range.loop, leNat, unlisted]
    omega
  have n2 : (collecting p).mem.nat 0x41008 4 = p * 65536 + 1 := by
    simp [collecting, Mem.nat, Mem.bytes, Mem.byte, tget, tfind?, List.range, List.range.loop, leNat, unlisted]
    omega
  have f : bits (p * 65536) 24 16 = p ∧ bits (p * 65536 + 1) 24 16 = p ∧ bits (p * 65536) 9 0 = 0 ∧ bits (p * 65536 + 1) 9 0 = 1 ∧
      bits (p * 65536) 31 25 = 0 ∧ bits (p * 65536 + 1) 31 25 = 0 ∧ bits (p * 65536) 15 10 = 0 ∧ bits (p * 65536 + 1) 15 10 = 0 := by
    simp only [bits]; omega
  have hr : List.range 2 = [0, 1] := rfl
  have hd : [(p, 0), (p, 1)].eraseDups = [(p, 0), (p, 1)] := by simp [List.eraseDups_cons]
  simp [e0, e1, e2, n0, n1, n2, f, hr, hd, show plainAddr 0x1000#64 4 = true by decide]
theorem witness_ResetsAndSideBand :
    (let c := commanding based
     let part := acceptsB (c 0 0) 13 && (based.part 0 0).state = 1
     let st := fun (h n : Nat) => { base with pkg := { base.pkg with handoff := h, nextHandoff := n } }
     let l := fun (state k : Nat) => { base with pkg := { base.pkg with links := [(31, { Link.init with state, attempts := k })] } }
     let at31 := fun (s : State) => tget Link.init s.pkg.links 31
     let fl := with0 base (fun v => { v with flags := [(11, 1)] })
     (event base 0 0 0).occ.a = 0 && part && [1, 2, 3].all (fun (k : DWord) => acceptsB (c k 7) 13) && (base.ctx 1023).state != .torn && (st 1 0).pkg.handoff = 1 && (st 2 3).pkg.nextHandoff = 3 &&
     (base.cluster 255).sensors.length = 3 && (at31 (l 2 7)).attempts < 8 && (at31 (l 2 8)).attempts = 8 && (at31 (l 0 0)).state != 2 &&
     !base.pkg.moduleMemory && tget 0 (fl.wave 0).flags 11 != 0 && (let l := fl.modWave 0 (fun v => v.modLane 31 (fun l => { l with flag := 11 }))
      !((l.wave 0).lane 31).writing && ((l.wave 0).lane 31).flag = 11) && fl.cur.isNone) = true := by decide +kernel
theorem witness_Power :
    (let tk := { base with pkg := { base.pkg with ticks := 2000 } }
     let at0 := fun (f : ClusterSt → ClusterSt) => event (tk.modCluster 0 f) 0 0 0
     let b1 := at0 (fun c => { c with boostSeen := true, permits := 1, intervalAt := 1500 })
     let sd := at0 (fun c => { c with stepDue := some 200, permits := 63 })
     let low := event tk 0 0 0
     let rise := event (at0 (fun c => { c with switching := true })) 0 1 1
     let req := at0 (fun c => { c with requests := [{ who := .clause 0 31, units := 96, since := 1999 }] })
     let bg := event ((tk.modCluster 3 (fun c => { c with requestedAt := some 7 })).modDie 0 (fun d => { d with boostLimit := 1 })) 0 0 0
     let mt := event (tk.modDie 0 (fun d => { d with parts := [(0, { Part.init with state := 1, samples := List.replicate 10 (1001, 1), watts := 0 })] })) 0 0 0
     let hot := at0 (fun c => { c with temp := some 10999 })
     let cool := at0 (fun c => { c with temp := some 9499, hot := true })
     let down := event (mt.modCluster 0 (fun c => { c with throttleMhz := 801 })) 0 0 0
     let up := event ((mt.modPart 0 0 (fun p => { p with watts := 1, samples := List.replicate 10 (1001, 949) })).modCluster 0 (fun c => { c with throttleMhz := 1999 })) 0 0 0
     let ks := fun (s : State) => ((s.partCores 0 0).map clusterOf).eraseDups
     (b1.cluster 0).intervalAt + 500 ≤ b1.pkg.ticks && (b1.cluster 0).permits = 1 && 1 < (sd.cluster 0).permits && (sd.cluster 0).stepDue = some 200 &&
     (sd.cluster 0).permits < 64 && (sd.cluster 0).mhz ≤ 1600 && (sd.cluster 0).refillFrom + 2000 ≤ sd.pkg.ticks &&
     !(low.cluster 0).switching && (let hi := low.wantsHigh 0
      (event (low.modCluster 0 (fun c => { c with railHigh := !hi })) 0 (if hi then 1 else 0) 0).wantsHigh 0 = hi) && (rise.cluster 0).switching &&
     (req.cluster 0).requests.length = 1 && 96 ≤ (req.cluster 0).unitsFree && !(req.cluster 0).switching &&
     req.clusterRuns 0 && [3, 4].all (fun k => k < 64) &&
     (let two := bg.modCluster 4 (fun c => { c with requestedAt := some 7 })
      let asks := two.clusters.filterMap (fun p => if p.1 / 64 = 0 && !p.2.granted then p.2.requestedAt.map (fun t => (t, p.1)) else none)
      asks.length = 2 && asks.contains (7, 3) && asks.all (fun p => 7 < p.1 || 3 ≤ p.2) && (let full := two.modDie 0 (fun d => { d with boostLimit := two.dieCurrent 0 })
        (full.die 0).boostLimit ≤ full.dieCurrent 0)) &&
     bg.clusters.filterMap (fun p => if p.1 / 64 = 0 && !p.2.granted then p.2.requestedAt.map (fun t => (t, p.1)) else none) = [(7, 3)] &&
     bg.dieCurrent 0 < (bg.die 0).boostLimit && (mt.part 0 0).state = 1 && (mt.part 0 0).sampleAt + 100 ≤ mt.pkg.ticks && (mt.part 0 0).throttleAt + 1000 ≤ mt.pkg.ticks &&
     [down, up].all (fun s => (s.part 0 0).state = 1 && (s.part 0 0).samples.length = 10 && ((s.part 0 0).mean s.pkg.ticks).isSome && (s.part 0 0).throttleAt + 1000 ≤ s.pkg.ticks && ks s = [0]) &&
     ((down.part 0 0).mean down.pkg.ticks).any (fun x => 1000 * (down.part 0 0).watts < x) && (800 < (down.cluster 0).throttleMhz : Bool) && ((up.part 0 0).mean up.pkg.ticks).any (fun x => 100 * x < 95 * (1000 * (up.part 0 0).watts)) &&
     (let stale := down.modPart 0 0 (fun p => { p with samples := [(1000, 1)] })
      (stale.part 0 0).samples.all (fun x => x.1 + 1000 ≤ stale.pkg.ticks)) &&
     ((up.cluster 0).throttleMhz < 2000 : Bool) && (cool.cluster 0).temp = some 9499 && (cool.cluster 0).hot && !(cool.cluster 0).pinned && (800 < (hot.cluster 0).thermalMhz : Bool) && (hot.cluster 0).temp = some 10999 && (hot.cluster 0).thermalAt + 1000 ≤ hot.pkg.ticks &&
     !(hot.cluster 0).pinned) = true := by decide +kernel

/-- `coded` with two words at virtual addresses 8 and 0x28: an ADD and a reserved opcode. -/
def worded : State := poke (poke coded 0x40008 8 (raw 0x10 0 0x205 0x204 0x3C3 0 0 11)) 0x40030 8 (0x3F * 2 ^ 56)
/-- The port of core 0 selects its one wave, which stands at a clause header with one word. -/
def ready (w : Nat) : State := { State.reset.withFetchWord 64 w with agenda := [.issue 0 0] }

theorem witness_StepKeepsInvariant : ((State.reset.withFetchWord 64 0).mem.wf && (State.reset.withFetchWord 64 0).cur.isNone &&
    (State.reset.withFetchWord 64 0).occ = Occasion.none && (match step (State.reset.withFetchWord 64 0) with
      | .next _ => true
      | _ => false)) = true := by decide +kernel
theorem witness_StepRunsDecodedWord :
    (let s := { ready 0 with agenda := [] }
     let r := s.readyGroups 0 0
     let s1 := (r.2.portCycle 0 0 (some 0) (r.1.map (·.1))).coreCycle 0 0
     let cs := ((r.1.find? (fun x => x.1 = 0)).map (·.2)).getD []
     let runs := fun (s : State) (g : Mask) => match (s.served 0 g).fetchFor 0 g (((s.served 0 g).wave 0).lane (lowestLane g)) with
       | (.word c i, s2) =>
         let s3 := s2.stand 0 g c.pc c.clause c.modBase (c.minor, c.vvirt)
         i = .nop z && !s3.breaksAt c && !wantsReservation (s3.wave 0) c
       | _ => false
     let o := { s with opp := some { wave := 0, first := 1, issued := true, live := every, v := [], vtag := [] } }
     let g : Mask := 0xFFFFFFFE
     let st := apart (.atom z)
     let k := { candRunning 4 0 0 0 with cur := none }
     r.2.select (r.1.map (·.1)) = some 0 && (s1.firstGroup 0 cs).any (fun p => runs s1 p.2) && !(s.cluster 0).switching && s.clusterRuns 0 &&
     (o.wave 0).exited = false && (g &&& o.active 0 != 0) && runs o (g &&& o.active 0) &&
     ((st.wave 0).stepsAt 5).isSome && !(st.wave 0).exited && (st.unit 0).resident && st.clusterRuns 0 &&
     !(k.wave 0).exited && (k.wave 0).trapState = .running && (k.wave 0).park.isNone && (k.wave 0).resident && (k.unit 0).resident && !(k.cluster 0).switching &&
     k.clusterRuns 0 && (match k.candNext 0 31 with
       | some (.inr _) => true
       | _ => false) && (match k.event .heartbeatTimeout Occasion.none with
       | .next t => k.cutShort t = none
       | _ => true) && (match (queued 5).event (.drain (.lane 0 31) 0) Occasion.none with
       | .next t => (queued 5).cutShort t = none
       | _ => false)) = true := by decide +kernel
theorem witness_FetchDecodesMemory :
    (let at1 := fun (pc : DWord) (loc : Nat) => pathOf pc = 0 && canonical pc && pc.toNat % 8 = 0 && (match worded.walk 0 (restOf pc) with
         | .leaf level e el => pageOk AccKind.fetch e && leafLoc level e (restOf pc) = loc && (match worded.translate 0 0 (restOf pc) ((worded.wave 0).replay &&& every != 0) with
           | (.leaf l' e' el', s1) => l' = level && e' = e && el' = el && s1.mem = worded.mem && s1.pkg = worded.pkg && s1.ctxs = worded.ctxs
           | _ => false)
         | _ => false) && (List.range 64).all (fun i => !worded.poisoned (loc / 64 * 64 + i)) && (tfind? ((worded.wave 0).lane 0).code (pc.toNat / 64)).isNone && ((worded.wave 0).captured pc).isNone &&
       (tfind? (worded.core 0).icache (blockKey 0 pc)).isNone && (worded.memOf (worded.vfOf 0)).nat loc 8 / 2 ^ 56 % 128 != 0x51
     at1 8 0x40008 && at1 0x30 0x40030 && (match decodeWord ((worded.memOf (worded.vfOf 0)).nat 0x40008 8) none with
       | .ok i => i = .iadd { z with d := .v 5, a := .v 4, b := .imm 3, ty := 11 }
       | _ => false) && (match decodeWord (2 ^ 56 * 0x10 + 12) none with
       | .error .illop => true
       | _ => false) && (match decodeWord (raw 0x10 0 0x3C3 0 0 0 0 11) none with
       | .error .illclass => true
       | _ => false) && ((worded.wave 0).stepsOf every).isNone && !callMisplaced cur (.nop z)) = true := by decide +kernel
theorem witness_EncodeDecodeNative :
    ([Instr.expr { z with d := .v 5, a := .v 4, ty := 23 } (.s 0) [1, 12, 0, 0, 0, 0, 0, 0, 0, 0, 0, 0, 0], .iadd w2w, .bra 0 (.s 0) (-67108864)].all
      (fun i => i.wf && i.illegal.isNone && (candOp i).isNone && !(encode i).isEmpty) && (Instr.iadd w2w).fullOp.isSome) = true := by decide +kernel
theorem witness_EncodeDecodeCandidate : ((Instr.candLi { zc with imm := -65536 }).wf && (candOp (.candLi zc)).isSome && 2 ^ 32 - 1 < 2 ^ 32) = true := by decide +kernel
theorem witness_MemoryStaysCanonical :
    (mapped.mem.wf && ((mapped.agent (.lane 0 0)).queue.isEmpty : Bool) && (({ bytes := [(1, 2)], instr := 0, key := 0, ea := 0, pc := 0, acc := AccKind.store } : QEntry).bytes.all (fun p => p.1 != 0))) = true := by
  decide +kernel
theorem witness_FullReleaseAndAcquire : (base.hasAgent (.lane 0 31) && (running 0 (opOf chain0 .running [])).hasAgent (.op 0 0 3) && (RKey.done 0 != RKey.done 1)) = true := by
  decide +kernel
theorem witness_FencePathRule : ((tfind? base.waves 0).isSome && 31 < 32) = true := by decide +kernel
theorem witness_PredicateRule :
    ((Instr.nop { z with pn := true }).shape.isSome && ({ zm with pn := true }).pn && ({ zm with pn := true }).pm = 0 && ((at_ base cur).issOf cur true 7).e = every &&
     ((at_ base cur).issOf cur false 1).e = 0xFFFF && ((at_ base cur).issOf cur true 1).e = 0xFFFF0000) = true := by decide +kernel
theorem witness_PortSelection :
    (let s := { ready 0 with agenda := [] }
     let r := s.readyGroups 0 0
     let two := { base with waves := [(0, wv), (1, { wv with idx := 1, slot := 2, age := 5 })], units := [(0, { placedUnit with foot, waves := [0, 1] })] }
     let gs := base.groups 0 wv.live
     let st := with0 base (fun v => v.modLane 31 (fun l => { l with starve := 64, pc := 24, clause := none }))
     r.2.select (r.1.map (·.1)) = some 0 && (wv.starving gs).isNone && (base.firstGroup 0 gs).isSome && !gs.isEmpty &&
     (((st.wave 0).starving (st.groups 0 (st.wave 0).live)).map (·.2)) = some 0x80000000 && ((st.firstGroup 0 (st.groups 0 (st.wave 0).live)).map (·.2)) = some 0x80000000 &&
     (tfind? two.waves 1).isSome && (two.portWaves 0 0).count 1 = 1 && [0, 1].contains 1 && (some 0 != some 1)) = true := by decide +kernel

/-! Meanings: one word or one event on a small state; every expected value is worked out by hand from the rule its comment cites. -/

/-- A test on the state that a word leaves when it executes in `base`. -/
def after (i : Instr) (f : Wave → Bool) (c : Cursor := cur) (s : State := base) : Bool := match exec i (at_ s c) with
  | .next t => f (t.wave 0)
  | _ => false
/-- Register n of lanes 0, 1, 16 and 31. -/
def four (n : Nat) (v : Wave) : List Word := [v.rv n 0, v.rv n 1, v.rv n 16, v.rv n 31]
/-- A three-operand word of a type. -/
def w3 (d a b c : Opnd) (ty : Nat) (sub : Nat := 0) (pm : Nat := 0) : Full := { z with sub, d, a, b, c, ty, pm }

-- 13 R313, R314: v4 holds l + 1; the last lane's sum with 2^32 − 2 wraps, and a source is also the destination
theorem test_iadd_wraps : after (.iadd (w3 (.v 4) (.v 4) (.imm (-2)) (.s 0) 11)) (fun v => four 4 v = [0xFFFFFFFF, 0, 15, 30]) = true := by decide +kernel
-- 13 R314: 1 − 2 clamps to 0 and sets lane 0's sticky bit alone
theorem test_isub_saturates : after (.isub (w3 (.v 5) (.v 4) (.imm 2) (.s 0) 11 2)) (fun v => four 5 v = [0, 0, 15, 30] && v.iovmask = 1) = true := by decide +kernel
-- 06 R163: m1 enables lanes 0 to 15
theorem test_isub_predicated : after (.isub (w3 (.v 4) (.imm 0) (.v 4) (.s 0) 11 0 1)) (fun v => four 4 v = [0xFFFFFFFF, 0xFFFFFFFE, 17, 32]) = true := by decide +kernel
-- 13 R313: (2^32 − 1)^2 has high word 2^32 − 2 unsigned, and (−1)(−1) has high word 0 signed
theorem test_imulh_unsigned : after (.imulh (w3 (.s 12) (.imm (-1)) (.imm (-1)) (.s 0) 11)) (fun v => v.rs 12 = 0xFFFFFFFE) = true := by decide +kernel
theorem test_imulh_signed : after (.imulh (w3 (.s 12) (.imm (-1)) (.imm (-1)) (.s 0) 10)) (fun v => v.rs 12 = 0) = true := by decide +kernel
-- 13 R313: 32 · 32 + 5
theorem test_imad : after (.imad (w3 (.v 5) (.v 4) (.v 4) (.imm 5) 11)) (fun v => four 5 v = [6, 9, 294, 1029]) = true := by decide +kernel
-- 05 R145: division truncates, and the remainder takes the dividend's sign
theorem test_idiv_truncates : after (.idiv (w3 (.s 12) (.imm (-7)) (.imm 2) (.s 0) 10)) (fun v => v.rs 12 = 0xFFFFFFFD) = true := by decide +kernel
theorem test_irem_sign : after (.irem (w3 (.s 12) (.imm (-7)) (.imm 2) (.s 0) 10)) (fun v => v.rs 12 = 0xFFFFFFFF) = true := by decide +kernel
-- 13 R316: a count of 40 is past the width
theorem test_shl_past_width : after (.shl (w3 (.v 5) (.v 4) (.imm 40) (.s 0) 11)) (fun v => four 5 v = [0, 0, 0, 0]) = true := by decide +kernel
theorem test_sar_sign : after (.sar (w3 (.s 12) (.imm (-8)) (.imm 1) (.s 0) 10)) (fun v => v.rs 12 = 0xFFFFFFFC) = true := by decide +kernel
theorem test_rot_right : after (.rot (w3 (.v 5) (.v 4) (.imm 1) (.s 0) 11 1)) (fun v => four 5 v = [0x80000000, 1, 0x80000008, 16]) = true := by decide +kernel
-- 05 R146: bit 1 alone, read as a signed field; of 1, 2, 17 and 32 only 2 has it
theorem test_bfe : after (.bfe (w3 (.v 5) (.v 4) (.imm 1) (.imm 1) 11 1)) (fun v => four 5 v = [0, 0xFFFFFFFF, 0, 0]) = true := by decide +kernel
theorem test_clz : after (.clz (w3 (.v 5) (.v 4) (.s 0) (.s 0) 11)) (fun v => four 5 v = [31, 30, 27, 26]) = true := by decide +kernel
-- 13 R319: signed lt against −1 holds nowhere, unsigned holds in every lane; other masks keep their bits
theorem test_icmp_signed : after (.icmp (w3 (.m 3) (.v 4) (.imm (-1)) (.s 0) 11 2)) (fun v => v.rm 0xFFFFFFFF 3 = 0 && v.rm 0xFFFFFFFF 1 = 0xFFFF) = true := by
  decide +kernel
-- 13 R320: m1 selects a in lanes 0 to 15
theorem test_isel : after (.isel (w3 (.v 5) (.v 4) (.imm 9) (.m 1) 11)) (fun v => four 5 v = [1, 2, 9, 9]) = true := by decide +kernel
-- 13 R324: 4096 + 4l, plus s10 = 64 shifted by 2
theorem test_lea_affine : after (.lea (w3 (.a 1) (.a 0) (.s 10) (.imm 2) 11)) (fun v => v.ra 1 = { base := 4352, stride := 4 }) = true := by decide +kernel
-- 13 R326: v4 holds l + 1
theorem test_vtoa : after (.vtoa (w3 (.a 1) (.v 4) (.s 0) (.s 0) 11)) (fun v => v.ra 1 = { base := 1, stride := 1 }) = true := by decide +kernel
theorem test_mandn : after (.mandn (w3 (.m 3) (.m 2) (.m 1) (.s 0) 0 4)) (fun v => v.rm 0xFFFFFFFF 3 = 0xFF0000) = true := by decide +kernel
-- 14 R339: 1 + 2 = 3, 1 · 2 + 2 = 4, and 1 − 1 is +0 under RNE and −0 under RDN (R340)
theorem test_fadd : after (.fadd (w3 (.v 5) (.v 20) (.v 22) (.s 0) 23)) (fun v => v.rv 5 7 = 0x40400000 && v.rtag 5 = 23) = true := by decide +kernel
theorem test_fadd_tag : after (.fadd (w3 (.v 5) (.v 4) (.v 22) (.s 0) 23)) (fun v => v.rv 5 7 = 0 && v.trapState = .trapped) = true := by decide +kernel
theorem test_ffma : after (.ffma (w3 (.v 5) (.v 20) (.v 22) (.v 22) 23)) (fun v => v.rv 5 7 = 0x40800000) = true := by decide +kernel
theorem test_fsub_zero : after (.fsub (w3 (.v 5) (.v 20) (.v 20) (.s 0) 23 3)) (fun v => v.rv 5 7 = 0x80000000) = true := by decide +kernel
-- 1/3 in binary32, rounded to nearest and up
theorem test_fdiv_rne : after (.fdiv (w3 (.v 5) (.v 20) (.imm 3) (.s 0) 23)) (fun v => v.rv 5 7 = 0x3EAAAAAB) = true := by decide +kernel
theorem test_fdiv_rz : after (.fdiv (w3 (.v 5) (.v 20) (.imm 3) (.s 0) 23 1)) (fun v => v.rv 5 7 = 0x3EAAAAAA) = true := by decide +kernel
-- 14 R352: the worked example's modes on v4
theorem test_shfl_up : after (.shfl (w3 (.v 5) (.v 4) (.imm 1) (.s 0) 11 1)) (fun v => four 5 v = [1, 1, 16, 31]) = true := by decide +kernel
theorem test_shfl_xor : after (.shfl (w3 (.v 5) (.v 4) (.imm 1) (.s 0) 11 3)) (fun v => four 5 v = [2, 1, 18, 31]) = true := by decide +kernel
theorem test_vote_ballot : after (.vote (w3 (.s 12) (.m 2) (.s 0) (.s 0) 0 2)) (fun v => v.rs 12 = 0xFF00FF) = true := by decide +kernel
-- 05 R147: 1 + 2 + … + 32
theorem test_vred : after (.vred (w3 (.s 12) (.v 4) (.s 0) (.s 0) 11)) (fun v => v.rs 12 = 528) = true := by decide +kernel
theorem test_vscan_exclusive : after (.vscan (w3 (.v 5) (.v 4) (.s 1) (.s 0) 11)) (fun v => four 5 v = [0, 1, 136, 496]) = true := by decide +kernel
-- 06 R160: lane 31 alone is not every live lane
theorem test_udiverge : after (.iadd (w3 (.s 12) (.s 10) (.imm 1) (.s 0) 11)) (fun v => v.rs 12 = 0 && v.trapState = .trapped) cur1 = true := by decide +kernel
-- 13 R322: an affine destination takes the sign-extended immediate
theorem test_movi_affine : after (.movi (.a 3) 11 0xFFFFFFFF) (fun v => v.ra 3 = { base := 0xFFFFFFFFFFFFFFFF, stride := 0 }) = true := by decide +kernel
-- 14 R361: the bytes enter the storing lane's queue, and memory holds none of them yet (03 R80)
theorem test_st_queues : after (.st { zm with d := .v 4, a := .s 8, b := .imm 4, ty := 11 })
    (fun v => ((v.lane 3).ag.queue.map (fun q => (q.bytes.take 4).map (·.2)) = [[4, 0, 0, 0]])) = true := by decide +kernel
theorem test_exit_lanes : after (.exitI { z with pm := 1 }) (fun v => v.live = 0xFFFF0000 && !v.exited) = true := by decide +kernel
theorem test_trap_stops : after (.trapI { z with a := .imm 7 }) (fun v => v.trapState = .trapped) = true := by decide +kernel
-- 13 R314, 06 R157: an affine sum keeps its stride
theorem test_iadd_affine : after (.iadd (w3 (.a 1) (.a 0) (.imm (-1)) (.s 0) 11)) (fun v => v.ra 1 = { base := 4095, stride := 4 }) = true := by decide +kernel
-- 13 R300: the lanes whose bit of m1 is set go to the target, counted from the clause's header; the others to the next clause
theorem test_brc : after (.brc 0 (.m 1) 64) (fun v => (v.lane 15).pc = 64 && (v.lane 16).pc = 16) = true := by decide +kernel
-- 10 R246: −7 / 2 truncates and costs 4 units of fuel, and the maximum of −7 and 2 is signed
def cand1 (i : Instr) (f : Wave → Bool) : Bool :=
  let s := candRunning 4 0 0 0
  match exec i { with0 s (fun v => (v.wv 249 31 0xFFFFFFF9).wv 250 31 2) with cur := some { cur1 with cand := some 31 } } with
  | .next t => f (t.wave 0)
  | _ => false
theorem test_cand_div : cand1 (.candDiv { d := 3, a := 1, b := 2, imm := 0 }) (fun v => v.cReg 31 3 = 0xFFFFFFFD && v.cPc 31 = 6 && v.cLeft 31 = 0) = true := by
  decide +kernel
theorem test_cand_max : cand1 (.candMax { d := 3, a := 1, b := 2, imm := 0 }) (fun v => v.cReg 31 3 = 2) = true := by decide +kernel
-- 02 R71, R74: a sector of eight bytes under key 1, four of which are then written under key 2: the other four are lost, and all that
-- key 1 still reads is what it never wrote
theorem test_keys_of_a_sector : rekey (rekey [] 1 [(7, 0xFF)]) 2 [(7, 0xF)] = [(7, { key := 2, keyed := 0xF, lost := 0xF0 })] ∧
    SectorKey.hidden { key := 2, keyed := 0xF, lost := 0xF0 } 1 = 0xFF ∧ SectorKey.hidden { key := 2, keyed := 0xF, lost := 0xF0 } 2 = 0xF0 := by
  decide +kernel

end Sys2Proof.Tests
end

section
/-! PROOFS. What a fetch inside a clause names (O5). -/
namespace Sys2Proof

/-! The decoder of fields refuses nothing with ILLCLASS: that is a rule of the entries (12 R288). -/

theorem bind_ne_error {α β : Type} {r : Reject} {x : Except Reject α} {f : α → Except Reject β} (hx : x ≠ .error r)
    (hf : ∀ a, f a ≠ .error r) : (x >>= f) ≠ .error r := by
  cases x with
  | error e => exact fun h => hx (by cases h; rfl)
  | ok a => exact hf a

theorem decodeOpnd_ne_illclass (n : Nat) : decodeOpnd n ≠ .error .illclass := by
  unfold decodeOpnd
  dsimp only
  split
  · split <;> simp
  · split <;> simp
  · simp
  · repeat' split
    all_goals simp

theorem decodeFull_ne_illclass (w : Nat) : decodeFull w ≠ .error .illclass :=
  bind_ne_error (decodeOpnd_ne_illclass _) fun _ => bind_ne_error (decodeOpnd_ne_illclass _) fun _ =>
    bind_ne_error (decodeOpnd_ne_illclass _) fun _ => bind_ne_error (decodeOpnd_ne_illclass _) fun _ h => by cases h

theorem decodeM_ne_illclass (w : Nat) : decodeM w ≠ .error .illclass :=
  bind_ne_error (decodeOpnd_ne_illclass _) fun _ => bind_ne_error (decodeOpnd_ne_illclass _) fun _ =>
    bind_ne_error (decodeOpnd_ne_illclass _) fun _ => by split <;> intro h <;> cases h

theorem decodePair_ne_illclass (w : Nat) : decodePair w ≠ .error .illclass :=
  bind_ne_error (decodeOpnd_ne_illclass _) fun _ => bind_ne_error (decodeOpnd_ne_illclass _) fun _ =>
    bind_ne_error (decodeOpnd_ne_illclass _) fun _ => bind_ne_error (decodeOpnd_ne_illclass _) fun _ => by
      split <;> intro h <;> cases h

theorem decodeB_ne_illclass (op w : Nat) : decodeB op w ≠ .error .illclass :=
  bind_ne_error (decodeOpnd_ne_illclass _) fun _ => bind_ne_error (decodeOpnd_ne_illclass _) fun _ => by
    dsimp only
    repeat' split
    all_goals intro h; cases h

theorem decodeFields_ne_illclass (w : Nat) : decodeFields w none ≠ .error .illclass := by
  unfold decodeFields
  dsimp only
  split
  · exact decodePair_ne_illclass w
  split
  · intro h; cases h
  split
  · exact decodeB_ne_illclass _ w
  split
  · exact bind_ne_error (decodeOpnd_ne_illclass _) fun _ => by split <;> intro h <;> cases h
  split
  · exact bind_ne_error (decodeM_ne_illclass w) fun _ => by
      repeat' split
      all_goals intro h; cases h
  · exact bind_ne_error (decodeFull_ne_illclass w) fun f => by
      split
      · intro h; cases h
      · split <;> intro h <;> cases h

/-- A word that the decoder takes issues as it is read. -/
theorem issueForm_of_decodeWord_ok {x : Nat} {ext : Option Nat} {i : Instr} (h : decodeWord x ext = .ok i) :
    issueForm (decodeFields x ext) id = .ok i := by
  unfold decodeWord at h
  split at h
  · cases h
  · rename_i j hj
    split at h
    · cases h
    · rename_i hi
      cases h
      simp [hj, issueForm, hi]

/-- A word that the decoder refuses with ILLOP does not issue. -/
theorem issueForm_of_decodeWord_illop {x : Nat} {ext : Option Nat} (h : decodeWord x ext = .error .illop) :
    issueForm (decodeFields x ext) id = .error .illop := by
  unfold decodeWord at h
  split at h
  · rename_i hj
    cases h
    simp [hj, issueForm]
  · rename_i j hj
    split at h
    · rename_i hi
      cases h
      simp [hj, issueForm, hi]
    · cases h

/-- A word that the decoder refuses with ILLCLASS issues, as the fault waits for the ILLOP rules of its clause and wave (06 R168; 12 R288). -/
theorem issueForm_of_decodeWord_illclass {x : Nat} (h : decodeWord x none = .error .illclass) :
    ∃ i, issueForm (decodeFields x none) id = .ok i ∧ i.illegal = some .illclass := by
  unfold decodeWord at h
  split at h
  · rename_i hj
    cases h
    exact absurd hj (decodeFields_ne_illclass x)
  · rename_i j hj
    split at h
    · rename_i hi
      cases h
      exact ⟨j, by simp [hj, issueForm, hi], hi⟩
    · cases h

namespace Machine

/-! Where a block and its words lie. -/

theorem leafShift_cases (level : Nat) : leafShift level = 42 ∨ leafShift level = 29 ∨ leafShift level = 16 := by
  unfold leafShift
  split
  · exact .inl rfl
  · split
    · exact .inr (.inl rfl)
    · exact .inr (.inr rfl)

/-- A page holds whole fetch blocks: an address lies at its place in its block's location (01 R23). -/
theorem leafLoc_block (level e va : Nat) :
    leafLoc level e (va / 64 * 64) + va % 64 = leafLoc level e va ∧ leafLoc level e (va / 64 * 64) % 64 = 0 := by
  unfold leafLoc locPA
  rcases leafShift_cases level with h | h | h <;> rw [h] <;> split <;> omega

theorem leNat_lt (bs : List Byte) : leNat bs < 256 ^ bs.length := by
  induction bs with
  | nil => simp [leNat]
  | cons b bs ih =>
    have := b.isLt
    simp only [leNat, List.length_cons, Nat.pow_succ]
    omega

/-- A little-endian value of n bytes fits n bytes (00 R9). -/
theorem Mem.nat_lt (m : Mem) (loc n : Nat) : m.nat loc n < 256 ^ n := by
  simpa [Mem.nat, Mem.bytes] using leNat_lt (m.bytes loc n)

/-- The doubleword of a block read at an address is the little-endian value of its eight bytes (00 R9). -/
theorem blockWord_block (m : Mem) (loc : Nat) (ea : DWord) :
    (blockWord (m.block loc) ea).toNat = m.nat (loc + 8 * (ea.toNat / 8 % 8)) 8 := by
  have hi : ea.toNat / 8 % 8 < 8 := Nat.mod_lt _ (by decide)
  have hx : m.nat (loc + 8 * (ea.toNat / 8 % 8)) 8 < 2 ^ 64 := m.nat_lt _ 8
  simp [blockWord, Mem.block, List.getD, hi]
  exact hx

theorem poisoned_congr {s t : State} (hm : t.mem = s.mem) (hp : t.pkg = s.pkg) (loc : Nat) : t.poisoned loc = s.poisoned loc := by
  simp only [State.poisoned, hm, hp]

theorem keyIndex_congr {s t : State} (hc : t.ctxs = s.ctxs) (vf : Nat) : t.keyIndex vf = s.keyIndex vf := by
  unfold State.keyIndex State.ctx
  rw [hc]

theorem memOf_congr {s t : State} (hm : t.mem = s.mem) (hc : t.ctxs = s.ctxs) (vf : Nat) : t.memOf vf = s.memOf vf := by
  unfold State.memOf
  rw [hm, keyIndex_congr hc]

/-- An aligned canonical address of path 0 passes the checks of a fetch (01 R18, R41). -/
theorem fetchPathFault_none {ea : DWord} {aligned : Bool} (hp : pathOf ea = 0) (hc : canonical ea = true) (ha : ea.toNat % 8 = 0) :
    fetchPathFault ea aligned = none := by
  simp [fetchPathFault, hp, hc, ha]

/-- A block that is neither captured nor held in the core is the one that memory has where the tables map it (01 R18, R27, R44). -/
theorem fetchBlock_of_memory {s s1 : State} {w : Nat} {g : Mask} {pc : DWord} {level e el : Nat}
    (hcap : (s.wave w).captured pc = none) (hi : tfind? (s.core (s.wave w).core).icache (blockKey (s.vfOf w) pc) = none)
    (ht : s.translate (s.wave w).core (s.vfOf w) (restOf pc) ((s.wave w).replay &&& g != 0) = (.leaf level e el, s1))
    (hx : pageOk AccKind.fetch e = true) (hp : s1.poisoned (leafLoc level e (restOf pc / 64 * 64)) = false) :
    ∃ t, s.fetchBlock w g pc = (.ok ((s1.memOf (s.vfOf w)).block (leafLoc level e (restOf pc / 64 * 64))), t) ∧ t.mem = s1.mem := by
  unfold State.fetchBlock
  simp only [hcap, hi, Option.toList_none, List.filter_nil, ite_self, List.length_nil, State.pick, Nat.zero_add, Nat.le_refl, ite_true,
    ht, hx, hp, Bool.not_true, Bool.false_eq_true, ite_false]
  exact ⟨_, rfl, rfl⟩

/-- The cursor of a body word that is one word long (12 R272). -/
def bodyCursor (w : Nat) (g : Mask) (base hdr pc : DWord) : Cursor where
  wave := w
  group := g
  pc := pc
  next := pc + 8
  clause := some (base, hdr)
  modBase := none
  lastInClause := (pc.toNat - base.toNat) / 8 - 1 + 1 ≥ clauseLen hdr
  minor := 0
  vvirt := 0
  cand := none

/-- What a body word that is not EXPR comes to once its block is known: what issues of it stands at its address, the next word follows it,
and an ILLOP of the encoding is the fault of that name (12 R272, R274, R288). -/
theorem fetchBody_of_block {s t : State} {w : Nat} {g : Mask} {base hdr pc : DWord} {ws : List DWord} {x : Nat}
    (hcode : tfind? ((s.wave w).lane (lowestLane g)).code (pc.toNat / 64) = none) (hpath : fetchPathFault pc true = none)
    (hblock : s.fetchBlock w g pc = (.ok ws, t)) (hword : (blockWord ws pc).toNat = x) (hexpr : x / 2 ^ 63 = 1 ∨ x / 2 ^ 56 % 128 ≠ 0x51) :
    ∃ u, u.mem = t.mem ∧
      (∀ i, issueForm (decodeFields x none) id = .ok i → s.fetchBody w g base hdr pc = (.word (bodyCursor w g base hdr pc) i, u)) ∧
      (issueForm (decodeFields x none) id = .error .illop → s.fetchBody w g base hdr pc = (.fault Code.illop 0xF 0 pc (pc + 8), u)) := by
  have hne : (decide (x / 2 ^ 63 = 0) && decide (bits x 62 56 = 0x51)) = false := by
    rw [← Bool.decide_and, decide_eq_false_iff_not]
    simp only [bits, Nat.reduceSub, Nat.reduceAdd, Nat.reducePow] at hexpr ⊢
    omega
  have hcode' : ∀ k, s.withCode w g pc pc (pc + 8) k = k ws (t.keepCode w g pc ws) := by
    intro k
    simp only [State.withCode, State.withBlock, hcode, hpath, hblock]
  refine ⟨t.keepCode w g pc ws, rfl, fun i hi => ?_, fun hi => ?_⟩
  · unfold State.fetchBody
    simp only [hcode', hword, hne, hi, Bool.false_and, Bool.false_eq_true, ite_false]
    rfl
  · unfold State.fetchBody
    simp only [hcode', hword, hne, hi, Bool.false_and, Bool.false_eq_true, ite_false]

/-- The ILLCLASS of a word that issues is its fault after the ILLOP rules of its clause and wave (06 R168; 12 R288). -/
theorem issueFault_illclass {z : State} {y : Iss} {i : Instr} {h : Head} (hi : i.illegal = some .illclass) (hs : y.wave.stepsOf y.g = none)
    (hf : h.fs = 0) (hh : h.handler = 0) (hc : callMisplaced y.cur i = false) : z.issueFault y i h = some Code.illclass := by
  simp [State.issueFault, hi, hs, hf, hh, hc]

end Machine

open Machine

/-- Settles O5: the block of the word is the one memory holds, its doubleword at the program counter is the little-endian value of the eight
bytes there, and what issues of that value is what the decoder says of it. -/
theorem fetchDecodesMemory : Obligations.FetchDecodesMemory := by
  unfold Obligations.FetchDecodesMemory
  intro s w g base hdr pc level e el s1 v vf loc x hpath hcanon halign _ hx hclean hcode hcap hi ht hmem hpkg hctx hexpr
  obtain ⟨hat, hblk⟩ := leafLoc_block level e (restOf pc)
  have hpc : restOf pc % 64 = pc.toNat % 64 := by simp only [restOf]; omega
  obtain ⟨t, hfetch, htm⟩ := fetchBlock_of_memory hcap hi ht hx
    ((poisoned_congr hmem hpkg _).trans (hclean _ (by omega) (by omega)))
  have hword : (blockWord ((s1.memOf vf).block (leafLoc level e (restOf pc / 64 * 64))) pc).toNat = x := by
    rw [blockWord_block, memOf_congr hmem hctx, show leafLoc level e (restOf pc / 64 * 64) + 8 * (pc.toNat / 8 % 8) = loc by omega]
  obtain ⟨u, hu, hissue, hfault⟩ :=
    fetchBody_of_block (base := base) (hdr := hdr) hcode (fetchPathFault_none hpath hcanon halign) hfetch hword hexpr
  refine ⟨fun i hd => ?_, fun hd => ?_, fun hd => ?_⟩
  · exact ⟨_, u, hissue i (issueForm_of_decodeWord_ok hd), rfl, rfl, rfl, rfl, rfl, decide_eq_true_iff, hu.trans (htm.trans hmem)⟩
  · exact ⟨u, hfault (issueForm_of_decodeWord_illop hd)⟩
  · obtain ⟨i, hok, hill⟩ := issueForm_of_decodeWord_illclass hd
    exact ⟨_, i, u, hissue i hok, rfl, hill, fun z y h hs hf hh hc => issueFault_illclass hill hs hf hh hc⟩

end Sys2Proof
end

section
/-! PROOFS. The bytes that a write of a table entry changes, and what a context reads of memory with nothing hidden from it (O16). -/
namespace Sys2Proof

theorem leNat_append_one (bs : List Byte) (b : Byte) : leNat (bs ++ [b]) = leNat bs + 256 ^ bs.length * b.toNat := by
  induction bs with
  | nil => simp [leNat]
  | cons c bs ih => simp only [List.cons_append, leNat, ih, List.length_cons, Nat.pow_succ', Nat.mul_add, Nat.mul_assoc, Nat.add_assoc]

/-- The bytes of a number, least significant first, are the number again (00 R9). -/
theorem leNat_bytes (x n : Nat) : leNat ((List.range n).map (fun i => BitVec.ofNat 8 (x / 256 ^ i))) = x % 256 ^ n := by
  induction n with
  | zero => simp [leNat, Nat.mod_one]
  | succ n ih =>
    rw [List.range_succ, List.map_append, List.map_singleton, leNat_append_one, ih, Nat.mod_pow_succ]
    simp

/-- A byte of a list is that byte of its little-endian value (00 R9). -/
theorem getElem_leNat (bs : List Byte) (i : Nat) (h : i < bs.length) : bs[i] = BitVec.ofNat 8 (leNat bs / 256 ^ i) := by
  induction bs generalizing i with
  | nil => cases h
  | cons b bs ih =>
    have hb := b.isLt
    cases i with
    | zero =>
      apply BitVec.eq_of_toNat_eq
      simp only [List.getElem_cons_zero, leNat, BitVec.toNat_ofNat]
      omega
    | succ i =>
      have hd : (b.toNat + 256 * leNat bs) / 256 = leNat bs := by omega
      rw [List.getElem_cons_succ, ih i (by simpa using h), leNat, Nat.pow_succ', ← Nat.div_div_eq_div_mul, hd]

namespace Machine

theorem Mem.byte_eq_of_nat (m : Mem) (loc n i : Nat) (h : i < n) : m.byte (loc + i) = BitVec.ofNat 8 (m.nat loc n / 256 ^ i) := by
  have := getElem_leNat (m.bytes loc n) i (by simpa [Mem.bytes] using h)
  simpa [Mem.nat, Mem.bytes] using this

theorem Mem.nat_eq_of_bytes (m : Mem) (loc n x : Nat) (hx : x < 256 ^ n) (h : ∀ i, i < n → m.byte (loc + i) = BitVec.ofNat 8 (x / 256 ^ i)) :
    m.nat loc n = x := by
  have hb : m.bytes loc n = (List.range n).map (fun i => BitVec.ofNat 8 (x / 256 ^ i)) :=
    List.map_congr_left fun i hi => h i (List.mem_range.mp hi)
  rw [Mem.nat, hb, leNat_bytes, Nat.mod_eq_of_lt hx]

/-- Of a write that names a byte once, memory holds the byte it names. -/
theorem Mem.puts_byte_mem (l : List (Nat × Byte)) (st ext : Nat) (m : Mem) (a : Nat) (b : Byte) (hb : (a, b) ∈ l)
    (hone : ∀ b', (a, b') ∈ l → b' = b) : (l.foldl (fun m p => m.put st ext p.1 p.2) m).byte a = b := by
  induction l generalizing m with
  | nil => cases hb
  | cons p l ih =>
    by_cases hmem : (a, b) ∈ l
    · exact ih _ hmem fun b' h => hone b' (List.mem_cons_of_mem _ h)
    · obtain rfl : (a, b) = p := (List.mem_cons.mp hb).resolve_right hmem
      refine (Mem.puts_byte_other l st ext _ a fun q hq hqa => hmem ?_).trans (m.put_byte_same st ext a b)
      obtain ⟨a', b'⟩ := q
      obtain rfl : a' = a := hqa
      exact hone b' (List.mem_cons_of_mem _ hq) ▸ hq

/-- The capability tags that a write clears lie beyond every byte of memory, and only granules of low locations have one (01 R40). -/
theorem mem_tagClears {loc n : Nat} {p : Nat × Byte} (h : p ∈ plainWrite.tagClears loc n) : 2 ^ 96 ≤ p.1 ∧ loc < 2 ^ 64 * 5 := by
  unfold plainWrite.tagClears at h
  split at h
  · rename_i hk
    obtain ⟨g, -, hg⟩ := List.mem_filterMap.mp h
    split at hg
    · cases hg
      refine ⟨Nat.le_add_right _ _, ?_⟩
      simp only [keepsTag, Bool.or_eq_true, Bool.and_eq_true, decide_eq_true_eq] at hk
      omega
    · cases hg
  · cases h

/-- The eight bytes of the table entry at a location. -/
def InEntry (el a : Nat) : Prop := el ≤ a ∧ a < el + 8

/-- A write made directly puts its bytes in turn (03 R86, R92). -/
theorem storeNow_byte (s : State) (bs : List (Nat × Byte)) (key a : Nat) :
    (s.storeNow bs key).mem.byte a = (bs.foldl (fun m p => m.put (s.mem.clock + 1) (extentOf bs 1) p.1 p.2) s.mem).byte a := rfl

/-- An entry written whole: each of its bytes is the one written, and no other byte of memory changes. -/
theorem storeNow_entry_byte (s : State) (el x key i : Nat) (hi : i < 8) :
    (s.storeNow (plainWrite el 8 x) key).mem.byte (el + i) = BitVec.ofNat 8 (x / 256 ^ i) := by
  refine (storeNow_byte _ _ _ _).trans (Mem.puts_byte_mem _ _ _ _ _ _ ?_ fun b h => ?_)
  · exact List.mem_append_left _ (List.mem_map.mpr ⟨i, List.mem_range.mpr hi, rfl⟩)
  · rcases List.mem_append.mp h with h | h
    · obtain ⟨j, -, hj⟩ := List.mem_map.mp h
      obtain ⟨h1, h2⟩ := Prod.mk.inj hj
      obtain rfl : j = i := by omega
      exact h2.symm
    · have := mem_tagClears h
      dsimp only at this
      omega

theorem storeNow_entry_byte_other (s : State) (el x key a : Nat) (ha : a < 2 ^ 96) (hne : ¬ InEntry el a) :
    (s.storeNow (plainWrite el 8 x) key).mem.byte a = s.mem.byte a := by
  refine (storeNow_byte _ _ _ _).trans (Mem.puts_byte_other _ _ _ _ _ fun p hp hpa => ?_)
  rcases List.mem_append.mp hp with hp | hp
  · obtain ⟨j, hj, rfl⟩ := List.mem_map.mp hp
    have := List.mem_range.mp hj
    exact hne ⟨by dsimp only at hpa; omega, by dsimp only at hpa; omega⟩
  · have := mem_tagClears hp
    omega

theorem storeNow_entry_nat (s : State) (el x key : Nat) (hx : x < 2 ^ 64) : (s.storeNow (plainWrite el 8 x) key).mem.nat el 8 = x :=
  Mem.nat_eq_of_bytes _ _ _ _ hx fun i hi => storeNow_entry_byte s el x key i hi

/-! Bytes that gain A or D alone (01 R30). -/

/-- Every byte of memory is as it was, but that bits 4 and 5, A and D of an entry's lowest byte, may have been set. -/
def GainsAD (x y : Mem) : Prop := ∀ a, a < 2 ^ 96 → ∃ b : Byte, b &&& 0xCF = 0 ∧ y.byte a = x.byte a ||| b

theorem GainsAD.refl (x : Mem) : GainsAD x x := fun _ _ => ⟨0, rfl, by simp⟩

theorem GainsAD.trans {x y z : Mem} (h1 : GainsAD x y) (h2 : GainsAD y z) : GainsAD x z := by
  intro a ha
  obtain ⟨b, hb, hy⟩ := h1 a ha
  obtain ⟨c, hc, hz⟩ := h2 a ha
  exact ⟨b ||| c, by rw [BitVec.and_or_distrib_right, hb, hc]; rfl, by rw [hz, hy, BitVec.or_assoc]⟩

/-- Setting bit 4 or 5 of a number that has it clear changes that bit of its lowest byte alone. -/
theorem ofNat_byte_setBit {e k : Nat} (hk : k = 4 ∨ k = 5) (he : bits e k k = 0) (i : Nat) :
    ∃ b : Byte, b &&& 0xCF = 0 ∧ BitVec.ofNat 8 ((e + 2 ^ k) / 256 ^ i) = BitVec.ofNat 8 (e / 256 ^ i) ||| b := by
  cases i with
  | zero =>
    refine ⟨BitVec.twoPow 8 k, by rcases hk with rfl | rfl <;> rfl, ?_⟩
    have hbit : BitVec.ofNat 8 e &&& BitVec.twoPow 8 k = 0#8 := by
      have : e.testBit k = false := by
        rw [Nat.testBit_eq_decide_div_mod_eq, decide_eq_false_iff_not]
        simp only [bits, Nat.sub_self, Nat.zero_add, Nat.pow_one] at he
        omega
      rw [BitVec.and_twoPow, BitVec.getLsbD_ofNat, this, Bool.and_false]
      rfl
    rw [Nat.pow_zero, Nat.div_one, Nat.div_one, ← BitVec.add_eq_or_of_and_eq_zero _ _ hbit, BitVec.ofNat_add]
    rcases hk with rfl | rfl <;> rfl
  | succ i =>
    refine ⟨0, rfl, ?_⟩
    have hd : (e + 2 ^ k) / 256 = e / 256 := by
      rcases hk with rfl | rfl <;> simp only [bits, Nat.reduceSub, Nat.reduceAdd, Nat.reducePow] at he ⊢ <;> omega
    rw [Nat.pow_succ', ← Nat.div_div_eq_div_mul, hd, Nat.div_div_eq_div_mul]
    simp

/-- Setting A or D of an entry that has it clear. -/
theorem storeNow_entry_gains {s : State} {el e k d : Nat} (key : Nat) (hk : k = 4 ∨ k = 5) (hd : d = 2 ^ k) (hread : s.mem.nat el 8 = e)
    (he : bits e k k = 0) : GainsAD s.mem (s.storeNow (plainWrite el 8 (e + d)) key).mem := by
  subst hd
  intro a ha
  by_cases hin : InEntry el a
  · obtain ⟨h1, h2⟩ := hin
    obtain ⟨i, rfl⟩ := Nat.exists_eq_add_of_le h1
    have hi : i < 8 := by omega
    rw [storeNow_entry_byte s el _ key i hi, Mem.byte_eq_of_nat s.mem el 8 i hi, hread]
    exact ofNat_byte_setBit hk he i
  · exact ⟨0, rfl, by simp [storeNow_entry_byte_other s el _ key a ha hin]⟩

/-! Memory in which no byte is hidden from a key (02 R71, R74). -/

/-- No byte of memory is hidden from a key. -/
def PlainUnder (m : Mem) (key : Nat) : Prop := ∀ p ∈ m.keys, p.2.hidden key = 0

theorem Mem.under_cells {m : Mem} {key : Nat} (h : PlainUnder m key) : (m.under key).cells = m.cells := by
  have : m.keys.filter (fun p => p.2.hidden key != 0) = [] := List.filter_eq_nil_iff.mpr fun p hp => by simp [h p hp]
  simp [Mem.under, this]

theorem memOf_nat {s : State} {vf : Nat} (h : PlainUnder s.mem (s.keyIndex vf)) (loc n : Nat) : (s.memOf vf).nat loc n = s.mem.nat loc n := by
  simp only [State.memOf, Mem.nat, Mem.bytes, Mem.byte, Mem.under_cells h]

/-- A sector written under a key has nothing hidden from it that was not before. -/
theorem SectorKey.written_hidden {o : SectorKey} {key : Nat} (cover : Nat) (h : o.hidden key = 0) : (o.written key cover).hidden key = 0 := by
  unfold SectorKey.hidden at h
  unfold SectorKey.written
  dsimp only
  split
  · rename_i hk
    subst hk
    simp_all [SectorKey.hidden]
  · rename_i hk
    split at h
    · rename_i ho
      have ho : o.key = key := by simpa [hk] using ho
      simp [SectorKey.hidden, ho, h]
    · rename_i ho
      have ho : o.key ≠ key := fun hc => ho (by simp [hc])
      have h : o.lost ||| o.keyed = 0 := h
      simp [SectorKey.hidden, ho, h]

theorem mem_of_tfind? {β : Type} {m : SMap β} {x : Nat} {v : β} (h : tfind? m x = some v) : (x, v) ∈ m := by
  induction m with
  | nil => cases h
  | cons c m ih =>
    obtain ⟨k, w⟩ := c
    simp only [tfind?] at h
    split at h
    · rename_i hk
      cases h
      exact hk ▸ List.mem_cons_self
    · exact List.mem_cons_of_mem _ (ih h)

theorem mem_tset {β : Type} [DecidableEq β] {d : β} {m : SMap β} {x : Nat} {v : β} {p : Nat × β} (h : p ∈ tset d m x v) : p = (x, v) ∨ p ∈ m := by
  unfold tset at h
  split at h
  · exact .inr (mem_tdel h)
  · exact mem_tins h

theorem rekey_hidden {ks : SMap SectorKey} {key : Nat} (cover : SMap Nat) (h : ∀ p ∈ ks, p.2.hidden key = 0) :
    ∀ p ∈ rekey ks key cover, p.2.hidden key = 0 := by
  unfold rekey
  induction cover generalizing ks with
  | nil => exact h
  | cons c cover ih =>
    refine ih ?_
    dsimp only
    split
    · exact h
    · intro p hp
      rcases mem_tset hp with rfl | hp
      · refine SectorKey.written_hidden c.2 ?_
        cases hf : tfind? ks c.1 with
        | none => simp [tget, hf, SectorKey.none, SectorKey.hidden]
        | some o => simpa [tget, hf] using h _ (mem_of_tfind? hf)
      · exact h p hp

/-- A write under a key hides nothing from it. -/
theorem storeNow_plain {s : State} {key : Nat} (bs : List (Nat × Byte)) (h : PlainUnder s.mem key) : PlainUnder (s.storeNow bs key).mem key := by
  have hk : ∀ (l : List (Nat × Byte)) (st ext : Nat) (m : Mem), (l.foldl (fun m p => m.put st ext p.1 p.2) m).keys = m.keys := by
    intro l st ext
    induction l with
    | nil => exact fun _ => rfl
    | cons p l ih => exact fun m => ih _
  refine rekey_hidden _ ?_
  dsimp only
  rw [hk]
  exact h

end Machine
end Sys2Proof
end

section
/-! PROOFS. What one translation and one setting of D do (O16). -/
namespace Sys2Proof.Machine

/-! Walks depend on memory, the package and the contexts alone. -/

theorem walkFrom_congr {s t : State} (hm : t.mem = s.mem) (hp : t.pkg = s.pkg) (m : Mem) (va fuel level loc : Nat) :
    t.walkFrom m va fuel level loc = s.walkFrom m va fuel level loc := by
  induction fuel generalizing level loc with
  | zero => rfl
  | succ fuel ih =>
    unfold State.walkFrom
    dsimp only
    rw [poisoned_congr hm hp]
    simp only [ih]

theorem walk_congr {s t : State} (hm : t.mem = s.mem) (hp : t.pkg = s.pkg) (hc : t.ctxs = s.ctxs) (vf va : Nat) :
    t.walk vf va = s.walk vf va := by
  have hctx : t.ctx vf = s.ctx vf := by unfold State.ctx; rw [hc]
  unfold State.walk
  rw [hctx, memOf_congr hm hc]
  simp only [walkFrom_congr hm hp]

/-- The leaf at which a walk ends is what the context reads there. -/
theorem walkFrom_leaf_reads {s : State} {m : Mem} {va fuel level loc l e el : Nat} (h : s.walkFrom m va fuel level loc = .leaf l e el) :
    m.nat el 8 = e := by
  induction fuel generalizing level loc with
  | zero => cases h
  | succ fuel ih =>
    unfold State.walkFrom at h
    dsimp only at h
    generalize (if level = 1 then 42 else if level = 2 then 29 else 16) = shift at h
    split at h
    · cases h
    · split at h
      case h_4 => exact ih h
      case h_5 => cases h; rfl
      all_goals cases h

theorem walk_leaf_reads {s : State} {vf va l e el : Nat} (h : s.walk vf va = .leaf l e el) : (s.memOf vf).nat el 8 = e := by
  unfold State.walk at h
  dsimp only at h
  split at h
  · exact walkFrom_leaf_reads h
  · cases h

/-! Translations held. -/

/-- The translations that a core and its cluster hold. -/
def State.tlbs (s : State) (core : Nat) : List TlbEntry := (s.core core).tlb ++ (s.cluster (clusterOf core)).tlb

/-- The translations that a core and its cluster hold, changed. -/
def State.mapTlbs (s : State) (core : Nat) (f g : List TlbEntry → List TlbEntry) : State :=
  (s.modCore core (fun c => { c with tlb := f c.tlb })).modCluster (clusterOf core) (fun c => { c with tlb := g c.tlb })

/-- Nothing of two states differs but memory, translations held, and the counts of choices and of identities. -/
structure OnlyMemTlbs (s t : State) : Prop where
  waves : t.waves = s.waves
  units : t.units = s.units
  launches : t.launches = s.launches
  frames : t.frames = s.frames
  held : t.held = s.held
  ctxs : t.ctxs = s.ctxs
  pf : t.pf = s.pf
  dies : t.dies = s.dies
  pkg : t.pkg = s.pkg
  rels : t.rels = s.rels
  cur : t.cur = s.cur
  core : ∀ k, t.core k = { s.core k with tlb := (t.core k).tlb }
  cluster : ∀ k, t.cluster k = { s.cluster k with tlb := (t.cluster k).tlb }

theorem OnlyMemTlbs.refl (s : State) : OnlyMemTlbs s s := by constructor <;> intros <;> rfl

theorem OnlyMemTlbs.trans {s t u : State} (h1 : OnlyMemTlbs s t) (h2 : OnlyMemTlbs t u) : OnlyMemTlbs s u where
  waves := h2.waves.trans h1.waves
  units := h2.units.trans h1.units
  launches := h2.launches.trans h1.launches
  frames := h2.frames.trans h1.frames
  held := h2.held.trans h1.held
  ctxs := h2.ctxs.trans h1.ctxs
  pf := h2.pf.trans h1.pf
  dies := h2.dies.trans h1.dies
  pkg := h2.pkg.trans h1.pkg
  rels := h2.rels.trans h1.rels
  cur := h2.cur.trans h1.cur
  core k := by rw [h2.core k, h1.core k]
  cluster k := by rw [h2.cluster k, h1.cluster k]

theorem onlyMemTlbs_fresh (s : State) (f : Nat) : OnlyMemTlbs s { s with fresh := f } := by constructor <;> intros <;> rfl

theorem onlyMemTlbs_storeNow (s : State) (bs : List (Nat × Byte)) (key : Nat) : OnlyMemTlbs s (s.storeNow bs key) := by
  constructor <;> intros <;> rfl

theorem onlyMemTlbs_modCore (s : State) (core : Nat) (f : List TlbEntry → List TlbEntry) :
    OnlyMemTlbs s (s.modCore core (fun c => { c with tlb := f c.tlb })) := by
  refine { OnlyMemTlbs.refl s with core := fun k => ?_ }
  by_cases hk : k = core
  · subst hk
    rw [State.modCore, State.core_setCore]
  · rw [State.modCore, State.core_setCore_ne _ _ _ _ hk]

theorem onlyMemTlbs_modCluster (s : State) (n : Nat) (f : List TlbEntry → List TlbEntry) :
    OnlyMemTlbs s (s.modCluster n (fun c => { c with tlb := f c.tlb })) := by
  refine { OnlyMemTlbs.refl s with cluster := fun k => ?_ }
  by_cases hk : k = n
  · subst hk
    rw [State.cluster_modCluster]
  · rw [State.cluster_modCluster_ne _ _ _ _ hk]

theorem onlyMemTlbs_mapTlbs (s : State) (core : Nat) (f g : List TlbEntry → List TlbEntry) : OnlyMemTlbs s (s.mapTlbs core f g) :=
  (onlyMemTlbs_modCore s core f).trans (onlyMemTlbs_modCluster _ _ g)

@[simp] theorem mapTlbs_mem (s : State) (core : Nat) (f g : List TlbEntry → List TlbEntry) : (s.mapTlbs core f g).mem = s.mem := rfl

theorem mapTlbs_tlbs (s : State) (core : Nat) (f g : List TlbEntry → List TlbEntry) :
    (s.mapTlbs core f g).tlbs core = f (s.core core).tlb ++ g (s.cluster (clusterOf core)).tlb := by
  have h1 : (s.mapTlbs core f g).core core = { s.core core with tlb := f (s.core core).tlb } :=
    State.core_modCore s core fun c => { c with tlb := f c.tlb }
  have h2 : (s.mapTlbs core f g).cluster (clusterOf core) = { s.cluster (clusterOf core) with tlb := g (s.cluster (clusterOf core)).tlb } := by
    rw [State.mapTlbs, State.cluster_modCluster]
    rfl
  rw [State.tlbs, h1, h2]

/-! A walk that fills the TLBs and sets A (01 R30, R31). -/

/-- An entry with A set. -/
def withA (e : Nat) : Nat := if bits e 4 4 = 0 then e + 16 else e

/-- A set on the leaf at a location, where it is clear (01 R30). -/
def State.setA (s : State) (vf e el : Nat) : State :=
  if bits e 4 4 = 0 then s.storeNow (plainWrite el 8 (withA e)) (s.keyIndex vf) else s

/-- The translation that a walk leaves in the TLBs (01 R31). -/
def walkedEntry (vf va level e el : Nat) : TlbEntry :=
  { vf, va := va / 65536 * 65536, level, leaf := BitVec.ofNat 64 (withA e), leafLoc := el }

/-- The state after a walk that ended at a leaf: A is set there and the TLBs hold the translation (01 R30, R31). -/
def State.fillWalk (s : State) (core vf va level e el : Nat) : State :=
  (s.setA vf e el).mapTlbs core (fun l => (walkedEntry vf va level e el :: l).take 256) (fun l => (walkedEntry vf va level e el :: l).take 4096)

theorem translateWalk_cases {s t : State} {core vf va : Nat} {wk : Walk} (h : s.translateWalk core vf va = (wk, t)) :
    (t = s ∧ ∃ r l, wk = .xlate r l) ∨
      ∃ level e el, s.walk vf va = .leaf level e el ∧ wk = .leaf level (withA e) el ∧ t = s.fillWalk core vf va level e el := by
  unfold State.translateWalk at h
  split at h
  · cases h
    exact .inl ⟨rfl, _, _, rfl⟩
  · rename_i level e el hw
    cases h
    exact .inr ⟨level, e, el, hw, rfl, rfl⟩

/-- All that a translation can come to, once a free choice has been drawn: a translation held is used, or a walk finds no leaf, and the state
stays; or a walk ends at a leaf (01 R31, R33). -/
theorem translate_cases {s t : State} {core vf va : Nat} {afresh : Bool} {wk : Walk} (h : s.translate core vf va afresh = (wk, t)) :
    ∃ f, (t = { s with fresh := f } ∧ ((∃ r l, wk = .xlate r l) ∨
        afresh = false ∧ ∃ τ ∈ s.tlbs core, τ.covers vf va = true ∧ wk = .leaf τ.level τ.leaf.toNat τ.leafLoc)) ∨
      ∃ level e el, s.walk vf va = .leaf level e el ∧ wk = .leaf level (withA e) el ∧
        t = State.fillWalk { s with fresh := f } core vf va level e el := by
  have walk : ∀ f, State.translateWalk { s with fresh := f } core vf va = (wk, t) → (t = { s with fresh := f } ∧ ∃ r l, wk = .xlate r l) ∨
      ∃ level e el, s.walk vf va = .leaf level e el ∧ wk = .leaf level (withA e) el ∧
        t = State.fillWalk { s with fresh := f } core vf va level e el := by
    intro f h
    rw [← walk_congr (s := s) (t := { s with fresh := f }) rfl rfl rfl vf va]
    exact translateWalk_cases h
  unfold State.translate at h
  dsimp only at h
  split at h
  · rename_i τ hτ
    generalize (if s.walk vf va == .leaf τ.level τ.leaf.toNat τ.leafLoc then 1 else 2) = n at h
    obtain ⟨⟨f, hf⟩, -⟩ := pick_spec s n
    rw [hf] at h
    refine ⟨f, ?_⟩
    split at h
    · cases h
      cases afresh with
      | true => cases hτ
      | false =>
        have hτ : (s.tlbs core).find? (fun (τ : TlbEntry) => τ.covers vf va) = some τ := by
          rw [State.tlbs, List.find?_append, Option.or_eq_orElse]
          exact hτ
        exact .inl ⟨rfl, .inr ⟨rfl, τ, List.mem_of_find?_eq_some hτ, List.find?_some (p := fun (τ : TlbEntry) => τ.covers vf va) hτ, rfl⟩⟩
    · exact (walk f h).imp (fun ⟨h1, h2⟩ => ⟨h1, .inl h2⟩) id
  · exact ⟨s.fresh, (walk s.fresh h).imp (fun ⟨h1, h2⟩ => ⟨h1, .inl h2⟩) id⟩

/-- What a setting of D does: nothing, where D is set or the entry has changed; else the entry is written with D, and so are the copies of it
that the TLBs hold (01 R30). -/
theorem setDirty_cases {s t : State} {core vf e el : Nat} {ok : Bool} (h : s.setDirty core vf e el = (ok, t)) :
    (t = s ∧ (ok = false → (s.memOf vf).nat el 8 ≠ e)) ∨
      (ok = true ∧ bits e 5 5 = 0 ∧ (s.memOf vf).nat el 8 = e ∧
        t = (s.storeNow (plainWrite el 8 (e + 32)) (s.keyIndex vf)).mapTlbs core (tlbDirty el e) (tlbDirty el e)) := by
  unfold State.setDirty at h
  split at h
  · cases h
    exact .inl ⟨rfl, fun h => by cases h⟩
  · rename_i hd
    split at h
    · rename_i hr
      cases h
      refine .inr ⟨rfl, ?_, hr, rfl⟩
      simp only [bits] at hd ⊢
      omega
    · rename_i hr
      cases h
      exact .inl ⟨rfl, fun _ => hr⟩

end Sys2Proof.Machine
end

section
/-! PROOFS. What one translation and one setting of D change (O16). -/
namespace Sys2Proof.Machine

/-- Every byte of memory that changed lies in a table entry of a kind. -/
def ChangesIn (x y : Mem) (P : Nat → Prop) : Prop := ∀ a, a < 2 ^ 96 → y.byte a ≠ x.byte a → ∃ el, InEntry el a ∧ P el

theorem ChangesIn.refl (x : Mem) (P : Nat → Prop) : ChangesIn x x P := fun _ _ h => absurd rfl h

theorem ChangesIn.trans {x y z : Mem} {P : Nat → Prop} (h1 : ChangesIn x y P) (h2 : ChangesIn y z P) : ChangesIn x z P := by
  intro a ha hne
  by_cases hy : y.byte a = x.byte a
  · exact h2 a ha (by rwa [hy])
  · exact h1 a ha hy

theorem ChangesIn.mono {x y : Mem} {P Q : Nat → Prop} (h : ChangesIn x y P) (hPQ : ∀ el, P el → Q el) : ChangesIn x y Q := by
  intro a ha hne
  obtain ⟨el, hin, hP⟩ := h a ha hne
  exact ⟨el, hin, hPQ el hP⟩

theorem changesIn_storeNow (s : State) (el x key : Nat) : ChangesIn s.mem (s.storeNow (plainWrite el 8 x) key).mem (· = el) := by
  intro a ha hne
  by_cases hin : InEntry el a
  · exact ⟨el, hin, rfl⟩
  · exact absurd (storeNow_entry_byte_other s el x key a ha hin) hne

/-! A set on a leaf. -/

theorem onlyMemTlbs_setA (s : State) (vf e el : Nat) : OnlyMemTlbs s (s.setA vf e el) := by
  unfold State.setA
  split
  · exact onlyMemTlbs_storeNow _ _ _
  · exact .refl s

theorem changesIn_setA (s : State) (vf e el : Nat) : ChangesIn s.mem (s.setA vf e el).mem (· = el) := by
  unfold State.setA
  split
  · exact changesIn_storeNow _ _ _ _
  · exact .refl _ _

theorem setA_plain {s : State} {vf : Nat} (e el : Nat) (h : PlainUnder s.mem (s.keyIndex vf)) : PlainUnder (s.setA vf e el).mem (s.keyIndex vf) := by
  unfold State.setA
  split
  · exact storeNow_plain _ h
  · exact h

theorem setA_gains {s : State} {vf e el : Nat} (hread : s.mem.nat el 8 = e) : GainsAD s.mem (s.setA vf e el).mem := by
  unfold State.setA withA
  split
  · rename_i he
    exact storeNow_entry_gains (k := 4) _ (.inl rfl) rfl hread he
  · exact .refl _

/-- The entry with A set is what memory holds afterwards. -/
theorem setA_reads {s : State} {vf e el : Nat} (hread : s.mem.nat el 8 = e) : (s.setA vf e el).mem.nat el 8 = withA e := by
  have he : e < 2 ^ 64 := hread ▸ s.mem.nat_lt el 8
  unfold State.setA
  split
  · rename_i h4
    refine storeNow_entry_nat _ _ _ _ ?_
    simp only [withA, h4, ite_true]
    simp only [bits] at h4
    omega
  · rename_i h4
    rw [withA, if_neg h4, hread]

theorem setA_core (s : State) (vf e el k : Nat) : (s.setA vf e el).core k = s.core k := by
  unfold State.setA
  split <;> rfl

theorem setA_cluster (s : State) (vf e el k : Nat) : (s.setA vf e el).cluster k = s.cluster k := by
  unfold State.setA
  split <;> rfl

/-! One translation. -/

section
variable {s t : State} {core vf va : Nat} {afresh : Bool} {wk : Walk} (h : s.translate core vf va afresh = (wk, t))
include h

theorem translate_onlyMemTlbs : OnlyMemTlbs s t := by
  obtain ⟨f, ⟨rfl, -⟩ | ⟨level, e, el, -, -, rfl⟩⟩ := translate_cases h
  · exact onlyMemTlbs_fresh s f
  · exact (onlyMemTlbs_fresh s f).trans ((onlyMemTlbs_setA _ _ _ _).trans (onlyMemTlbs_mapTlbs _ _ _ _))

/-- A translation writes no byte outside the leaf entry that its walk ends at (01 R30). -/
theorem translate_changesIn : ChangesIn s.mem t.mem (fun el => ∃ level e, s.walk vf va = .leaf level e el) := by
  obtain ⟨f, ⟨rfl, -⟩ | ⟨level, e, el, hw, -, rfl⟩⟩ := translate_cases h
  · exact .refl _ _
  · exact (changesIn_setA { s with fresh := f } vf e el).mono fun _ hel => hel ▸ ⟨level, e, hw⟩

theorem translate_plain (hp : PlainUnder s.mem (s.keyIndex vf)) : PlainUnder t.mem (s.keyIndex vf) ∧ GainsAD s.mem t.mem := by
  obtain ⟨f, ⟨rfl, -⟩ | ⟨level, e, el, hw, -, rfl⟩⟩ := translate_cases h
  · exact ⟨hp, .refl _⟩
  · have hread : s.mem.nat el 8 = e := (memOf_nat hp el 8).symm.trans (walk_leaf_reads hw)
    exact ⟨setA_plain (s := { s with fresh := f }) e el hp, setA_gains (s := { s with fresh := f }) hread⟩

/-- A translation that the TLBs hold afterwards was held before, or names the leaf that the walk ended at (01 R31). -/
theorem translate_tlbs : ∀ τ ∈ t.tlbs core, τ ∈ s.tlbs core ∨ ∃ level e, s.walk vf va = .leaf level e τ.leafLoc := by
  intro τ hτ
  obtain ⟨f, ⟨rfl, -⟩ | ⟨level, e, el, hw, -, rfl⟩⟩ := translate_cases h
  · exact .inl hτ
  · have new_or_old : ∀ {l : List TlbEntry} {n : Nat}, τ ∈ (walkedEntry vf va level e el :: l).take n → τ.leafLoc = el ∨ τ ∈ l := by
      intro l n hm
      rcases List.mem_cons.mp (List.mem_of_mem_take hm) with rfl | hm
      · exact .inl rfl
      · exact .inr hm
    rw [State.fillWalk, mapTlbs_tlbs, setA_core, setA_cluster] at hτ
    rcases List.mem_append.mp hτ with hτ | hτ <;> rcases new_or_old hτ with hel | hτ
    · exact .inr ⟨level, e, hel ▸ hw⟩
    · exact .inl (List.mem_append_left _ hτ)
    · exact .inr ⟨level, e, hel ▸ hw⟩
    · exact .inl (List.mem_append_right _ hτ)

/-- A leaf translated to comes from a translation held, with memory left as it was, or from a walk, which leaves it reading as it was
translated to where nothing is hidden from the context. -/
theorem translate_leaf {level e el : Nat} (hl : wk = .leaf level e el) :
    (afresh = false ∧ t.mem = s.mem ∧ ∃ τ ∈ s.tlbs core, τ.covers vf va = true ∧ τ.leafLoc = el) ∨
      ((∃ level e, s.walk vf va = .leaf level e el) ∧ (PlainUnder s.mem (s.keyIndex vf) → t.mem.nat el 8 = e)) := by
  subst hl
  obtain ⟨f, ⟨rfl, ⟨r, l, hx⟩ | ⟨ha, τ, hτ, hc, hl⟩⟩ | ⟨level', e', el', hw, hl, rfl⟩⟩ := translate_cases h
  · cases hx
  · cases hl
    exact .inl ⟨ha, rfl, τ, hτ, hc, rfl⟩
  · cases hl
    exact .inr ⟨⟨_, _, hw⟩, fun hp => setA_reads (s := { s with fresh := f }) ((memOf_nat hp el 8).symm.trans (walk_leaf_reads hw))⟩

end

/-! One setting of D. -/

theorem mem_tlbDirty {loc e : Nat} {l : List TlbEntry} {τ : TlbEntry} (h : τ ∈ tlbDirty loc e l) :
    ∃ τ' ∈ l, ∀ vf va, τ'.covers vf va = τ.covers vf va ∧ τ'.leafLoc = τ.leafLoc := by
  obtain ⟨τ', hτ', rfl⟩ := List.mem_map.mp h
  refine ⟨τ', hτ', fun vf va => ?_⟩
  split <;> exact ⟨rfl, rfl⟩

section
variable {s t : State} {core vf e el : Nat} {ok : Bool} (h : s.setDirty core vf e el = (ok, t))
include h

theorem setDirty_onlyMemTlbs : OnlyMemTlbs s t := by
  obtain ⟨rfl, -⟩ | ⟨-, -, -, rfl⟩ := setDirty_cases h
  · exact .refl _
  · exact (onlyMemTlbs_storeNow _ _ _).trans (onlyMemTlbs_mapTlbs _ _ _ _)

/-- Setting D writes no byte outside the entry (01 R30). -/
theorem setDirty_changesIn : ChangesIn s.mem t.mem (· = el) := by
  obtain ⟨rfl, -⟩ | ⟨-, -, -, rfl⟩ := setDirty_cases h
  · exact .refl _ _
  · exact changesIn_storeNow _ _ _ _

theorem setDirty_plain (hp : PlainUnder s.mem (s.keyIndex vf)) : PlainUnder t.mem (s.keyIndex vf) ∧ GainsAD s.mem t.mem := by
  obtain ⟨rfl, -⟩ | ⟨-, hd, hr, rfl⟩ := setDirty_cases h
  · exact ⟨hp, .refl _⟩
  · exact ⟨storeNow_plain _ hp, storeNow_entry_gains (k := 5) _ (.inr rfl) rfl ((memOf_nat hp el 8).symm.trans hr) hd⟩

/-- A copy of an entry in a TLB names what it named before D was set. -/
theorem setDirty_tlbs : ∀ τ ∈ t.tlbs core, ∃ τ' ∈ s.tlbs core, ∀ vf va, τ'.covers vf va = τ.covers vf va ∧ τ'.leafLoc = τ.leafLoc := by
  intro τ hτ
  obtain ⟨rfl, -⟩ | ⟨-, -, -, rfl⟩ := setDirty_cases h
  · exact ⟨τ, hτ, fun _ _ => ⟨rfl, rfl⟩⟩
  · rw [mapTlbs_tlbs] at hτ
    rcases List.mem_append.mp hτ with hτ | hτ <;> obtain ⟨τ', hτ', hsame⟩ := mem_tlbDirty hτ
    · exact ⟨τ', List.mem_append_left _ hτ', hsame⟩
    · exact ⟨τ', List.mem_append_right _ hτ', hsame⟩

end

end Sys2Proof.Machine
end

section
/-! PROOFS. What the address checks of an access keep, and the entries they write (O16). -/
namespace Sys2Proof.Machine

/-! What every translation of a request and every setting of D keeps, the address checks of an access keep. -/

/-- An invariant `I` of the states that the checks come to, with a predicate `L` of the leaf entries that places name. -/
structure KeptByChecks (core vf : Nat) (reqs : List Req) (I : State → Prop) (L : State → Nat → Prop) : Prop where
  translate : ∀ {t t' : State} {q : Req} {afresh : Bool} {wk : Walk}, I t → q ∈ reqs → translated (pathOf q.ea) = true →
    t.translate core vf (restOf q.ea) afresh = (wk, t') →
    I t' ∧ (∀ el, L t el → L t' el) ∧ ∀ level e el, wk = .leaf level e el → L t' el
  setDirty : ∀ {t t' : State} {e el : Nat} {ok : Bool}, I t → L t el → t.setDirty core vf e el = (ok, t') →
    I t' ∧ ∀ el', L t el' → L t' el'

/-- Every leaf entry that some places name satisfies a predicate. -/
def LeavesIn (L : Nat → Prop) (ps : List Place) : Prop := ∀ p ∈ ps, ∀ e el, p.leaf = some (e, el) → L el

theorem LeavesIn.mono {L L' : Nat → Prop} {ps : List Place} (h : LeavesIn L ps) (hL : ∀ el, L el → L' el) : LeavesIn L' ps :=
  fun p hp e el hl => hL el (h p hp e el hl)

theorem LeavesIn.append {L : Nat → Prop} {ps : List Place} {p : Place} (h : LeavesIn L ps) (hp : ∀ e el, p.leaf = some (e, el) → L el) :
    LeavesIn L (ps ++ [p]) := by
  intro p' hp'
  rcases List.mem_append.mp hp' with hp' | hp'
  · exact h p' hp'
  · exact List.mem_singleton.mp hp' ▸ hp

theorem mem_writtenLeaves {rs : List Req} {ps : List Place} {x : Nat × Nat} (h : x ∈ writtenLeaves rs ps) : ∃ p ∈ ps, p.leaf = some x := by
  obtain ⟨⟨q, p⟩, hm, hx⟩ := List.mem_filterMap.mp (List.mem_eraseDups.mp h)
  dsimp only at hx
  split at hx
  · exact ⟨p, (List.of_mem_zip hm).2, hx⟩
  · cases hx

theorem translateCheck_cases {s t : State} {core vf u sb : Nat} {afresh : Bool} {rs : List Req} {c : Checked}
    (h : s.translateCheck core vf u sb afresh rs = (c, t)) :
    ∃ ps x p, s.translateAll core vf u sb afresh rs [] none none = (ps, x, p, t) ∧ ∀ ps', c = .ok ps' → ps' = ps := by
  unfold State.translateCheck at h
  generalize s.translateAll core vf u sb afresh rs [] none none = a at h
  obtain ⟨ps, x, p, t'⟩ := a
  dsimp only at h
  split at h
  · cases h
    exact ⟨_, _, _, rfl, fun _ h => by cases h⟩
  · split at h
    · cases h
      exact ⟨_, _, _, rfl, fun _ h => by cases h⟩
    · split at h
      · cases h
        exact ⟨_, _, _, rfl, fun _ h => by cases h⟩
      · cases h
        exact ⟨_, _, _, rfl, fun _ h => by cases h; rfl⟩

/-- All that the address checks can come to: a fault before any translation; else a pass of translations, and where all is well a pass that
sets D; and where an entry has changed since it was read, both once more, walking afresh (01 R30, R41). -/
theorem checkAccess_cases {s s1 : State} {core vf u sb : Nat} {rs : List Req} {afresh : Bool} {r : Checked}
    (h : s.checkAccess core vf u sb rs afresh = (r, s1)) :
    s1 = s ∨ ∃ c z, s.translateCheck core vf u sb afresh rs = (c, z) ∧ (s1 = z ∨ ∃ ps ok z', c = .ok ps ∧
      z.dirtyAll core vf (writtenLeaves rs ps) = (ok, z') ∧ (s1 = z' ∨ ok = false ∧ ∃ c2 z2,
        z'.translateCheck core vf u sb true rs = (c2, z2) ∧ (s1 = z2 ∨ ∃ ps2 ok2, c2 = .ok ps2 ∧
          z2.dirtyAll core vf (writtenLeaves rs ps2) = (ok2, s1)))) := by
  unfold State.checkAccess at h
  split at h
  · cases h
    exact .inl rfl
  · generalize s.translateCheck core vf u sb afresh rs = a at h
    obtain ⟨c, z⟩ := a
    refine .inr ⟨c, z, rfl, ?_⟩
    split at h
    · rename_i ps _ heq
      cases heq
      generalize hd : z.dirtyAll core vf (writtenLeaves rs ps) = b at h
      obtain ⟨ok, z'⟩ := b
      refine .inr ⟨ps, ok, z', rfl, hd, ?_⟩
      split at h
      · rename_i heq
        cases heq
        cases h
        exact .inl rfl
      · rename_i heq
        cases heq
        generalize z'.translateCheck core vf u sb true rs = c at h
        obtain ⟨c2, z2⟩ := c
        refine .inr ⟨rfl, c2, z2, rfl, ?_⟩
        split at h
        · rename_i ps2 _ heq
          cases heq
          cases h
          exact .inr ⟨ps2, _, rfl, rfl⟩
        · cases h
          exact .inl rfl
    · cases h
      exact .inl rfl

section
variable {core vf : Nat} {reqs : List Req} {I : State → Prop} {L : State → Nat → Prop} (hk : KeptByChecks core vf reqs I L)
include hk

theorem translateAll_keeps {u sb : Nat} {afresh : Bool} {rs : List Req} (hrs : ∀ q ∈ rs, q ∈ reqs) {t : State} {ps : List Place}
    {x : Option (Req × Nat × Nat)} {p : Option Req} (hI : I t) (hL : LeavesIn (L t) ps) {ps' : List Place} {x' : Option (Req × Nat × Nat)}
    {p' : Option Req} {t' : State} (h : t.translateAll core vf u sb afresh rs ps x p = (ps', x', p', t')) :
    I t' ∧ LeavesIn (L t') ps' := by
  induction rs generalizing t ps x p with
  | nil => cases h; exact ⟨hI, hL⟩
  | cons q rs ih =>
    have hrs' : ∀ q' ∈ rs, q' ∈ reqs := fun q' hq' => hrs q' (List.mem_cons_of_mem _ hq')
    unfold State.translateAll at h
    split at h
    · rename_i htr
      generalize hwk : t.translate core vf (restOf q.ea) afresh = a at h
      obtain ⟨wk, t1⟩ := a
      obtain ⟨hI1, hmono, hleaf⟩ := hk.translate hI (hrs q List.mem_cons_self) htr hwk
      have hL1 := hL.mono hmono
      dsimp only at h
      split at h
      · exact ih hrs' hI1 hL1 h
      · rename_i level e loc
        split at h
        · refine ih hrs' hI1 (hL1.append fun e' el hl => ?_) h
          cases hl
          exact hleaf level e loc rfl
        · exact ih hrs' hI1 hL1 h
    · split at h
      · exact ih hrs' hI (hL.append fun e' el hl => by cases hl) h
      · exact ih hrs' hI hL h

theorem translateCheck_keeps {u sb : Nat} {afresh : Bool} {t t' : State} {c : Checked} (hI : I t)
    (h : t.translateCheck core vf u sb afresh reqs = (c, t')) : I t' ∧ ∀ ps, c = .ok ps → LeavesIn (L t') ps := by
  obtain ⟨ps, x, p, hall, hps⟩ := translateCheck_cases h
  obtain ⟨hI', hL'⟩ := translateAll_keeps hk (fun _ hq => hq) hI (fun p hp => by cases hp) hall
  exact ⟨hI', fun ps' hc => hps ps' hc ▸ hL'⟩

theorem dirtyAll_keeps {ls : List (Nat × Nat)} {t t' : State} {ok : Bool} (hI : I t) (hL : ∀ x ∈ ls, L t x.2)
    (h : t.dirtyAll core vf ls = (ok, t')) : I t' := by
  unfold State.dirtyAll at h
  generalize true = b at h
  induction ls generalizing b t with
  | nil => cases h; exact hI
  | cons x ls ih =>
    rw [List.foldl_cons] at h
    generalize hd : t.setDirty core vf x.1 x.2 = a at h
    obtain ⟨ok1, t1⟩ := a
    obtain ⟨hI1, hmono⟩ := hk.setDirty hI (hL x List.mem_cons_self) hd
    exact ih hI1 (fun y hy => hmono _ (hL y (List.mem_cons_of_mem _ hy))) _ h

theorem checkAccess_keeps {u sb : Nat} {afresh : Bool} {s s1 : State} {r : Checked} (hI : I s)
    (h : s.checkAccess core vf u sb reqs afresh = (r, s1)) : I s1 := by
  have dirty : ∀ {z z' : State} {ps : List Place} {ok : Bool}, I z → LeavesIn (L z) ps →
      z.dirtyAll core vf (writtenLeaves reqs ps) = (ok, z') → I z' := fun hz hps hd =>
    dirtyAll_keeps hk hz (fun x hx => by obtain ⟨p, hp, hl⟩ := mem_writtenLeaves hx; exact hps p hp _ _ hl) hd
  obtain rfl | ⟨c, z, hc, hz⟩ := checkAccess_cases h
  · exact hI
  obtain ⟨hIz, hps⟩ := translateCheck_keeps hk hI hc
  obtain rfl | ⟨ps, ok, z', hok, hd, hz'⟩ := hz
  · exact hIz
  have hIz' := dirty hIz (hps ps hok) hd
  obtain rfl | ⟨-, c2, z2, hc2, hz2⟩ := hz'
  · exact hIz'
  obtain ⟨hIz2, hps2⟩ := translateCheck_keeps hk hIz' hc2
  obtain rfl | ⟨ps2, ok2, hok2, hd2⟩ := hz2
  · exact hIz2
  · exact dirty hIz2 (hps2 ps2 hok2) hd2

end

/-- The address checks change nothing but memory, translations held, and the counts of choices and of identities. -/
theorem checkAccess_onlyMemTlbs {s s1 : State} {core vf u sb : Nat} {reqs : List Req} {afresh : Bool} {r : Checked}
    (h : s.checkAccess core vf u sb reqs afresh = (r, s1)) : OnlyMemTlbs s s1 := by
  refine checkAccess_keeps (core := core) (vf := vf) (I := OnlyMemTlbs s) (L := fun _ _ => True) ⟨?_, ?_⟩ (.refl s) h
  · exact fun hI _ _ ht => ⟨hI.trans (translate_onlyMemTlbs ht), fun _ _ => trivial, fun _ _ _ _ => trivial⟩
  · exact fun hI _ hd => ⟨hI.trans (setDirty_onlyMemTlbs hd), fun _ _ => trivial⟩

/-- Where no request's path is translated, the address checks change nothing at all: no place names a leaf. -/
theorem checkAccess_untranslated {s s1 : State} {core vf u sb : Nat} {reqs : List Req} {afresh : Bool} {r : Checked}
    (hun : ∀ q ∈ reqs, translated (pathOf q.ea) = false) (h : s.checkAccess core vf u sb reqs afresh = (r, s1)) : s1 = s := by
  refine checkAccess_keeps (core := core) (vf := vf) (reqs := reqs) (I := (· = s)) (L := fun _ _ => False) ⟨?_, ?_⟩ rfl h
  · intro _ _ q _ _ _ hq htr
    rw [hun q hq] at htr
    cases htr
  · exact fun _ hL => hL.elim

/-! The entries that an access writes. -/

/-- A request's walk ends at the entry at a location. -/
def WalkedTo (z : State) (vf : Nat) (q : Req) (el : Nat) : Prop := ∃ level e, z.walk vf (restOf q.ea) = .leaf level e el

/-- A translation that a core or its cluster holds of a request's address names the entry at a location. -/
def HeldAt (s : State) (core vf : Nat) (q : Req) (el : Nat) : Prop := ∃ τ ∈ s.tlbs core, τ.covers vf (restOf q.ea) = true ∧ τ.leafLoc = el

/-- An entry at which a request's walk ends in a state that the access came to on its way from one state to another, by setting A and D. -/
def WalkedOnTheWay (s t : State) (vf : Nat) (q : Req) (el : Nat) : Prop :=
  ∃ z : State, z.ctxs = s.ctxs ∧ z.pkg = s.pkg ∧ PlainUnder z.mem (s.keyIndex vf) ∧ GainsAD s.mem z.mem ∧ GainsAD z.mem t.mem ∧ WalkedTo z vf q el

/-- An entry that an access may have written by the time it has come to a state. -/
def NamedEntry (s : State) (core vf : Nat) (reqs : List Req) (t : State) (el : Nat) : Prop :=
  ∃ q ∈ reqs, HeldAt s core vf q el ∨ WalkedOnTheWay s t vf q el

theorem NamedEntry.mono {s t t' : State} {core vf : Nat} {reqs : List Req} {el : Nat} (hg : GainsAD t.mem t'.mem) (h : NamedEntry s core vf reqs t el) :
    NamedEntry s core vf reqs t' el := by
  obtain ⟨q, hq, hn⟩ := h
  exact ⟨q, hq, hn.imp id fun ⟨z, hc, hp, hplain, hg1, hg2, hw⟩ => ⟨z, hc, hp, hplain, hg1, hg2.trans hg, hw⟩⟩

/-- What holds of every state that the checks of an access come to from a state in which nothing is hidden from the context: the bytes
changed have gained A or D and lie in entries named by a translation held at first or by a walk on the way, and so do the translations now held. -/
structure ChecksInv (s : State) (core vf : Nat) (reqs : List Req) (t : State) : Prop where
  only : OnlyMemTlbs s t
  plain : PlainUnder t.mem (s.keyIndex vf)
  gains : GainsAD s.mem t.mem
  changes : ChangesIn s.mem t.mem (NamedEntry s core vf reqs t)
  tlbs : ∀ τ ∈ t.tlbs core, ∀ q ∈ reqs, τ.covers vf (restOf q.ea) = true → NamedEntry s core vf reqs t τ.leafLoc

theorem ChecksInv.start {s : State} {core vf : Nat} (reqs : List Req) (hp : PlainUnder s.mem (s.keyIndex vf)) : ChecksInv s core vf reqs s where
  only := .refl s
  plain := hp
  gains := .refl _
  changes := .refl _ _
  tlbs τ hτ q hq hc := ⟨q, hq, .inl ⟨τ, hτ, hc, rfl⟩⟩

section
variable {s t t' : State} {core vf : Nat} {reqs : List Req} (hinv : ChecksInv s core vf reqs t)
include hinv

theorem ChecksInv.key : t.keyIndex vf = s.keyIndex vf := keyIndex_congr hinv.only.ctxs vf

/-- A walk made now is one on the way to what comes after. -/
theorem ChecksInv.named_of_walk {q : Req} {el : Nat} (hq : q ∈ reqs) (hg : GainsAD t.mem t'.mem) (hw : WalkedTo t vf q el) :
    NamedEntry s core vf reqs t' el :=
  ⟨q, hq, .inr ⟨t, hinv.only.ctxs, hinv.only.pkg, hinv.plain, hinv.gains, hg, hw⟩⟩

theorem ChecksInv.step (ho : OnlyMemTlbs t t') (hp : PlainUnder t'.mem (s.keyIndex vf)) (hg : GainsAD t.mem t'.mem)
    (hc : ChangesIn t.mem t'.mem (NamedEntry s core vf reqs t'))
    (htlb : ∀ τ ∈ t'.tlbs core, ∀ q ∈ reqs, τ.covers vf (restOf q.ea) = true → NamedEntry s core vf reqs t' τ.leafLoc) :
    ChecksInv s core vf reqs t' where
  only := hinv.only.trans ho
  plain := hp
  gains := hinv.gains.trans hg
  changes := (hinv.changes.mono fun _ => NamedEntry.mono hg).trans hc
  tlbs := htlb

theorem ChecksInv.translate {q : Req} {afresh : Bool} {wk : Walk} (hq : q ∈ reqs) (h : t.translate core vf (restOf q.ea) afresh = (wk, t')) :
    ChecksInv s core vf reqs t' ∧ (∀ el, NamedEntry s core vf reqs t el → NamedEntry s core vf reqs t' el) ∧
      ∀ level e el, wk = .leaf level e el → NamedEntry s core vf reqs t' el := by
  obtain ⟨hp, hg⟩ := translate_plain h (hinv.key ▸ hinv.plain)
  have hwalk : ∀ el, WalkedTo t vf q el → NamedEntry s core vf reqs t' el := fun _ => hinv.named_of_walk hq hg
  refine ⟨hinv.step (translate_onlyMemTlbs h) (hinv.key ▸ hp) hg ((translate_changesIn h).mono hwalk) fun τ hτ q' hq' hc => ?_,
    fun _ => NamedEntry.mono hg, fun level e el hl => ?_⟩
  · rcases translate_tlbs h τ hτ with hτ | hw
    · exact (hinv.tlbs τ hτ q' hq' hc).mono hg
    · exact hwalk _ hw
  · rcases translate_leaf h hl with ⟨-, -, τ, hτ, hc, rfl⟩ | ⟨hw, -⟩
    · exact (hinv.tlbs τ hτ q hq hc).mono hg
    · exact hwalk _ hw

theorem ChecksInv.setDirty {e el : Nat} {ok : Bool} (hn : NamedEntry s core vf reqs t el) (h : t.setDirty core vf e el = (ok, t')) :
    ChecksInv s core vf reqs t' ∧ ∀ el', NamedEntry s core vf reqs t el' → NamedEntry s core vf reqs t' el' := by
  obtain ⟨hp, hg⟩ := setDirty_plain h (hinv.key ▸ hinv.plain)
  refine ⟨hinv.step (setDirty_onlyMemTlbs h) (hinv.key ▸ hp) hg ((setDirty_changesIn h).mono fun _ hel => hel ▸ hn.mono hg)
    fun τ hτ q hq hc => ?_, fun _ => NamedEntry.mono hg⟩
  obtain ⟨τ', hτ', hsame⟩ := setDirty_tlbs h τ hτ
  obtain ⟨hcov, hloc⟩ := hsame vf (restOf q.ea)
  exact hloc ▸ (hinv.tlbs τ' hτ' q hq (hcov.trans hc)).mono hg

end

theorem checkAccess_checksInv {s s1 : State} {core vf u sb : Nat} {reqs : List Req} {afresh : Bool} {r : Checked}
    (hp : PlainUnder s.mem (s.keyIndex vf)) (h : s.checkAccess core vf u sb reqs afresh = (r, s1)) : ChecksInv s core vf reqs s1 :=
  checkAccess_keeps (I := ChecksInv s core vf reqs) (L := NamedEntry s core vf reqs)
    ⟨fun hI hq _ ht => hI.translate hq ht, fun hI hL hd => hI.setDirty hL hd⟩ (.start reqs hp) h

/-! An access of one request. -/

/-- The pass of translations of a single request: its places name at most the leaf that it translates to. -/
theorem translateCheck_one {s t : State} {core vf u sb : Nat} {q : Req} {afresh : Bool} {c : Checked} (htr : translated (pathOf q.ea) = true)
    (h : s.translateCheck core vf u sb afresh [q] = (c, t)) :
    ∃ wk, s.translate core vf (restOf q.ea) afresh = (wk, t) ∧ ∀ ps, c = .ok ps → writtenLeaves [q] ps = [] ∨
      ∃ level e el, wk = .leaf level e el ∧ writtenLeaves [q] ps = [(e, el)] := by
  obtain ⟨ps, x, p, hall, hps⟩ := translateCheck_cases h
  unfold State.translateAll at hall
  rw [if_pos htr] at hall
  generalize s.translate core vf (restOf q.ea) afresh = a at hall
  obtain ⟨wk, t1⟩ := a
  have noPlace : writtenLeaves [q] [] = [] := rfl
  dsimp only at hall
  split at hall
  · cases hall
    exact ⟨_, rfl, fun ps hc => .inl (hps ps hc ▸ noPlace)⟩
  · rename_i level e loc
    split at hall
    · cases hall
      refine ⟨_, rfl, fun ps hc => ?_⟩
      rw [hps ps hc]
      cases hw : q.kind.writes with
      | false => exact .inl (by simp [writtenLeaves, hw])
      | true => exact .inr ⟨level, e, loc, rfl, by simp [writtenLeaves, hw, List.eraseDups_cons]⟩
    · cases hall
      exact ⟨_, rfl, fun ps hc => .inl (hps ps hc ▸ noPlace)⟩

theorem dirtyAll_one (s : State) (core vf e el : Nat) : s.dirtyAll core vf [(e, el)] = s.setDirty core vf e el := by
  simp only [State.dirtyAll, List.foldl_cons, List.foldl_nil, Bool.true_and]

/-- The entries that one pass of a single request may write. -/
def PassEntry (s : State) (core vf : Nat) (q : Req) (afresh : Bool) (el : Nat) : Prop :=
  WalkedTo s vf q el ∨ afresh = false ∧ HeldAt s core vf q el

/-- One pass of a single request, translating and setting D: it writes the entry it names alone, and where it finds the entry changed it has
written nothing, since an entry that has just been walked to reads as it was read. -/
theorem pass_one {s z t : State} {core vf u sb : Nat} {q : Req} {afresh : Bool} {ps : List Place} {ok : Bool}
    (htr : translated (pathOf q.ea) = true) (hp : PlainUnder s.mem (s.keyIndex vf)) (hc : s.translateCheck core vf u sb afresh [q] = (.ok ps, z))
    (hd : z.dirtyAll core vf (writtenLeaves [q] ps) = (ok, t)) :
    OnlyMemTlbs s t ∧ ChangesIn s.mem t.mem (PassEntry s core vf q afresh) ∧ (ok = false → t.mem = s.mem) := by
  obtain ⟨wk, ht, hl⟩ := translateCheck_one htr hc
  have hto := translate_onlyMemTlbs ht
  have htc : ChangesIn s.mem z.mem (PassEntry s core vf q afresh) := (translate_changesIn ht).mono fun _ => .inl
  rcases hl ps rfl with hls | ⟨level, e, el, hwk, hls⟩
  · rw [hls] at hd
    cases hd
    exact ⟨hto, htc, fun h => by cases h⟩
  · rw [hls] at hd
    have hset : z.setDirty core vf e el = (ok, t) := (dirtyAll_one z core vf e el).symm.trans hd
    have hentry : PassEntry s core vf q afresh el :=
      (translate_leaf ht hwk).elim (fun ⟨ha, _, hh⟩ => .inr ⟨ha, hh⟩) (fun ⟨hw, _⟩ => .inl hw)
    refine ⟨hto.trans (setDirty_onlyMemTlbs hset), htc.trans ((setDirty_changesIn hset).mono fun _ hel => hel ▸ hentry), fun hfalse => ?_⟩
    rcases setDirty_cases hset with ⟨rfl, hne⟩ | ⟨htrue, -⟩
    · rcases translate_leaf ht hwk with ⟨-, hm, -⟩ | ⟨-, hread⟩
      · exact hm
      · have hkey := keyIndex_congr hto.ctxs vf
        have hpz : PlainUnder t.mem (t.keyIndex vf) := hkey ▸ (translate_plain ht hp).1
        exact absurd ((memOf_nat hpz el 8).trans (hread hp)) (hne hfalse)
    · rw [hfalse] at htrue
      cases htrue

/-- An access of one request writes no byte outside the entry that its walk ends at and those that held translations of its address name:
a second pass is made only where the first has written nothing, so its walk ends where the first state's does. -/
theorem checkAccess_one_changesIn {s s1 : State} {core vf u sb : Nat} {q : Req} {afresh : Bool} {r : Checked}
    (hp : PlainUnder s.mem (s.keyIndex vf)) (h : s.checkAccess core vf u sb [q] afresh = (r, s1)) :
    ChangesIn s.mem s1.mem (fun el => WalkedTo s vf q el ∨ HeldAt s core vf q el) := by
  cases htr : translated (pathOf q.ea) with
  | false =>
    rw [checkAccess_untranslated (fun q' hq' => List.mem_singleton.mp hq' ▸ htr) h]
    exact .refl _ _
  | true =>
    have hpass : ∀ el, PassEntry s core vf q afresh el → WalkedTo s vf q el ∨ HeldAt s core vf q el := fun _ => .imp id And.right
    obtain rfl | ⟨c, z, hc, hz⟩ := checkAccess_cases h
    · exact .refl _ _
    obtain ⟨wk, ht, -⟩ := translateCheck_one htr hc
    obtain rfl | ⟨ps, ok, z', rfl, hd, hz'⟩ := hz
    · exact (translate_changesIn ht).mono fun _ => .inl
    obtain ⟨hsame, hfirst, hnothing⟩ := pass_one htr hp hc hd
    obtain rfl | ⟨hok, c2, z2, hc2, hz2⟩ := hz'
    · exact hfirst.mono hpass
    have hmem : z'.mem = s.mem := hnothing hok
    have hpz : PlainUnder z'.mem (z'.keyIndex vf) := by rw [hmem, keyIndex_congr hsame.ctxs]; exact hp
    have hwalk : ∀ el, WalkedTo z' vf q el → WalkedTo s vf q el ∨ HeldAt s core vf q el := fun el hw => by
      unfold WalkedTo at hw
      rw [walk_congr hmem hsame.pkg hsame.ctxs] at hw
      exact .inl hw
    rw [← hmem]
    obtain ⟨wk2, ht2, -⟩ := translateCheck_one htr hc2
    obtain rfl | ⟨ps2, ok2, rfl, hd2⟩ := hz2
    · exact (translate_changesIn ht2).mono hwalk
    · exact (pass_one htr hpz hc2 hd2).2.1.mono fun el hel => hwalk el (hel.resolve_right fun h => by cases h.1)

end Sys2Proof.Machine

namespace Sys2Proof
open Machine

/-- Settles O16: `ChecksInv`, kept by every translation and every setting of D, says what an access of any requests changes; an access of one
request is followed through its two passes. -/
theorem accessFrame : Obligations.AccessFrame := by
  unfold Obligations.AccessFrame
  intro s s1 core vf u sb reqs afresh r h
  have ho := checkAccess_onlyMemTlbs h
  refine ⟨ho.waves, ho.units, ho.launches, ho.frames, ho.held, ho.ctxs, ho.pf, ho.dies, ho.pkg, ho.rels, ho.cur,
    fun k => ⟨ho.core k, ho.cluster k⟩, fun hun => checkAccess_untranslated hun h, ?_, ?_, ?_, ?_⟩
  · intro va w z ht a ha hne
    obtain ⟨el, hin, level, e, hw⟩ := translate_changesIn ht a ha hne
    exact ⟨level, e, el, hw, hin⟩
  · intro e el a ha hne
    obtain ⟨el', hin, rfl⟩ := setDirty_changesIn (s := s) (core := core) (vf := vf) (e := e) (el := el) rfl a ha hne
    exact hin
  · intro q hp hq a ha hne
    subst hq
    exact checkAccess_one_changesIn hp h a ha hne
  · intro hp
    have hinv := checkAccess_checksInv hp h
    refine ⟨hinv.gains, fun a ha hne => ?_⟩
    obtain ⟨el, hin, q, hq, hn⟩ := hinv.changes a ha hne
    exact ⟨q, hq, el, hin, hn⟩

end Sys2Proof
end

section
/-! PROOFS. What completing an operation releases, and what it leaves alone (O45). -/
namespace Sys2Proof.Machine

/-! Views merged into a set, and the sets of a state (03 R77). -/

theorem viewTop_cons (p : Nat × Nat) (v : View) (loc : Nat) :
    viewTop (p :: v) loc = if p.1 = loc then max p.2 (viewTop v loc) else viewTop v loc := by
  unfold viewTop
  by_cases h : p.1 = loc
  · simp only [h, decide_true, List.filter_cons_of_pos, List.foldl_cons, Nat.max_comm 0, if_true]
    simp only [← List.foldl_map (f := fun q : Nat × Nat => q.2) (g := max)]
    exact List.foldl_assoc
  · simp [h]

theorem tget_vmerge (w v : View) (loc : Nat) : tget 0 (vmerge v w) loc = max (tget 0 v loc) (viewTop w loc) := by
  induction w generalizing v with
  | nil => exact (Nat.max_zero _).symm
  | cons p w ih =>
    have hstep : vmerge v (p :: w) = vmerge (if tget 0 v p.1 < p.2 then tins v p.1 p.2 else v) w := rfl
    rw [hstep, ih, viewTop_cons]
    by_cases hloc : p.1 = loc
    · subst hloc
      split
      · rw [tget_tins_same, if_pos rfl]
        omega
      · rw [if_pos rfl]
        omega
    · rw [if_neg hloc]
      split
      · rw [tget_tins_ne _ _ _ _ _ (Ne.symm hloc)]
      · rfl

theorem rel_relMerge_same (s : State) (k : RKey) (v : View) : (s.relMerge k v).rel k = vmerge (s.rel k) v := by
  unfold State.relMerge
  simp [State.rel]

theorem rel_relMerge_ne (s : State) {k j : RKey} (v : View) (h : j ≠ k) : (s.relMerge k v).rel j = s.rel j := by
  have hfind : ∀ l : List (RKey × View), (l.filter (fun p => p.1 != k)).find? (fun p => p.1 == j) = l.find? (fun p => p.1 == j) := fun l => by
    rw [List.find?_filter]
    congr 1
    funext p
    by_cases hp : p.1 = j <;> simp [hp, h]
  simp [State.rel, State.relMerge, hfind, Ne.symm h]

theorem rel_congr {s t : State} (h : t.rels = s.rels) (k : RKey) : t.rel k = s.rel k := by
  unfold State.rel
  rw [h]

/-! The contexts of a unit, and what changes one operation (04 R105). -/

theorem UnitSt.ctx_setEng_same (x : UnitSt) (e : Nat) (c : EngCtx) : (x.setEng e c).ctx e = c := tget_tset_same _ _ _ _

theorem UnitSt.ctx_setEng_ne (x : UnitSt) {e k : Nat} (c : EngCtx) (h : k ≠ e) : (x.setEng e c).ctx k = x.ctx k := tget_tset_ne _ _ _ _ _ h

theorem UnitSt.ctx_congr {x y : UnitSt} (h : y.eng = x.eng) (e : Nat) : y.ctx e = x.ctx e := by
  unfold UnitSt.ctx
  rw [h]

theorem EngCtx.op?_num {c : EngCtx} {n : Nat} {o : Op} (h : c.op? n = some o) : o.num = n := by
  simpa using List.find?_some h

theorem EngCtx.op?_setOp {c : EngCtx} {n : Nat} {o : Op} (h : c.op? n ≠ none) (hn : o.num = n) : (c.setOp o).op? n = some o := by
  subst hn
  unfold EngCtx.op? at *
  unfold EngCtx.setOp
  dsimp only
  generalize c.ops = l at h ⊢
  induction l with
  | nil => exact absurd rfl h
  | cons x xs ih =>
    by_cases hx : x.num = o.num
    · simp [hx]
    · simpa [hx] using ih (by simpa [hx] using h)

/-- An operation of a context, as an agent, is kept in it (03 R100). -/
theorem agent_setAgent_op {s : State} {u e n : Nat} (x : AgentSt) (h : ((s.unit u).ctx e).op? n ≠ none) :
    (s.setAgent (.op u e n) x).agent (.op u e n) = x := by
  obtain ⟨o, ho⟩ := Option.ne_none_iff_exists'.mp h
  have hn : o.num = n := EngCtx.op?_num ho
  simp only [State.setAgent, State.agent, State.unit_modUnit, UnitSt.ctx_setEng_same, ho, Option.map_some, Option.getD_some]
  exact congrArg (Option.elim · AgentSt.init (·.ag)) (EngCtx.op?_setOp (o := { o with ag := x }) h hn)

theorem iss_setAgent_op (s : State) (u e n : Nat) (x : AgentSt) :
    (((s.setAgent (.op u e n) x).unit u).ctx e).iss = ((s.unit u).ctx e).iss := by
  simp only [State.setAgent, State.unit_modUnit, UnitSt.ctx_setEng_same]
  rfl

theorem ctx_setAgent_op_ne (s : State) (u n : Nat) {e k : Nat} (x : AgentSt) (h : k ≠ e) :
    ((s.setAgent (.op u e n) x).unit u).ctx k = (s.unit u).ctx k := by
  simp only [State.setAgent, State.unit_modUnit, UnitSt.ctx_setEng_ne _ _ h]

theorem setAgent_rels (s : State) (ag : Agent) (x : AgentSt) : (s.setAgent ag x).rels = s.rels := by
  cases ag <;> rfl

theorem drainAll_rels (s : State) (ag : Agent) : (s.drainAll ag).rels = s.rels := setAgent_rels _ _ _

theorem drainAll_op_queue {s : State} {u e n : Nat} (h : ((s.unit u).ctx e).op? n ≠ none) :
    ((s.drainAll (.op u e n)).agent (.op u e n)).queue = [] :=
  congrArg AgentSt.queue (agent_setAgent_op _ h)

/-! What the end of an operation does besides its release and its count: nothing to memory, to a set, or to a unit's contexts. -/

/-- Two states alike in memory, in the records of failed writes, in every set and in every unit's contexts. -/
structure KeepsEngines (s t : State) : Prop where
  mem : t.mem = s.mem
  failed : t.failed = s.failed
  rels : t.rels = s.rels
  eng : ∀ y, (t.unit y).eng = (s.unit y).eng

theorem KeepsEngines.refl (s : State) : KeepsEngines s s := ⟨rfl, rfl, rfl, fun _ => rfl⟩

theorem KeepsEngines.trans {s t r : State} (h1 : KeepsEngines s t) (h2 : KeepsEngines t r) : KeepsEngines s r :=
  ⟨h2.mem.trans h1.mem, h2.failed.trans h1.failed, h2.rels.trans h1.rels, fun y => (h2.eng y).trans (h1.eng y)⟩

theorem KeepsEngines.foldl {α : Type} {f : State → α → State} (hf : ∀ s a, KeepsEngines s (f s a)) (l : List α) (s : State) :
    KeepsEngines s (l.foldl f s) := by
  induction l generalizing s with
  | nil => exact .refl s
  | cons a l ih => exact (hf s a).trans (ih _)

theorem KeepsEngines.modUnit {s : State} {u : Nat} {f : UnitSt → UnitSt} (h : (f (s.unit u)).eng = (s.unit u).eng) :
    KeepsEngines s (s.modUnit u f) := by
  refine ⟨rfl, rfl, rfl, fun y => ?_⟩
  by_cases hy : y = u
  · subst hy
    rw [State.unit_modUnit, h]
  · rw [State.unit_modUnit_ne _ _ _ _ hy]

theorem KeepsEngines.modWave (s : State) (w : Nat) (f : Wave → Wave) : KeepsEngines s (s.modWave w f) := ⟨rfl, rfl, rfl, fun _ => rfl⟩

theorem endHolds_keepsEngines (s : State) (u : Nat) (h : Hold) : KeepsEngines s (s.endHolds u h) :=
  .foldl (fun t w => .modWave t w _) _ s

theorem dropOwner_keepsEngines (s : State) (core u : Nat) : KeepsEngines s (s.dropOwner core u) := by
  unfold State.dropOwner
  split
  · exact ⟨rfl, rfl, rfl, fun _ => rfl⟩
  · exact .refl s

theorem freeTiles_keepsEngines (s : State) (u : Nat) : KeepsEngines s (s.freeTiles u) := by
  refine .foldl (fun t y => ?_) _ s
  split
  · exact .modUnit rfl
  · exact .refl t

theorem giveBack_keepsEngines (s : State) (u : Nat) : KeepsEngines s (s.giveBack u) := by
  have hunit : KeepsEngines s (s.modUnit u (fun y => { y with released := true, resident := false, saved := none })) := .modUnit rfl
  unfold State.giveBack
  dsimp only
  split
  · exact hunit
  · exact hunit.trans ⟨rfl, rfl, rfl, fun _ => rfl⟩

theorem releaseGroup_keepsEngines (s : State) (u : Nat) : KeepsEngines s (s.releaseGroup u) := by
  unfold State.releaseGroup
  dsimp only
  have howner : KeepsEngines s (if ((s.unit u).ended && ((s.unit u).ctx 7).ops.isEmpty) = true then s.dropOwner (s.unit u).core u else s) := by
    split
    · exact dropOwner_keepsEngines s _ u
    · exact .refl s
  have hfree := howner.trans (freeTiles_keepsEngines _ u)
  generalize State.freeTiles _ u = t at hfree ⊢
  refine hfree.trans ?_
  split
  · exact .foldl giveBack_keepsEngines _ _
  · exact .refl _

/-- An operation's number becomes its context's CNT, and it is outstanding no more (04 R105). -/
def State.countOp (s : State) (u e n : Nat) : State :=
  s.modUnit u (fun x => x.setEng e { x.ctx e with cnt := BitVec.ofNat 64 n, ops := (x.ctx e).ops.filter (fun o => o.num != n) })

theorem ctx_countOp_same (s : State) (u e n : Nat) : ((s.countOp u e n).unit u).ctx e =
    { (s.unit u).ctx e with cnt := BitVec.ofNat 64 n, ops := ((s.unit u).ctx e).ops.filter (fun o => o.num != n) } := by
  unfold State.countOp
  rw [State.unit_modUnit, UnitSt.ctx_setEng_same]

theorem ctx_countOp_ne (s : State) (u n : Nat) {e k : Nat} (h : k ≠ e) : ((s.countOp u e n).unit u).ctx k = (s.unit u).ctx k := by
  unfold State.countOp
  rw [State.unit_modUnit, UnitSt.ctx_setEng_ne _ _ h]

/-- Completing an operation is its full release and its count; what follows keeps memory, the sets and the contexts. -/
theorem completeOp_keepsEngines (s : State) (u e n : Nat) :
    KeepsEngines ((s.fullRelease (.op u e n) (.timeline u e)).countOp u e n) (s.completeOp u e n) := by
  unfold State.completeOp
  refine .trans ?_ (releaseGroup_keepsEngines _ u)
  split
  · exact endHolds_keepsEngines _ u _
  · exact .refl _

end Sys2Proof.Machine

namespace Sys2Proof
open Machine

/-- Settles O45: an operation's completion is its full release into the timeline's set, then its count; what else it does keeps the engines. -/
theorem operationCompletes : Obligations.OperationCompletes := by
  unfold Obligations.OperationCompletes
  intro s u e n hn hop ag d t
  have hk : KeepsEngines ((s.fullRelease ag (.timeline u e)).countOp u e n) t := completeOp_keepsEngines s u e n
  have hctx : ∀ k, (t.unit u).ctx k = (((s.fullRelease ag (.timeline u e)).countOp u e n).unit u).ctx k := fun k => UnitSt.ctx_congr (hk.eng u) k
  have hrels : ∀ k, t.rel k = (s.fullRelease ag (.timeline u e)).rel k := fun k => rel_congr hk.rels k
  have hd : ∀ k, d.rel k = s.rel k := fun k => rel_congr (drainAll_rels s ag) k
  refine ⟨drainAll_op_queue hop, hk.mem, hk.failed, fun loc => ?_, fun k hne => ?_, ?_, ?_, fun o ho => ?_, fun k hne => ?_⟩
  · calc tget 0 (t.rel (.timeline u e)) loc
      _ = tget 0 (vmerge (d.rel (.timeline u e)) (d.agent ag).view) loc := by rw [hrels]; exact congrArg (tget 0 · loc) (rel_relMerge_same d _ _)
      _ = max (tget 0 (s.rel (.timeline u e)) loc) (viewTop (d.agent ag).view loc) := by rw [tget_vmerge, hd]
  · exact ((hrels k).trans (rel_relMerge_ne d _ hne)).trans (hd k)
  · rw [hctx, ctx_countOp_same]
    exact (BitVec.toNat_ofNat n 64).trans (Nat.mod_eq_of_lt hn)
  · rw [hctx, ctx_countOp_same]
    exact iss_setAgent_op _ u e n _
  · rw [hctx, ctx_countOp_same] at ho
    simpa using (List.mem_filter.mp ho).2
  · rw [hctx, ctx_countOp_ne _ u n hne]
    exact ctx_setAgent_op_ne _ u n _ hne

end Sys2Proof
end

section
/-! PROOFS. How an operation starts at the head of its context, and how a landing transfer completes (O46). -/
namespace Sys2Proof.Machine

theorem exec_engineOperationStart (s : State) : exec .engineOperationStart s = execEngineOperationStart s := rfl

theorem exec_landingTransferComplete (s : State) : exec .landingTransferComplete s = execLandingTransferComplete s := rfl

/-- An operation that has started and has had no effect yet (04 R105). -/
def State.startOp (s : State) (u e n : Nat) : State := s.modOp u e n (fun o => { o with phase := .running })

/-- An operation with its first entry read (04 R111). -/
def State.sawFirst (s : State) (u e n : Nat) (d : List DWord) : State := s.modOp u e n (fun o => { o with seen := tins o.seen 0 d })

section
variable {s : State} {o : Op} (hhead : (s.unit s.occ.a).headOp s.occ.b = some o) (hrun : s.enginesRun s.occ.a = true)
include hhead hrun

theorem engineStart_of_faulted (hq : o.phase = .queued) (hf : bits ((s.unit s.occ.a).ctx s.occ.b).fault.toNat 63 63 = 1) :
    exec .engineOperationStart s = .next (s.abandonOp s.occ.a s.occ.b o) := by
  rw [exec_engineOperationStart]
  unfold execEngineOperationStart
  simp [hhead, hq, hrun, hf]

theorem engineStart_of_mma {sub td tb c0 cn : Nat} {ms : List (Nat × Nat)} (hq : o.phase = .queued)
    (hf : bits ((s.unit s.occ.a).ctx s.occ.b).fault.toNat 63 63 = 0) (hk : o.kind = .mma sub td tb ms c0 cn) :
    exec .engineOperationStart s = .next ((td :: tb :: ms.map (fun m => m.2)).foldl
      (fun s' t => s'.fullAcquire (.op s.occ.a s.occ.b o.num) (.tile s.occ.a t)) (s.startOp s.occ.a s.occ.b o.num)) := by
  rw [exec_engineOperationStart]
  unfold execEngineOperationStart State.startOp
  simp [hhead, hq, hrun, hf, hk]

theorem engineStart_of_entry {head : DWord} {cap : Option CapBits} {d : List DWord} {s2 : State} (hq : o.phase = .queued)
    (hf : bits ((s.unit s.occ.a).ctx s.occ.b).fault.toNat 63 63 = 0) (hk : o.kind = .chain head cap)
    (hread : (s.startOp s.occ.a s.occ.b o.num).readEntry s.occ.a s.occ.b o 0 = (.ok d, s2)) :
    exec .engineOperationStart s =
      .next (if entryBad s.occ.b 0 [] d then
          (s2.sawFirst s.occ.a s.occ.b o.num d).engineFault s.occ.a s.occ.b o Code.chain ((s2.sawFirst s.occ.a s.occ.b o.num d).unit s.occ.a).core
        else s2.sawFirst s.occ.a s.occ.b o.num d) := by
  rw [exec_engineOperationStart]
  unfold execEngineOperationStart
  unfold State.startOp at hread
  simp only [hhead, hq, hrun, hf, hk, hread]
  by_cases hbad : entryBad s.occ.b 0 [] d <;> simp [hbad, State.sawFirst]

theorem engineStart_of_unread {head : DWord} {cap : Option CapBits} {k : Code} {s2 : State} (hq : o.phase = .queued)
    (hf : bits ((s.unit s.occ.a).ctx s.occ.b).fault.toNat 63 63 = 0) (hk : o.kind = .chain head cap)
    (hread : (s.startOp s.occ.a s.occ.b o.num).readEntry s.occ.a s.occ.b o 0 = (.error k, s2)) :
    exec .engineOperationStart s = .next (s2.engineFault s.occ.a s.occ.b o k (s2.unit s.occ.a).core) := by
  rw [exec_engineOperationStart]
  unfold execEngineOperationStart
  unfold State.startOp at hread
  simp [hhead, hq, hrun, hf, hk, hread]

/-- A landing transfer completes: before its first arrival it makes its slot FULL, and it makes arrivals until its entry has passed. -/
theorem landingTransferComplete_of_landing {k : Nat} {d : List DWord} (hp : o.phase = .landing k) (hd : tfind? o.seen o.entry = some d) :
    exec .landingTransferComplete s = .next ((if o.arrived = 0 then s.modWave o.wave (fun v =>
      v.putSlot k { tget Landing.init v.landing k with state := .full }) else s).passEntry s.occ.a s.occ.b o d) := by
  rw [exec_landingTransferComplete]
  unfold execLandingTransferComplete
  by_cases ha : o.arrived = 0 <;> simp [hhead, hrun, hp, hd, ha]

end

end Sys2Proof.Machine

namespace Sys2Proof
open Machine

/-- Settles O46: by the phase of the operation at the head and, of a chain, by what the read of its first entry gives. -/
theorem engineStarts : Obligations.EngineStarts := by
  unfold Obligations.EngineStarts
  intro s o u e hhead hrun
  refine ⟨engineStart_of_faulted hhead hrun, fun hq hf => ⟨fun sub td tb ms c0 cn => engineStart_of_mma hhead hrun hq hf, ?_⟩, fun k d hp hd => ?_⟩
  · intro head cap s2 hk
    exact ⟨fun d => engineStart_of_entry hhead hrun hq hf hk, fun k => engineStart_of_unread hhead hrun hq hf hk⟩
  · have hland := landingTransferComplete_of_landing hhead hrun hp hd
    exact ⟨fun ha => by rwa [if_pos ha] at hland, fun ha => by rwa [if_neg ha] at hland⟩

end Sys2Proof
end

section
/-! PROOFS. The entries of a command chain that move no rows, arrivals, and the tiles of an entry that completes (O47). -/
namespace Sys2Proof.Machine

/-! The entry that an operation stands at, as every kind of entry is given it (04 R105, R111). -/

/-- An event of a context is handed the entry `d` of its operation `p`, in the state that reading it has left. -/
def HandsOn (s s1 : State) (p : Op) (d : List DWord) : Prop :=
  ∀ row k, s.atEntry row k = k s1 s.occ.a s.occ.b p (.ok d)

theorem handsOn_of_head {s s1 : State} {o : Op} {d : List DWord} (hhead : (s.unit s.occ.a).headOp s.occ.b = some o) (hp : o.phase = .running)
    (hrun : s.enginesRun s.occ.a = true) (he : s.occ.b ≠ 7) (hnow : s.entryNow s.occ.a s.occ.b o = (.ok d, s1)) :
    HandsOn s s1 ((((s1.unit s.occ.a).ctx s.occ.b).op? o.num).getD o) d := by
  intro row k
  unfold State.atEntry
  simp [hhead, hp, hrun, he, hnow]

theorem EngCtx.op?_getD_num (c : EngCtx) (o : Op) : ((c.op? o.num).getD o).num = o.num := by
  cases h : c.op? o.num with
  | none => rfl
  | some y => exact EngCtx.op?_num h

/-! Arrivals (04 R117; 03 R101). -/

theorem arriveSome_spec (s : State) (u e : Nat) (o : Op) (d : List DWord) : ∃ k f, 0 < k ∧ s.arriveSome u e o d =
    (decide ((s.barriersLeft u o d).length ≤ k), { s with fresh := f }.arriveAt u e o.num d ((s.barriersLeft u o d).take k)) := by
  obtain ⟨f, hf⟩ := (pick_spec s (s.barriersLeft u o d).length).1
  exact ⟨_, f, Nat.succ_pos _, by rw [← hf]; rfl⟩

theorem passEntry_spec (s : State) (u e : Nat) (o : Op) (d : List DWord) : ∃ k f, 0 < k ∧ s.passEntry u e o d =
    if (s.barriersLeft u o d).length ≤ k then ({ s with fresh := f }.arriveAt u e o.num d ((s.barriersLeft u o d).take k)).finishEntry u e o.num
    else { s with fresh := f }.arriveAt u e o.num d ((s.barriersLeft u o d).take k) := by
  obtain ⟨k, f, hk, h⟩ := arriveSome_spec s u e o d
  exact ⟨k, f, hk, by unfold State.passEntry; simp [h]⟩

/-! The tiles of an entry that completes (02 R65). -/

theorem UnitSt.tile_setTile_same (x : UnitSt) (t : Nat) (v : Tile) : (x.setTile t v).tile t = v := tget_tins_same _ _ _ _

theorem UnitSt.tile_setTile_ne (x : UnitSt) {t k : Nat} (v : Tile) (h : k ≠ t) : (x.setTile t v).tile k = x.tile k := tget_tins_ne _ _ _ _ _ h

/-- A tile made READY (02 R65). -/
def State.readyTile (s : State) (p : Nat × Nat) : State := s.modUnit p.1 (fun x => x.setTile p.2 { x.tile p.2 with state := .ready })

theorem readyTile_state (s : State) (p q : Nat × Nat) :
    (((s.readyTile p).unit q.1).tile q.2).state = if q = p then .ready else ((s.unit q.1).tile q.2).state := by
  obtain ⟨pu, pt⟩ := p
  obtain ⟨qu, qt⟩ := q
  unfold State.readyTile
  dsimp only
  by_cases hu : qu = pu
  · subst hu
    rw [State.unit_modUnit]
    by_cases ht : qt = pt
    · subst ht
      rw [UnitSt.tile_setTile_same, if_pos rfl]
    · rw [UnitSt.tile_setTile_ne _ _ ht, if_neg (by simp [ht])]
  · rw [State.unit_modUnit_ne _ _ _ _ hu, if_neg (by simp [hu])]

theorem readyTiles_state (l : List (Nat × Nat)) (s : State) (q : Nat × Nat) (h : q ∈ l ∨ ((s.unit q.1).tile q.2).state = .ready) :
    (((l.foldl State.readyTile s).unit q.1).tile q.2).state = .ready := by
  induction l generalizing s with
  | nil => exact h.resolve_left (List.not_mem_nil)
  | cons p l ih =>
    refine ih _ ?_
    rw [readyTile_state]
    by_cases hq : q = p
    · exact .inr (if_pos hq)
    · rw [if_neg hq]
      exact h.imp (fun hm => (List.mem_cons.mp hm).resolve_left hq) id

/-- Two states alike in every unit's tiles. -/
def KeepsTiles (s t : State) : Prop := ∀ u k, (t.unit u).tile k = (s.unit u).tile k

theorem modOp_keepsTiles (s : State) (u e n : Nat) (f : Op → Op) : KeepsTiles s (s.modOp u e n f) := by
  intro y k
  unfold State.modOp
  by_cases hy : y = u
  · subst hy
    rw [State.unit_modUnit]
    rfl
  · rw [State.unit_modUnit_ne _ _ _ _ hy]

theorem returnCurrent_keepsTiles (s : State) (u e n units : Nat) : KeepsTiles s (s.returnCurrent u e n units) := by
  unfold State.returnCurrent
  split
  · exact fun _ _ => rfl
  · exact modOp_keepsTiles (State.modCluster _ _ _) u e n _

theorem finishEntry_moved_ready {s : State} {u e n : Nat} {y : Op} (hop : ((s.unit u).ctx e).op? n = some y) (hstop : y.stops = false)
    {q : Nat × Nat} (hq : q ∈ y.moved) : (((s.finishEntry u e n).unit q.1).tile q.2).state = .ready := by
  unfold State.finishEntry
  simp only [hop, hstop, Bool.false_eq_true, if_false]
  rw [modOp_keepsTiles, returnCurrent_keepsTiles]
  exact readyTiles_state y.moved _ q (.inl hq)

/-! Each kind of entry without rows takes effect. -/

theorem exec_endEntry (s : State) : exec .endEntry s = execEndEntry s := rfl

theorem exec_loopEntry (s : State) : exec .loopEntry s = execLoopEntry s := rfl

theorem exec_condEntry (s : State) : exec .condEntry s = execCondEntry s := rfl

theorem exec_arriveOnlyEntry (s : State) : exec .arriveOnlyEntry s = execArriveOnlyEntry s := rfl

theorem condSet_of_count {s : State} {u e : Nat} {o : Op} {d : List DWord} (h0 : bits (dw d 6) 1 0 = 0)
    (hctx : (s.unit u).hasCtx (bits (dw d 6) 34 32) = true) (hown : bits (dw d 6) 34 32 = e → dw d 7 < o.num)
    (hcnt : dw d 7 ≤ ((s.unit u).ctx (bits (dw d 6) 34 32)).cnt.toNat) :
    s.condSet u e o d = .ok (some (.timeline u (bits (dw d 6) 34 32))) := by
  have hnot : ¬ (bits (dw d 6) 34 32 = e ∧ o.num ≤ dw d 7) := fun ⟨h1, h2⟩ => absurd (hown h1) (Nat.not_lt.mpr h2)
  unfold State.condSet
  simp [h0, hctx, hnot, Nat.not_lt.mpr hcnt]

theorem condSet_of_phase {s : State} {u loc : Nat} (e : Nat) (o : Op) {d : List DWord} (h0 : bits (dw d 6) 1 0 ≠ 0) (hb : s.barrierAt u d = .ok loc)
    (hp : s.mem.abarPhase loc ≠ bits (dw d 7) 31 0) : s.condSet u e o d = .ok (some (.abarPhase loc)) := by
  unfold State.condSet
  simp [h0, hb, hp, Except.map]

section
variable {s s1 : State} {p : Op} {d : List DWord} (h : HandsOn s s1 p d)
include h

theorem endEntry_completes (hk : entryKind d = 5) : exec .endEntry s = .next (s1.completeOp s.occ.a s.occ.b p.num) := by
  rw [exec_endEntry, execEndEntry, h]
  exact if_pos hk

theorem loopEntry_performs (hk : entryKind d = 2) : exec .loopEntry s = .next (s1.modOp s.occ.a s.occ.b p.num (fun o => o.loopEntry d)) := by
  rw [exec_loopEntry, execLoopEntry, h]
  exact if_pos hk

theorem condEntry_acquires {k : RKey} (hk : entryKind d = 3) (hc : s1.condSet s.occ.a s.occ.b p d = .ok (some k)) :
    exec .condEntry s = .next ((s1.fullAcquire (.op s.occ.a s.occ.b p.num) k).modOp s.occ.a s.occ.b p.num Op.advance) := by
  rw [exec_condEntry, execCondEntry, h]
  simp [hk, hc]

theorem arriveOnlyEntry_arrives {rs : List Nat} (hk : entryKind d = 4) (hrs : s1.receivers s.occ.a d = .ok rs)
    (hf : s1.barrierFaults s.occ.a rs d = []) (hb : ∀ r ∈ rs, (s1.unit r).begun = true) :
    ∃ k f, 0 < k ∧ exec .arriveOnlyEntry s = .next (if (s1.barriersLeft s.occ.a p d).length ≤ k then
      ({ s1 with fresh := f }.arriveAt s.occ.a s.occ.b p.num d ((s1.barriersLeft s.occ.a p d).take k)).modOp s.occ.a s.occ.b p.num Op.advance
    else { s1 with fresh := f }.arriveAt s.occ.a s.occ.b p.num d ((s1.barriersLeft s.occ.a p d).take k)) := by
  obtain ⟨k, f, hpos, harr⟩ := arriveSome_spec s1 s.occ.a s.occ.b p d
  refine ⟨k, f, hpos, ?_⟩
  rw [exec_arriveOnlyEntry, execArriveOnlyEntry, h]
  simp [hk, hrs, hf, List.all_eq_true.mpr hb, harr]

end

theorem Op.loopEntry_of_zero {o : Op} {d : List DWord} (h0 : bits (dw d 6) 63 32 = 0) : o.loopEntry d = o.advance := if_pos h0

theorem Op.loopEntry_of_count {o : Op} {d : List DWord} (h0 : bits (dw d 6) 63 32 ≠ 0) : o.loopEntry d =
    { o with
      loop := some { at_ := o.entry, rep := 1, count := bits (dw d 6) 63 32, span := bits (dw d 6) 31 0,
                     sstep := sextNat (bits (dw d 7) 63 32) 32, dstep := sextNat (bits (dw d 7) 31 0) 32 }
      entry := o.entry - bits (dw d 6) 31 0 } := if_neg h0

end Sys2Proof.Machine
end

section
/-! PROOFS. Entries that move rows: reached, then performed with their current, a collective one in two halves (O47). -/
namespace Sys2Proof.Machine

theorem exec_copyEntry (s : State) : exec .copyEntry s = execCopyEntry s := rfl

theorem exec_gatherEntry (s : State) : exec .gatherEntry s = execGatherEntry s := rfl

theorem exec_collectiveEntry (s : State) : exec .collectiveEntry s = execCollectiveEntry s := rfl

theorem isLanding_kind {d : List DWord} (h : isLanding d = true) : entryKind d = 1 := by
  unfold isLanding at h
  rw [Bool.and_eq_true] at h
  exact of_decide_eq_true h.1

/-! An entry is reached (02 R65; 04 R116, R118, R125). -/

section
variable {s s2 : State} {u e : Nat} {o : Op} {d : List DWord} {moved : List (Nat × Nat)} (hf : s.entryFaults u d = [])
  (hb : ∀ r ∈ ((s.receivers u d).toOption).getD [], (s.unit r).begun = true) (hm : s.moveTiles u o d = (s2, moved, []))
include hf hb hm

/-- An entry whose tiles have all moved asks for its current; a collective one once its group is usable. -/
theorem reachEntry_of_moved (hgroup : entryKind d = 6 → ∃ g, tfind? s.pkg.groups (s.groupKey u d) = some g ∧ g.usable = true)
    (hl : isLanding d = false) :
    s.reachEntry u e o d = some ((s2.modOp u e o.num (fun y => { y with moved })).requestCurrent u e o.num o.units) := by
  have husable : (entryKind d != 6 || ((tfind? s.pkg.groups (s.groupKey u d)).map (fun g => g.usable)).getD false) = true := by
    by_cases hk : entryKind d = 6
    · obtain ⟨g, hg, hu⟩ := hgroup hk
      simp [hg, hu]
    · simp [hk]
  unfold State.reachEntry
  simp only [hf, hm, hl, husable, List.all_eq_true.mpr hb]
  rfl

/-- A landing transfer has its slot, or takes it while it is EMPTY. -/
theorem reachEntry_of_landing (hl : isLanding d = true)
    (hslot : o.slot = some (dw d 7 % 8) ∨ (tget Landing.init (s.wave o.wave).landing (dw d 7 % 8)).state = .empty) :
    s.reachEntry u e o d = some ((((s2.modOp u e o.num (fun y => { y with moved })).modWave o.wave (fun v =>
      v.putSlot (dw d 7 % 8) { Landing.init with state := .pending })).modOp u e o.num
        (fun y => { y with slot := some (dw d 7 % 8) })).requestCurrent u e o.num o.units) := by
  have husable : (entryKind d != 6 || ((tfind? s.pkg.groups (s.groupKey u d)).map (fun g => g.usable)).getD false) = true := by
    simp [isLanding_kind hl]
  have hfree : (o.slot != some (dw d 7 % 8) && (tget Landing.init (s.wave o.wave).landing (dw d 7 % 8)).state != .empty) = false := by
    rcases hslot with hslot | hslot <;> simp [hslot]
  unfold State.reachEntry
  simp only [hf, hm, hl, husable, hfree, List.all_eq_true.mpr hb]
  rfl

end

/-! An entry that holds its current moves rows (04 R111-R118). -/

theorem someRows_of_rowsDone {s : State} {u e : Nat} {o : Op} {d : List DWord} (hop : (((s.unit u).ctx e).op? o.num).getD o = o)
    (hdone : o.rowsDone d = true) : ∃ f, s.someRows u e o d = (none, { s with fresh := f }) := by
  obtain ⟨f, hf⟩ := (pick_spec s ((entRows d - o.row + rowsAtOnce d - 1) / rowsAtOnce d)).1
  refine ⟨f, ?_⟩
  unfold State.someRows
  dsimp only
  rw [hf]
  have hunit : ({ s with fresh := f } : State).unit u = s.unit u := rfl
  unfold State.runRows
  rw [hunit]
  cases hy : ((s.unit u).ctx e).op? o.num with
  | none => rfl
  | some y =>
    rw [hy, Option.getD_some] at hop
    subst hop
    exact if_pos hdone

section
variable {s s2 : State} {u e : Nat} {o : Op} {d : List DWord}
  (hb : ∀ r ∈ ((s.receivers u d).toOption).getD [], (s.unit r).begun = true) (ht : s.tileFaults u o d 1 = [])
include hb ht

/-- A copy or gather entry passes on once its last row has moved. -/
theorem moveEntry_of_someRows (hl : isLanding d = false) (hs : s.someRows u e o d = (none, s2)) : s.moveEntry u e o d =
    some (if ((((s2.unit u).ctx e).op? o.num).getD o).rowsDone d then s2.passEntry u e ((((s2.unit u).ctx e).op? o.num).getD o) d else s2) := by
  unfold State.moveEntry
  simp [ht, hl, hs, List.all_eq_true.mpr hb]

theorem moveEntry_of_landRows (hl : isLanding d = true) (hs : s.landRows u e o d = (none, s2)) : s.moveEntry u e o d = some s2 := by
  unfold State.moveEntry
  simp [ht, hl, hs, List.all_eq_true.mpr hb]

end

/-! The stages of an entry (04 R111, R125). -/

section
variable {s s1 t : State} {p : Op} {d : List DWord} (h : HandsOn s s1 p d)
include h

theorem copyEntry_reaches (hk : entryKind d = 0) (hq : p.requested = false) (ht : s1.reachEntry s.occ.a s.occ.b p d = some t) :
    exec .copyEntry s = .next t := by
  rw [exec_copyEntry, execCopyEntry, h]
  simp [hk, State.stageEntry, hq, ht]

theorem copyEntry_moves (hk : entryKind d = 0) (hq : p.requested = true) (hr : p.reserved = true)
    (ht : s1.moveEntry s.occ.a s.occ.b p d = some t) : exec .copyEntry s = .next t := by
  rw [exec_copyEntry, execCopyEntry, h]
  simp [hk, State.stageEntry, hq, hr, ht]

theorem gatherEntry_reaches (hk : entryKind d = 1) (hq : p.requested = false) (ht : s1.reachEntry s.occ.a s.occ.b p d = some t) :
    exec .gatherEntry s = .next t := by
  rw [exec_gatherEntry, execGatherEntry, h]
  simp [hk, State.stageEntry, hq, ht]

theorem gatherEntry_moves (hk : entryKind d = 1) (hq : p.requested = true) (hr : p.reserved = true)
    (ht : s1.moveEntry s.occ.a s.occ.b p d = some t) : exec .gatherEntry s = .next t := by
  rw [exec_gatherEntry, execGatherEntry, h]
  simp [hk, State.stageEntry, hq, hr, ht]

theorem collectiveEntry_reaches (hk : entryKind d = 6) (hq : p.requested = false) (ht : s1.reachEntry s.occ.a s.occ.b p d = some t) :
    exec .collectiveEntry s = .next t := by
  rw [exec_collectiveEntry, execCollectiveEntry, h]
  simp [hk, hq, ht]

theorem collectiveEntry_runs {g : CollGroup} (hk : entryKind d = 6) (hq : p.requested = true) (hr : p.reserved = true)
    (hg : tfind? s1.pkg.groups (s1.groupKey s.occ.a d) = some g) (ht : s1.runCollective s.occ.a s.occ.b p d g = some t) :
    exec .collectiveEntry s = .next t := by
  rw [exec_collectiveEntry, execCollectiveEntry, h]
  simp [hk, hq, hr, hg, ht]

end

/-! A collective entry gives its member's rows, and takes every member's (04 R115; 21 R419). -/

theorem sharesOf_of_no_failure (s : State) (u : Nat) (d : List DWord) (g : CollGroup) (r : Nat) :
    s.sharesOf u d g r 0 = (List.range g.members.length).map (s.shareOf d (s.groupKey u d) g r) := by
  unfold State.sharesOf
  simp

/-- The contributions to a round that are there, in rank order. -/
def State.sharesHere (s : State) (u : Nat) (d : List DWord) (g : CollGroup) (r : Nat) : List Share :=
  (List.range g.members.length).filterMap (s.shareOf d (s.groupKey u d) g r)

/-- The state in which a round's clocks have been exchanged: unless it was so before, its cluster keeps the slowest (21 R419). -/
def State.exchangeClocks (s : State) (u e n r : Nat) (paced : Bool) (xs : List Share) : State :=
  if paced then s else (s.modCluster (clusterOf (s.unit u).core) (fun c =>
    c.takePace s.pkg.ticks (xs.foldl (fun a x => lowerClock a x.clock) none) (s.matrixHeld (clusterOf (s.unit u).core)))).modOp u e n
    (fun y => { y with round := some (r, true) })

/-- The rows of a round's result at a member of a unit's context (04 R115). -/
def State.resultRows (s : State) (u : Nat) (d : List DWord) (g : CollGroup) (xs : List Share) : List (RowData × Bool) :=
  if collRows d = 0 then [] else
    collectiveRows (bits (dw d 6) 7 0) (entDfmt d) (g.rank (s.unit u).vf) (bits (dw d 6) 15 8) (collRows d) (xs.map (fun x => x.rows))

theorem exchangeClocks_vf (s : State) (u e n r : Nat) (paced : Bool) (xs : List Share) :
    ((s.exchangeClocks u e n r paced xs).unit u).vf = (s.unit u).vf := by
  unfold State.exchangeClocks
  split
  · rfl
  · unfold State.modOp
    rw [State.unit_modUnit]
    rfl

theorem exchangeClocks_resultRows (s : State) (u e n r : Nat) (paced : Bool) (d : List DWord) (g : CollGroup) (xs : List Share) :
    (s.exchangeClocks u e n r paced xs).resultRows u d g xs = s.resultRows u d g xs := by
  unfold State.resultRows
  rw [exchangeClocks_vf]

/-- Result rows put, as many as the device chooses in one step, and the entry passed on after the last (log 16). -/
def State.putSome (s : State) (u e : Nat) (o : Op) (d : List DWord) (left : List (RowData × Bool)) : State :=
  let (i, s) := s.pick left.length
  match s.putList u e o d (left.take (i + 1)) with
  | (some x, s) => s.stopEntry u e o.num x
  | (none, s) => if left.length ≤ i + 1 then s.passEntry u e o d else s

theorem putSome_spec (s : State) (u e : Nat) (o : Op) (d : List DWord) (left : List (RowData × Bool)) :
    ∃ k f, 0 < k ∧ ∀ t, { s with fresh := f }.putList u e o d (left.take k) = (none, t) →
      s.putSome u e o d left = if left.length ≤ k then t.passEntry u e o d else t := by
  obtain ⟨f, hf⟩ := (pick_spec s left.length).1
  refine ⟨(s.pick left.length).1 + 1, f, Nat.succ_pos _, fun t hput => ?_⟩
  rw [← hf] at hput
  unfold State.putSome
  simp only [hput]

section
variable {s : State} {u e : Nat} {o : Op} {d : List DWord} {g : CollGroup}

theorem runCollective_gives {t : State} (ht : s.tileFaults u o d g.members.length = []) (hc : s.occ.c = 0) (hr : o.round = none)
    (hgive : s.collGive u e o d g = (none, t)) : s.runCollective u e o d g = some t := by
  unfold State.runCollective
  simp [ht, hr, hc, hgive]

theorem runCollective_takes {r : Nat} {paced : Bool} (ht : s.tileFaults u o d g.members.length = []) (hc : s.occ.c = 0)
    (hr : o.round = some (r, paced)) : s.runCollective u e o d g = s.collTake u e o d g r paced 0 := by
  unfold State.runCollective
  simp [ht, hr, hc]

/-- With every member's rows there and none failed, the clocks are exchanged and the result's rows put from the row the operation stands at. -/
theorem collTake_of_all {r : Nat} (paced : Bool) (hroot : bits (dw d 6) 7 0 = 0 → bits (dw d 6) 15 8 < g.members.length)
    (hall : ∀ m, m < g.members.length → ∃ x, s.shareOf d (s.groupKey u d) g r m = some x ∧ x.failed = false) :
    s.collTake u e o d g r paced 0 = some ((s.exchangeClocks u e o.num r paced (s.sharesHere u d g r)).putSome u e o d
      ((s.resultRows u d g (s.sharesHere u d g r)).drop o.row)) := by
  have hnone : (s.sharesOf u d g r 0).any Option.isNone = false := by
    rw [sharesOf_of_no_failure, List.any_map, List.any_eq_false]
    intro m hm
    obtain ⟨x, hx, -⟩ := hall m (List.mem_range.mp hm)
    simp [hx]
  have hgot : (s.sharesOf u d g r 0).filterMap id = s.sharesHere u d g r := by
    rw [sharesOf_of_no_failure, List.filterMap_map]
    rfl
  have hok : (s.sharesHere u d g r).filter (fun x => !x.failed) = s.sharesHere u d g r := by
    rw [List.filter_eq_self]
    intro x hx
    obtain ⟨m, hm, hx⟩ := List.mem_filterMap.mp hx
    obtain ⟨y, hy, hfail⟩ := hall m (List.mem_range.mp hm)
    cases hx.symm.trans hy
    simp [hfail]
  have hrank : ¬ (bits (dw d 6) 7 0 = 0 ∧ g.members.length ≤ bits (dw d 6) 15 8) := fun ⟨h0, hle⟩ => absurd (hroot h0) (Nat.not_lt.mpr hle)
  rw [← exchangeClocks_resultRows s u e o.num r paced]
  unfold State.collTake
  dsimp only
  rw [hgot, hok, if_neg (by simp [hnone]), if_neg (by simpa using hrank)]
  rfl

end

/-! The rows of a collective's result (04 R115), and one row put (04 R112). -/

theorem getElem?_map_range {β : Type} (f : Nat → β) {i n : Nat} (h : i < n) : ((List.range n).map f)[i]? = some (f i) := by
  simp [h]

theorem putList_one {s t : State} {u e : Nat} {o y : Op} {d : List DWord} {x : RowData × Bool} (hop : ((s.unit u).ctx e).op? o.num = some y)
    (hput : (s.engSat o x.2).putRows u e o d y.row [x.1] = (.ok (), t)) :
    s.putList u e o d [x] = (none, t.modOp u e o.num (fun o => { o with row := o.row + 1 })) := by
  unfold State.putList
  simp [hop, hput, State.putList]

end Sys2Proof.Machine

namespace Sys2Proof
open Machine

/-- Settles O47: every event of a running chain is handed the entry its operation stands at (`HandsOn`), and each kind's lemma says what it then
does; the rows of a result are those of the operation, one by one. -/
theorem engineEntries : Obligations.EngineEntries := by
  unfold Obligations.EngineEntries
  constructor
  · intro s o d s1 u e hhead hphase hrun he hnow p rs here
    have h : HandsOn s s1 p d := handsOn_of_head hhead hphase hrun he hnow
    have hnum : p.num = o.num := EngCtx.op?_getD_num _ o
    have hop : (((s1.unit u).ctx e).op? p.num).getD p = p := by
      rw [hnum]
      cases hy : ((s1.unit u).ctx e).op? o.num with
      | none => rfl
      | some y => simp [p, hy]
    refine ⟨endEntry_completes h, fun hk h0 => ?_, fun hk h0 => ?_, ?_, ?_, ?_, ?_, ?_, ?_, ?_, ?_⟩
    · rw [loopEntry_performs h hk]
      exact congrArg (fun f => Host.Outcome.next (s1.modOp u e p.num f)) (funext fun _ => Op.loopEntry_of_zero h0)
    · rw [loopEntry_performs h hk]
      exact congrArg (fun f => Host.Outcome.next (s1.modOp u e p.num f)) (funext fun _ => Op.loopEntry_of_count h0)
    · rintro k rfl hk h0 hctx hown hcnt
      exact condEntry_acquires h hk (condSet_of_count h0 hctx hown hcnt)
    · intro loc hk h0 hb hp
      exact condEntry_acquires h hk (condSet_of_phase e p h0 hb hp)
    · exact fun hk hrs hf hb => arriveOnlyEntry_arrives h hk hrs hf hb
    · intro s2 moved hq hf hb hm
      refine ⟨fun hl => ⟨fun hk => ?_, fun hk => ?_, fun g hk hg hu => ?_⟩, fun hl hslot => ?_⟩
      · exact copyEntry_reaches h hk hq (reachEntry_of_moved hf hb hm (fun h6 => by omega) hl)
      · exact gatherEntry_reaches h hk hq (reachEntry_of_moved hf hb hm (fun h6 => by omega) hl)
      · exact collectiveEntry_reaches h hk hq (reachEntry_of_moved hf hb hm (fun _ => ⟨g, hg, hu⟩) hl)
      · exact gatherEntry_reaches h (isLanding_kind hl) hq (reachEntry_of_landing hf hb hm hl hslot)
    · intro hq hr hb ht
      refine ⟨fun hl hdone => ?_, fun s2 hl hs => ?_, fun s2 hl hs => ?_⟩
      · obtain ⟨f, hsome⟩ := someRows_of_rowsDone hop hdone
        have hmove := moveEntry_of_someRows hb ht hl hsome
        have hop' : (((({ s1 with fresh := f } : State).unit u).ctx e).op? p.num).getD p = p := hop
        rw [hop', if_pos hdone] at hmove
        exact ⟨f, fun hk => copyEntry_moves h hk hq hr hmove, fun hk => gatherEntry_moves h hk hq hr hmove⟩
      · have hmove := moveEntry_of_someRows hb ht hl hs
        rw [hnum] at hmove
        exact ⟨fun hk => copyEntry_moves h hk hq hr hmove, fun hk => gatherEntry_moves h hk hq hr hmove⟩
      · exact gatherEntry_moves h (isLanding_kind hl) hq hr (moveEntry_of_landRows hb ht hl hs)
    · intro g hk hq hr hg hc ht
      refine ⟨fun s2 hround hgive => collectiveEntry_runs h hk hq hr hg (runCollective_gives ht hc hround hgive), ?_⟩
      intro r paced hround hroot hall xs sp rows left
      obtain ⟨k, f, hpos, hput⟩ := putSome_spec sp u e p d left
      refine ⟨k, f, hpos, fun t hlist => ?_⟩
      rw [← hput t hlist]
      exact collectiveEntry_runs h hk hq hr hg ((runCollective_takes ht hc hround).trans (collTake_of_all paced hroot hall))
    · exact fun t => passEntry_spec t u e p d
    · exact fun t y hy hstop q hq => finishEntry_moved_ready hy hstop hq
  · intro df rank root rows xs _
    exact ⟨fun i hi => ⟨getElem?_map_range _ hi, getElem?_map_range _ hi⟩, fun i hi => getElem?_map_range _ hi, fun i hi => getElem?_map_range _ hi,
      fun i hi => getElem?_map_range _ hi, fun _ _ _ _ _ _ _ _ => putList_one⟩

end Sys2Proof
end

section
/-! PROOFS. Sets of lanes, and what a change of a set of lanes does to each lane (06 R151, R162). -/
namespace Sys2Proof

theorem getLsbD_laneBit {k : Nat} (hk : k < 32) (l : Nat) : (laneBit k).getLsbD l = decide (k = l) := by
  rw [laneBit, BitVec.getLsbD_ofNat, Nat.testBit_two_pow]
  by_cases h : k = l
  · subst h
    simp [hk]
  · simp [h]

/-- The lanes of a list that have a property, put into a set one by one. -/
theorem getLsbD_foldl_laneBit (p : Nat → Bool) (l : Nat) (ls : List Nat) (h : ∀ k ∈ ls, k < 32) (m : Mask) :
    (ls.foldl (fun m k => if p k then m ||| laneBit k else m) m).getLsbD l = (m.getLsbD l || (decide (l ∈ ls) && p l)) := by
  induction ls generalizing m with
  | nil => simp
  | cons k ls ih =>
    obtain ⟨hk, hks⟩ := List.forall_mem_cons.mp h
    rw [List.foldl_cons, ih hks]
    by_cases hkl : l = k
    · subst hkl
      cases hp : p l <;> simp [getLsbD_laneBit hk]
    · cases hp : p k <;> simp [getLsbD_laneBit hk, hkl, Ne.symm hkl]

/-- A set within another holds only lanes of it. -/
theorem getLsbD_of_and_eq {a b : Mask} (h : a &&& b = a) {l : Nat} (ha : a.getLsbD l = true) : b.getLsbD l = true := by
  rw [← h] at ha
  simp only [BitVec.getLsbD_and, Bool.and_eq_true] at ha
  exact ha.2

/-- A pair is made of its two words (00 R11). -/
theorem pairOf_words (x : DWord) : pairOf (loWord x) (hiWord x) = x := by
  refine BitVec.eq_of_getLsbD_eq fun i hi => ?_
  change (hiWord x ++ loWord x : BitVec (32 + 32)).getLsbD i = x.getLsbD i
  rw [BitVec.getLsbD_append]
  unfold loWord hiWord
  by_cases h : i < 32
  · simp [h]
  · have : i - 32 < 32 := by omega
    simp [h, this, Nat.add_sub_cancel' (Nat.le_of_not_lt h)]

namespace Machine

theorem nodup_lanesOf (m : Mask) : (lanesOf m).Nodup := List.nodup_range.filter _

theorem getLsbD_where_ (x : Iss) (p : Nat → Bool) {l : Nat} (hl : l < 32) : (x.where_ p).getLsbD l = (x.e.getLsbD l && p l) := by
  unfold Iss.where_
  rw [getLsbD_foldl_laneBit p l _ (fun _ hk => (mem_lanesOf.mp hk).1)]
  simp [mem_lanesOf, hl]

/-- A change made in each lane of a list once. -/
theorem Wave.lane_foldl_modLane (f : Lane → Lane) (l : Nat) (ls : List Nat) (hd : ls.Nodup) (v : Wave) :
    (ls.foldl (fun v k => v.modLane k f) v).lane l = if l ∈ ls then f (v.lane l) else v.lane l := by
  induction ls generalizing v with
  | nil => rfl
  | cons k ls ih =>
    obtain ⟨hk, hd⟩ := List.nodup_cons.mp hd
    rw [List.foldl_cons, ih hd]
    by_cases hl : l = k
    · subst hl
      simp [hk, Wave.lane_modLane]
    · simp [hl, Wave.lane_modLane_ne]

/-- A change of a set of lanes changes each lane of the set, and no other. -/
theorem Wave.lane_modLanes (v : Wave) (g : Mask) (f : Lane → Lane) (l : Nat) :
    (v.modLanes g f).lane l = if g.getLsbD l then f (v.lane l) else v.lane l := by
  have h : (v.modLanes g f).lane l = if l ∈ lanesOf g then f (v.lane l) else v.lane l :=
    Wave.lane_foldl_modLane f l _ (nodup_lanesOf g) v
  have hmem : l ∈ lanesOf g ↔ g.getLsbD l = true := ⟨fun hl => (mem_lanesOf.mp hl).2, fun hl => mem_lanesOf.mpr ⟨BitVec.lt_of_getLsbD hl, hl⟩⟩
  rw [h]
  by_cases hl : g.getLsbD l = true
  · rw [if_pos hl, if_pos (hmem.mpr hl)]
  · rw [if_neg hl, if_neg fun hk => hl (hmem.mp hk)]

/-- A change of lanes changes no register. -/
theorem sameRegs_modLanes (v : Wave) (g : Mask) (f : Lane → Lane) (d : Opnd) (n : Nat) : SameRegs v (v.modLanes g f) d n := by
  constructor <;> intros <;> simp [Wave.rs, Wave.rv, Wave.rtag, Wave.ra, Wave.rm, Wave.rktag]

end Machine
end Sys2Proof
end

section
/-! PROOFS. What a write to each kind of destination changes, lane by lane (O17). -/
namespace Sys2Proof.Machine

/-! Uniform, affine and mask registers. -/

theorem Wave.rs_ws_same (v : Wave) (n : Nat) (x : Word) : (v.ws n x).rs n = x := tget_tset_same _ _ _ _

theorem Wave.rs_ws_ne (v : Wave) {n k : Nat} (x : Word) (h : k ≠ n) : (v.ws n x).rs k = v.rs k := tget_tset_ne _ _ _ _ _ h

theorem Wave.rktag_ws_same (v : Wave) (n : Nat) (x : Word) : (v.ws n x).rktag (n / 4) = false := tget_tset_same false v.ktag (n / 4) false

theorem Wave.rktag_ws_ne (v : Wave) {n q : Nat} (x : Word) (h : q ≠ n / 4) : (v.ws n x).rktag q = v.rktag q :=
  tget_tset_ne false v.ktag (n / 4) q false h

/-- A write of a uniform register sets no capability tag (01 R36). -/
theorem Wave.rktag_ws_of_false (v : Wave) (n : Nat) (x : Word) {q : Nat} (h : v.rktag q = false) : (v.ws n x).rktag q = false := by
  by_cases hq : q = n / 4
  · rw [hq]
    exact v.rktag_ws_same n x
  · rw [v.rktag_ws_ne x hq, h]

/-- A uniform pair written reads as the value written. -/
theorem Wave.rs2_ws2_same (v : Wave) (n : Nat) (x : DWord) : (v.ws2 n x).rs2 n = x := by
  unfold Wave.ws2 Wave.rs2
  rw [Wave.rs_ws_same, Wave.rs_ws_ne _ _ (by omega), Wave.rs_ws_same, pairOf_words]

/-- A uniform pair written clears the tags of the quads that hold its registers (01 R36). -/
theorem Wave.rktag_ws2 (v : Wave) (n : Nat) (x : DWord) {q : Nat} (h : q = n / 4 ∨ q = (n + 1) / 4) : (v.ws2 n x).rktag q = false := by
  unfold Wave.ws2
  rcases h with rfl | rfl
  · exact Wave.rktag_ws_of_false _ _ _ (Wave.rktag_ws_same _ _ _)
  · exact Wave.rktag_ws_same _ _ _

theorem Wave.ra_wa_same (v : Wave) (n : Nat) (x : Affine) : (v.wa n x).ra n = x := tget_tset_same _ _ _ _

/-- A mask register written in a set of lanes takes the value in those lanes alone (06 R162). -/
theorem Wave.getLsbD_rm_wm (v : Wave) (g e x : Mask) {n l : Nat} (hn : 0 < n) (hl : l < 32) :
    ((v.wm n e x).rm g n).getLsbD l = if e.getLsbD l then x.getLsbD l else (v.rm g n).getLsbD l := by
  unfold Wave.rm Wave.wm
  simp only [if_neg (Nat.ne_of_gt hn), tget_tset_same]
  simp only [BitVec.getLsbD_or, BitVec.getLsbD_and, BitVec.getLsbD_not, hl, decide_true, Bool.true_and]
  cases e.getLsbD l <;> simp

/-! Varying registers. -/

theorem Wave.rv_wv_same (v : Wave) (n l : Nat) (x : Word) : (v.wv n l x).rv n l = x := tget_tset_same _ _ _ _

theorem Wave.rv_wv_ne (v : Wave) {n l k j : Nat} (x : Word) (hl : l < 32) (hj : j < 32) (h : k ≠ n ∨ j ≠ l) :
    (v.wv n l x).rv k j = v.rv k j := tget_tset_ne _ _ _ _ _ (by omega)

theorem Wave.rtag_wtag_same (v : Wave) (n t : Nat) : (v.wtag n t).rtag n = t := tget_tset_same _ _ _ _

theorem Wave.rtag_wtag_ne (v : Wave) {n k : Nat} (t : Nat) (h : k ≠ n) : (v.wtag n t).rtag k = v.rtag k := tget_tset_ne _ _ _ _ _ h

/-- One lane of a varying destination written. -/
def Wave.putLane (v : Wave) (n : Nat) (wd : Bool) (l x : Nat) : Wave :=
  if wd then (v.wv n l (BitVec.ofNat 32 x)).wv (n + 1) l (BitVec.ofNat 32 (x / 2 ^ 32)) else v.wv n l (BitVec.ofNat 32 x)

/-- The tags of a varying destination written. -/
def Wave.putTags (v : Wave) (n : Nat) (wd : Bool) (tag : Nat) : Wave := if wd then (v.wtag n tag).wtag (n + 1) tagN32 else v.wtag n tag

theorem Wave.putV_eq (v : Wave) (n : Nat) (wd : Bool) (tag : Nat) {e : Mask} (f : Nat → Nat) (he : e ≠ 0) :
    v.putV n wd tag e f = ((lanesOf e).foldl (fun v l => v.putLane n wd l (f l)) v).putTags n wd tag := by
  unfold Wave.putV
  rw [if_neg he]
  rfl

theorem Wave.rv_putTags (v : Wave) (n : Nat) (wd : Bool) (tag k l : Nat) : (v.putTags n wd tag).rv k l = v.rv k l := by
  cases wd <;> rfl

theorem Wave.rv_putLane_ne (v : Wave) (n : Nat) (wd : Bool) {l j : Nat} (x k : Nat) (hl : l < 32) (hj : j < 32) (h : j ≠ l) :
    (v.putLane n wd l x).rv k j = v.rv k j := by
  cases wd
  · exact Wave.rv_wv_ne _ _ hl hj (.inr h)
  · exact (Wave.rv_wv_ne _ _ hl hj (.inr h)).trans (Wave.rv_wv_ne _ _ hl hj (.inr h))

theorem Wave.rv_putLane_low (v : Wave) (n : Nat) (wd : Bool) {l : Nat} (x : Nat) (hl : l < 32) :
    (v.putLane n wd l x).rv n l = BitVec.ofNat 32 x := by
  cases wd
  · exact Wave.rv_wv_same _ _ _ _
  · exact (Wave.rv_wv_ne _ _ hl hl (.inl (by omega))).trans (Wave.rv_wv_same _ _ _ _)

theorem Wave.rv_putLane_high (v : Wave) (n l x : Nat) : (v.putLane n true l x).rv (n + 1) l = BitVec.ofNat 32 (x / 2 ^ 32) :=
  Wave.rv_wv_same _ _ _ _

/-- A varying destination written lane by lane: a lane's register takes the lane's value where the lane is among those written. -/
theorem Wave.rv_putLanes {n k l : Nat} {wd : Bool} (f : Nat → Nat) (x : Word) (hl : l < 32) (hx : ∀ v : Wave, (v.putLane n wd l (f l)).rv k l = x)
    (ls : List Nat) (hls : ∀ j ∈ ls, j < 32) (v : Wave) :
    (ls.foldl (fun v j => v.putLane n wd j (f j)) v).rv k l = if l ∈ ls then x else v.rv k l := by
  induction ls generalizing v with
  | nil => rfl
  | cons j ls ih =>
    obtain ⟨hj, hls⟩ := List.forall_mem_cons.mp hls
    rw [List.foldl_cons, ih hls]
    by_cases hjl : l = j
    · subst hjl
      simp [hx]
    · simp [hjl, Wave.rv_putLane_ne v n wd (f j) k hj hl hjl]

/-- A register of a varying destination, in the lanes of E and in the others. -/
theorem Wave.rv_putV (v : Wave) {n k l : Nat} {wd : Bool} (tag : Nat) {e : Mask} (f : Nat → Nat) {x : Word} (he : e ≠ 0) (hl : l < 32)
    (hx : ∀ v : Wave, (v.putLane n wd l (f l)).rv k l = x) :
    (v.putV n wd tag e f).rv k l = if e.getLsbD l then x else v.rv k l := by
  rw [v.putV_eq n wd tag f he, Wave.rv_putTags, Wave.rv_putLanes f x hl hx _ (fun _ hj => (mem_lanesOf.mp hj).1)]
  simp [mem_lanesOf, hl]

/-- A varying destination takes the tag. -/
theorem Wave.rtag_putV (v : Wave) (n : Nat) (wd : Bool) (tag : Nat) {e : Mask} (f : Nat → Nat) (he : e ≠ 0) :
    (v.putV n wd tag e f).rtag n = tag := by
  rw [v.putV_eq n wd tag f he]
  cases wd
  · exact Wave.rtag_wtag_same _ _ _
  · exact (Wave.rtag_wtag_ne _ _ (by omega)).trans (Wave.rtag_wtag_same _ _ _)

/-- The odd register of a pair takes N32 (05 R134). -/
theorem Wave.rtag_putV_odd (v : Wave) (n tag : Nat) {e : Mask} (f : Nat → Nat) (he : e ≠ 0) :
    (v.putV n true tag e f).rtag (n + 1) = tagN32 := by
  rw [v.putV_eq n true tag f he]
  exact Wave.rtag_wtag_same _ _ _

/-! The wave after a write. -/

theorem wave_put_v (s : State) (x : Iss) (n : Nat) (wd : Bool) (tag : Nat) (f : Nat → Nat) :
    (s.put x (.v n) wd tag f).wave x.w = (s.wave x.w).putV n wd tag x.e f := State.wave_modWave _ _ _

theorem wave_put_s {x : Iss} (he : x.e ≠ 0) (s : State) (n : Nat) (wd : Bool) (tag : Nat) (f : Nat → Nat) :
    (s.put x (.s n) wd tag f).wave x.w =
      if wd then (s.wave x.w).ws2 n (BitVec.ofNat 64 (f (lowestLane x.e))) else (s.wave x.w).ws n (BitVec.ofNat 32 (f (lowestLane x.e))) := by
  simp only [State.put, if_neg he]
  exact State.wave_modWave _ _ _

theorem wave_put_a {x : Iss} (he : x.e ≠ 0) (s : State) (n : Nat) (wd : Bool) (tag : Nat) (f : Nat → Nat) :
    (s.put x (.a n) wd tag f).wave x.w = (s.wave x.w).wa n
      { base := if wd then BitVec.ofNat 64 (f (lowestLane x.e)) else sext64 (BitVec.ofNat 32 (f (lowestLane x.e))), stride := 0 } := by
  simp only [State.put, if_neg he]
  exact State.wave_modWave _ _ _

theorem wave_putMask (s : State) (x : Iss) (n : Nat) (p : Nat → Bool) :
    (s.putMask x (.m n) p).wave x.w = (s.wave x.w).wm n x.e (x.where_ p) := State.wave_modWave _ _ _

end Sys2Proof.Machine

namespace Sys2Proof
open Machine

/-- Settles O17: what the write of each kind of destination makes of its wave, register by register. -/
theorem destinations : Obligations.Destinations := by
  unfold Obligations.Destinations
  refine ⟨fun s x n wd tag f l hl he => ?_, fun s x n tag f he => ?_⟩
  · rw [wave_put_v]
    refine ⟨?_, ?_, ?_, ?_⟩
    · exact Wave.rv_putV _ tag f he hl (fun v => v.rv_putLane_low n wd (f l) hl)
    · rintro rfl
      exact Wave.rv_putV _ tag f he hl (fun v => v.rv_putLane_high n l (f l))
    · exact Wave.rtag_putV _ n wd tag f he
    · rintro rfl
      exact Wave.rtag_putV_odd _ n tag f he
  · rw [wave_put_s he, wave_put_s he, wave_put_a he, wave_put_a he]
    refine ⟨Wave.rs_ws_same _ _ _, Wave.rs2_ws2_same _ _ _, Wave.rktag_ws_same _ _ _, fun q hq => Wave.rktag_ws2 _ _ _ hq,
      fun q hq => Wave.rktag_ws_ne _ _ hq, Wave.ra_wa_same _ _ _, Wave.ra_wa_same _ _ _, fun p g l hn hl => ?_⟩
    rw [wave_putMask, Wave.getLsbD_rm_wm _ _ _ _ hn hl, getLsbD_where_ x p hl]
    cases x.e.getLsbD l <;> simp

end Sys2Proof
end

section
/-! PROOFS. What waiting and going on do to lanes, and the words and events of SYNCW, MWAIT and WAITT (O33). -/
namespace Sys2Proof.Machine

/-! Lanes that wait, and lanes whose wait ends (06 R151). -/

theorem arriveWait_eq (v : Wave) (next : DWord) :
    arriveWait v next = if v.loops.head?.map (·.after) = some next then some .loopEnd else none := by
  unfold arriveWait
  cases v.loops <;> simp

/-- A lane that has gone on to the next word. -/
def Lane.wentOn (v : Wave) (c : Cursor) (l : Lane) : Lane :=
  { l with pc := c.next, clause := if c.lastInClause then none else c.clause, modBase := c.modBase, enter := false,
           wait := arriveWait v c.next }

/-- A lane that has begun to wait within its word. -/
def Lane.begunWait (c : Cursor) (wt : Wait) (l : Lane) : Lane := { l with wait := some wt, after := c.next, leaves := c.lastInClause }

theorem waitOn_onlyWave (s : State) {x : Iss} (e : Mask) (wt : Wait) (hc : x.cur.wave = x.w) : OnlyWave s (s.waitOn x e wt) x.w := by
  have h := onlyWave_advance s x.cur (x.g &&& ~~~e)
  rw [hc] at h
  exact h.trans (onlyWave_modWave _ _ _)

theorem wave_waitOn (s : State) {x : Iss} (e : Mask) (wt : Wait) (hc : x.cur.wave = x.w) :
    (s.waitOn x e wt).wave x.w =
      ((s.wave x.w).modLanes (x.g &&& ~~~e &&& (s.wave x.w).live) (Lane.wentOn (s.wave x.w) x.cur)).modLanes e (Lane.begunWait x.cur wt) := by
  unfold State.waitOn State.advance
  rw [hc, State.wave_modWave, State.wave_modWave]
  rfl

theorem waitOn_sameRegs (s : State) {x : Iss} (e : Mask) (wt : Wait) (hc : x.cur.wave = x.w) (d : Opnd) (n : Nat) :
    SameRegs (s.wave x.w) ((s.waitOn x e wt).wave x.w) d n := by
  rw [wave_waitOn s e wt hc]
  exact (sameRegs_modLanes _ _ _ _ _).trans (sameRegs_modLanes _ _ _ _ _)

/-- Each lane of a group of which some lanes wait: it waits, it goes on, or it is none of the group. -/
theorem lane_waitOn (s : State) {x : Iss} (e : Mask) (wt : Wait) (hc : x.cur.wave = x.w) (hg : x.g &&& (s.wave x.w).live = x.g)
    {l : Nat} (hl : l < 32) :
    ((s.waitOn x e wt).wave x.w).lane l =
      if e.getLsbD l then Lane.begunWait x.cur wt ((s.wave x.w).lane l)
      else if x.g.getLsbD l then Lane.wentOn (s.wave x.w) x.cur ((s.wave x.w).lane l) else (s.wave x.w).lane l := by
  rw [wave_waitOn s e wt hc, Wave.lane_modLanes, Wave.lane_modLanes]
  simp only [BitVec.getLsbD_and, BitVec.getLsbD_not, hl, decide_true, Bool.true_and]
  cases hel : e.getLsbD l
  · cases hgl : x.g.getLsbD l
    · rfl
    · simp only [getLsbD_of_and_eq hg hgl, Bool.not_false, Bool.and_self, if_true, Bool.false_eq_true, if_false]
  · simp only [Bool.not_true, Bool.and_false, Bool.false_and, Bool.false_eq_true, if_false, if_true]

theorem leaveWait_onlyWave (s : State) (w : Nat) (m : Mask) : OnlyWave s (s.leaveWait w m) w :=
  (onlyWave_modWave _ _ _).trans (onlyWave_beginChild _ _ _)

theorem wave_leaveWait (s : State) (w : Nat) (m : Mask) :
    (s.leaveWait w m).wave w = (s.wave w).modLanes m (Lane.resumed (s.wave w)) := by
  unfold State.leaveWait
  rw [beginChild_wave, State.wave_modWave]

theorem Lane.resumed_eq (v : Wave) (l : Lane) : Lane.resumed v l =
    { l with pc := l.after, clause := if l.leaves then none else l.clause,
             wait := if v.loops.head?.map (·.after) = some l.after then some .loopEnd else none } := by
  unfold Lane.resumed
  rw [arriveWait_eq]

/-! SYNCW (13 R303). -/

theorem exec_syncw (w : Full) (s : State) : exec (.syncw w) s = execSyncw w s := rfl
theorem exec_syncwRelease (s : State) : exec .syncwRelease s = execSyncwRelease s := rfl

theorem syncw_completes {s : State} {c : Cursor} {w : Full} (hi : Issues s c (.syncw w) (headF w [] false))
    (hg : c.group = (s.issOf c w.pn w.pm).live) : Completes s c (.syncw w) (headF w [] false) s :=
  completes hi (exec_syncw w s) (if_pos hg)

theorem syncw_places {s : State} {c : Cursor} {w : Full} (hi : Issues s c (.syncw w) (headF w [] false))
    (hg : c.group ≠ (s.issOf c w.pn w.pm).live) :
    Places s c (.syncw w) (headF w [] false) (s.waitOn (s.issOf c w.pn w.pm) c.group .syncw) :=
  places hi (exec_syncw w s) (if_neg hg)

theorem syncwRelease_releases {s : State} (ha : s.awake s.occ.a = true) (hw : s.allWait s.occ.a .syncw = true) :
    exec .syncwRelease s = .next (s.leaveWait s.occ.a (s.wave s.occ.a).live) := by
  rw [exec_syncwRelease]
  unfold execSyncwRelease
  simp only [ha, hw, Bool.and_self, if_true]

/-! MWAIT (13 R311; 03 R102). -/

theorem exec_mwait (w : Full) (s : State) : exec (.mwait w) s = execMwait w s := rfl
theorem exec_mwaitWake (s : State) : exec .mwaitWake s = execMwaitWake s := rfl

/-- Places of this package are reached at once. -/
theorem reach_of_clean {s : State} {ps : List Place} {n : Nat} (h : Clean s ps n) (x : Iss) (kind : Nat) (k : State → Res) :
    s.reach x ps kind k = k s := by
  have hr : ps.any (fun p => isRemote p.loc) = false := List.any_eq_false.mpr fun p hp => by simp [(h p hp).1]
  unfold State.reach
  rw [hr]
  rfl

/-- Clean places deliver no poison. -/
theorem poisonLane_of_clean {s : State} {ps : List Place} {n : Nat} (h : Clean s ps n) : s.poisonLane ps n = none := by
  refine List.find?_eq_none.mpr fun p hp => ?_
  have hany : (List.range n).any (fun i => s.poisoned (p.loc + i)) = false :=
    List.any_eq_false.mpr fun i hi => by simp [(h p hp).2 i (List.mem_range.mp hi)]
  simp [hany]

section
variable {s s1 : State} {c : Cursor} {w : Full} {p : Place}

/-- The head of MWAIT. -/
def mwaitHead (w : Full) : Head := headF w [(w.d, 1), (w.a, 2), (w.b, 1)] (perWave w.d)

/-- The read of MWAIT's word. -/
def mwaitReq (s : State) (x : Iss) (w : Full) : Req :=
  { lane := lowestLane x.e, ea := s.addrBase x w.a (lowestLane x.e), size := 4, kind := AccKind.load, align := 4, cap := none,
    paths := pathsAtomic }

/-- MWAIT of a clean word comes to what the word says of the value it is compared with. -/
theorem mwait_settles {r : Res} (hi : Issues s c (.mwait w) (mwaitHead w)) (he : (s.issOf c w.pn w.pm).e ≠ 0)
    (hr : Reaches s (s.issOf c w.pn w.pm) [mwaitReq s (s.issOf c w.pn w.pm) w] [p] s1) (hc : Clean s1 [p] 4)
    (hw : let x := s.issOf c w.pn w.pm
      let v := BitVec.ofNat 32 (s1.srcU x w.b 32 (lowestLane x.e))
      (if (s1.memOf (s1.vfOf c.wave)).nat p.loc 4 != v.toNat then .done (s1.mwaitRead c.wave x.e w.d p.loc)
       else .moved (s1.waitOn x x.e (.mwait x.e w.d s1.mem.clock (mwaitReq s x w).ea p.loc p.tolerant v))) = r) :
    exec (.mwait w) s = .next (State.settle (s.issOf c w.pn w.pm) w.fs r) := by
  rw [exec_mwait]
  refine (perform_eq hi _).trans (congrArg (fun r => Host.Outcome.next (State.settle _ _ r)) ?_)
  refine (if_neg he).trans ((access_of_reaches hr _).trans ((reach_of_clean hc _ _ _).trans (Eq.trans ?_ hw)))
  simp only [poisonLane_of_clean hc]
  rfl

end

/-- MWAIT_WAKE of a location that no port reaches any more (log 26). -/
theorem mwaitWake_of_cutOff {s : State} {e : Mask} {d : Opnd} {since loc : Nat} {ea : DWord} {tol : Bool} {v : Word}
    (ha : s.awake s.occ.a = true) (hw : s.waitOf s.occ.a s.occ.b = some (.mwait e d since ea loc tol v)) (hc : s.cutOff loc = true) :
    exec .mwaitWake s =
      .next (s.takeFault s.occ.a ((s.issWait s.occ.a e).record Code.remote 1 (lowestLane e) AccKind.load ea)) := by
  rw [exec_mwaitWake]
  unfold execMwaitWake
  simp only [hw, ha, hc, Bool.and_self, if_true]

/-- MWAIT_WAKE of a word that a write has left different, whose poison faults no lane. -/
theorem mwaitWake_of_differed {s : State} {e : Mask} {d : Opnd} {since loc : Nat} {ea : DWord} {tol : Bool} {v : Word}
    (ha : s.awake s.occ.a = true) (hw : s.waitOf s.occ.a s.occ.b = some (.mwait e d since ea loc tol v)) (hc : s.cutOff loc = false)
    (hd : (s.memOf (s.vfOf s.occ.a)).differed since loc v = true) (hp : tol = true ∨ ∀ i, i < 4 → s.poisoned (loc + i) = false) :
    exec .mwaitWake s = .next ((s.mwaitRead s.occ.a e d loc).leaveWait s.occ.a (s.waiters s.occ.a s.occ.b)) := by
  have hclean : (!tol && (List.range 4).any (fun i => s.poisoned (loc + i))) = false := by
    rcases hp with rfl | hp
    · rfl
    · rw [List.any_eq_false.mpr fun i hi => by simp [hp i (List.mem_range.mp hi)], Bool.and_false]
  rw [exec_mwaitWake]
  unfold execMwaitWake
  simp only [hw, ha, hc, hd, hclean, Bool.and_self, Bool.and_false, if_true, Bool.false_eq_true, if_false]

/-! WAITT (13 R312). -/

theorem exec_waitt (w : Full) (s : State) : exec (.waitt w) s = execWaitt w s := rfl
theorem exec_waittExpiry (s : State) : exec .waittExpiry s = execWaittExpiry s := rfl

theorem waitt_completes {s : State} {c : Cursor} {w : Full} (hi : Issues s c (.waitt w) (headF w [(w.a, 2)] false))
    (ht : s.addrBase (s.issOf c w.pn w.pm) w.a (lowestLane c.group) ≤ s.timens (s.vfOf c.wave)) :
    Completes s c (.waitt w) (headF w [(w.a, 2)] false) s := by
  refine completes hi (exec_waitt w s) (if_pos ?_)
  exact Bool.or_eq_true_iff.mpr (.inr (decide_eq_true ht))

theorem waitt_places {s : State} {c : Cursor} {w : Full} (hi : Issues s c (.waitt w) (headF w [(w.a, 2)] false))
    (he : (s.issOf c w.pn w.pm).e ≠ 0)
    (ht : s.timens (s.vfOf c.wave) < s.addrBase (s.issOf c w.pn w.pm) w.a (lowestLane c.group)) :
    Places s c (.waitt w) (headF w [(w.a, 2)] false) (s.waitOn (s.issOf c w.pn w.pm) (s.issOf c w.pn w.pm).e
      (.waitt (s.addrBase (s.issOf c w.pn w.pm) w.a (lowestLane c.group)))) := by
  refine places hi (exec_waitt w s) (if_neg fun h => ?_)
  rcases Bool.or_eq_true_iff.mp h with h | h
  · exact he (of_decide_eq_true h)
  · exact absurd (of_decide_eq_true h) (BitVec.not_le.mpr ht)

theorem waittExpiry_of_reached {s : State} {t : DWord} (ha : s.awake s.occ.a = true) (hw : s.waitOf s.occ.a s.occ.b = some (.waitt t))
    (ht : t ≤ s.timens (s.vfOf s.occ.a)) :
    exec .waittExpiry s = .next (s.leaveWait s.occ.a (s.waiters s.occ.a s.occ.b)) := by
  rw [exec_waittExpiry]
  unfold execWaittExpiry
  simp only [hw, ha, ht, decide_true, Bool.and_self, if_true]

end Sys2Proof.Machine

namespace Sys2Proof
open Machine

/-- Settles O33: each word and event by its own lemma, and the lanes by `lane_waitOn` and `wave_leaveWait`. -/
theorem waveWaits : Obligations.WaveWaits := by
  unfold Obligations.WaveWaits
  refine ⟨fun s => ⟨fun c w hi => ⟨syncw_completes hi, syncw_places hi⟩, syncwRelease_releases⟩, fun s => ⟨?_, ?_, ?_⟩,
    fun s => ⟨?_, ?_⟩⟩
  · intro c w p s1 x l h v hi he hr hc
    exact ⟨fun hne => mwait_settles hi he hr hc (if_pos (bne_iff_ne.mpr hne)),
      fun heq => mwait_settles hi he hr hc (if_neg fun hne => bne_iff_ne.mp hne heq)⟩
  · exact fun c w hi he => ⟨waitt_completes hi, waitt_places hi he⟩
  · exact fun ha => ⟨fun e d since ea loc tol v hw => ⟨mwaitWake_of_cutOff ha hw, mwaitWake_of_differed ha hw⟩,
      fun t hw => waittExpiry_of_reached ha hw⟩
  · intro x e wt hc hg he
    refine ⟨waitOn_onlyWave s e wt hc, waitOn_sameRegs s e wt hc _ _, fun l hl => ?_⟩
    rw [lane_waitOn s e wt hc hg hl]
    refine ⟨fun hel => ?_, fun hgl hel => ?_, fun hgl => ?_⟩
    · rw [if_pos hel]
      exact ⟨rfl, rfl, rfl⟩
    · rw [if_neg (by simp [hel]), if_pos hgl]
      rfl
    · have hel : ¬ e.getLsbD l = true := fun hel => by simp [getLsbD_of_and_eq he hel] at hgl
      rw [if_neg hel, if_neg (by simp [hgl])]
  · intro w m
    refine ⟨leaveWait_onlyWave s w m, ?_, fun l _ => ?_⟩
    · rw [wave_leaveWait]
      exact sameRegs_modLanes _ _ _ _ _
    · rw [wave_leaveWait, Wave.lane_modLanes, Lane.resumed_eq]

end Sys2Proof
end

section
/-! PROOFS. Which ready wave a port selects, which of its groups issues, and how ages move (O14). -/
namespace Sys2Proof

/-- A fold that keeps the better of two names one of the list that none betters. -/
theorem foldl_best {α : Type} (R : α → α → Prop) (hrefl : ∀ a, R a a) (htrans : ∀ {a b c}, R a b → R b c → R a c) (pick : α → α → α)
    (hpick : ∀ a b, (pick a b = a ∨ pick a b = b) ∧ R (pick a b) a ∧ R (pick a b) b) (l : List α) (a : α) :
    l.foldl pick a ∈ a :: l ∧ ∀ b ∈ a :: l, R (l.foldl pick a) b := by
  induction l generalizing a with
  | nil => simpa using hrefl a
  | cons b l ih =>
    obtain ⟨hmem, hbest⟩ := ih (pick a b)
    obtain ⟨hone, ha, hb⟩ := hpick a b
    obtain ⟨htop, hrest⟩ := List.forall_mem_cons.mp hbest
    refine ⟨?_, List.forall_mem_cons.mpr ⟨htrans htop ha, List.forall_mem_cons.mpr ⟨htrans htop hb, hrest⟩⟩⟩
    rcases List.mem_cons.mp hmem with h | h
    · rw [List.foldl_cons, h]
      rcases hone with hone | hone <;> simp [hone]
    · exact List.mem_cons_of_mem _ (List.mem_cons_of_mem _ h)

/-- A fold that keeps one of the elements it meets, if any, ends with an element of its list. -/
theorem mem_of_foldl_keeps {α : Type} {op : Option α → α → Option α} (hop : ∀ b x y, op b x = some y → y = x ∨ b = some y) {l : List α} {y : α}
    (h : l.foldl op none = some y) : y ∈ l := by
  refine List.foldlRecOn (motive := fun b => ∀ y, b = some y → y ∈ l) l op (fun y hy => by cases hy) (fun b hb x hx y hy => ?_) y h
  rcases hop b x y hy with rfl | hy
  · exact hx
  · exact hb y hy

namespace Machine

/-! The choice of groups that can issue, which leaves what waves are selected by alone (06 R152, R154). -/

/-- What waves are selected by is as it was: their ages, slots, and whether they are handlers. -/
def SameOrder (s t : State) : Prop :=
  ∀ w, (t.wave w).age = (s.wave w).age ∧ (t.wave w).slot = (s.wave w).slot ∧ (t.wave w).handles = (s.wave w).handles

theorem SameOrder.refl (s : State) : SameOrder s s := fun _ => ⟨rfl, rfl, rfl⟩

theorem SameOrder.trans {s t u : State} (h : SameOrder s t) (k : SameOrder t u) : SameOrder s u := fun w =>
  ⟨(k w).1.trans (h w).1, (k w).2.1.trans (h w).2.1, (k w).2.2.trans (h w).2.2⟩

theorem pick_sameOrder (s : State) (n : Nat) : SameOrder s (s.pick n).2 := by
  obtain ⟨⟨f, hf⟩, -⟩ := pick_spec s n
  rw [hf]
  exact SameOrder.refl s

theorem modLanes_sameOrder (s : State) (w : Nat) (g : Mask) (f : Lane → Lane) : SameOrder s (s.modWave w (fun v => v.modLanes g f)) := by
  intro k
  by_cases hk : k = w
  · subst hk
    simp [State.wave_modWave]
  · simp [State.wave_modWave_ne _ _ _ _ hk]

/-- The groups found ready are among a wave's groups. -/
theorem chooseGroups_spec (s : State) (w : Nat) (gs : List ((Nat × Nat) × Mask)) :
    (∀ k ∈ (s.chooseGroups w gs).1, k ∈ gs) ∧ SameOrder s (s.chooseGroups w gs).2 := by
  unfold State.chooseGroups
  refine List.foldlRecOn (motive := fun acc : List ((Nat × Nat) × Mask) × State => (∀ k ∈ acc.1, k ∈ gs) ∧ SameOrder s acc.2) gs _
    ⟨fun _ hk => by simp at hk, SameOrder.refl s⟩ ?_
  rintro ⟨ks, t⟩ ⟨hks, ht⟩ g hg
  have hp := ht.trans (pick_sameOrder t 2)
  dsimp only
  split
  · refine ⟨fun k hk => ?_, hp⟩
    rcases List.mem_append.mp hk with hk | hk
    · exact hks k hk
    · exact List.mem_singleton.mp hk ▸ hg
  · exact ⟨hks, hp.trans (modLanes_sameOrder _ _ _ _)⟩

/-- The ready waves of a port are among those it may serve, each with some of its groups. -/
theorem readyGroups_spec (s : State) (core port : Nat) :
    (∀ x ∈ (s.readyGroups core port).1, x.2 ≠ [] ∧ ∃ gs, (x.1, gs) ∈ s.portGroups core port ∧ ∀ k ∈ x.2, k ∈ gs) ∧
    SameOrder s (s.readyGroups core port).2 := by
  unfold State.readyGroups
  generalize s.portGroups core port = ws
  suffices h : ∀ r : List (Nat × List ((Nat × Nat) × Mask)) × State,
      ((∀ x ∈ r.1, ∃ gs, (x.1, gs) ∈ ws ∧ ∀ k ∈ x.2, k ∈ gs) ∧ SameOrder s r.2) →
      (∀ x ∈ r.1.filter (fun x => !x.2.isEmpty), x.2 ≠ [] ∧ ∃ gs, (x.1, gs) ∈ ws ∧ ∀ k ∈ x.2, k ∈ gs) ∧ SameOrder s r.2 by
    refine h _ ?_
    split
    · exact ⟨fun x hx => ⟨x.2, hx, fun _ hk => hk⟩, SameOrder.refl s⟩
    · refine List.foldlRecOn (motive := fun acc : List (Nat × List ((Nat × Nat) × Mask)) × State =>
        (∀ x ∈ acc.1, ∃ gs, (x.1, gs) ∈ ws ∧ ∀ k ∈ x.2, k ∈ gs) ∧ SameOrder s acc.2) ws _
        ⟨fun _ hx => by simp at hx, SameOrder.refl s⟩ ?_
      rintro ⟨ks, t⟩ ⟨hks, ht⟩ y hy
      obtain ⟨hsub, hord⟩ := chooseGroups_spec t y.1 y.2
      refine ⟨fun x hx => ?_, ht.trans hord⟩
      rcases List.mem_append.mp hx with hx | hx
      · exact hks x hx
      · rw [List.mem_singleton.mp hx]
        exact ⟨y.2, hy, hsub⟩
  rintro r ⟨hr, hord⟩
  refine ⟨fun x hx => ?_, hord⟩
  obtain ⟨hx, hne⟩ := List.mem_filter.mp hx
  exact ⟨fun h => by simp [h] at hne, hr x hx⟩

/-- A wave that a port may serve: one of its own that may issue and has not given up the cycle, with all its groups. -/
theorem mem_portGroups {s : State} {core port w : Nat} {gs : List ((Nat × Nat) × Mask)} (h : (w, gs) ∈ s.portGroups core port) :
    w ∈ s.portWaves core port ∧ s.canIssue w = true ∧ (s.wave w).skipCycle = false ∧ gs = s.groups w (s.wave w).live := by
  obtain ⟨y, hy, he⟩ := List.mem_map.mp h
  cases he
  obtain ⟨hmem, hcan⟩ := List.mem_filter.mp hy
  simp only [Bool.and_eq_true, Bool.not_eq_true'] at hcan
  exact ⟨hmem, hcan.1.1, hcan.2, rfl⟩

/-! Selection among ready waves (06 R154). -/

/-- A wave's place among waves of one age: its slot, a handler's after all. -/
def Wave.rank (v : Wave) : Nat := if v.handles.isSome then 16 else v.slot

/-- A wave is selected before another, or they stand alike. -/
def State.Precedes (s : State) (a b : Nat) : Prop :=
  (s.wave b).age < (s.wave a).age ∨ (s.wave b).age = (s.wave a).age ∧ (s.wave a).rank ≤ (s.wave b).rank

theorem State.Precedes.trans {s : State} {a b c : Nat} (h : s.Precedes a b) (k : s.Precedes b c) : s.Precedes a c := by
  unfold State.Precedes at *
  omega

theorem selects_spec (s : State) (a b : Nat) :
    (s.selects a b = a ∨ s.selects a b = b) ∧ s.Precedes (s.selects a b) a ∧ s.Precedes (s.selects a b) b := by
  have hsel : s.selects a b =
      if (s.wave b).age < (s.wave a).age || ((s.wave a).age = (s.wave b).age && (s.wave a).rank ≤ (s.wave b).rank) then a else b := rfl
  rw [hsel]
  unfold State.Precedes
  split
  · rename_i h
    simp only [Bool.or_eq_true, Bool.and_eq_true, decide_eq_true_eq] at h
    omega
  · rename_i h
    simp only [Bool.or_eq_true, Bool.and_eq_true, decide_eq_true_eq] at h
    omega

/-- The wave selected is a ready one that no ready wave precedes. -/
theorem select_spec {s : State} {rdy : List Nat} {w : Nat} (h : s.select rdy = some w) : w ∈ rdy ∧ ∀ y ∈ rdy, s.Precedes w y := by
  cases rdy with
  | nil => cases h
  | cons a ws =>
    cases h
    exact foldl_best s.Precedes (fun _ => .inr ⟨rfl, Nat.le_refl _⟩) State.Precedes.trans s.selects (selects_spec s) ws a

theorem SameOrder.precedes {s t : State} (h : SameOrder s t) {a b : Nat} (hp : t.Precedes a b) : s.Precedes a b := by
  unfold State.Precedes Wave.rank at *
  obtain ⟨haa, has, hah⟩ := h a
  obtain ⟨hba, hbs, hbh⟩ := h b
  rwa [haa, has, hah, hba, hbs, hbh] at hp

/-! Choosing a wave's first group (06 R152, R153). -/

/-- A group issues before another, or they stand alike: more lanes, then the lower program counter. -/
def GroupPrecedes (a b : (Nat × Nat) × Mask) : Prop :=
  laneCount b.2 < laneCount a.2 ∨ laneCount b.2 = laneCount a.2 ∧ a.1.1 ≤ b.1.1

theorem GroupPrecedes.trans {a b c : (Nat × Nat) × Mask} (h : GroupPrecedes a b) (k : GroupPrecedes b c) : GroupPrecedes a c := by
  unfold GroupPrecedes at *
  omega

theorem betterGroup_spec (a b : (Nat × Nat) × Mask) :
    (betterGroup a b = a ∨ betterGroup a b = b) ∧ GroupPrecedes (betterGroup a b) a ∧ GroupPrecedes (betterGroup a b) b := by
  unfold betterGroup GroupPrecedes
  split
  · exact ⟨.inl rfl, by omega⟩
  · split
    · exact ⟨.inr rfl, by omega⟩
    · split
      · exact ⟨.inl rfl, by omega⟩
      · exact ⟨.inr rfl, by omega⟩

theorem bestGroup_spec {cs : List ((Nat × Nat) × Mask)} {g : (Nat × Nat) × Mask} (h : bestGroup cs = some g) :
    g ∈ cs ∧ ∀ o ∈ cs, GroupPrecedes g o := by
  cases cs with
  | nil => cases h
  | cons a cs =>
    cases h
    exact foldl_best GroupPrecedes (fun _ => .inr ⟨rfl, Nat.le_refl _⟩) GroupPrecedes.trans betterGroup betterGroup_spec cs a

/-- The starvation group is a group in which a lane's count has reached 64 (06 R153). -/
theorem starving_spec {v : Wave} {gs : List ((Nat × Nat) × Mask)} {h : (Nat × Nat) × Mask} (hs : v.starving gs = some h) :
    ∃ l, l < 32 ∧ h.2.getLsbD l = true ∧ 64 ≤ (v.lane l).starve := by
  unfold Wave.starving at hs
  dsimp only at hs
  split at hs
  · cases hs
  · rename_i htop
    generalize gs.foldl (fun m g => (lanesOf g.2).foldl (fun m l => max m (v.lane l).starve) m) 0 = top at htop hs
    have hmem := mem_of_foldl_keeps (fun b x y hy => by
      cases b with
      | none => exact .inl (Option.some.inj hy).symm
      | some z =>
        dsimp only at hy
        split at hy
        · exact .inl (Option.some.inj hy).symm
        · exact .inr hy) hs
    obtain ⟨l, hl, heq⟩ := List.any_eq_true.mp (List.mem_filter.mp hmem).2
    obtain ⟨hl32, hbit⟩ := mem_lanesOf.mp hl
    exact ⟨l, hl32, hbit, by rw [of_decide_eq_true heq]; omega⟩

theorem firstGroup_of_none {s : State} {w : Nat} (cs : List ((Nat × Nat) × Mask))
    (h : (s.wave w).starving (s.groups w (s.wave w).live) = none) : s.firstGroup w cs = bestGroup cs := by
  simp only [State.firstGroup, h]

theorem firstGroup_of_some {s : State} {w : Nat} (cs : List ((Nat × Nat) × Mask)) {g : (Nat × Nat) × Mask}
    (h : (s.wave w).starving (s.groups w (s.wave w).live) = some g) : s.firstGroup w cs = cs.find? (fun c => c.1 = g.1) := by
  simp only [State.firstGroup, h]

theorem bestGroup_ne_none {cs : List ((Nat × Nat) × Mask)} (h : cs ≠ []) : bestGroup cs ≠ none := by
  cases cs with
  | nil => exact absurd rfl h
  | cons => exact fun h => by cases h

/-! The ages of waves in a port's cycle (06 R154). -/

/-- One wave's part of a port's cycle. -/
def State.passCycle (s : State) (sel : Option Nat) (rdy : List Nat) (w : Nat) : State :=
  let v := s.wave w
  let tile := if s.inTileWait w then v.wtile + 1 else v.wtile
  if sel = some w then s.setWave w { v with age := 0, wopp := v.wopp + 1, wtile := tile }
  else
    let s := s.setWave w { v with
      age := if rdy.contains w then min 1048575 (v.age + s.weight w) else v.age
      skipCycle := false
      wblock := if s.atBlocking w then v.wblock + 1 else v.wblock
      wtile := tile }
    if v.cand.isSome then s else s.stalled w

theorem portCycle_eq (s : State) (core port : Nat) (sel : Option Nat) (rdy : List Nat) :
    s.portCycle core port sel rdy = (s.portWaves core port).foldl (fun s w => s.passCycle sel rdy w) s := rfl

/-- A wave's part of the cycle changes no other wave, no unit and no launch. -/
theorem passCycle_onlyWave (s : State) (sel : Option Nat) (rdy : List Nat) (w : Nat) : OnlyWave s (s.passCycle sel rdy w) w := by
  unfold State.passCycle
  dsimp only
  split
  · exact onlyWave_setWave _ _ _
  · split
    · exact onlyWave_setWave _ _ _
    · exact (onlyWave_setWave _ _ _).trans (onlyWave_modWave _ _ _)

/-- A ready wave that is not selected ages by its weight. -/
theorem age_passCycle (s : State) {sel : Option Nat} {rdy : List Nat} {w : Nat} (hs : sel ≠ some w) (hr : w ∈ rdy) :
    ((s.passCycle sel rdy w).wave w).age = min 1048575 ((s.wave w).age + s.weight w) := by
  unfold State.passCycle
  dsimp only
  rw [if_neg hs, if_pos (List.contains_iff_mem.mpr hr)]
  split
  · rw [State.wave_setWave]
  · rw [State.stalled, State.wave_modWave, State.wave_setWave]

/-- A wave is as it was, with the units and launches. -/
def SameWaveAt (s t : State) (w : Nat) : Prop := t.wave w = s.wave w ∧ t.units = s.units ∧ t.launches = s.launches

theorem SameWaveAt.weight {s t : State} {w : Nat} (h : SameWaveAt s t w) : t.weight w = s.weight w := by
  obtain ⟨hw, hu, hl⟩ := h
  simp only [State.weight, State.launchOf, State.launch, State.unit, hw, hu, hl]

theorem passCycles_other (s : State) (sel : Option Nat) (rdy : List Nat) (w : Nat) (ws : List Nat) (hw : w ∉ ws) :
    SameWaveAt s (ws.foldl (fun s k => s.passCycle sel rdy k) s) w := by
  refine List.foldlRecOn (motive := fun t => SameWaveAt s t w) ws _ ⟨rfl, rfl, rfl⟩ fun t ht k hk => ?_
  obtain ⟨hwave, hunits, hlaunches⟩ := ht
  have h := passCycle_onlyWave t sel rdy k
  exact ⟨(h.waves w fun he => hw (he ▸ hk)).trans hwave, h.units.trans hunits, h.launches.trans hlaunches⟩

theorem age_passCycles (s : State) {sel : Option Nat} {rdy : List Nat} {w : Nat} {ws : List Nat} (hc : ws.count w = 1) (hs : sel ≠ some w)
    (hr : w ∈ rdy) : ((ws.foldl (fun s k => s.passCycle sel rdy k) s).wave w).age = min 1048575 ((s.wave w).age + s.weight w) := by
  obtain ⟨xs, ys, rfl, hxs⟩ := List.eq_append_cons_of_mem (List.count_pos_iff.mp (hc ▸ Nat.one_pos))
  have hys : w ∉ ys := by
    rw [List.count_append, List.count_cons_self, List.count_eq_zero.mpr hxs] at hc
    exact List.count_eq_zero.mp (by omega)
  have hbefore := passCycles_other s sel rdy w xs hxs
  rw [List.foldl_append, List.foldl_cons, (passCycles_other _ sel rdy w ys hys).1, age_passCycle _ hs hr, hbefore.weight, hbefore.1]

end Machine

open Machine

/-- Settles O14: the selected wave and the first group are the best of a list, by `foldl_best`; an age moves in its wave's part of the cycle. -/
theorem portSelection : Obligations.PortSelection := by
  unfold Obligations.PortSelection
  refine ⟨fun s core port w => ?_, fun s w cs => ⟨fun key g htop h => ?_, fun htop hne => ?_, fun h key g htop hf => ?_⟩,
    fun s core port w sel rdy _ hcount hready hnot => ?_⟩
  · intro r hsel
    obtain ⟨hrdy, hord⟩ := readyGroups_spec s core port
    obtain ⟨hmem, hbest⟩ := select_spec hsel
    obtain ⟨x, hx, rfl⟩ := List.mem_map.mp hmem
    obtain ⟨hne, gs, hgs, hsub⟩ := hrdy x hx
    obtain ⟨hport, hcan, hskip, rfl⟩ := mem_portGroups hgs
    exact ⟨hport, hcan, hskip, ⟨x.2, hx, hne, hsub⟩, fun y hy => hord.precedes (hbest y hy)⟩
  · exact bestGroup_spec ((firstGroup_of_none cs htop).symm.trans h)
  · rw [firstGroup_of_none cs htop]
    exact bestGroup_ne_none hne
  · rw [firstGroup_of_some cs htop] at hf
    have hkey := List.find?_some hf
    exact ⟨List.mem_of_find?_eq_some hf, of_decide_eq_true hkey, starving_spec htop⟩
  · rw [portCycle_eq]
    exact age_passCycles s hcount hnot hready

end Sys2Proof
end

section
/-! PROOFS. What a wave holds at its start (O15). -/
namespace Sys2Proof.Machine

/-- A table built from a list of keys holds each key's value. -/
theorem tfind?_map_keys {β : Type} (f : Nat → β) {l : Nat} : ∀ {ls : List Nat}, l ∈ ls → tfind? (ls.map (fun k => (k, f k))) l = some (f l)
  | k :: ls, h => by
    rw [List.map_cons]
    by_cases hk : k = l
    · simp [tfind?, hk]
    · simpa [tfind?, hk] using tfind?_map_keys f ((List.mem_cons.mp h).resolve_left (Ne.symm hk))

section
variable (u idx core slot : Nat) (pc : DWord) (m7 : Mask) (start : View) (enter : Bool)

/-- A lane at its wave's start stands at the code, with the views given (06 R151; 03 R77). -/
theorem lane_startWave {l : Nat} (hl : l < 32) :
    (startWave u idx core slot pc m7 start enter).lane l = { Lane.init with pc, enter, ag := AgentSt.start start } := by
  simp [Wave.lane, startWave, tget, tfind?_map_keys (fun _ => _) (List.mem_range.mpr hl)]

/-- A mask register at wave start is 0, or the padding mask (06 R162). -/
theorem rm_startWave (g : Mask) {n : Nat} (hn : n ≠ 0) :
    (startWave u idx core slot pc m7 start enter).rm g n = if n = 7 then m7 else 0 := by
  unfold Wave.rm startWave
  rw [if_neg hn]
  by_cases h : n = 7
  · subst h
    exact tget_tset_same _ _ _ _
  · rw [if_neg h]
    exact tget_tset_ne _ _ _ _ _ h

end

end Sys2Proof.Machine

namespace Sys2Proof
open Machine

/-- Settles O15: registers, flags and loops by the blank wave that a start is made from, masks and lanes by their lemmas. -/
theorem waveStart : Obligations.WaveStart := by
  intro u idx core slot pc m7 start enter v
  refine ⟨fun n => ⟨rfl, rfl, rfl, rfl, rfl, rfl⟩, fun n l => rfl, fun g n h1 h6 => ?_, fun g => ?_, rfl, rfl, rfl, rfl, rfl, rfl, rfl, rfl, rfl,
    rfl, fun l hl => ?_⟩
  · exact (rm_startWave u idx core slot pc m7 start enter g (by omega)).trans (if_neg (by omega))
  · exact (rm_startWave u idx core slot pc m7 start enter g (by decide)).trans (if_pos rfl)
  · rw [show v.lane l = _ from lane_startWave u idx core slot pc m7 start enter hl]
    exact ⟨rfl, rfl, rfl, rfl, rfl⟩

end Sys2Proof
end

section
/-! PROOFS. A step with an agenda is its first act and what follows from it, and the acts that run a word or an event (O4). -/
namespace Sys2Proof.Machine

/-- A step takes the agenda's first act (log 1). -/
theorem step_of_agenda {s : State} {a : Act} {rest : List Act} (h : s.agenda = a :: rest) :
    step s = andThen (State.act { s with agenda := rest } a) (fun t => State.follow { s with agenda := rest } t a) := by
  simp only [step, State.stepOnce, State.nextAct, h]

/-- A word fetched for a group issues, where the debugger does not stop its wave and its clause asks for no reservation (06 R152). -/
theorem issueGroup_of_word {s s2 : State} {w : Nat} {g : Mask} {c : Cursor} {i : Instr}
    (hf : (s.served w g).fetchFor w g (((s.served w g).wave w).lane (lowestLane g)) = (.word c i, s2))
    (hb : (s2.stand w g c.pc c.clause c.modBase (c.minor, c.vvirt)).breaksAt c = false)
    (hr : wantsReservation ((s2.stand w g c.pc c.clause c.modBase (c.minor, c.vvirt)).wave w) c = false) :
    s.issueGroup w g = ((s2.stand w g c.pc c.clause c.modBase (c.minor, c.vvirt)).modWave w (fun v => v.shareHeavy c)).execAt c i := by
  simp only [State.issueGroup, hf, State.runFetched, hb, hr, Bool.false_eq_true, if_false]

/-- The state after a port's cycle in which it selects a wave (06 R154). -/
def State.afterSelection (s : State) (core port w : Nat) : State :=
  ((s.readyGroups core port).2.portCycle core port (some w) ((s.readyGroups core port).1.map (·.1))).coreCycle core port

/-- The groups of a wave that can issue in a port's cycle (06 R152). -/
def State.readyGroupsOf (s : State) (core port w : Nat) : List ((Nat × Nat) × Mask) :=
  (((s.readyGroups core port).1.find? (fun x => x.1 = w)).map (·.2)).getD []

/-- An opportunity of a wave, after its first group's word. -/
def State.oppAfter (s t : State) (w : Nat) (g : Mask) : Opp :=
  { wave := w, first := g, issued := t.tookWord w g (s.wave w), live := (s.wave w).live, v := (s.wave w).v, vtag := (s.wave w).vtag }

/-- A port's cycle in which it selects a wave with a first group issues that group's word (06 R152-R154). -/
theorem issueAct_of_firstGroup {s : State} {core port w : Nat} {key : Nat × Nat} {g : Mask} (hp : port < 2)
    (hsw : (s.cluster (clusterOf core)).switching = false) (hrun : s.clusterRuns (clusterOf core) = true)
    (hsel : (s.readyGroups core port).2.select ((s.readyGroups core port).1.map (·.1)) = some w)
    (hfirst : (s.afterSelection core port w).firstGroup w (s.readyGroupsOf core port w) = some (key, g)) :
    s.issueAct core port = andThen ((s.afterSelection core port w).issueGroup w g) (fun t =>
      t.afterFirst ((s.afterSelection core port w).active w) ((s.readyGroupsOf core port w).filter (fun x => x.1 != key))
        ((s.afterSelection core port w).oppAfter t w g)) := by
  have henabled : ((s.cluster (clusterOf core)).switching || !s.clusterRuns (clusterOf core) || decide (2 ≤ port)) = false := by
    simp [hsw, hrun, hp]
  unfold State.afterSelection State.readyGroupsOf at hfirst
  simp only [State.issueAct, henabled, Bool.false_eq_true, if_false, hsel, hfirst]
  rfl

/-- The second group of an opportunity issues its lanes that can still run (06 R152). -/
theorem secondAct_of_opp {s : State} {w : Nat} {g : Mask} {o : Opp} (ho : s.opp = some o) (hw : o.wave = w) (hx : (s.wave w).exited = false)
    (hm : g &&& s.active w ≠ 0) :
    s.secondAct w g = andThen (s.issueGroup w (g &&& s.active w)) (fun t =>
      t.endOpportunity w (o.first ||| s.active w) (o.first ||| (g &&& s.active w)) (o.issued || t.tookWord w (g &&& s.active w) (s.wave w))) := by
  have hruns : (o.wave != w || (s.wave w).exited || decide (g &&& s.active w = 0)) = false := by
    rw [hw, hx, decide_eq_false hm, bne_self_eq_false]
    rfl
  simp only [State.secondAct, ho, hruns, Bool.false_eq_true, if_false]

/-- Lanes left of a word take more of its steps (03 R82). -/
theorem stepsAct_of_left {s : State} {w l : Nat} {k : Steps} (hk : (s.wave w).stepsAt l = some k) (hx : (s.wave w).exited = false)
    (hu : (s.unit (s.wave w).unit).resident = true) (hr : s.clusterRuns (clusterOf (s.wave w).core) = true) :
    s.stepsAct w l = s.execAt k.cur k.instr := by
  simp [State.stepsAct, hk, hx, hu, hr]

/-- A candidate lane's next word runs at its lane alone (10 R247). -/
theorem candAct_of_word {s : State} {w l : Nat} {i : Instr} (hx : (s.wave w).exited = false) (ht : (s.wave w).trapState = .running)
    (hp : (s.wave w).park = none) (hv : (s.wave w).resident = true) (hu : (s.unit (s.wave w).unit).resident = true)
    (hsw : (s.cluster (clusterOf (s.wave w).core)).switching = false) (hr : s.clusterRuns (clusterOf (s.wave w).core) = true)
    (hn : s.candNext w l = some (.inr i)) :
    s.candAct w l = andThen (exec i (s.at_
      { missCursor w (laneBit l) ((s.wave w).lane l).pc ((s.wave w).lane l).after with cand := some l })) State.rest := by
  simp [State.candAct, hx, ht, hp, hv, hu, hsw, hr, hn]

/-- An event that cuts no word off is its own meaning (log 1, log 66). -/
theorem eventAct_of_uncut {s : State} {i : Instr} {o : Occasion} (h : ∀ t, s.event i o = .next t → s.cutShort t = none) :
    s.eventAct i o = s.event i o := by
  unfold State.eventAct
  split
  · rename_i t ht
    simp only [h t ht, ht]
  · rfl

end Sys2Proof.Machine

namespace Sys2Proof
open Machine

/-- Settles O4: a step is the agenda's first act, and each act, under the clause's conditions, the run of its word. -/
theorem stepRunsDecodedWord : Obligations.StepRunsDecodedWord := by
  intro s rest s0
  refine ⟨?_, ?_, ?_, ?_, ?_⟩
  · intro core port w key g c i s2 hagenda hport hsw hrun r s1 cs hsel hfirst hfetch s3 hbreak hreserve s4
    rw [step_of_agenda hagenda]
    refine congrArg (fun y => andThen y _) ((issueAct_of_firstGroup (s := s0) hport hsw hrun hsel hfirst).trans (congrArg (fun y => andThen y _) ?_))
    exact issueGroup_of_word hfetch hbreak hreserve
  · intro w g o c i s2 hagenda hopp hwave hexited m hm hfetch s3 hbreak hreserve s4
    rw [step_of_agenda hagenda]
    refine congrArg (fun y => andThen y _) ((secondAct_of_opp (s := s0) hopp hwave hexited hm).trans (congrArg (fun y => andThen y _) ?_))
    exact issueGroup_of_word hfetch hbreak hreserve
  · intro w l k hagenda hk hexited hunit hrun
    rw [step_of_agenda hagenda]
    exact congrArg (fun y => andThen y _) (stepsAct_of_left (s := s0) hk hexited hunit hrun)
  · intro w l i hagenda hexited htrap hpark hwave hunit hsw hrun hnext
    rw [step_of_agenda hagenda]
    exact congrArg (fun y => andThen y _) (candAct_of_word (s := s0) hexited htrap hpark hwave hunit hsw hrun hnext)
  · intro i o hagenda huncut
    rw [step_of_agenda hagenda]
    exact congrArg (fun y => andThen y _) (eventAct_of_uncut huncut)

end Sys2Proof
end

section
/-! PROOFS. SPAWN, JOIN and its resumption, and what the dispatchers do with frames (O48). -/
namespace Sys2Proof.Machine

/-! SPAWN (07 R171-R178). -/

/-- The frame in the 16 registers from s[k] on (07 R171). -/
def Wave.frameFrom (v : Wave) (k : Nat) : Frame :=
  Frame.ofBytes ((List.range 16).flatMap (fun i => leBytes 4 (v.rs (k + i)).toNat)) 0

/-- What SPAWN still checks once its frame's object is found: a handle for its unit, and room among the frames its core owns (07 R178). -/
def spawnFound (x : Iss) (y : UnitSt) (f : Frame) (loc : Option Nat) (s : State) : Res :=
  if f.join != 0 && pathOf f.join = 2 && y.handle.isNone && (s.ctx y.vf).freeHandle.isNone then x.fail Code.spawnfoot s
  else if (s.launch y.launch).slots < s.framesOwned y.launch x.wave.core + 1 + 16 then x.fail Code.spawnfoot s
  else .done (s.spawnChild x f loc)

theorem spawnFound_done {s : State} {x : Iss} {y : UnitSt} {f : Frame} (loc : Option Nat)
    (hh : f.join ≠ 0 → pathOf f.join = 2 → y.handle = none → (s.ctx y.vf).freeHandle ≠ none)
    (hroom : s.framesOwned y.launch x.wave.core + 17 ≤ (s.launch y.launch).slots) :
    spawnFound x y f loc s = .done (s.spawnChild x f loc) := by
  refine (if_neg fun h => ?_).trans (if_neg (by omega))
  simp only [Bool.and_eq_true, bne_iff_ne, decide_eq_true_eq, Option.isNone_iff_eq_none] at h
  obtain ⟨⟨⟨hjoin, hpath⟩, hhandle⟩, hfree⟩ := h
  exact hh hjoin hpath hhandle hfree

theorem frameObject_of_zero {join : DWord} (h : join = 0) (s : State) (x : Iss) (k : Option Nat → State → Res) :
    s.frameObject x join k = k none s := if_pos h

/-- The check of the object that a frame names: 16 bytes, as an atomic access (07 R178). -/
def frameReq (x : Iss) (join : DWord) : Req :=
  { lane := lowestLane x.e, ea := join, size := 16, kind := AccKind.atomic, align := 16, cap := none, paths := [0, 2] }

theorem frameObject_of_reaches {s s1 : State} {x : Iss} {join : DWord} {p : Place} (h : join ≠ 0)
    (hr : Reaches s x [frameReq x join] [p] s1) (hc : Clean s1 [p] 16) (k : Option Nat → State → Res) :
    s.frameObject x join k = k (some p.loc) s1 :=
  (if_neg h).trans ((access_of_reaches hr _).trans (consume_of_clean hc _ _))

/-- SPAWN of the frame from s[k] on: its predicate, depth and footprint, then its object and the checks after it (07 R178). -/
theorem exec_spawn {w : Full} {k : Nat} (hk : w.a = .s k) (s : State) :
    exec (.spawn w) s = s.perform (.spawn w) (headF w [(w.a, 16)] true) (fun x s =>
      if x.e = 0 then .done s
      else if (s.unit x.wave.unit).depth = 15 then x.fail Code.spawndepth s
      else if !(Foot.ofDW (x.wave.frameFrom k).foot).ok then x.fail Code.spawnfoot s
      else s.frameObject x (x.wave.frameFrom k).join (spawnFound x (s.unit x.wave.unit) (x.wave.frameFrom k))) := by
  change execSpawn w s = _
  unfold execSpawn
  rw [hk]
  rfl

/-- A SPAWN whose depth and footprint pass completes with what its object's check and the checks after it come to. -/
theorem spawn_completes {s eff : State} {c : Cursor} {w : Full} {k : Nat} (hi : Issues s c (.spawn w) (headF w [(w.a, 16)] true))
    (hk : w.a = .s k) (he : (s.issOf c w.pn w.pm).e ≠ 0) (hd : (s.unit (s.wave c.wave).unit).depth ≠ 15)
    (hf : (Foot.ofDW ((s.wave c.wave).frameFrom k).foot).ok = true)
    (ho : s.frameObject (s.issOf c w.pn w.pm) ((s.wave c.wave).frameFrom k).join
      (spawnFound (s.issOf c w.pn w.pm) (s.unit (s.wave c.wave).unit) ((s.wave c.wave).frameFrom k)) = .done eff) :
    Completes s c (.spawn w) (headF w [(w.a, 16)] true) eff := by
  have hfoot : ¬ (!(Foot.ofDW ((s.wave c.wave).frameFrom k).foot).ok) = true := by
    rw [hf]
    exact Bool.false_ne_true
  exact completes hi (exec_spawn hk s) ((if_neg he).trans ((if_neg hd).trans ((if_neg hfoot).trans ho)))

/-! JOIN and JOIN_RESUME (07 R174, R180). -/

theorem exec_joinI (w : Full) (s : State) : exec (.joinI w) s = execJoinI w s := rfl
theorem exec_joinResume (s : State) : exec .joinResume s = execJoinResume s := rfl

/-- The head of JOIN. -/
def joinHead (w : Full) : Head := headF w [(w.d, 1), (w.a, 2)] true

/-- The read of JOIN's object. -/
def joinReq (s : State) (x : Iss) (w : Full) : Req :=
  { lane := lowestLane x.e, ea := s.addrBase x w.a (lowestLane x.e), size := 16, kind := AccKind.load, align := 16, cap := none,
    paths := [0, 2] }

/-- JOIN's wait: WAITER names the wave, and the lanes of E wait (07 R174). -/
def State.joinWait (s : State) (x : Iss) (d : Opnd) (ea : DWord) (loc : Nat) : State :=
  (s.storeNow (plainWrite (loc + 4) 4 (waveHandle x.w).toNat) (s.keyIndex (s.vfOf x.w))).waitOn x x.e (.joinW x.e d ea loc)

/-- JOIN of a clean object comes to what its COUNT says. -/
theorem join_settles {s s1 : State} {c : Cursor} {w : Full} {p : Place} {r : Res} (hi : Issues s c (.joinI w) (joinHead w))
    (he : (s.issOf c w.pn w.pm).e ≠ 0)
    (hr : Reaches s (s.issOf c w.pn w.pm) [joinReq s (s.issOf c w.pn w.pm) w] [p] s1) (hc : Clean s1 [p] 16)
    (hw : let x := s.issOf c w.pn w.pm
      (if (s1.memOf (s1.vfOf c.wave)).nat p.loc 4 = 0 then .done (s1.joinPass x w.d p.loc)
       else .moved (s1.joinWait x w.d (joinReq s x w).ea p.loc)) = r) :
    exec (.joinI w) s = .next (State.settle (s.issOf c w.pn w.pm) w.fs r) := by
  refine (exec_joinI w s).trans ((perform_eq hi _).trans (congrArg (fun r => Host.Outcome.next (State.settle _ _ r)) ?_))
  exact (if_neg he).trans ((access_of_reaches hr _).trans ((consume_of_clean hc _ _).trans hw))

section
variable {s : State} {e : Mask} {d : Opnd} {ea : DWord} {loc : Nat}

/-- JOIN_RESUME of an object that no port reaches any more (log 26). -/
theorem joinResume_of_cutOff (hw : s.waitOf s.occ.a s.occ.b = some (.joinW e d ea loc)) (ha : s.awake s.occ.a = true)
    (hc : s.cutOff loc = true) :
    exec .joinResume s = .next (s.takeFault s.occ.a ((s.issWait s.occ.a e).record Code.remote 1 (lowestLane e) AccKind.load ea)) := by
  rw [exec_joinResume]
  unfold execJoinResume
  simp only [hw, ha, hc, Bool.and_self, if_true]

/-- JOIN_RESUME of an object whose COUNT reads 0. -/
theorem joinResume_of_zero (hw : s.waitOf s.occ.a s.occ.b = some (.joinW e d ea loc)) (ha : s.awake s.occ.a = true)
    (hc : s.cutOff loc = false) (hz : (s.memOf (s.vfOf s.occ.a)).nat loc 4 = 0) :
    exec .joinResume s = .next ((s.joinPass (s.issWait s.occ.a e) d loc).leaveWait s.occ.a (s.waiters s.occ.a s.occ.b)) := by
  rw [exec_joinResume]
  unfold execJoinResume
  simp only [hw, ha, hc, hz, decide_true, Bool.and_self, Bool.and_false, Bool.false_eq_true, if_true, if_false]

end

/-! The dispatchers (07 R181-R186). -/

theorem exec_dequePop (s : State) : exec .dequePop s = execDequePop s := rfl
theorem exec_dequeRefill (s : State) : exec .dequeRefill s = execDequeRefill s := rfl
theorem exec_dequeSteal (s : State) : exec .dequeSteal s = execDequeSteal s := rfl
theorem exec_coreDepart (s : State) : exec .coreDepart s = execCoreDepart s := rfl

theorem dequePop_starts {s : State} {q : QFrame} {sp : Span} (hq : s.popChoice s.occ.a s.occ.b = some (q, sp))
    (ht : s.takesWork s.occ.a (s.launch q.launch).vf = true) :
    exec .dequePop s = .next ((s.modCore s.occ.a (fun c => { c with deque := c.deque.erase q })).startChild q sp) := by
  rw [exec_dequePop]
  unfold execDequePop
  simp only [hq, ht, if_true]

/-- A core's hardware part refilled with up to 16 of the newest of the k frames of a launch's region, whose HEAD is h (07 R183). -/
def State.refillDeque (s : State) (n core h k : Nat) : State :=
  let fs := s.regionFrames n core
  let kept := k - min k 16
  ((s.useRegion n core h ((List.range k).drop kept)).setRegion n core h (fs.take kept)).modCore core (fun c =>
    { c with deque := (fs.drop kept).reverse.map (fun f => { frame := f, launch := n }) })

/-- An empty deque is refilled from a region that holds frames and reads no poison (07 R183). -/
theorem dequeRefill_fills {s : State} {h k : Nat} (hctl : s.regionCtl s.occ.b s.occ.a = (h, k))
    (hctx : (s.core s.occ.a).ctx = some (s.launch s.occ.b).vf) (haway : (s.core s.occ.a).away = false)
    (hvf : s.vfAt s.occ.a = some (s.launch s.occ.b).vf) (hempty : (s.core s.occ.a).deque = [])
    (hlive : (s.launch s.occ.b).complete = false) (hclean : s.regionPoison s.occ.b s.occ.a = false) (hk : k ≠ 0) :
    exec .dequeRefill s = .next (s.refillDeque s.occ.b s.occ.a h k) := by
  rw [exec_dequeRefill]
  unfold execDequeRefill State.refillDeque
  simp only [hctl, hctx, haway, hvf, hempty, hlive, hclean, hk, decide_true, Bool.not_false, List.isEmpty_nil, Bool.and_self, if_true,
    Bool.false_eq_true, if_false]

/-- The victim's frames without the one that is taken, from its region or its hardware part (07 R184). -/
def State.withoutStolen (s : State) (v : Nat) (q : QFrame) : Bool → State
  | true =>
    let fs := s.regionFrames q.launch v
    let h := (s.regionCtl q.launch v).1
    let s := s.useRegion q.launch v h (List.range (fs.idxOf q.frame + 1))
    let h := if fs.head? = some q.frame then (h + 1) % max 1 (s.launch q.launch).slots else h
    s.setRegion q.launch v h (fs.erase q.frame)
  | false => s.modCore v (fun c => { c with deque := c.deque.erase q })

/-- A stolen frame, marked STOLEN-PENDING (07 R171). -/
def QFrame.stolen (q : QFrame) : QFrame := { q with frame := { q.frame with flags := q.frame.flags / 2 * 2 + 1 } }

/-- The frames that the thief of an occasion may take from its victim. -/
def State.loot (s : State) (vf : Nat) : List (QFrame × Span × Bool) := s.stealChoices s.occ.a s.occ.b s.occ.c vf

/-- An idle core's steal takes a frame of its choosing from the nearest victim that has one (07 R184). -/
theorem dequeSteal_takes {s : State} {vf level : Nat} {q : QFrame} {sp : Span} {inRegion : Bool} (hvf : s.vfAt s.occ.a = some vf)
    (hlevel : s.stealLevel s.occ.a s.occ.b = some level) (htakes : s.takesWork s.occ.a vf = true)
    (hidle : s.dequeEmpty vf s.occ.a = true)
    (hnear : ∀ l y, l < level → y ∈ s.victims s.occ.a l → s.stealChoices s.occ.a y s.occ.c vf = [])
    (hclean : ∀ k ∈ s.loot vf, k.2.2 = true → s.regionPoison k.1.launch s.occ.b = false)
    (hq : (s.loot vf)[(s.pick (s.loot vf).length).1]? = some (q, sp, inRegion)) :
    exec .dequeSteal s = .next (((s.pick (s.loot vf).length).2.withoutStolen s.occ.b q inRegion).startChild q.stolen sp) := by
  have hnearer : (List.range level).any (fun l => (s.victims s.occ.a l).any
      (fun y => !(s.stealChoices s.occ.a y s.occ.c vf).isEmpty)) = false :=
    List.any_eq_false.mpr fun l hl => by simpa using fun y hy => hnear l y (List.mem_range.mp hl) hy
  have hpoison : (s.loot vf).any (fun k => k.2.2 && s.regionPoison k.1.launch s.occ.b) = false :=
    List.any_eq_false.mpr fun k hk => by simpa using hclean k hk
  have hsome : (s.loot vf).isEmpty = false := by
    cases hl : s.loot vf with
    | nil => simp [hl] at hq
    | cons => rfl
  rw [exec_dequeSteal]
  unfold execDequeSteal
  unfold State.loot at hpoison hsome hq ⊢
  simp only [hvf, hlevel, htakes, hidle, hnearer, hpoison, hsome, hq, Bool.not_false, Bool.and_self, if_true, Bool.false_eq_true, if_false]
  cases inRegion <;> rfl

/-- A pick among the elements of a list names one of them. -/
theorem getElem?_pick (s : State) {α : Type} {l : List α} (h : l ≠ []) : ∃ a, l[(s.pick l.length).1]? = some a :=
  ⟨_, List.getElem?_eq_getElem ((pick_spec s l.length).2 (Nat.ne_of_gt (List.length_pos_iff.mpr h)))⟩

theorem coreDepart_leaves {s : State} (hd : s.departs s.occ.a = true) (ha : (s.core s.occ.a).away = false)
    (hb : s.coreBusy s.occ.a = false) : exec .coreDepart s = .next ((s.departCore s.occ.a).returnCluster (clusterOf s.occ.a)) := by
  rw [exec_coreDepart]
  unfold execCoreDepart
  simp only [hd, ha, hb, Bool.not_false, Bool.and_self, if_true]

end Sys2Proof.Machine

namespace Sys2Proof
open Machine

/-- Settles O48: SPAWN by its frame's object and the checks after it, JOIN by what COUNT says, and each event of the dispatchers by its lemma. -/
theorem spawnAndJoin : Obligations.SpawnAndJoin := by
  unfold Obligations.SpawnAndJoin
  refine ⟨fun s => ⟨?_, ?_, ?_⟩, fun s => ⟨fun q sp => dequePop_starts, ?_, ?_, coreDepart_leaves⟩⟩
  · intro w c k x y f h hi hk he hd hf
    refine ⟨fun hjoin hroom => spawn_completes hi hk he hd hf ?_, fun p s1 hjoin hr hc hhandle hroom => spawn_completes hi hk he hd hf ?_⟩
    · exact (frameObject_of_zero hjoin s x _).trans (spawnFound_done none (fun hne => absurd hjoin hne) hroom)
    · exact (frameObject_of_reaches hjoin hr hc _).trans (spawnFound_done (some p.loc) (fun _ => hhandle) hroom)
  · intro w c p s1 x h vf hi he hr hc
    exact ⟨fun hz => join_settles hi he hr hc (if_pos hz), fun hz => join_settles hi he hr hc (if_neg hz)⟩
  · exact fun e d ea loc hw ha => ⟨joinResume_of_cutOff hw ha, joinResume_of_zero hw ha⟩
  · exact dequeRefill_fills rfl
  · intro vf level q sp v cs hvf hlevel htakes hidle hnear hclean
    refine ⟨fun hne => ?_, dequeSteal_takes hvf hlevel htakes hidle hnear hclean⟩
    obtain ⟨⟨q, sp, r⟩, hq⟩ := getElem?_pick s hne
    exact ⟨_, dequeSteal_takes hvf hlevel htakes hidle hnear hclean hq⟩

end Sys2Proof
end

section
/-! PROOFS. Register writes, doorbells and the side band's table writes (O55). -/
namespace Sys2Proof.Machine

@[simp] theorem length_leBytes (n x : Nat) : (leBytes n x).length = n := by
  induction n generalizing x with
  | zero => rfl
  | succ n ih => simp [leBytes, ih]

/-! The windows' registers (08 R189; 22 R423, R424, R428). -/

theorem exec_registerWrite (by_ : Nat) (target : RegTarget) (v : DWord) (s : State) :
    exec (.registerWrite by_ target v) s = execRegisterWrite by_ target v s := rfl
theorem exec_rootWrite (s : State) : exec .rootWrite s = execRootWrite s := rfl
theorem exec_toffsetWrite (s : State) : exec .toffsetWrite s = execToffsetWrite s := rfl

/-- A write that ends in the slots and meets none that is rung puts all its bytes there (08 R189, R190). -/
theorem slotWrite_free {s : State} {vf off : Nat} {bs : List Byte} (hne : bs ≠ []) (hend : off + bs.length ≤ 0x400)
    (hfree : ∀ i, i < bs.length → (s.ctx vf).slotBusy.getLsbD ((off + i) / 128) = false) :
    s.slotWrite vf off bs = s.modCtx vf (fun c => { c with
      slots := ((List.range bs.length).zip bs).foldl (fun m (p : Nat × Byte) => tset 0 m (off + p.1) p.2) c.slots }) := by
  have hbusy : (List.range bs.length).any (fun i => (s.ctx vf).slotBusy.getLsbD ((off + i) / 128)) = false :=
    List.any_eq_false.mpr fun i hi => by simpa using hfree i (List.mem_range.mp hi)
  unfold State.slotWrite
  simp only [List.take_of_length_le (show bs.length ≤ 0x400 - off by omega), List.isEmpty_eq_false_iff.mpr hne, hbusy, Bool.false_eq_true,
    if_false]
  rfl

/-- A P register that the owner writes holds what its own rule takes (22 R423). -/
theorem mgmtWrite_of_regPut {s t : State} {ep off : Nat} {win : Win} {v : DWord} (hp : pRegister off = true) (ho : s.isOwner ep win = true)
    (ht : s.regPut (s.winVf win) off v = some t) : s.mgmtWrite ep win off v = t := by
  have hoff : off ≠ 0x18 := fun h => by subst h; cases hp
  unfold State.mgmtWrite
  simp only [if_neg hoff, hp, ho, ht, Bool.not_true, Bool.false_eq_true, if_false]

theorem regPut_root {s : State} {vf : Nat} {v : DWord} (hidle : s.ctxInFlight vf = 0) (hv : rootOk v = true) :
    s.regPut vf 0 v = some (s.modCtx vf (fun c => { c with mgmt := { c.mgmt with root := v } })) :=
  if_pos (by rw [hidle, hv]; rfl)

theorem regPut_toffset (s : State) (vf : Nat) (v : DWord) :
    s.regPut vf 0x40 v = some (s.modCtx vf (fun c => { c with mgmt := { c.mgmt with toffset := s.toffsetFor vf v.toInt } })) := rfl

/-- A host's write of a launch window's slots, none of them rung. -/
theorem registerWrite_launchWin {s : State} {by_ vf off size : Nat} (v : DWord) (hlo : 384 ≤ by_) (hhi : by_ < 512) (hvf : vf < 1024)
    (hpos : 0 < size) (hsize : size ≤ 8) (hend : off + size ≤ 0x400)
    (hfree : ∀ i, i < size → (s.ctx vf).slotBusy.getLsbD ((off + i) / 128) = false) :
    exec (.registerWrite by_ (.launchWin vf off size) v) s = .next (s.modCtx vf (fun c => { c with
      slots := ((List.range (leBytes size v.toNat).length).zip (leBytes size v.toNat)).foldl (fun m (p : Nat × Byte) =>
        tset 0 m (off + p.1) p.2) c.slots })) := by
  have hlen := length_leBytes size v.toNat
  have hne : leBytes size v.toNat ≠ [] := List.ne_nil_of_length_pos (by omega)
  have hoff : off < 0x1000 ∧ off ≠ 0x400 := by omega
  rw [exec_registerWrite, ← slotWrite_free hne (by rwa [hlen]) (by rwa [hlen])]
  simp [execRegisterWrite, hlo, hhi, hvf, hsize, hoff]

theorem registerWrite_mgmt {s : State} {by_ off : Nat} {win : Win} (v : DWord) (hlo : 384 ≤ by_) (hhi : by_ < 512) (hvf : s.winVf win < 1024)
    (hoff : off ≠ 0x80) : exec (.registerWrite by_ (.mgmt win off) v) s = .next (s.mgmtWrite by_ win off v) := by
  simp [exec_registerWrite, execRegisterWrite, hlo, hhi, hvf, hoff]

section
variable {s : State} (hlo : 384 ≤ s.occ.a) (hhi : s.occ.a < 512) (hvf : s.winVf s.occ.win < 1024) (ho : s.isOwner s.occ.a s.occ.win = true)
include hlo hhi hvf ho

/-- The owner's ROOT of a context that is idle. -/
theorem rootWrite_idle (hidle : s.ctxInFlight (s.winVf s.occ.win) = 0) (hok : rootOk (BitVec.ofNat 64 s.occ.b) = true) :
    exec .rootWrite s = .next (s.modCtx (s.winVf s.occ.win) (fun c => { c with mgmt := { c.mgmt with root := BitVec.ofNat 64 s.occ.b } })) := by
  rw [exec_rootWrite, ← mgmtWrite_of_regPut rfl ho (regPut_root hidle hok)]
  simp [execRootWrite, hlo, hhi, hvf]

/-- The owner's TOFFSET, by the rule of toffsetFor. -/
theorem toffsetWrite_owner :
    exec .toffsetWrite s = .next (s.modCtx (s.winVf s.occ.win) (fun c => { c with mgmt := { c.mgmt with
      toffset := s.toffsetFor (s.winVf s.occ.win) (BitVec.ofNat 64 s.occ.b).toInt } })) := by
  rw [exec_toffsetWrite, ← mgmtWrite_of_regPut rfl ho (regPut_toffset s _ _)]
  simp [execToffsetWrite, hlo, hhi, hvf]

end

/-! What a die's firmware and the management controller write (08 R197, R201, R216; 07 R184; 02 R50; 21 R413). -/

section
variable {s : State} {die : Nat} (hdie : die < 4)
include hdie

theorem registerWrite_fwStealScope {e : Nat} {v : DWord} (hup : (s.die die).schedDown = false) (he : e < 16) (hv : v.toNat ≤ 3) :
    exec (.registerWrite die (.fwStealScope die e) v) s = .next (s.modPart die e (fun p => { p with scope := v.toNat })) := by
  simp [exec_registerWrite, execRegisterWrite, hdie, hup, he, hv]

section
variable {idx off size : Nat} (v : DWord) (hup : (s.die die).schedDown = false) (hidx : idx < 4096) (hend : off + size ≤ 32) (hsize : size ≤ 8)
include hup hidx hend hsize

/-- Bytes of a bind record that is not committed. -/
theorem registerWrite_fwRecord_free (hb : tfind? (s.die die).binds idx = none) :
    exec (.registerWrite die (.fwRecord die idx off size) v) s = .next (s.setDie die { s.die die with
      slotTable := ((List.range size).zip (leBytes size v.toNat)).foldl (fun m (p : Nat × Byte) => tset 0 m (32 * idx + off + p.1) p.2)
        (s.die die).slotTable }) := by
  simp [exec_registerWrite, execRegisterWrite, hdie, hup, hidx, hend, hsize, hb]

/-- A write to a committed bind record is discarded, and REJECTCNT counts it. -/
theorem registerWrite_fwRecord_committed (hb : (tfind? (s.die die).binds idx).isSome = true) :
    exec (.registerWrite die (.fwRecord die idx off size) v) s = .next (s.setDie die { s.die die with
      rejectCnt := (s.die die).rejectCnt + 1 }) := by
  simp [exec_registerWrite, execRegisterWrite, hdie, hup, hidx, hend, hsize, hb]

end

theorem registerWrite_mcDieColours (v : DWord) : exec (.registerWrite mcWriter (.mcDieColours die) v) s =
    .next (s.modDie die (fun d => { d with colourMask := v.toNat % 65536 })) := by
  simp [exec_registerWrite, execRegisterWrite, hdie]

theorem registerWrite_mcBoostLimit (v : DWord) : exec (.registerWrite mcWriter (.mcBoostLimit die) v) s =
    .next (s.modDie die (fun d => { d with boostLimit := v.toNat })) := by
  simp [exec_registerWrite, execRegisterWrite, hdie]

end

theorem registerWrite_mcWeight {s : State} {vf : Nat} {v : DWord} (hvf : vf < 1024) (hlo : 1 ≤ v.toNat) (hhi : v.toNat ≤ 15) :
    exec (.registerWrite mcWriter (.mcWeight vf) v) s = .next (s.modCtx vf (fun c => { c with weight := v.toNat })) := by
  simp [exec_registerWrite, execRegisterWrite, hvf, hlo, hhi]

/-! The doorbell (08 R190, R194). -/

theorem exec_doorbellLaunch (s : State) : exec .doorbellLaunch s = execDoorbellLaunch s := rfl
theorem exec_doorbellClose (s : State) : exec .doorbellClose s = execDoorbellClose s := rfl

/-- The fields of a doorbell's word: its command, the bits that are 0, and its argument (08 R190). -/
theorem doorbell_fields {cmd arg : Nat} (hcmd : cmd < 16) (harg : arg < 65536) :
    bits (2 ^ 28 * cmd + arg) 31 28 = cmd ∧ bits (2 ^ 28 * cmd + arg) 27 16 = 0 ∧ bits (2 ^ 28 * cmd + arg) 15 0 = arg := by
  simp only [bits]
  omega

/-- The LAUNCH command rings its slot, and the slots rung so far are served (08 R190). -/
theorem doorbellLaunch_rings {s : State} (hvf : s.occ.a < 1024) (hst : (s.ctx s.occ.a).state ≠ .torn) (hslot : s.occ.b < 8) :
    exec .doorbellLaunch s = .next ((s.setCtx s.occ.a { s.ctx s.occ.a with
      rung := (s.ctx s.occ.a).rung ++ [s.occ.b]
      slotBusy := (s.ctx s.occ.a).slotBusy ||| BitVec.ofNat 8 (2 ^ s.occ.b) }).serveRung s.occ.a ((s.ctx s.occ.a).rung.length + 1)) := by
  obtain ⟨hcmd, hzero, harg⟩ := doorbell_fields (cmd := 0) (arg := s.occ.b) (by omega) (by omega)
  rw [Nat.mul_zero, Nat.zero_add] at hcmd hzero harg
  have hno : ¬ 8 ≤ s.occ.b := by omega
  simp [exec_doorbellLaunch, execDoorbellLaunch, State.doorbell, hvf, hst, hcmd, hzero, harg, hno]

/-- The CLOSE command of the current phase closes it (08 R194). -/
theorem doorbellClose_closes {s : State} (hvf : s.occ.a < 1024) (hst : (s.ctx s.occ.a).state ≠ .torn)
    (hv : s.occ.b = 2 ^ 28 + (s.ctx s.occ.a).phase) (hphase : (s.ctx s.occ.a).phase < 65536) (hopen : (s.ctx s.occ.a).closed = false) :
    exec .doorbellClose s = .next (s.setCtx s.occ.a { s.ctx s.occ.a with closed := true }) := by
  obtain ⟨hcmd, hzero, harg⟩ := doorbell_fields (cmd := 1) (by omega) hphase
  rw [Nat.mul_one, ← hv] at hcmd hzero harg
  simp [exec_doorbellClose, execDoorbellClose, State.doorbell, hvf, hst, hcmd, hzero, harg, hopen]

/-! The side band's tables (08 R202; 07 R184; 22 R422). -/

theorem exec_partw (die e : Nat) (bytes : List Byte) (s : State) : exec (.partw die e bytes) s = execPartw die e bytes s := rfl
theorem exec_stealgrp (s : State) : exec .stealgrp s = execStealgrp s := rfl
theorem exec_owner (s : State) : exec .owner s = execOwner s := rfl

/-- PARTW of an entry whose fields keep their rules, in a table that keeps its own. -/
theorem partw_stores {s : State} {die e : Nat} {bytes : List Byte} {p : Part} {parts : SMap Part} (hdie : die < 4) (he : e < 16)
    (hlen : bytes.length = 16) (hp : (tget Part.init (s.die die).parts e).ofBytes bytes = p)
    (hparts : tset Part.init (s.die die).parts e p = parts) (hstate : p.state ≤ 2) (hrange : p.base ≤ p.limit) (hlimit : p.limit ≤ 63)
    (hvf : p.vf ≤ 1023) (hlend : p.lend ≤ 3) (hzero : (bytes.drop 11).all (· = 0) = true) (hbad : partsBad parts = false) :
    exec (.partw die e bytes) s = .next ((s.setDie die { s.die die with parts }).respond 0 []) := by
  rw [exec_partw]
  unfold execPartw
  simp only [hp, hparts]
  refine (if_neg ?_).trans (if_neg ?_)
  · simp [hdie, he, hlen]
  · simp only [hzero, hbad, Nat.not_lt.mpr, hstate, hrange, hlimit, hvf, hlend, decide_false, Bool.not_true, Bool.or_self, Bool.false_eq_true,
      not_false_iff]

theorem stealgrp_stores {s : State} (hdie : s.occ.a < 4) (he : s.occ.b < 16) (hgrp : s.occ.c < 256) :
    exec .stealgrp s = .next ((s.modPart s.occ.a s.occ.b (fun p => { p with sgroup := s.occ.c })).respond 0 []) := by
  simp [exec_stealgrp, execStealgrp, hdie, he, hgrp]

theorem owner_stores {s : State} (hvf : s.occ.a < 1024) (hlo : 384 ≤ s.occ.b) (hhi : s.occ.b < 512) :
    exec .owner s = .next ((s.modCtx s.occ.a (fun c => { c with owner := s.occ.b })).respond 0 []) := by
  simp [exec_owner, execOwner, hvf, hlo, hhi]

end Sys2Proof.Machine

namespace Sys2Proof
open Machine

/-- Settles O55: each writer's registers by the lemma of the register, the doorbell by the fields of its word, and the side band's tables. -/
theorem registerWrites : Obligations.RegisterWrites := by
  unfold Obligations.RegisterWrites
  refine ⟨fun s v => ⟨?_, ?_, ?_, ?_, ?_, ?_, ?_, ?_, ?_⟩, fun s => ⟨?_, stealgrp_stores, owner_stores⟩⟩
  · exact fun by_ vf off size => registerWrite_launchWin v
  · exact fun by_ win off => registerWrite_mgmt v
  · exact fun die e hdie hup he hv => registerWrite_fwStealScope hdie hup he hv
  · exact fun die idx off size hdie hup hidx hend hsize =>
      ⟨registerWrite_fwRecord_free hdie v hup hidx hend hsize, registerWrite_fwRecord_committed hdie v hup hidx hend hsize⟩
  · exact fun vf hvf hlo hhi => registerWrite_mcWeight hvf hlo hhi
  · exact fun die hdie => ⟨registerWrite_mcDieColours hdie v, registerWrite_mcBoostLimit hdie v⟩
  · exact fun hlo hhi hvf ho => ⟨rootWrite_idle hlo hhi hvf ho, toffsetWrite_owner hlo hhi hvf ho⟩
  · exact fun hvf hst hslot _ => doorbellLaunch_rings hvf hst hslot
  · exact doorbellClose_closes
  · exact fun die e bytes hdie he hlen => partw_stores hdie he hlen rfl rfl

end Sys2Proof
end

section
/-! PROOFS. Commit, placement, eviction and restore by bind records, scrubs and the heartbeat (O57). -/
namespace Sys2Proof.Machine

/-! Commit (08 R197, R199). -/

theorem exec_slotcommit (s : State) : exec .slotcommit s = execSlotcommit s := rfl

theorem slotcommit_enabled {s : State} (hdie : s.occ.a < 4) (hup : (s.die s.occ.a).schedDown = false) :
    exec .slotcommit s = .next (s.slotCommit s.occ.a s.occ.b) := by
  simp [exec_slotcommit, execSlotcommit, hdie, hup]

/-- A group that passes is committed for the launch that its records name. -/
theorem slotCommit_of_passes {s : State} {die i n : Nat} (h : s.bindPasses die i = some n) :
    s.slotCommit die i = s.modDie die (fun d => { d with
      binds := ((s.die die).bindGroup i).foldl (fun m p => tins m p.1 { launch := n, done := 0, unit := none, leader := i }) d.binds }) := by
  simp [State.slotCommit, h]

/-- A group that does not pass is counted, and nothing is committed (08 R199; log 46). -/
theorem slotCommit_of_rejected {s : State} {die i : Nat} (h : s.bindPasses die i = none) :
    ((s.slotCommit die i).die die).rejectCnt = (s.die die).rejectCnt + 1 ∧ ((s.slotCommit die i).die die).binds = (s.die die).binds ∧
      SameBytes s (s.slotCommit die i) ∧ (s.slotCommit die i).waves = s.waves ∧ (s.slotCommit die i).units = s.units := by
  simp [State.slotCommit, h, State.die_modDie, SameBytes]

/-! Groups of one record, and free placements (08 R198, R199). -/

/-- A record of one member is its own group. -/
theorem bindGroup_of_one {d : DieSt} {i : Nat} (h : (d.bindRec i).members = 1) : d.bindGroup i = [(i, d.bindRec i)] := by
  simp [DieSt.bindGroup, h]

/-- A placement that meets none of the spans that a core's units hold is free (08 R199). -/
theorem any_overlaps_eq_false {ys : List Span} {x : Span} (h : ∀ y ∈ ys, y.overlaps x = false) : ys.any (·.overlaps x) = false :=
  List.any_eq_false.mpr fun y hy => by simp [h y hy]

/-! The courses of committed records (08 R200; 06 R150; 09 R231). -/

theorem exec_bindRecordRun (s : State) : exec .bindRecordRun s = execBindRecordRun s := rfl
theorem exec_bindRecordEvict (s : State) : exec .bindRecordEvict s = execBindRecordEvict s := rfl
theorem exec_unitPlace (s : State) : exec .unitPlace s = execUnitPlace s := rfl
theorem exec_bindRecordResume (s : State) : exec .bindRecordResume s = execBindRecordResume s := rfl

section
variable {s : State} {b : Bind} {r : BindRec} (hb : tfind? (s.die s.occ.a).binds s.occ.b = some b) (hr : (s.die s.occ.a).bindRec s.occ.b = r)
include hb hr

/-- The records of a launch that is complete or cancelled are cleared. -/
theorem bindRecordRun_clears (hl : b.leader = s.occ.b) (hop : r.op ≠ 3)
    (hend : (s.launch b.launch).complete = true ∨ (s.launch b.launch).cancelled = true) :
    exec .bindRecordRun s = .next (s.clearGroup s.occ.a s.occ.b) := by
  rw [exec_bindRecordRun]
  unfold execBindRecordRun
  simp only [hb, hr]
  refine (if_neg ?_).trans (if_pos ?_)
  · simp [hl, hop]
  · simpa using hend

section
variable (hop : r.op = 3) (hu : b.unit = none)
include hop hu

/-- An OP 3 record whose unit has gone is cleared without effect (log 46). -/
theorem bindRecordEvict_gone (hn : s.namedUnit s.occ.a r = none) : exec .bindRecordEvict s = .next (s.clearBind s.occ.a s.occ.b) := by
  rw [exec_bindRecordEvict]
  unfold execBindRecordEvict
  simp [hb, hr, hop, hu, hn]

/-- An OP 3 record tells its unit to stop at blocking points, and waits for it. -/
theorem bindRecordEvict_stops {u : Nat} (hn : s.namedUnit s.occ.a r = some u) :
    exec .bindRecordEvict s = .next ((s.stopUnits [u] none false).modDie s.occ.a (fun d =>
      { d with binds := tins d.binds s.occ.b { b with unit := some u } })) := by
  rw [exec_bindRecordEvict]
  unfold execBindRecordEvict
  simp [hb, hr, hop, hu, hn]

end

end

/-! Placement. -/

/-- Units of a launch placed by some records of a die in turn, from a unit's number on: alone, or each at its place of a group. -/
def State.placeUnits (s : State) (die n first : Nat) (members : List (Nat × BindRec)) (group : Nat → Option (Nat × Nat)) (size : Nat) :
    List Nat × State :=
  ((List.range members.length).zip members).foldl (fun (acc : List Nat × State) p =>
    let q := acc.2.placeUnit die p.2.2 n (first + p.1) (group p.1) size
    (acc.1 ++ [q.1], q.2)) ([], s)

/-- A committed record after it has placed some units: it waits for the first of them, and a reclaim that has come and a store without room
take effect (08 R200, R203, R210). -/
def State.placedBy (die i : Nat) (b : Bind) (p : List Nat × State) : State :=
  ((p.2.modDie die (fun d => { d with binds := tins d.binds i { b with done := b.done + 1, unit := p.1.head? } })).stopPlaced p.1).checkStore b.launch

/-- Whether the placement of a record is open and free for a launch's units (08 R199, R200). -/
def State.PlaceFree (s : State) (die i : Nat) (b : Bind) (r : BindRec) : Prop :=
  s.placeOpen die i b r = true ∧
    ∀ y ∈ s.unitSpans (r.coreOn die), y.overlaps (r.span die (s.launch b.launch).waves (s.launch b.launch).foot) = false

/-- A leading OP 1 record, committed at an index, whose next placement is due: the launch goes on, and has the unit where it begins (08 R200). -/
structure Bind.PlacesNext (b : Bind) (i : Nat) (r : BindRec) (l : Launch) : Prop where
  leads : b.leader = i
  places : r.op = 1
  waitsForNone : b.unit = none
  more : b.done < r.count
  running : l.complete = false
  notCancelled : l.cancelled = false
  inLaunch : r.first + b.done * r.step < l.ux * l.uy * l.uz

section
variable {s : State} {b : Bind} {r : BindRec} {l : Launch} {k : Nat} (hb : tfind? (s.die s.occ.a).binds s.occ.b = some b)
  (hr : (s.die s.occ.a).bindRec s.occ.b = r) (hl : s.launch b.launch = l) (hnext : b.PlacesNext s.occ.b r l) (hk : r.first + b.done * r.step = k)
include hb hr hl hnext hk

/-- UNIT_PLACE at free placements: the launch's units alone, or all the group's at once under a fresh number (06 R150). -/
theorem unitPlace_places {members : List (Nat × BindRec)}
    (hm : ((s.die s.occ.a).bindGroup s.occ.b).take (l.ux * l.uy * l.uz - k) = members)
    (hfree : ∀ p ∈ members, s.PlaceFree s.occ.a s.occ.b b p.2) :
    exec .unitPlace s = .next (State.placedBy s.occ.a s.occ.b b (if l.group ≤ 1 then s.placeUnits s.occ.a b.launch k members (fun _ => none) 0
      else { s with nextId := s.nextId + 1 }.placeUnits s.occ.a b.launch k members (fun j => some (s.nextId, j)) members.length)) := by
  obtain ⟨hleads, hop, hunit, hmore, hrunning, hcancel, hin⟩ := hnext
  have hall : members.all (fun p => s.placeOpen s.occ.a s.occ.b b p.2 &&
      !(s.unitSpans (p.2.coreOn s.occ.a)).any (fun y => y.overlaps (p.2.span s.occ.a l.waves l.foot))) = true := by
    refine List.all_eq_true.mpr fun p hp => ?_
    obtain ⟨hopen, hspans⟩ := hfree p hp
    rw [hl] at hspans
    rw [hopen, any_overlaps_eq_false hspans]
    rfl
  rw [exec_unitPlace]
  unfold execUnitPlace
  rw [hk] at hin
  simp only [hb, hr, hl, hk, hm, hall]
  refine (if_pos ?_).trans ?_
  · simp [hleads, hop, hunit, hmore, hrunning, hcancel, hin]
  · by_cases hg : l.group ≤ 1
    · simp only [hg, if_true]
      rfl
    · simp only [hg, if_false]
      rfl

/-- A launch that is not in groups places one unit, at its one record's resources. -/
theorem unitPlace_alone (hg : l.group ≤ 1) (hone : r.members = 1) (hfree : s.PlaceFree s.occ.a s.occ.b b r) :
    exec .unitPlace s = .next (State.placedBy s.occ.a s.occ.b b
      ([(s.placeUnit s.occ.a r b.launch k none 0).1], (s.placeUnit s.occ.a r b.launch k none 0).2)) := by
  have hin := hk ▸ hnext.inLaunch
  have hm : ((s.die s.occ.a).bindGroup s.occ.b).take (l.ux * l.uy * l.uz - k) = [(s.occ.b, r)] := by
    rw [bindGroup_of_one (hr ▸ hone), hr]
    exact List.take_of_length_le (by simp only [List.length_singleton]; omega)
  rw [unitPlace_places hb hr hl hnext hk hm (by simpa using hfree), if_pos hg]
  rfl

end

/-! Restoring (08 R200, R209; 09 R231, R232). -/

/-- A saved unit restored by a record that names it, with its runs gone on with, and what meets it there (08 R200, R203, R210). -/
def State.resumedBy (s : State) (die i n : Nat) (r : BindRec) : State :=
  let t := s.restoreUnit r.save (r.span die (s.unit r.save).waves.length (s.unit r.save).foot)
  (((t.unit r.save).waves.foldl (fun s w => s.candResume w false) (t.clearGroup die i)).stopPlaced [r.save]).checkStore n

/-- A saved unit that has no group is restored at a free placement, where no poison lies in its launch's store. -/
theorem bindRecordResume_restores {s : State} {b : Bind} {r : BindRec} (hb : tfind? (s.die s.occ.a).binds s.occ.b = some b)
    (hr : (s.die s.occ.a).bindRec s.occ.b = r) (hl : b.leader = s.occ.b) (hop : r.op = 2) (hone : r.members = 1)
    (hsaved : (s.unit r.save).saved ≠ none) (hlaunch : (s.unit r.save).launch = b.launch) (hgroup : (s.unit r.save).group = none)
    (hopen : s.placeOpen s.occ.a s.occ.b b r = true)
    (hspans : ∀ y ∈ s.unitSpans (r.coreOn s.occ.a), y.overlaps (r.span s.occ.a (s.unit r.save).waves.length (s.unit r.save).foot) = false)
    (hnewel : (s.core (r.coreOn s.occ.a)).newel = none) (hclean : s.storePoison b.launch = false) :
    exec .bindRecordResume s = .next (s.resumedBy s.occ.a s.occ.b b.launch r) := by
  have hgrp : (s.die s.occ.a).bindGroup s.occ.b = [(s.occ.b, r)] := by rw [bindGroup_of_one (hr ▸ hone), hr]
  have hrestores : s.restores [(s.occ.b, r)] b.launch = true := by
    simp [State.restores, hgroup, hlaunch, Option.isSome_iff_ne_none.mpr hsaved]
  rw [exec_bindRecordResume]
  unfold execBindRecordResume
  simp only [hb, hr, hgrp]
  refine (if_pos ?_).trans ?_
  · simp [hl, hop, hrestores, hopen, any_overlaps_eq_false hspans, hnewel]
  · simp [hclean, State.pick, State.resumedBy]

/-! Eviction, scrubs and the heartbeat (08 R201, R209; 02 R73; 09 R232). -/

theorem exec_unitEvict (s : State) : exec .unitEvict s = execUnitEvict s := rfl
theorem exec_scrubComplete (s : State) : exec .scrubComplete s = execScrubComplete s := rfl
theorem exec_heartbeatTimeout (s : State) : exec .heartbeatTimeout s = execHeartbeatTimeout s := rfl

theorem unitEvict_evicts {s : State} (h : s.stopsNow s.occ.a = true) : exec .unitEvict s = .next (s.evictUnit s.occ.a) := by
  simp [exec_unitEvict, execUnitEvict, h]

section
variable {s : State} {vf : Nat} (h : (s.core s.occ.a).scrub = some vf)
include h

/-- A scrub that passes gives the core to its context, with none of its places used (02 R73). -/
theorem scrubComplete_passes (hok : s.occ.b = 1) :
    exec .scrubComplete s = .next (((s.scrubbed s.occ.a).setCore s.occ.a { s.core s.occ.a with
      scrub := none, ctx := some vf, away := false, icache := [], used := some [] }).resetDone (clusterOf s.occ.a)) := by
  simp [exec_scrubComplete, execScrubComplete, h, hok]

/-- One that fails tears the context down (09 R232; log 25). -/
theorem scrubComplete_fails (hbad : s.occ.b ≠ 1) :
    exec .scrubComplete s = .next ((s.setCore s.occ.a { s.core s.occ.a with scrub := none }).teardown vf 4) := by
  simp [exec_scrubComplete, execScrubComplete, h, hbad]

end

theorem heartbeatTimeout_resets {s : State} (hdie : s.occ.a < 4) (hup : (s.die s.occ.a).schedDown = false)
    (hlate : (s.die s.occ.a).heartAt + 100000 ≤ s.pkg.ticks) :
    exec .heartbeatTimeout s = .next (s.setDie s.occ.a { s.die s.occ.a with
      schedRst := (s.die s.occ.a).schedRst + 1, schedDown := true, heartAt := s.pkg.ticks }) := by
  simp [exec_heartbeatTimeout, execHeartbeatTimeout, hdie, hup, hlate]

end Sys2Proof.Machine
end

section
/-! PROOFS. Lending and reclaiming a cluster, tenant slices, and the statement of the dispatch hardware (O57). -/
namespace Sys2Proof.Machine

/-! Lending (08 R203; 02 R73). -/

theorem exec_lendCluster (s : State) : exec .lendCluster s = execLendCluster s := rfl
theorem exec_reclaimCluster (s : State) : exec .reclaimCluster s = execReclaimCluster s := rfl
theorem exec_reclaimDeadline (s : State) : exec .reclaimDeadline s = execReclaimDeadline s := rfl

/-- An idle cluster of a partition that lends goes to an active one that borrows. -/
theorem lendCluster_lends {s : State} {k e o : Nat} (hk : s.occ.a = k) (he : s.occ.b = e) (ho : s.ownPart k = some o)
    (hup : (s.die (k / 64)).schedDown = false) (hne : o ≠ e) (hact : (s.part (k / 64) e).state = 1) (hlends : (s.part (k / 64) o).lend % 2 = 1)
    (hborrows : (s.part (k / 64) e).lend / 2 % 2 = 1) (hlent : (s.cluster k).lentTo = none) (hidle : ∀ c ∈ coresOf k, s.coreIdle c = true) :
    exec .lendCluster s = .next ((coresOf k).foldl (fun t c => t.claimCore c (s.part (k / 64) e).vf)
      (((coresOf k).foldl (fun t c => t.departCore c) s).modCluster k (fun c => { c with lentTo := some e }))) := by
  have hall : (coresOf k).all s.coreIdle = true := List.all_eq_true.mpr hidle
  rw [exec_lendCluster]
  unfold execLendCluster
  simp only [hk, he, ho]
  exact if_pos (by simp [hup, hne, hact, hlends, hborrows, hlent, hall])

/-- A lent cluster's frames go back, and its units stop at blocking points or 50 us from now. -/
theorem reclaimCluster_stops {s : State} (hlent : (s.cluster s.occ.a).lentTo ≠ none) (hno : (s.cluster s.occ.a).reclaiming = none) :
    let k := s.occ.a
    let t := (coresOf k).foldl (fun t c => t.unstart c) (s.setCluster k { s.cluster k with reclaiming := some (s.pkg.ticks + 5000) })
    exec .reclaimCluster s = .next ((t.stopUnits (t.clusterUnits k) (some (s.pkg.ticks + 5000)) false).returnCluster k) :=
  (exec_reclaimCluster s).trans (if_pos (by simp [Option.isSome_iff_ne_none.mpr hlent, hno]))

/-- Those of some units that may be saved now, evicted in turn. -/
def State.evictAll (s : State) (us : List Nat) : State := us.foldl (fun s u => if s.stopsNow u then s.evictUnit u else s) s

/-- At the deadline the units that stop there and can be saved are. -/
theorem reclaimDeadline_evicts {s : State} {t : Nat} (ht : (s.cluster s.occ.a).reclaiming = some t) (hdue : t ≤ s.pkg.ticks)
    (hany : ((s.clusterUnits s.occ.a).filter (fun u => (s.unit u).stopping)).any s.stopsNow = true) :
    exec .reclaimDeadline s = .next (s.evictAll ((s.clusterUnits s.occ.a).filter (fun u => (s.unit u).stopping))) :=
  (exec_reclaimDeadline s).trans (if_pos (by rw [hany, ht]; simpa using hdue))

/-! Tenant slices (08 R211; 20 R406). -/

theorem exec_tenantSliceEnd (s : State) : exec .tenantSliceEnd s = execTenantSliceEnd s := rfl
theorem exec_sliceLimitExpiry (s : State) : exec .sliceLimitExpiry s = execSliceLimitExpiry s := rfl
theorem exec_tenantSliceBegin (s : State) : exec .tenantSliceBegin s = execTenantSliceBegin s := rfl

theorem tenantSliceEnd_ends {s : State} (hact : (s.part s.occ.a s.occ.b).state = 1) (hno : (s.part s.occ.a s.occ.b).sliceEnd = none) :
    exec .tenantSliceEnd s = .next (s.endSlice s.occ.a s.occ.b) := by
  simp [exec_tenantSliceEnd, execTenantSliceEnd, hact, hno]

/-- At the limit of a slice's end the units that it stops and can be saved are. -/
theorem sliceLimitExpiry_evicts {s : State} {t : Nat} (ht : (s.part s.occ.a s.occ.b).sliceEnd = some t) (hdue : t + 20000 ≤ s.pkg.ticks)
    (hany : ((s.partUnits s.occ.a s.occ.b).filter (fun u => (s.unit u).sliced)).any s.stopsNow = true) :
    exec .sliceLimitExpiry s = .next (s.evictAll ((s.partUnits s.occ.a s.occ.b).filter (fun u => (s.unit u).sliced))) :=
  (exec_sliceLimitExpiry s).trans (if_pos (by rw [hany, ht]; simpa using hdue))

theorem tenantSliceBegin_begins {s : State} (hend : (s.part s.occ.a s.occ.b).sliceEnd ≠ none) (hunits : s.partUnits s.occ.a s.occ.b = [])
    (hleft : s.partLeft s.occ.a s.occ.b = true) (hact : (s.ctx (s.part s.occ.a s.occ.b).vf).state = .active) :
    exec .tenantSliceBegin s = .next (s.beginSlice s.occ.a s.occ.b) := by
  simp [exec_tenantSliceBegin, execTenantSliceBegin, Option.isSome_iff_ne_none.mpr hend, hunits, hleft, hact]

end Sys2Proof.Machine

namespace Sys2Proof
open Machine

/-- Settles O57: each event by its lemma; a placement of a launch without groups is one record's, of one in groups all its members'. -/
theorem bindRecords : Obligations.BindRecords := by
  unfold Obligations.BindRecords
  refine ⟨fun s => ⟨?_, ?_, ?_, unitEvict_evicts, fun vf h => ⟨scrubComplete_passes h, scrubComplete_fails h⟩, heartbeatTimeout_resets⟩,
    fun s => ⟨?_, reclaimCluster_stops, fun t => reclaimDeadline_evicts, ?_⟩⟩
  · exact fun n hdie hup h => (slotcommit_enabled hdie hup).trans (congrArg _ (slotCommit_of_passes h))
  · exact fun hdie hup h => ⟨_, slotcommit_enabled hdie hup, slotCommit_of_rejected h⟩
  · intro b hb
    refine ⟨bindRecordRun_clears hb rfl, bindRecordEvict_gone hb rfl, fun u hop hu => bindRecordEvict_stops hb rfl hop hu, ?_, ?_, ?_⟩
    · intro l k hl hop hu hmore hrunning hcancel hin hg hone hopen hspans
      exact unitPlace_alone hb rfl rfl ⟨hl, hop, hu, hmore, hrunning, hcancel, hin⟩ rfl hg hone ⟨hopen, hspans⟩
    · intro l k total members hl hop hu hmore hrunning hcancel hin hg hfree
      refine (unitPlace_places hb rfl rfl ⟨hl, hop, hu, hmore, hrunning, hcancel, hin⟩ rfl rfl hfree).trans ?_
      rw [if_neg (Nat.not_le.mpr hg)]
      rfl
    · exact bindRecordResume_restores hb rfl
  · exact fun o => lendCluster_lends rfl rfl
  · exact ⟨tenantSliceEnd_ends, fun t => sliceLimitExpiry_evicts, tenantSliceBegin_begins⟩

end Sys2Proof
end

section
/-! PROOFS. Taking a fault: what a wave that stops gives up, and what it keeps (O38). -/
namespace Sys2Proof.Machine

/-- What a wave keeps where it stands: its core, its live lanes with their PCs and clauses, and its registers. -/
structure SameStand (v u : Wave) : Prop where
  core : u.core = v.core
  resident : u.resident = v.resident
  live : u.live = v.live
  regs : SameRegs v u (.m 0) 0
  lanes : ∀ l, (u.lane l).pc = (v.lane l).pc ∧ (u.lane l).clause = (v.lane l).clause

theorem SameStand.refl (v : Wave) : SameStand v v := ⟨rfl, rfl, rfl, SameRegs.refl v _ _, fun _ => ⟨rfl, rfl⟩⟩

theorem SameStand.trans {v u x : Wave} (h : SameStand v u) (k : SameStand u x) : SameStand v x where
  core := k.core.trans h.core
  resident := k.resident.trans h.resident
  live := k.live.trans h.live
  regs := h.regs.trans k.regs
  lanes l := ⟨(k.lanes l).1.trans (h.lanes l).1, (k.lanes l).2.trans (h.lanes l).2⟩

/-- A change of lanes that leaves their PCs and clauses leaves a wave where it stands. -/
theorem sameStand_modLanes (v : Wave) (g : Mask) {f : Lane → Lane} (hf : ∀ y, (f y).pc = y.pc ∧ (f y).clause = y.clause) :
    SameStand v (v.modLanes g f) where
  core := by simp
  resident := by simp
  live := by simp
  regs := sameRegs_modLanes _ _ _ _ _
  lanes l := by
    rw [Wave.lane_modLanes]
    split
    · exact hf _
    · exact ⟨rfl, rfl⟩

/-- A wave gives up what it holds of the machine, and stands where it stood: memory, units, launches, the other waves and the queues for the
Newel slots are as they were. -/
structure GivesUp (s t : State) (w : Nat) : Prop where
  mem : t.mem = s.mem
  units : t.units = s.units
  launches : t.launches = s.launches
  waves : ∀ k, k ≠ w → t.wave k = s.wave k
  queue : ∀ k, (t.core k).newelQueue = (s.core k).newelQueue
  stand : SameStand (s.wave w) (t.wave w)

theorem GivesUp.refl (s : State) (w : Nat) : GivesUp s s w := ⟨rfl, rfl, rfl, fun _ _ => rfl, fun _ => rfl, SameStand.refl _⟩

theorem GivesUp.trans {s t r : State} {w : Nat} (h : GivesUp s t w) (k : GivesUp t r w) : GivesUp s r w where
  mem := k.mem.trans h.mem
  units := k.units.trans h.units
  launches := k.launches.trans h.launches
  waves j hj := (k.waves j hj).trans (h.waves j hj)
  queue j := (k.queue j).trans (h.queue j)
  stand := h.stand.trans k.stand

theorem givesUp_setWave {s : State} {w : Nat} {x : Wave} (h : SameStand (s.wave w) x) : GivesUp s (s.setWave w x) w where
  mem := rfl
  units := rfl
  launches := rfl
  waves _ hk := State.wave_setWave_ne s _ _ _ hk
  queue _ := rfl
  stand := by rwa [State.wave_setWave]

theorem givesUp_modCluster (s : State) (k w : Nat) (f : ClusterSt → ClusterSt) : GivesUp s (s.modCluster k f) w :=
  ⟨rfl, rfl, rfl, fun _ _ => rfl, fun _ => rfl, SameStand.refl _⟩

theorem givesUp_modCtx (s : State) (vf w : Nat) (f : Ctx → Ctx) : GivesUp s (s.modCtx vf f) w :=
  ⟨rfl, rfl, rfl, fun _ _ => rfl, fun _ => rfl, SameStand.refl _⟩

theorem givesUp_beginChild (s : State) (w : Nat) : GivesUp s (s.beginChild w) w := by
  have h := onlyWave_beginChild s w w
  refine ⟨h.mem, h.units, h.launches, h.waves, fun k => ?_, ?_⟩
  · rw [h.cores k]
  · rw [beginChild_wave]
    exact SameStand.refl _

theorem givesUp_dropReservation (s : State) (w : Nat) : GivesUp s (s.dropReservation w) w := by
  unfold State.dropReservation State.dropHeavy
  dsimp only
  split
  · exact GivesUp.refl s w
  · refine (givesUp_modCluster s _ w _).trans (givesUp_setWave (sameStand_modLanes _ _ fun y => ?_))
    split <;> exact ⟨rfl, rfl⟩

theorem givesUp_dropPark (s : State) (w : Nat) : GivesUp s (s.dropPark w) w := by
  unfold State.dropPark
  refine GivesUp.trans ?_ (givesUp_modCtx _ _ w _)
  exact givesUp_setWave ⟨rfl, rfl, rfl, by constructor <;> intros <;> rfl, fun _ => ⟨rfl, rfl⟩⟩

theorem dropPark_park (s : State) (w : Nat) : ((s.dropPark w).wave w).park = none := by
  unfold State.dropPark
  rw [State.modCtx_wave, State.wave_setWave]

/-- A wave before it is trapped: its child has begun, and its reservations and its park are dropped. -/
def State.releasedFor (s : State) (w : Nat) : State := ((s.beginChild w).dropReservation w).dropPark w

theorem givesUp_releasedFor (s : State) (w : Nat) : GivesUp s (s.releasedFor w) w :=
  ((givesUp_beginChild s w).trans (givesUp_dropReservation _ w)).trans (givesUp_dropPark _ w)

/-- A trapped wave with its record; the words at which its lanes stand issue anew. -/
def Wave.trappedBy (v : Wave) (t : TrapRec) : Wave :=
  { v with trapState := .trapped, trap := some t, debug := false, stepping := none }.modLanes v.live (fun l => { l with again := false })

theorem sameStand_trappedBy (v : Wave) (t : TrapRec) : SameStand v (v.trappedBy t) :=
  SameStand.trans (u := { v with trapState := .trapped, trap := some t, debug := false, stepping := none })
    ⟨rfl, rfl, rfl, by constructor <;> intros <;> rfl, fun _ => ⟨rfl, rfl⟩⟩ (sameStand_modLanes _ _ fun _ => ⟨rfl, rfl⟩)

/-- Stopping a wave: what it held is given up, it is trapped, and it is the last of its core's queue, if it is resident. -/
theorem stopWave_eq (s : State) (w : Nat) (t : TrapRec) : s.stopWave w t =
    let r := s.releasedFor w
    let v := r.wave w
    let q := r.setWave w (v.trappedBy t)
    if v.resident then q.modCore v.core (fun c => { c with newelQueue := c.newelQueue ++ [w] }) else q := rfl

/-- After what it gives up, a wave that stops is trapped and joins its core's queue behind the others; nothing else changes. -/
theorem stopWave_spec (s : State) (w : Nat) (t : TrapRec) :
    let q := (s.releasedFor w).setWave w (((s.releasedFor w).wave w).trappedBy t)
    (∀ k, (s.stopWave w t).wave k = q.wave k) ∧ (s.stopWave w t).mem = q.mem ∧ (s.stopWave w t).units = q.units ∧
      (s.stopWave w t).launches = q.launches ∧
      ((s.stopWave w t).core (s.wave w).core).newelQueue = (s.core (s.wave w).core).newelQueue ++ (if (s.wave w).resident then [w] else []) := by
  intro q
  have hg := givesUp_releasedFor s w
  have hq : ∀ k, (q.core k).newelQueue = (s.core k).newelQueue := hg.queue
  rw [stopWave_eq]
  simp only [hg.stand.core, hg.stand.resident]
  cases (s.wave w).resident
  · refine ⟨fun _ => rfl, rfl, rfl, rfl, ?_⟩
    rw [if_neg Bool.false_ne_true, if_neg Bool.false_ne_true, List.append_nil]
    exact hq _
  · refine ⟨fun _ => rfl, rfl, rfl, rfl, ?_⟩
    rw [if_pos rfl, if_pos rfl, State.core_modCore]
    exact congrArg (· ++ [w]) (hq _)

theorem takeFault_of_no_handler {s : State} {w : Nat} (h : (s.wave w).handles = none) (t : TrapRec) : s.takeFault w t = s.stopWave w t := by
  simp [State.takeFault, h]

end Sys2Proof.Machine

namespace Sys2Proof
open Machine

/-- Settles O38: the wave stands where it stood through what it gives up and through its trap, and then queues. -/
theorem takingAFault : Obligations.TakingAFault := by
  intro s w t hh r v u
  have hr : r = s.stopWave w t := takeFault_of_no_handler hh t
  have hg := givesUp_releasedFor s w
  obtain ⟨hwaves, hmem, hunits, hlaunches, hqueue⟩ := stopWave_spec s w t
  have hu : u = ((s.releasedFor w).wave w).trappedBy t := by
    rw [show u = r.wave w from rfl, hr, hwaves, State.wave_setWave]
  have hs : SameStand v u := by
    rw [hu]
    exact hg.stand.trans (sameStand_trappedBy _ _)
  refine ⟨?_, ?_, ?_, hs.live, hs.regs, fun a => ?_, fun l _ => hs.lanes l, ?_, fun k hk => ?_, ?_, ?_⟩
  · simp [hu, Wave.trappedBy]
  · simp [hu, Wave.trappedBy]
  · rw [hu, Wave.trappedBy, Wave.modLanes_park]
    exact dropPark_park _ w
  · rw [hr, hmem, State.setWave_mem, hg.mem]
  · rw [hr, hqueue]
  · rw [hr, hwaves, State.wave_setWave_ne _ _ _ _ hk, hg.waves k hk]
  · rw [hr, hunits, State.setWave_units, hg.units]
  · rw [hr, hlaunches, State.setWave_launches, hg.launches]

end Sys2Proof
end

section
/-! PROOFS. The handler window, and the words that a handler may not or alone may issue (O40). -/
namespace Sys2Proof.Machine

/-! Words that fault ILLOP for who issues them (09 R220; 15 R396). -/

section
variable {s : State} {c : Cursor} {i : Instr} {h : Head} {body : Iss → State → Res} (hcur : s.cur = some c)
include hcur

/-- A word refused by the checks that precede its own traps at its group's lowest lane, where its wave still runs. -/
theorem traps_of_issueFault {code : Nat} (hrun : (s.wave c.wave).stoppable = true) (hf : s.issueFault (s.issOf c h.pn h.pm) i h = some code)
    (he : exec i s = s.perform i h body) : Traps s c i h code (lowestLane c.group) 0xF 0 := by
  unfold Traps
  rw [he]
  simp only [State.perform, hcur, hf, Iss.fail, State.settle]
  exact congrArg _ (if_pos hrun)

variable (hrun : (s.wave c.wave).stoppable = true) (hsteps : (s.wave c.wave).stepsOf c.group = none)
include hrun hsteps

theorem handlerOnly_traps (hno : (s.wave c.wave).handles = none) (he : exec i s = s.perform i h.handlerOnly body) :
    Traps s c i h Code.illop (lowestLane c.group) 0xF 0 :=
  traps_of_issueFault (h := h.handlerOnly) hcur hrun (by simp [State.issueFault, State.issOf, Head.handlerOnly, hsteps, hno]) he

theorem notHandler_traps (hhandles : (s.wave c.wave).handles ≠ none) (he : exec i s = s.perform i h.notHandler body) :
    Traps s c i h Code.illop (lowestLane c.group) 0xF 0 :=
  traps_of_issueFault (h := h.notHandler) hcur hrun
    (by simp [State.issueFault, State.issOf, Head.notHandler, hsteps, Option.isSome_iff_ne_none.mpr hhandles]) he

end

theorem exec_winrd (w : Full) (s : State) : exec (.winrd w) s = execWinrd w s := rfl
theorem exec_winwr (w : Full) (s : State) : exec (.winwr w) s = execWinwr w s := rfl
theorem exec_tresume (w : Full) (s : State) : exec (.tresume w) s = execTresume w s := rfl
theorem exec_tkill (w : Full) (s : State) : exec (.tkill w) s = execTkill w s := rfl
theorem exec_tescal (w : Full) (s : State) : exec (.tescal w) s = execTescal w s := rfl
theorem exec_tcfg (w : Full) (s : State) : exec (.tcfg w) s = execTcfg w s := rfl
theorem exec_trel (w : Full) (s : State) : exec (.trel w) s = execTrel w s := rfl
theorem exec_tzero (w : Full) (s : State) : exec (.tzero w) s = execTzero w s := rfl
theorem exec_mown (w : Full) (s : State) : exec (.mown w) s = execMown w s := rfl
theorem exec_mpass (w : Full) (s : State) : exec (.mpass w) s = execMpass w s := rfl
theorem exec_mma (w : Full) (s : State) : exec (.mma w) s = execMma w s := rfl
theorem exec_mmaCks (w : Full) (s : State) : exec (.mmaCks w) s = execMmaCks w s := rfl
theorem exec_mstep (w : Full) (s : State) : exec (.mstep w) s = execMstep w s := rfl
theorem exec_cgo (w : Full) (s : State) : exec (.cgo w) s = execCgo w s := rfl
theorem exec_ggo (w : Full) (s : State) : exec (.ggo w) s = execGgo w s := rfl
theorem exec_xgo (w : Full) (s : State) : exec (.xgo w) s = execXgo w s := rfl
theorem exec_commit (w : Full) (s : State) : exec (.commit w) s = execCommit w s := rfl

/-! The window's words (09 R221, R222). -/

section
variable {s : State} {x : Iss} {idx : Opnd} {k : Nat} {e : WinEntry} (hk : x.wave.handles = some k)
  (he : winEntry (s.footOf k) (s.srcU x idx 32 x.lane0 % 65536) = some e)
include hk he

/-- A window word of a handler names an entry of the wave that it handles. -/
theorem winNamed_of_entry (f : Nat → WinEntry → Res) : s.winNamed x idx f = f k e := by
  simp only [State.winNamed, hk, he]

end

section
variable {s : State} {c : Cursor} {w : Full} {k : Nat} {e : WinEntry} (hk : (s.wave c.wave).handles = some k)
  (he : winEntry (s.footOf k) (s.srcU (s.issOf c w.pn w.pm) w.a 32 (lowestLane c.group) % 65536) = some e)
include hk he

theorem winrd_writes (hi : Issues s c (.winrd w) (headF w [(w.d, 1), (w.a, 1)] false).handlerOnly)
    (hvary : e.varying = true → isVarying w.d = true) (huni : perWave w.d = true → (s.issOf c w.pn w.pm).diverges = false) :
    Writes s c (.winrd w) (headF w [(w.d, 1), (w.a, 1)] false).handlerOnly w.d false tagN32 (fun l => (s.winRead k e l).toNat) := by
  refine writes_of (completes hi (exec_winrd w s) ((winNamed_of_entry hk he _).trans ?_))
  refine (if_neg ?_).trans (if_neg ?_)
  · simpa using hvary
  · simpa [headF, Head.handlerOnly] using huni

theorem winwr_completes {t : State} (hi : Issues s c (.winwr w) (headF w [(w.a, 1), (w.b, 1)] false).handlerOnly)
    (hwritable : e.readOnly = false) (hvary : isVarying w.b = true → e.varying = true)
    (huni : e.varying = false → (s.issOf c w.pn w.pm).diverges = false) (hne : (s.issOf c w.pn w.pm).e ≠ 0)
    (hw : s.winWrite k e (s.issOf c w.pn w.pm).e (fun l => BitVec.ofNat 32 (s.srcU (s.issOf c w.pn w.pm) w.b 32 l)) = .ok t) :
    Completes s c (.winwr w) (headF w [(w.a, 1), (w.b, 1)] false).handlerOnly t := by
  refine completes hi (exec_winwr w s) ((winNamed_of_entry hk he _).trans ?_)
  refine (if_neg ?_).trans ((if_neg ?_).trans ((if_neg hne).trans ?_))
  · cases hb : isVarying w.b
    · simp [hwritable]
    · simp [hwritable, hvary hb]
  · cases hv : e.varying
    · simp [headF, Head.handlerOnly, huni hv]
    · simp
  · simp only [headF, Head.handlerOnly, hw]

end

end Sys2Proof.Machine

namespace Sys2Proof
open Machine

/-- Settles O40: the window's words by their lemmas, and the refused words by the check of who issues them, which precedes their own. -/
theorem handlerWindow : Obligations.HandlerWindow := by
  refine ⟨fun s c w k e hk => ⟨?_, ?_⟩, fun s c w hcur hrun hsteps => ⟨fun hno => ?_, fun hhandles => ?_⟩⟩
  · exact fun hi he => winrd_writes hk he hi
  · exact fun t hi he => winwr_completes hk he hi
  · have ill := fun {i : Instr} {h : Head} {body} => handlerOnly_traps (i := i) (h := h) (body := body) hcur hrun hsteps hno
    exact ⟨ill (exec_winrd w s), ill (exec_winwr w s), ill (exec_tresume w s), ill (exec_tkill w s), ill (exec_tescal w s)⟩
  · have ill := fun {i : Instr} {h : Head} {body} => notHandler_traps (i := i) (h := h) (body := body) hcur hrun hsteps hhandles
    exact ⟨ill (exec_tcfg w s), ill (exec_trel w s), ill (exec_tzero w s), ill (exec_mown w s), ill (exec_mpass w s), ill (exec_mma w s),
      ill (exec_mmaCks w s), ill (exec_mstep w s), ill (exec_cgo w s), ill (exec_ggo w s), ill (exec_xgo w s), ill (exec_commit w s)⟩

end Sys2Proof
end

section
/-! PROOFS. How a handler starts in a Newel slot, and the words that end it (O39). -/
namespace Sys2Proof.Machine

/-! The handler's registers (09 R220). -/

/-- Uniform registers written in turn. -/
def Wave.wsAll (v : Wave) (ps : List (Nat × Word)) : Wave := ps.foldl (fun y p => y.ws p.1 p.2) v

theorem regsOnly_wsAll (v : Wave) (ps : List (Nat × Word)) : RegsOnly v (v.wsAll ps) :=
  foldl_rel RegsOnly RegsOnly.refl (fun h k => h.trans k) _ ps (fun v p _ => regsOnly_ws v p.1 p.2) v

theorem lane_wsAll (v : Wave) (ps : List (Nat × Word)) (l : Nat) : (v.wsAll ps).lane l = v.lane l := by
  obtain ⟨_, _, _, _, _, _, h⟩ := regsOnly_wsAll v ps
  rw [h]
  rfl

theorem live_wsAll (v : Wave) (ps : List (Nat × Word)) : (v.wsAll ps).live = v.live := by
  obtain ⟨_, _, _, _, _, _, h⟩ := regsOnly_wsAll v ps
  rw [h]

theorem rs_wsAll_of_notMem {ps : List (Nat × Word)} {n : Nat} (h : n ∉ ps.map (·.1)) (v : Wave) : (v.wsAll ps).rs n = v.rs n := by
  induction ps generalizing v with
  | nil => rfl
  | cons p ps ih =>
    obtain ⟨hp, hps⟩ := not_or.mp (mt List.mem_cons.mpr h)
    exact (ih hps _).trans (Wave.rs_ws_ne v p.2 hp)

/-- Each register written once holds its word. -/
theorem rs_wsAll {ps : List (Nat × Word)} {n : Nat} {x : Word} (hd : (ps.map (·.1)).Nodup) (h : (n, x) ∈ ps) (v : Wave) :
    (v.wsAll ps).rs n = x := by
  induction ps generalizing v with
  | nil => exact absurd h List.not_mem_nil
  | cons p ps ih =>
    obtain ⟨hp, hd⟩ := List.nodup_cons.mp hd
    rcases List.mem_cons.mp h with rfl | h
    · exact (rs_wsAll_of_notMem hp _).trans (Wave.rs_ws_same v n x)
    · exact ih hd h _

theorem length_trapWords (r : TrapRec) (w : Nat) : (trapWords r w).length = 10 := rfl

/-- The words of a trap record in the registers from s0 on. -/
theorem rs_wsAll_trapWords (v : Wave) (r : TrapRec) (w : Nat) {k : Nat} (hk : k < 10) :
    some ((v.wsAll ((List.range 10).zip (trapWords r w))).rs k) = (trapWords r w)[k]? := by
  have hkeys : (((List.range 10).zip (trapWords r w)).map (·.1)).Nodup := by
    rw [List.map_fst_zip (by simp [length_trapWords])]
    exact List.nodup_range
  have hword : (trapWords r w)[k]? = some (trapWords r w)[k] := List.getElem?_eq_getElem _
  rw [hword]
  exact congrArg some (rs_wsAll hkeys (List.mem_of_getElem? (List.getElem?_zip_eq_some.mpr ⟨List.getElem?_range hk, hword⟩)) v)

/-! The start of a handler (09 R219, R220). -/

/-- A wave at a launch's trap vector in the Newel slot of a trapped wave's core, before it holds the wave's record. -/
def State.vectorWave (s : State) (core w : Nat) : Wave :=
  startWave (s.wave w).unit (s.wave w).idx core (s.wave w).slot (s.launchOf w).trapBase (s.padMask (s.wave w).unit) (s.launchOf w).start false

/-- The handler of a trapped wave at its start: the record's words stand in s0 to s9. -/
def State.handlerWave (s : State) (core w : Nat) : Wave :=
  { (s.vectorWave core w).wsAll ((List.range 10).zip (((s.wave w).trap.map (fun t => trapWords t w)).getD [])) with
    handles := some w, sb := (s.wave w).sb }

/-- The state in which a trapped wave's handler has started. -/
def State.handlerStarted (s : State) (core w : Nat) : State :=
  let q := (({ s with nextId := s.nextId + 1 }.bodyPcs w).setWave s.nextId (s.handlerWave core w)).modWave w
    (fun v => { v with trapState := .handled, handler := some s.nextId })
  q.modCore core (fun c => { c with newel := some s.nextId, newelQueue := c.newelQueue.filter (· != w) })

theorem exec_handlerStart (s : State) : exec .handlerStart s = execHandlerStart s := rfl

theorem handlerStart_starts {s : State} {w : Nat} (hfree : (s.core s.occ.a).newel = none) (hnext : s.nextTrapped s.occ.a = some w)
    (hcancel : s.readCancel w = 0) (hsteps : (s.wave w).steps = []) (hruns : s.clusterRuns (clusterOf s.occ.a) = true) :
    exec .handlerStart s = .next (s.handlerStarted s.occ.a w) := by
  rw [exec_handlerStart]
  unfold execHandlerStart
  simp only [hfree, hnext]
  refine (if_neg ?_).trans rfl
  simp [hcancel, hsteps, hruns]

theorem handlerWave_lane (s : State) (core w : Nat) {l : Nat} (hl : l < 32) :
    ((s.handlerWave core w).lane l).pc = (s.launchOf w).trapBase := by
  have h : (s.handlerWave core w).lane l = (s.vectorWave core w).lane l := lane_wsAll (s.vectorWave core w) _ l
  rw [h, State.vectorWave, lane_startWave _ _ _ _ _ _ _ _ hl]

theorem handlerWave_live (s : State) (core w : Nat) : (s.handlerWave core w).live = 0xFFFFFFFF := live_wsAll (s.vectorWave core w) _

theorem handlerWave_rs {s : State} {core w : Nat} {r : TrapRec} (hr : (s.wave w).trap = some r) {k : Nat} (hk : k < 10) :
    some ((s.handlerWave core w).rs k) = (trapWords r w)[k]? := by
  have h : (s.handlerWave core w).rs k =
      ((s.vectorWave core w).wsAll ((List.range 10).zip (((s.wave w).trap.map (fun t => trapWords t w)).getD []))).rs k := rfl
  rw [h, hr]
  exact rs_wsAll_trapWords (s.vectorWave core w) r w hk

section
variable {s : State} {core w : Nat}

theorem core_handlerStarted : ((s.handlerStarted core w).core core).newel = some s.nextId := by
  unfold State.handlerStarted
  dsimp only
  rw [State.core_modCore]

theorem wave_handlerStarted_handled :
    ((s.handlerStarted core w).wave w).trapState = .handled ∧ ((s.handlerStarted core w).wave w).handler = some s.nextId := by
  unfold State.handlerStarted
  dsimp only
  rw [State.modCore_wave, State.wave_modWave]
  exact ⟨rfl, rfl⟩

/-- The wave that is handled is another than its handler. -/
theorem wave_handlerStarted_handler (h : w < s.nextId) : (s.handlerStarted core w).wave s.nextId = s.handlerWave core w := by
  unfold State.handlerStarted
  dsimp only
  rw [State.modCore_wave, State.wave_modWave_ne _ _ _ _ (Nat.ne_of_gt h), State.wave_setWave]

end

/-! The ends of a handler (09 R223). -/

section
variable {s : State} {c : Cursor} {w : Full} {k : Nat} (hk : (s.wave c.wave).handles = some k)

theorem tkill_places (hi : Issues s c (.tkill w) (headF w [] true).handlerOnly) :
    Places s c (.tkill w) (headF w [] true).handlerOnly (s.endHandler c.wave .kill) :=
  places hi (exec_tkill w s) rfl

include hk

theorem tresume_places (hi : Issues s c (.tresume w) (headF w [] true).handlerOnly) :
    Places s c (.tresume w) (headF w [] true).handlerOnly ((s.endHandler c.wave .resume).modWave k Wave.replaced) := by
  refine places hi (exec_tresume w s) ?_
  simp only [State.issOf, hk]

theorem tescal_places (hi : Issues s c (.tescal w) (headF w [] true).handlerOnly) :
    Places s c (.tescal w) (headF w [] true).handlerOnly (s.endHandler c.wave (.escal (((s.wave k).trap.map (·.code)).getD 0))) := by
  refine places hi (exec_tescal w s) ?_
  simp only [State.issOf, hk, Option.bind_some]

end

end Sys2Proof.Machine

namespace Sys2Proof
open Machine

/-- Settles O39: the started handler field by field, and the words that end one by their lemmas. -/
theorem handlers : Obligations.Handlers := by
  refine fun s => ⟨fun w hfree hnext hcancel hsteps hruns hw => ?_, fun c w k hk => ⟨tresume_places hk, tkill_places, tescal_places hk⟩⟩
  have hhandler := wave_handlerStarted_handler (core := s.occ.a) hw
  obtain ⟨hstate, hby⟩ := wave_handlerStarted_handled (s := s) (core := s.occ.a) (w := w)
  refine ⟨_, handlerStart_starts hfree hnext hcancel hsteps hruns, fun _ => rfl, core_handlerStarted, hstate, hby, ?_⟩
  rw [hhandler]
  exact ⟨rfl, handlerWave_live s _ w, fun r hr k hk => handlerWave_rs hr hk, fun l hl => handlerWave_lane s _ w hl⟩

end Sys2Proof
end

section
/-! PROOFS. Candidate words: the decoder and the encoder invert each other, field by field (O8). -/
namespace Sys2Proof

/-! A field of a number, and a signed field. -/

theorem bits_lt (x hi lo : Nat) : bits x hi lo < 2 ^ (hi - lo + 1) := Nat.mod_lt _ (Nat.two_pow_pos _)

theorem wrapNat_sextNat (x : Nat) : wrapNat (sextNat x 17) 17 = x % 2 ^ 17 := by
  unfold wrapNat sextNat
  split <;> omega

theorem sextNat_wrapNat {x : Int} (hlo : -65536 ≤ x) (hhi : x ≤ 65535) : sextNat (wrapNat x 17) 17 = x := by
  unfold wrapNat sextNat
  split <;> omega

theorem sextNat_bounds (x : Nat) : -65536 ≤ sextNat x 17 ∧ sextNat x 17 ≤ 65535 := by
  unfold sextNat
  split <;> omega

/-! The operand fields of a candidate word, and its OP (10 R245, R246). -/

/-- The fields of a candidate word below its OP. -/
def candFields (w : Nat) : CWord := { d := bits w 25 23, a := bits w 22 20, b := bits w 19 17, imm := sextNat (bits w 16 0) 17 }

theorem cword_wf_iff (c : CWord) : c.wf = true ↔ c.d < 8 ∧ c.a < 8 ∧ c.b < 8 ∧ -65536 ≤ c.imm ∧ c.imm ≤ 65535 := by
  simp [CWord.wf, and_assoc]

theorem candFields_wf (w : Nat) : (candFields w).wf = true :=
  (cword_wf_iff _).mpr ⟨bits_lt w 25 23, bits_lt w 22 20, bits_lt w 19 17, sextNat_bounds _⟩

/-- The fields of a 32-bit word are all of it. -/
theorem encodeCand_fields {w : Nat} (h : w < 2 ^ 32) : encodeCand (bits w 31 26) (candFields w) = w := by
  simp only [encodeCand, candFields, wrapNat_sextNat, bits]
  omega

theorem encodeCand_lt {op : Nat} {c : CWord} (hop : op < 64) (hc : c.wf = true) : encodeCand op c < 2 ^ 32 := by
  obtain ⟨hd, ha, hb, -, -⟩ := (cword_wf_iff c).mp hc
  unfold encodeCand wrapNat
  omega

theorem bits_op_encodeCand {op : Nat} {c : CWord} (hop : op < 64) (hc : c.wf = true) : bits (encodeCand op c) 31 26 = op := by
  obtain ⟨hd, ha, hb, -, -⟩ := (cword_wf_iff c).mp hc
  unfold bits encodeCand wrapNat
  omega

theorem candFields_encodeCand {op : Nat} {c : CWord} (hc : c.wf = true) : candFields (encodeCand op c) = c := by
  obtain ⟨hd, ha, hb, hlo, hhi⟩ := (cword_wf_iff c).mp hc
  have himm : bits (encodeCand op c) 16 0 = wrapNat c.imm 17 := by
    unfold bits encodeCand wrapNat
    omega
  obtain ⟨d, a, b, imm⟩ := c
  simp only [candFields, CWord.mk.injEq, himm]
  refine ⟨?_, ?_, ?_, sextNat_wrapNat hlo hhi⟩ <;> simp only [bits, encodeCand, wrapNat] at * <;> omega

/-! Candidate instructions by their OP. -/

/-- A candidate word decodes to the instruction of its OP and fields. -/
theorem candOp_decodeCand (w : Nat) : candOp (decodeCand w) = some (bits w 31 26, candFields w) := by
  unfold decodeCand
  dsimp only
  split <;> simp only [candOp, candFields, *]

theorem decodeCand_wf (w : Nat) : (decodeCand w).wf = true := by
  have hf := candFields_wf w
  have hop := bits_lt w 31 26
  unfold decodeCand
  dsimp only
  split
  case h_36 =>
    simp only [Instr.wf, Bool.and_eq_true, decide_eq_true_eq]
    simp only [imp_false] at *
    exact ⟨⟨by omega, hop⟩, hf⟩
  all_goals exact hf

/-- A candidate instruction is what its OP and fields decode to. -/
theorem decodeCand_of_candOp {i : Instr} {w : Nat} (hwf : i.wf = true) (h : candOp i = some (bits w 31 26, candFields w)) : decodeCand w = i := by
  unfold candOp at h
  split at h
  case h_36 op c =>
    obtain ⟨rfl, rfl⟩ := by simpa using h
    simp only [Instr.wf, Bool.and_eq_true, decide_eq_true_eq] at hwf
    unfold decodeCand
    dsimp only
    split
    case h_36 => rfl
    all_goals omega
  case h_37 => cases h
  all_goals
    obtain ⟨hop, rfl⟩ := by simpa using h
    unfold decodeCand
    rw [← hop]
    rfl

theorem candOp_wf {i : Instr} {op : Nat} {c : CWord} (hwf : i.wf = true) (h : candOp i = some (op, c)) : op < 64 ∧ c.wf = true := by
  unfold candOp at h
  split at h
  case h_36 =>
    obtain ⟨rfl, rfl⟩ := by simpa using h
    simp only [Instr.wf, Bool.and_eq_true, decide_eq_true_eq] at hwf
    exact ⟨hwf.1.2, hwf.2⟩
  case h_37 => cases h
  all_goals
    obtain ⟨rfl, rfl⟩ := by simpa using h
    exact ⟨by decide, hwf⟩

theorem encode_of_candOp {i : Instr} {op : Nat} {c : CWord} (h : candOp i = some (op, c)) : encode i = [encodeCand op c] := by
  have hfull : i.fullOp = none := by
    unfold candOp at h
    split at h
    case h_37 => cases h
    all_goals rfl
  simp only [encode, hfull, h]

/-- Settles O8: a word is its OP and its fields, and so is a candidate instruction. -/
theorem encodeDecodeCandidate : Obligations.EncodeDecodeCandidate := by
  constructor
  · intro w hw
    exact ⟨decodeCand_wf w, by rw [encode_of_candOp (candOp_decodeCand w), encodeCand_fields hw]⟩
  · intro i op c hwf h
    obtain ⟨hop, hc⟩ := candOp_wf hwf h
    refine ⟨encodeCand op c, encode_of_candOp h, encodeCand_lt hop hc, decodeCand_of_candOp hwf ?_⟩
    rw [bits_op_encodeCand hop hc, candFields_encodeCand hc, h]

end Sys2Proof
end

section
/-! PROOFS. What a candidate word of each kind comes to: its fuel, its value, and where its lane goes on (O51). -/
namespace Sys2Proof.Machine

/-! A lane's candidate registers, fuel and control word stand apart (10 R242). -/

section
variable {v : Wave} {l : Nat} (hl : l < 32)
include hl

theorem cReg_wv_of_lt {n : Nat} (hn : n < 248) (x : Word) (i : Nat) : (v.wv n l x).cReg l i = v.cReg l i :=
  Wave.rv_wv_ne v x hl hl (.inl (by omega))

theorem ctl_wv_ne {n : Nat} (hn : n ≠ 247) (x : Word) : (v.wv n l x).ctl l = v.ctl l := Wave.rv_wv_ne v x hl hl (.inl (Ne.symm hn))

theorem ctl_fold (x : DWord) : (v.fold l x).ctl l = v.ctl l := by
  simp only [Wave.fold, Wave.wv2, ctl_wv_ne hl (by decide : 242 ≠ 247), ctl_wv_ne hl (by decide : 242 + 1 ≠ 247),
    ctl_wv_ne hl (by decide : 244 ≠ 247), ctl_wv_ne hl (by decide : 244 + 1 ≠ 247)]

end

/-! The arms of `exec` for candidate words (10 R246). -/

section
variable (k : CWord) (s : State)

theorem exec_candHalt : exec (.candHalt k) s = execCandHalt k s := rfl
theorem exec_candAdd : exec (.candAdd k) s = execCandAdd k s := rfl
theorem exec_candSub : exec (.candSub k) s = execCandSub k s := rfl
theorem exec_candMul : exec (.candMul k) s = execCandMul k s := rfl
theorem exec_candDiv : exec (.candDiv k) s = execCandDiv k s := rfl
theorem exec_candRem : exec (.candRem k) s = execCandRem k s := rfl
theorem exec_candAnd : exec (.candAnd k) s = execCandAnd k s := rfl
theorem exec_candOr : exec (.candOr k) s = execCandOr k s := rfl
theorem exec_candXor : exec (.candXor k) s = execCandXor k s := rfl
theorem exec_candShl : exec (.candShl k) s = execCandShl k s := rfl
theorem exec_candShr : exec (.candShr k) s = execCandShr k s := rfl
theorem exec_candSar : exec (.candSar k) s = execCandSar k s := rfl
theorem exec_candMin : exec (.candMin k) s = execCandMin k s := rfl
theorem exec_candMax : exec (.candMax k) s = execCandMax k s := rfl
theorem exec_candSlt : exec (.candSlt k) s = execCandSlt k s := rfl
theorem exec_candSeq : exec (.candSeq k) s = execCandSeq k s := rfl
theorem exec_candAddi : exec (.candAddi k) s = execCandAddi k s := rfl
theorem exec_candMuli : exec (.candMuli k) s = execCandMuli k s := rfl
theorem exec_candAndi : exec (.candAndi k) s = execCandAndi k s := rfl
theorem exec_candLi : exec (.candLi k) s = execCandLi k s := rfl
theorem exec_candLis : exec (.candLis k) s = execCandLis k s := rfl
theorem exec_candNeg : exec (.candNeg k) s = execCandNeg k s := rfl
theorem exec_candAbs : exec (.candAbs k) s = execCandAbs k s := rfl
theorem exec_candLd : exec (.candLd k) s = execCandLd k s := rfl
theorem exec_candSt : exec (.candSt k) s = execCandSt k s := rfl
theorem exec_candLdx : exec (.candLdx k) s = execCandLdx k s := rfl
theorem exec_candBeq : exec (.candBeq k) s = execCandBeq k s := rfl
theorem exec_candBne : exec (.candBne k) s = execCandBne k s := rfl
theorem exec_candBlt : exec (.candBlt k) s = execCandBlt k s := rfl
theorem exec_candBge : exec (.candBge k) s = execCandBge k s := rfl
theorem exec_candJmp : exec (.candJmp k) s = execCandJmp k s := rfl
theorem exec_candOut : exec (.candOut k) s = execCandOut k s := rfl
theorem exec_candSel : exec (.candSel k) s = execCandSel k s := rfl
theorem exec_candClz : exec (.candClz k) s = execCandClz k s := rfl
theorem exec_candPopc : exec (.candPopc k) s = execCandPopc k s := rfl
theorem exec_candIllegal (op : Nat) : exec (.candIllegal op k) s = execCandIllegal op k s := rfl

end

section
variable {s : State} {w l : Nat} {c : CandRun} {cost : Nat}

/-! Fuel paid, and the word at which a lane goes on (10 R247). -/

theorem wave_paid : (s.paid w l cost).wave w = { (s.wave w).wv 246 l ((s.wave w).rv 246 l - BitVec.ofNat 32 cost) with wcand := (s.wave w).wcand + 1 } :=
  State.wave_setWave s w _

theorem paid_unit : ((s.paid w l cost).wave w).unit = (s.wave w).unit := by rw [wave_paid]; rfl

theorem paid_cReg (hl : l < 32) (i : Nat) : ((s.paid w l cost).wave w).cReg l i = (s.wave w).cReg l i := by
  rw [wave_paid]; exact cReg_wv_of_lt hl (by decide) _ i

theorem paid_ctl (hl : l < 32) : ((s.paid w l cost).wave w).ctl l = (s.wave w).ctl l := by
  rw [wave_paid]; exact ctl_wv_ne hl (by decide) _

theorem paid_cPc (hl : l < 32) : ((s.paid w l cost).wave w).cPc l = (s.wave w).cPc l := by
  unfold Wave.cPc
  rw [paid_ctl hl]

/-- A lane's PC moved to a word of its candidate. -/
def State.candAt (s : State) (w l pc : Nat) : State := s.modWave w (fun v => v.wv 247 l (setBits (v.ctl l) 5 0 pc))

/-! What a candidate word comes to (10 R246, R247; 09 R230). -/

theorem candWord_poor (hcur : ∃ q, s.cur = some q ∧ q.cand = some l ∧ q.wave = w) (hrun : (s.wave w).cand = some c) (hf : (s.wave w).cLeft l < cost)
    (body : Nat → Nat → CandRun → State → CRes) : s.candWord cost body = .next (s.candStop w l c Outc.fuel) := by
  obtain ⟨q, hq, hcand, rfl⟩ := hcur
  simp only [State.candWord, hq, Option.bind_some, hcand, Option.map_some, hrun, if_pos hf]

/-- The words that cost 1 and have an operation of 10 R246. -/
def costOneWords (k : CWord) : List Instr :=
  [.candHalt k, .candAdd k, .candSub k, .candMul k, .candAnd k, .candOr k, .candXor k, .candShl k, .candShr k, .candSar k, .candMin k, .candMax k, .candSlt k,
   .candSeq k, .candAddi k, .candMuli k, .candAndi k, .candLi k, .candLis k, .candNeg k, .candAbs k, .candLd k, .candSt k, .candLdx k, .candBeq k, .candBne k,
   .candBlt k, .candBge k, .candJmp k, .candOut k, .candSel k, .candClz k, .candPopc k]

theorem exec_poor (hcur : ∃ q, s.cur = some q ∧ q.cand = some l ∧ q.wave = w) (hrun : (s.wave w).cand = some c) (hf : (s.wave w).cLeft l < 1) (k : CWord) :
    ∀ j ∈ costOneWords k, exec j s = .next (s.candStop w l c Outc.fuel) := by
  have poor := candWord_poor hcur hrun hf
  have alu : ∀ f, s.candAlu k f = .next (s.candStop w l c Outc.fuel) := fun _ => poor _
  have branch : ∀ p, s.candBranch k p = .next (s.candStop w l c Outc.fuel) := fun _ => poor _
  simp only [costOneWords, List.forall_mem_cons]
  exact ⟨(exec_candHalt k s).trans (poor _), (exec_candAdd k s).trans (alu _), (exec_candSub k s).trans (alu _), (exec_candMul k s).trans (alu _),
    (exec_candAnd k s).trans (alu _), (exec_candOr k s).trans (alu _), (exec_candXor k s).trans (alu _), (exec_candShl k s).trans (alu _),
    (exec_candShr k s).trans (alu _), (exec_candSar k s).trans (alu _), (exec_candMin k s).trans (alu _), (exec_candMax k s).trans (alu _),
    (exec_candSlt k s).trans (alu _), (exec_candSeq k s).trans (alu _), (exec_candAddi k s).trans (alu _), (exec_candMuli k s).trans (alu _),
    (exec_candAndi k s).trans (alu _), (exec_candLi k s).trans (alu _), (exec_candLis k s).trans (alu _), (exec_candNeg k s).trans (alu _),
    (exec_candAbs k s).trans (alu _), (exec_candLd k s).trans (poor _), (exec_candSt k s).trans (poor _), (exec_candLdx k s).trans (poor _),
    (exec_candBeq k s).trans (branch _), (exec_candBne k s).trans (branch _), (exec_candBlt k s).trans (branch _), (exec_candBge k s).trans (branch _),
    (exec_candJmp k s).trans (branch _), (exec_candOut k s).trans (poor _), (exec_candSel k s).trans (poor _), (exec_candClz k s).trans (alu _),
    (exec_candPopc k s).trans (alu _), fun _ hj => absurd hj List.not_mem_nil⟩

/-- The state in which a lane halts: its fuel paid, and an example without an output folded as one (10 R249). -/
def State.haltFolded (s : State) (w l cost : Nat) : State :=
  if bits ((s.wave w).ctl l).toNat 26 24 = 0 then
    (s.paid w l cost).modWave w (fun v => v.fold l (BitVec.ofNat 64 (bits ((s.wave w).ctl l).toNat 23 20 * 2 ^ 40 + 0xFF * 2 ^ 32)))
  else s.paid w l cost

/-- What a lane that has paid for its word goes on to, as the word's body says. -/
def State.candDone (s : State) (w l cost : Nat) (c : CandRun) : CRes → State
  | .val d x t => (t.modWave w (fun v => v.wv (248 + d) l x)).candAt w l ((s.wave w).cPc l + 1)
  | .go t => t.candAt w l ((s.wave w).cPc l + 1)
  | .stop code => (s.paid w l cost).candStop w l c code
  | .jump target t =>
    if target < 0 || (bits ((s.wave w).ctl l).toNat 19 14 : Int) ≤ target then (s.paid w l cost).candStop w l c Outc.runoff else t.candAt w l target.toNat
  | .halt =>
    let ex := bits ((s.wave w).ctl l).toNat 23 20
    let q := s.haltFolded w l cost
    let r := q.startExample w l c (ex + 1)
    if ex + 1 = c.nex then q.candStop w l c Outc.ok else bif r.1 then r.2 else r.2.candStop w l c Outc.illegal

theorem candWord_paid (h : CandRuns s w l c cost) (body : Nat → Nat → CandRun → State → CRes) :
    s.candWord cost body = .next (s.candDone w l cost c (body w l c (s.paid w l cost))) := by
  obtain ⟨⟨q, hq, hcand, rfl⟩, hrun, hf, -⟩ := h
  simp only [State.candWord, hq, Option.bind_some, hcand, Option.map_some, hrun, if_neg (Nat.not_lt.mpr hf)]
  rw [show s.setWave q.wave { (s.wave q.wave).wv 246 l ((s.wave q.wave).rv 246 l - BitVec.ofNat 32 cost) with wcand := (s.wave q.wave).wcand + 1 } =
    s.paid q.wave l cost from rfl]
  cases body q.wave l c (s.paid q.wave l cost) with
  | val d x t => rfl
  | go t => rfl
  | stop code => rfl
  | jump target t =>
    simp only [State.candDone]
    split <;> rfl
  | halt =>
    simp only [State.candDone, State.haltFolded]
    split
    · rfl
    · generalize State.startExample _ q.wave l c _ = r
      obtain ⟨_ | _, t⟩ := r <;> rfl

/-- A word of a lane with enough fuel answers the state that its body comes to. -/
theorem exec_of_body {i : Instr} {body : Nat → Nat → CandRun → State → CRes} {r : CRes} (h : CandRuns s w l c cost)
    (he : exec i s = s.candWord cost body) (hb : body w l c (s.paid w l cost) = r) : exec i s = .next (s.candDone w l cost c r) := by
  rw [he, candWord_paid h, hb]

/-! What a word leaves as it was. -/

theorem candFrame_candAt (hl : l < 32) (pc : Nat) : CandFrame s ((s.paid w l cost).candAt w l pc) w l cost none pc := by
  have hw : ((s.paid w l cost).candAt w l pc).wave w =
      ((s.paid w l cost).wave w).wv 247 l (setBits (((s.paid w l cost).wave w).ctl l) 5 0 pc) := State.wave_modWave _ _ _
  refine ⟨(onlyWave_setWave s w _).trans (onlyWave_modWave _ w _), ?_, ?_, ?_, fun r k hk hr => ?_⟩
  · rw [hw, wave_paid]; rfl
  · rw [hw, Wave.rv_wv_ne _ _ hl hl (.inl (by decide)), wave_paid]
    exact Wave.rv_wv_same _ _ _ _
  · rw [hw, paid_ctl hl]
    exact Wave.rv_wv_same _ _ _ _
  · rw [hw, Wave.rv_wv_ne _ _ hl hk (by omega), wave_paid]
    exact Wave.rv_wv_ne (s.wave w) _ hl hk (by omega)

theorem candFrame_val (hl : l < 32) (d pc : Nat) (x : Word) :
    let t := ((s.paid w l cost).modWave w (fun v => v.wv (248 + d) l x)).candAt w l pc
    (t.wave w).cReg l d = x ∧ CandFrame s t w l cost (some d) pc := by
  intro t
  have hv := State.wave_modWave (s.paid w l cost) w (fun v => v.wv (248 + d) l x)
  have hctl : (((s.paid w l cost).modWave w (fun v => v.wv (248 + d) l x)).wave w).ctl l = (s.wave w).ctl l := by
    rw [hv, ctl_wv_ne hl (by omega), paid_ctl hl]
  have hw : t.wave w = (((s.paid w l cost).wave w).wv (248 + d) l x).wv 247 l (setBits ((s.wave w).ctl l) 5 0 pc) := by
    rw [← hctl, ← hv]; exact State.wave_modWave _ _ _
  refine ⟨?_, ((onlyWave_setWave s w _).trans (onlyWave_modWave _ w _)).trans (onlyWave_modWave _ w _), ?_, ?_, ?_, fun r k hk hr => ?_⟩
  · rw [hw]
    exact (Wave.rv_wv_ne _ _ hl hl (.inl (by omega))).trans (Wave.rv_wv_same _ _ _ _)
  · rw [hw, wave_paid]; rfl
  · rw [hw, Wave.rv_wv_ne _ _ hl hl (.inl (by omega)), Wave.rv_wv_ne _ _ hl hl (.inl (by omega)), wave_paid]
    exact Wave.rv_wv_same _ _ _ _
  · rw [hw]; exact Wave.rv_wv_same _ _ _ _
  · simp only [Option.map_some, Option.some.injEq] at hr
    rw [hw, Wave.rv_wv_ne _ _ hl hk (by omega), Wave.rv_wv_ne _ _ hl hk (by omega), wave_paid]
    exact Wave.rv_wv_ne (s.wave w) _ hl hk (by omega)

/-! Words that give a value, and branches (10 R246). -/

theorem candVal_of {i : Instr} {body : Nat → Nat → CandRun → State → CRes} {d : Nat} {x : Word} (h : CandRuns s w l c cost)
    (he : exec i s = s.candWord cost body) (hb : body w l c (s.paid w l cost) = .val d x (s.paid w l cost)) : CandVal s w l cost i d x :=
  ⟨_, exec_of_body h he hb, candFrame_val h.lane d _ x⟩

theorem candVal_alu {i : Instr} {k : CWord} {f : Word → Word → Int → Word} {x : Word} (h : CandRuns s w l c 1) (he : exec i s = s.candAlu k f)
    (hx : f ((s.wave w).cReg l k.a) ((s.wave w).cReg l k.b) k.imm = x) : CandVal s w l 1 i k.d x := by
  refine candVal_of h he ?_
  rw [paid_cReg h.lane, paid_cReg h.lane, hx]

theorem candBranch_of {i : Instr} {k : CWord} {p : Word → Word → Bool} {taken : Prop} (h : CandRuns s w l c 1) (he : exec i s = s.candBranch k p)
    (hp : p ((s.wave w).cReg l k.a) ((s.wave w).cReg l k.b) = true ↔ taken) : CandBranch s w l c i taken k.imm := by
  have e : exec i s = _ := he.trans (candWord_paid h _)
  simp only [paid_cReg h.lane, paid_cPc h.lane] at e
  refine ⟨fun ht hout => ?_, fun ht hin => ?_, fun ht => ?_⟩
  · rw [e, if_pos (hp.mpr ht)]
    simp only [State.candDone]
    rw [if_pos (by simp only [Bool.or_eq_true, decide_eq_true_eq]; omega)]
  · rw [e, if_pos (hp.mpr ht)]
    simp only [State.candDone]
    rw [if_neg (by simp only [Bool.or_eq_true, decide_eq_true_eq]; omega)]
    exact ⟨_, rfl, candFrame_candAt h.lane _⟩
  · rw [e, if_neg (fun hq => ht (hp.mp hq))]
    exact ⟨_, rfl, candFrame_candAt h.lane _⟩

/-- A word that retires its lane does so after its fuel is paid. -/
theorem exec_of_stop {i : Instr} {body : Nat → Nat → CandRun → State → CRes} {code : Nat} (h : CandRuns s w l c cost)
    (he : exec i s = s.candWord cost body) (hb : body w l c (s.paid w l cost) = .stop code) :
    exec i s = .next ((s.paid w l cost).candStop w l c code) := exec_of_body h he hb

/-! DIV and REM (10 R246). -/

theorem candDivRem {k : CWord} (h : CandRuns s w l c 4) (hb : (s.wave w).cReg l k.b ≠ 0) :
    CandVal s w l 4 (.candDiv k) k.d (BitVec.ofInt 32 (((s.wave w).cReg l k.a).toInt.tdiv ((s.wave w).cReg l k.b).toInt)) ∧
    CandVal s w l 4 (.candRem k) k.d (BitVec.ofInt 32 (((s.wave w).cReg l k.a).toInt.tmod ((s.wave w).cReg l k.b).toInt)) := by
  constructor
  · refine candVal_of h (exec_candDiv k s) ?_
    simp only [paid_cReg h.lane, if_neg hb]
  · refine candVal_of h (exec_candRem k s) ?_
    simp only [paid_cReg h.lane, if_neg hb]

theorem candDivRem_zero {k : CWord} (h : CandRuns s w l c 4) (hb : (s.wave w).cReg l k.b = 0) :
    exec (.candDiv k) s = .next ((s.paid w l 4).candStop w l c Outc.divzero) ∧
    exec (.candRem k) s = .next ((s.paid w l 4).candStop w l c Outc.divzero) := by
  constructor
  · refine exec_of_stop h (exec_candDiv k s) ?_
    simp only [paid_cReg h.lane, if_pos hb]
  · refine exec_of_stop h (exec_candRem k s) ?_
    simp only [paid_cReg h.lane, if_pos hb]

/-! LDX, LD and ST (10 R246, R256). -/

theorem candLdx_val {k : CWord} (h : CandRuns s w l c 1) (hlo : 0 ≤ k.imm) (hhi : k.imm ≤ 7) :
    CandVal s w l 1 (.candLdx k) k.d ((((tfind? c.lanes l).map (·.inputs)).getD []).getD k.imm.toNat 0) := by
  refine candVal_of h (exec_candLdx k s) ?_
  rw [if_neg (by simp only [Bool.or_eq_true, decide_eq_true_eq]; omega)]

theorem candLdx_oob {k : CWord} (h : CandRuns s w l c 1) (hout : k.imm < 0 ∨ 7 < k.imm) :
    exec (.candLdx k) s = .next ((s.paid w l 1).candStop w l c Outc.oob) := by
  refine exec_of_stop h (exec_candLdx k s) ?_
  rw [if_pos (by simpa using hout)]

theorem sandboxWord_paid (hl : l < 32) (k : CWord) : (s.paid w l cost).sandboxWord w l c k = s.sandboxWord w l c k := by
  simp only [State.sandboxWord, paid_cReg hl, paid_unit]

theorem sandboxWord_out {k : CWord} (hout : ((s.wave w).cReg l k.a).toInt + k.imm < 0 ∨ 63 < ((s.wave w).cReg l k.a).toInt + k.imm) :
    s.sandboxWord w l c k = none := by
  unfold State.sandboxWord
  exact if_pos (by simpa using hout)

theorem sandboxWord_in {k : CWord} (hlo : 0 ≤ ((s.wave w).cReg l k.a).toInt + k.imm) (hhi : ((s.wave w).cReg l k.a).toInt + k.imm ≤ 63) :
    s.sandboxWord w l c k = some (locScratch (s.wave w).unit (c.sandbox + 256 * l + 4 * (((s.wave w).cReg l k.a).toInt + k.imm).toNat)) := by
  unfold State.sandboxWord
  exact if_neg (by simp only [Bool.or_eq_true, decide_eq_true_eq]; omega)

theorem candLdSt_oob {k : CWord} (h : CandRuns s w l c 1) (hw : s.sandboxWord w l c k = none) :
    exec (.candLd k) s = .next ((s.paid w l 1).candStop w l c Outc.oob) ∧
    exec (.candSt k) s = .next ((s.paid w l 1).candStop w l c Outc.oob) := by
  constructor
  · refine exec_of_stop h (exec_candLd k s) ?_
    simp only [sandboxWord_paid h.lane, hw]
  · refine exec_of_stop h (exec_candSt k s) ?_
    simp only [sandboxWord_paid h.lane, hw]

theorem candLd_bad {k : CWord} {loc : Nat} (h : CandRuns s w l c 1) (hw : s.sandboxWord w l c k = some loc) (hbad : s.mem.badWord loc 4 = true) :
    exec (.candLd k) s = .next ((s.paid w l 1).candStop w l c Outc.illegal) := by
  refine exec_of_stop h (exec_candLd k s) ?_
  simp only [sandboxWord_paid h.lane, hw]
  exact if_pos hbad

theorem candLd_reads {k : CWord} {loc : Nat} (h : CandRuns s w l c 1) (hw : s.sandboxWord w l c k = some loc) (hbad : s.mem.badWord loc 4 = false) :
    let r := (s.paid w l 1).readStep (.lane w l) ((List.range 4).map (loc + ·))
    exec (.candLd k) s = .next ((r.2.modWave w (fun y => y.wv (248 + k.d) l (BitVec.ofNat 32 (leNat r.1)))).candAt w l ((s.wave w).cPc l + 1)) := by
  refine exec_of_body (r := .val _ _ _) h (exec_candLd k s) ?_
  simp only [sandboxWord_paid h.lane, hw]
  exact if_neg (by rw [show (s.paid w l 1).mem = s.mem from rfl, hbad]; decide)

theorem candSt_queues {k : CWord} {loc : Nat} (h : CandRuns s w l c 1) (hw : s.sandboxWord w l c k = some loc) :
    exec (.candSt k) s = .next (({ s.paid w l 1 with nextId := s.nextId + 1 }.queueWrite (.lane w l)
      (plainWrite loc 4 ((s.wave w).cReg l k.b).toNat) s.nextId).candAt w l ((s.wave w).cPc l + 1)) := by
  rw [← paid_cReg (cost := 1) h.lane k.b]
  refine exec_of_body (r := .go _) h (exec_candSt k s) ?_
  simp only [sandboxWord_paid h.lane, hw]
  rfl

/-! OUT and HALT (10 R243, R246, R249). -/

theorem candOut_limit {k : CWord} (h : CandRuns s w l c 1) (hn : bits ((s.wave w).ctl l).toNat 26 24 = 4) :
    exec (.candOut k) s = .next ((s.paid w l 1).candStop w l c Outc.outlimit) := by
  refine exec_of_stop h (exec_candOut k s) ?_
  simp only [paid_ctl h.lane, if_pos hn]

theorem candOut_folds {k : CWord} (h : CandRuns s w l c 1) (hn : bits ((s.wave w).ctl l).toNat 26 24 ≠ 4) :
    exec (.candOut k) s = .next (((s.paid w l 1).modWave w (fun y =>
      (y.fold l (BitVec.ofNat 64 (bits ((s.wave w).ctl l).toNat 23 20 * 2 ^ 40 + bits ((s.wave w).ctl l).toNat 26 24 * 2 ^ 32 +
        ((s.wave w).cReg l k.a).toNat))).wv 247 l (setBits (y.ctl l) 26 24 (bits ((s.wave w).ctl l).toNat 26 24 + 1)))).candAt w l
      ((s.wave w).cPc l + 1)) := by
  refine exec_of_body (r := .go _) h (exec_candOut k s) ?_
  simp only [paid_ctl h.lane, paid_cReg h.lane, if_neg hn, State.modWave, ctl_fold h.lane]

theorem candHalt_last {k : CWord} (h : CandRuns s w l c 1) (hlast : bits ((s.wave w).ctl l).toNat 23 20 + 1 = c.nex) :
    exec (.candHalt k) s = .next ((s.haltFolded w l 1).candStop w l c Outc.ok) := by
  rw [exec_of_body h (exec_candHalt k s) rfl]
  simp only [State.candDone, if_pos hlast]

theorem candHalt_starts {k : CWord} (h : CandRuns s w l c 1) (hmore : bits ((s.wave w).ctl l).toNat 23 20 + 1 ≠ c.nex)
    (hr : ((s.haltFolded w l 1).startExample w l c (bits ((s.wave w).ctl l).toNat 23 20 + 1)).1 = true) :
    exec (.candHalt k) s = .next ((s.haltFolded w l 1).startExample w l c (bits ((s.wave w).ctl l).toNat 23 20 + 1)).2 := by
  rw [exec_of_body h (exec_candHalt k s) rfl]
  simp only [State.candDone, if_neg hmore, hr, cond_true]

theorem candHalt_poisoned {k : CWord} (h : CandRuns s w l c 1) (hmore : bits ((s.wave w).ctl l).toNat 23 20 + 1 ≠ c.nex)
    (hr : ((s.haltFolded w l 1).startExample w l c (bits ((s.wave w).ctl l).toNat 23 20 + 1)).1 = false) :
    exec (.candHalt k) s =
      .next (((s.haltFolded w l 1).startExample w l c (bits ((s.wave w).ctl l).toNat 23 20 + 1)).2.candStop w l c Outc.illegal) := by
  rw [exec_of_body h (exec_candHalt k s) rfl]
  simp only [State.candDone, if_neg hmore, hr, cond_false]

end

end Sys2Proof.Machine

namespace Sys2Proof
open Machine

/-! The values that 10 R246 states by signed numbers. -/

theorem ite_slt_eq_min (a b : Word) : (if a.slt b then a else b) = BitVec.ofInt 32 (min a.toInt b.toInt) := by
  rw [BitVec.slt_eq_decide]
  by_cases h : a.toInt < b.toInt
  · rw [if_pos (decide_eq_true h), Int.min_eq_left (Int.le_of_lt h), BitVec.ofInt_toInt]
  · rw [if_neg (by simpa using h), Int.min_eq_right (Int.not_lt.mp h), BitVec.ofInt_toInt]

theorem ite_slt_eq_max (a b : Word) : (if a.slt b then b else a) = BitVec.ofInt 32 (max a.toInt b.toInt) := by
  rw [BitVec.slt_eq_decide]
  by_cases h : a.toInt < b.toInt
  · rw [if_pos (decide_eq_true h), Int.max_eq_right (Int.le_of_lt h), BitVec.ofInt_toInt]
  · rw [if_neg (by simpa using h), Int.max_eq_left (Int.not_lt.mp h), BitVec.ofInt_toInt]

/-- Settles O51: what each word's body comes to on a lane that has paid, or finds too little fuel. -/
theorem candidateWords : Obligations.CandidateWords := by
  refine ⟨fun s w l c k => ⟨fun hcur hrun => ⟨fun hf j hj => ?_, fun hf => ?_⟩, fun h => ?_, fun h hb => candDivRem h hb⟩,
    fun s w l c k => ⟨fun h hb => candDivRem_zero h hb, fun h => ?_⟩⟩
  · rcases hj with ⟨op, rfl⟩ | hj
    · exact (exec_candIllegal k s op).trans (candWord_poor hcur hrun hf _)
    · exact exec_poor hcur hrun hf k j hj
  · exact ⟨(exec_candDiv k s).trans (candWord_poor hcur hrun hf _), (exec_candRem k s).trans (candWord_poor hcur hrun hf _)⟩
  · refine ⟨candVal_alu h (exec_candAdd k s) rfl, candVal_alu h (exec_candSub k s) rfl, candVal_alu h (exec_candMul k s) rfl,
      candVal_alu h (exec_candAnd k s) rfl, candVal_alu h (exec_candOr k s) rfl, candVal_alu h (exec_candXor k s) rfl, candVal_alu h (exec_candShl k s) rfl,
      candVal_alu h (exec_candShr k s) rfl, candVal_alu h (exec_candSar k s) rfl, candVal_alu h (exec_candMin k s) (ite_slt_eq_min _ _),
      candVal_alu h (exec_candMax k s) (ite_slt_eq_max _ _), candVal_alu h (exec_candSlt k s) ?_, candVal_alu h (exec_candSeq k s) rfl,
      candVal_alu h (exec_candAddi k s) rfl, candVal_alu h (exec_candMuli k s) rfl, candVal_alu h (exec_candAndi k s) rfl,
      candVal_alu h (exec_candLi k s) rfl, candVal_alu h (exec_candLis k s) rfl, candVal_alu h (exec_candNeg k s) (BitVec.zero_sub _).symm,
      candVal_alu h (exec_candAbs k s) ?_, candVal_of h (exec_candSel k s) ?_, candVal_alu h (exec_candClz k s) rfl, candVal_alu h (exec_candPopc k s) rfl,
      candLdx_val h⟩
    · simp only [BitVec.slt_eq_decide, decide_eq_true_eq]
    · simp only [BitVec.slt_eq_decide, decide_eq_true_eq]
      rfl
    · simp only [paid_cReg h.lane, bne_iff_ne]
  · refine ⟨candBranch_of h (exec_candBeq k s) (by simp), candBranch_of h (exec_candBne k s) (by simp),
      candBranch_of h (exec_candBlt k s) (by simp [BitVec.slt_eq_decide]), candBranch_of h (exec_candBge k s) (by simp [BitVec.slt_eq_decide]),
      candBranch_of h (exec_candJmp k s) (by simp), fun op => exec_of_stop h (exec_candIllegal k s op) rfl, candLdx_oob h,
      fun hout => candLdSt_oob h (sandboxWord_out hout), fun hlo hhi => ?_, candOut_limit h, candOut_folds h,
      candHalt_last h, candHalt_starts h, candHalt_poisoned h⟩
    have hw := sandboxWord_in (c := c) hlo hhi
    exact ⟨candLd_bad h hw, candLd_reads h hw, candSt_queues h hw⟩

end Sys2Proof
end

section
/-! PROOFS. CRUN with its run descriptor, and the Vestibule words (O52). -/
namespace Sys2Proof.Machine

/-! What a lane's read steps leave alone (03 R80, R83). -/

/-- Picks made in turn, each for a location, move nothing but the count of free choices. -/
theorem foldl_pick_state {α β : Type} (len : α → Nat) (val : α → Nat → β) (ls : List α) (ys : List β) (s : State) :
    ∃ f, (ls.foldl (fun (acc : List β × State) x => (acc.1 ++ [val x (acc.2.pick (len x)).1], (acc.2.pick (len x)).2)) (ys, s)).2 =
      { s with fresh := f } := by
  induction ls generalizing ys s with
  | nil => exact ⟨s.fresh, rfl⟩
  | cons x ls ih =>
    obtain ⟨⟨f, hf⟩, -⟩ := pick_spec s (len x)
    obtain ⟨g, hg⟩ := ih (ys ++ [val x (s.pick (len x)).1]) (s.pick (len x)).2
    exact ⟨g, hg.trans (by rw [hf])⟩

/-- The choice of the writes that a read returns moves nothing but the count of free choices. -/
theorem readView_state (s : State) (m : Mem) (v : View) (due : Bool) (ext : Option Nat) (locs : List Nat) :
    ∃ f, (s.readView m v due ext locs).2 = { s with fresh := f } := by
  unfold State.readView
  split
  · exact ⟨s.fresh, rfl⟩
  split
  · exact ⟨s.fresh, rfl⟩
  · generalize (spansOf 0 (m.wholeStamps ext locs)).filter _ = sps
    obtain ⟨⟨f, hf⟩, -⟩ := pick_spec s sps.length
    obtain ⟨g, hg⟩ := foldl_pick_state (fun x => (m.inSpan v (sps.getD (s.pick sps.length).1 (0, none)) x).length)
      (fun x j => (m.inSpan v (sps.getD (s.pick sps.length).1 (0, none)) x).getD j (m.newest x)) locs [] (s.pick sps.length).2
    exact ⟨g, hg.trans (by rw [hf])⟩

theorem agent_setAgent_lane (s : State) (w l : Nat) (x : AgentSt) : (s.setAgent (.lane w l) x).agent (.lane w l) = x := by
  simp only [State.agent, State.setAgent, State.wave_modWave, Wave.lane_modLane]

theorem readThrough_queue (s : State) (w l : Nat) (ext : Option Nat) (locs : List Nat) :
    ((s.readThrough (.lane w l) ext locs).2.agent (.lane w l)).queue = (s.agent (.lane w l)).queue := by
  obtain ⟨f, hf⟩ := readView_state s (s.memFor (.lane w l)) (s.agent (.lane w l)).view ((s.agent (.lane w l)).due locs) ext locs
  simp only [State.readThrough, agent_setAgent_lane, hf]
  rfl

theorem readStep_queue (s : State) (w l : Nat) (locs : List Nat) :
    ((s.readStep (.lane w l) locs).2.agent (.lane w l)).queue = (s.agent (.lane w l)).queue := readThrough_queue s w l _ _

theorem readStep_length (s : State) (ag : Agent) (locs : List Nat) : (s.readStep ag locs).1.length = locs.length := by
  simp only [State.readStep, State.readWrites, List.length_map]

/-- A run descriptor's doublewords are 32 bytes, and reading them drains nothing from the lane's queue (10 R241; 03 R83). -/
theorem readDescriptor_spec (s : State) (w l loc : Nat) :
    (s.readDescriptor w l loc).1.length = 32 ∧ (s.readDescriptor w l loc).2.1.queue = (s.agent (.lane w l)).queue := by
  have hrange : List.range 4 = [0, 1, 2, 3] := rfl
  simp only [State.readDescriptor, hrange, List.foldl_cons, List.foldl_nil, readStep_queue, List.length_append, readStep_length, List.length_map,
    List.length_range, List.length_nil, and_self]

/-- Read steps of a descriptor change the lane alone; of the state, only what the device drew for them (10 R241; 03 R83). -/
theorem readDescriptor_state (s : State) (w l loc : Nat) :
    (s.readDescriptor w l loc).2.2 = { s with fresh := (s.readDescriptor w l loc).2.2.fresh, nextId := (s.readDescriptor w l loc).2.2.nextId } := by
  unfold State.readDescriptor
  dsimp only

/-! CRUN (10 R240-R244). -/

theorem exec_crun (w : Full) (s : State) : exec (.crun w) s = execCrun w s := rfl

/-- The head of CRUN. -/
def crunHead (w : Full) : Head := headF w [(w.d, 1), (w.a, 1), (w.b, 2)] false

/-- A field of a run descriptor: n bytes from o, little-endian (10 R241). -/
def descNat (bs : List Byte) (o n : Nat) : Nat := leNat ((bs.drop o).take n)

/-- The run that a descriptor's bytes describe, with the places that its checks translated (10 R241). -/
def descriptorRun (x : Iss) (vd : Nat) (index : SMap Word) (ea : DWord) (bs : List Byte) (exs os : List Place) : CandRun := {
  vd, enabled := x.e, fuel := descNat bs 28 2, nex := descNat bs 24 1, ns := descNat bs 25 1, qonly := descNat bs 26 2 % 2 = 1
  norec := decide (descNat bs 26 2 / 2 % 2 = 1), sandbox := descNat bs 30 2, pc := x.cur.pc, desc := ea, gallery := BitVec.ofNat 64 (descNat bs 16 8)
  examples := BitVec.ofNat 64 (descNat bs 0 8), outcomes := BitVec.ofNat 64 (descNat bs 8 8), index, exLocs := exs.map (·.loc), outLocs := os.map (·.loc)
  wrote := 0, lanes := [] }

/-- CRUN once its descriptor is read: the checks of its fields, of its examples and outcome records, and of its sandbox (10 R241). -/
def crunOf (x : Iss) (vd : Nat) (index : SMap Word) (ea : DWord) (bs : List Byte) (reader : AgentSt) (s : State) : Res :=
  let l := lowestLane x.live
  let gal := BitVec.ofNat 64 (descNat bs 16 8)
  let bad := fun (code : Code) (a : DWord) (s : State) => Res.fault code l 0xF a s
  if descNat bs 24 1 = 0 || 16 < descNat bs 24 1 || 4 ≤ descNat bs 26 2 then bad Code.illop 0 s
  else if descNat bs 25 1 != 0xFF && !s.nsAssigned (dieOf x.wave.core) (s.vfOf x.w) (descNat bs 25 1) then bad Code.addrpath 0 s
  else if pathOf gal = 0xF then bad Code.priv gal s
  else if pathOf gal != 9 || !canonical gal then bad Code.addrpath gal s
  else if gal.toNat % 256 != 0 then bad Code.align gal s
  else s.access x (recordReqs l (BitVec.ofNat 64 (descNat bs 0 8)) (descNat bs 24 1) AccKind.load [0, 9]) (fun exs s =>
    s.access x (if descNat bs 26 2 / 2 % 2 = 1 then [] else recordReqs l (BitVec.ofNat 64 (descNat bs 8 8)) 32 AccKind.store [0, 2]) (fun os s =>
      if descNat bs 30 2 % 256 != 0 then bad Code.align 0 s
      else if (s.unit x.wave.unit).scratchBytes < descNat bs 30 2 + 8192 then bad Code.addrpath 0 s
      else .done ((s.setAgent (.lane x.w l) reader).candEnter x (descriptorRun x vd index ea bs exs os)
        (fun k s => s.candStart x.w k (descriptorRun x vd index ea bs exs os) (tget 0 index k)))))

/-- The fields of a descriptor pass the checks that come before its accesses (10 R241). -/
structure DescriptorOk (s : State) (x : Iss) (bs : List Byte) : Prop where
  nexPos : 1 ≤ descNat bs 24 1
  nexLe : descNat bs 24 1 ≤ 16
  flags : descNat bs 26 2 < 4
  space : descNat bs 25 1 = 0xFF ∨ s.nsAssigned (dieOf x.wave.core) (s.vfOf x.w) (descNat bs 25 1) = true
  path : pathOf (BitVec.ofNat 64 (descNat bs 16 8)) = 9
  canon : canonical (BitVec.ofNat 64 (descNat bs 16 8)) = true
  align : (BitVec.ofNat 64 (descNat bs 16 8)).toNat % 256 = 0

section
variable {x : Iss} {vd : Nat} {index : SMap Word} {ea : DWord} {bs : List Byte} {reader : AgentSt}

theorem crunOf_done {s s2 s3 : State} {exs os : List Place} (hok : DescriptorOk s x bs)
    (hexs : Reaches s x (recordReqs (lowestLane x.live) (BitVec.ofNat 64 (descNat bs 0 8)) (descNat bs 24 1) AccKind.load [0, 9]) exs s2)
    (hos : Reaches s2 x (if descNat bs 26 2 / 2 % 2 = 1 then [] else
      recordReqs (lowestLane x.live) (BitVec.ofNat 64 (descNat bs 8 8)) 32 AccKind.store [0, 2]) os s3)
    (hsb : descNat bs 30 2 % 256 = 0) (hscr : descNat bs 30 2 + 8192 ≤ (s3.unit x.wave.unit).scratchBytes) :
    crunOf x vd index ea bs reader s = .done ((s3.setAgent (.lane x.w (lowestLane x.live)) reader).candEnter x
      (descriptorRun x vd index ea bs exs os) (fun k s => s.candStart x.w k (descriptorRun x vd index ea bs exs os) (tget 0 index k))) := by
  have hfields : ¬ (decide (descNat bs 24 1 = 0) || decide (16 < descNat bs 24 1) || decide (4 ≤ descNat bs 26 2)) = true := by
    have hpos := hok.nexPos
    have hle := hok.nexLe
    have hflags := hok.flags
    simp only [Bool.or_eq_true, decide_eq_true_eq]
    omega
  have hspace : ¬ (descNat bs 25 1 != 0xFF && !s.nsAssigned (dieOf x.wave.core) (s.vfOf x.w) (descNat bs 25 1)) = true := by
    rcases hok.space with h | h <;> simp [h]
  unfold crunOf
  dsimp only
  rw [if_neg hfields, if_neg hspace, if_neg (by rw [hok.path]; decide), if_neg (by simp [hok.path, hok.canon]), if_neg (by rw [hok.align]; decide),
    access_of_reaches hexs, access_of_reaches hos, if_neg (by simp [hsb]), if_neg (by omega)]

end

section
variable {s : State} {c : Cursor} {w : Full}

/-- CRUN's operands pass their checks, and its descriptor is reached without poison (10 R240, R241). -/
structure CrunReads (s : State) (c : Cursor) (w : Full) (x : Iss) (vd ia : Nat) (p : Place) (s1 : State) : Prop where
  issued : s.issOf c w.pn w.pm = x
  dest : w.d = .v vd
  idx : w.a = .v ia
  destLow : vd < 240
  idxLow : ia < 240
  regs : 256 ≤ (s.footOf c.wave).vregs
  group : c.group = x.live
  tag : (s.wave c.wave).rtag ia = tagN32
  reach : Reaches s x (recordReqs (lowestLane x.live) (s.addrBase x w.b (lowestLane x.live)) 1 AccKind.load [0, 2]) [p] s1
  clean : Clean s1 [p] 32

/-- The candidate indexes of the lanes of E (10 R240). -/
def State.candIndexes (s : State) (x : Iss) (ia : Nat) : SMap Word :=
  (lanesOf x.e).foldl (fun (m : SMap Word) k => tset 0 m k (s.candIndex x (.v ia) k)) []

/-- CRUN whose descriptor is read comes to what the descriptor says. -/
theorem crun_completes {x : Iss} {vd ia : Nat} {p : Place} {s1 eff : State} (hi : Issues s c (.crun w) (crunHead w))
    (h : CrunReads s c w x vd ia p s1)
    {r : List Byte × AgentSt × State} (hr : s1.readDescriptor c.wave (lowestLane x.live) p.loc = r)
    (hbody : crunOf x vd (s1.candIndexes x ia) (s.addrBase x w.b (lowestLane x.live)) r.1 r.2.1 r.2.2 = .done eff) :
    Completes s c (.crun w) (crunHead w) eff := by
  obtain ⟨hx, hd, ha, hvd, hia, hregs, hg, htag, hreach, hclean⟩ := h
  have hw : x.w = c.wave := by rw [← hx]; rfl
  have hv : x.wave = s.wave c.wave := by rw [← hx]; rfl
  have hxg : x.g = x.live := by rw [← hg, ← hx]; rfl
  refine (exec_crun w s).trans ?_
  unfold execCrun
  refine perform_done hi ?_
  simp only [crunHead, headF, hx, hd, ha]
  rw [if_neg (by rw [hw]; simp only [Bool.or_eq_true, decide_eq_true_eq]; omega),
    if_neg (by simp [hxg]), if_neg (by simp [tagsAre, hv, htag]), access_of_reaches hreach, reach_of_clean hclean,
    if_neg (by simpa using (hclean p (by simp)).2)]
  simp only [List.head?_cons, Option.map_some, Option.getD_some, hw, hr]
  rw [← hbody]
  simp only [crunOf, descriptorRun, descNat, State.candIndexes, hw]
  rfl

end

/-! The Vestibule words (10 R254, R255). -/

theorem exec_vsti (w : Full) (s : State) : exec (.vsti w) s = execVsti w s := rfl
theorem exec_vstq (w : Full) (s : State) : exec (.vstq w) s = execVstq w s := rfl
theorem exec_vstc (w : Full) (s : State) : exec (.vstc w) s = execVstc w s := rfl

/-- The steps of VSTI and VSTQ in lane order: each lane's answer, and the state. -/
def State.vestSteps (s : State) (x : Iss) (ns n : Nat) (insert : Bool) : List (Nat × Nat) × State :=
  (lanesOf x.e).foldl (fun (acc : List (Nat × Nat) × State) l =>
    let (hit, s) := acc.2.vestStep (dieOf x.wave.core) ns (x.wave.rv2 (n + 2) l ++ x.wave.rv2 n l) insert
    (acc.1 ++ [(l, if hit then 1 else 0)], s)) ([], s)

theorem vestBody_done {s : State} {x : Iss} {w : Full} {n ns : Nat} (ha : w.a = .v n) (hlo : x.wave.rtag n = tagN64) (hhi : x.wave.rtag (n + 2) = tagN64)
    (hns : s.nsOperand x w.b = some ns) (insert : Bool) :
    s.vestBody x w insert = .done ((s.vestSteps x ns n insert).2.put x w.d false tagN32 (valOf (s.vestSteps x ns n insert).1)) := by
  simp only [State.vestBody, ha, hns]
  exact if_neg (by simp [hlo, hhi])

theorem vstc_completes {s : State} {c : Cursor} {w : Full} {ns : Nat} (hi : Issues s c (.vstc w) (headF w [(w.a, 1)] true))
    (he : (s.issOf c w.pn w.pm).e ≠ 0) (hns : s.nsOperand (s.issOf c w.pn w.pm) w.a = some ns) :
    Completes s c (.vstc w) (headF w [(w.a, 1)] true) (s.modDie (dieOf (s.wave c.wave).core) (fun d =>
      let e := tget Namespace.init d.spaces ns
      { d with spaces := tset Namespace.init d.spaces ns { e with stamp := e.stamp + 1, entries := [] } })) := by
  refine completes hi (exec_vstc w s) ?_
  simp only [headF, hns]
  exact if_neg he

end Sys2Proof.Machine

namespace Sys2Proof
open Machine

/-- Settles O52: CRUN by its descriptor's checks in turn, and the Vestibule words by their steps. -/
theorem candidateRun : Obligations.CandidateRun := by
  refine fun w s c => ⟨?_, fun s w l loc => ?_, fun n ns ha hlo hhi hns => ?_, fun ns hi he hns => vstc_completes hi he hns⟩
  · intro vd ia ps1 s1 exs s2 os s3 h l ea loc r nat gal norec index hi hd ha hvd hia hregs hg htag hread hclean hpos hle hflags hspace hpath hcanon
      halign hexs hos hsb hscr run
    have hreads : CrunReads s c w (s.issOf c w.pn w.pm) vd ia ps1 s1 := ⟨rfl, hd, ha, hvd, hia, hregs, hg, htag, hread, hclean⟩
    have hok : DescriptorOk r.2.2 (s.issOf c w.pn w.pm) r.1 := ⟨hpos, hle, hflags, hspace, hpath, hcanon, halign⟩
    simp only [norec, decide_eq_true_eq] at hos
    exact crun_completes hi hreads (r := r) rfl (crunOf_done hok hexs hos hsb hscr)
  · obtain ⟨hlen, hq⟩ := readDescriptor_spec s w l loc
    exact ⟨readDescriptor_state s w l loc, hlen, fun _ _ => hq⟩
  · have hbody := vestBody_done ha hlo hhi hns
    exact ⟨fun hi => completes hi (exec_vsti w s) (hbody true), fun hi => completes hi (exec_vstq w s) (hbody false)⟩

end Sys2Proof
end

section
/-! PROOFS. The fields of native words of each form: what the encoder writes, the decoder reads (O7). -/
namespace Sys2Proof

/-! A field of a number, and a signed field. -/

theorem wrapNat_lt (x : Int) (n : Nat) : wrapNat x n < 2 ^ n := by
  have hpos := Nat.two_pow_pos n
  have hlt := Int.emod_lt_of_pos x (b := (2 ^ n : Nat)) (by omega)
  unfold wrapNat
  omega

theorem sextNat_wrapNat_of_bounds {k : Nat} {x : Int} (hlo : -(2 ^ k : Nat) ≤ x) (hhi : x < (2 ^ k : Nat)) :
    sextNat (wrapNat x (k + 1)) (k + 1) = x := by
  have hpos := Nat.two_pow_pos k
  have hmod : ((wrapNat x (k + 1) : Nat) : Int) = if x < 0 then x + (2 * 2 ^ k : Nat) else x := by
    unfold wrapNat
    rw [Nat.pow_succ', Int.toNat_of_nonneg (Int.emod_nonneg _ (by omega))]
    split
    · rw [← Int.add_emod_right, Int.emod_eq_of_lt (by omega) (by omega)]
    · rw [Int.emod_eq_of_lt (by omega) (by omega)]
  have hlt := wrapNat_lt x (k + 1)
  unfold sextNat
  rw [Nat.add_sub_cancel, Nat.mod_eq_of_lt hlt, Nat.pow_succ']
  split at hmod <;> split <;> omega

/-! Operands (12 R276, R277). -/

theorem encodeOpnd_lt {o : Opnd} (h : o.wf = true) : encodeOpnd o < 1024 := by
  cases o <;> simp only [Opnd.wf, Bool.and_eq_true, decide_eq_true_eq] at h <;> simp only [encodeOpnd] <;> omega

/-- An operand of class code 11 is read by its register field (12 R277). -/
theorem decodeOpnd_special {r : Nat} (hr : r < 256) : decodeOpnd (768 + r) =
    if r < 0x40 then .ok (.t r) else if r < 0x48 then .ok (.m (r - 0x40)) else if r < 0x4B then .ok (.lc (r - 0x48))
    else if r < 0x50 then .error .illop else if r < 0x5D then .ok (.sp r) else if r < 0x60 then .error .illop
    else if r < 0x70 then .ok (.k (r - 0x60)) else if r < 0x78 then .ok (.e (r - 0x70)) else if r < 0x80 then .error .illop
    else .ok (.imm ((r : Int) - 0xC0)) := by
  have hr : (768 + r) % 256 = r ∧ (768 + r) / 256 % 4 = 3 := by omega
  simp only [decodeOpnd, hr]

theorem decodeOpnd_encodeOpnd {o : Opnd} (h : o.wf = true) : decodeOpnd (encodeOpnd o) = .ok o := by
  cases o <;> simp only [Opnd.wf, Bool.and_eq_true, decide_eq_true_eq] at h
  case s n =>
    have hm : n % 256 = n ∧ n / 256 % 4 = 0 := by omega
    simp only [decodeOpnd, encodeOpnd, hm, if_pos h]
  case a n =>
    have hm : (256 + n) % 256 = n ∧ (256 + n) / 256 % 4 = 1 := by omega
    simp only [decodeOpnd, encodeOpnd, hm, if_pos h]
  case v n =>
    have hm : (512 + n) % 256 = n ∧ (512 + n) / 256 % 4 = 2 := by omega
    simp only [decodeOpnd, encodeOpnd, hm]
  case imm x =>
    rw [encodeOpnd, decodeOpnd_special (by omega)]
    simp (disch := omega) only [if_neg]
    exact congrArg (fun y => Except.ok (Opnd.imm y)) (by omega)
  all_goals
    simp only [encodeOpnd, Nat.add_assoc]
    rw [decodeOpnd_special (by omega)]
    simp (disch := omega) only [if_pos, if_neg, Nat.add_sub_cancel_left]

/-! The forms, field by field (12 R275, R282-R284). -/

theorem bit_lt (b : Bool) : (if b then 1 else 0 : Nat) < 2 := by cases b <;> decide

theorem bit_eq_one (b : Bool) : decide ((if b then 1 else 0 : Nat) = 1) = b := by cases b <;> rfl

/-- A 64-bit word that is no pair word, with its OP (12 R274, R275). -/
structure HasForm (x op : Nat) : Prop where
  lt : x < 2 ^ 64
  native : bits x 63 63 = 0
  op : bits x 62 56 = op

theorem full_wf_iff (w : Full) : w.wf = true ↔ w.sub < 16 ∧ w.d.wf = true ∧ w.a.wf = true ∧ w.b.wf = true ∧ w.c.wf = true ∧
    w.pm < 8 ∧ w.fs < 4 ∧ w.ty < 32 := by
  simp only [Full.wf, Bool.and_eq_true, decide_eq_true_eq, and_assoc]

section
variable {op : Nat} {w : Full} (hop : op < 128) (hw : w.wf = true)
include hw

include hop in
theorem encodeFull_hasForm : HasForm (encodeFull op w) op := by
  obtain ⟨hs, hd, ha, hb, hc, hm, hf, ht⟩ := (full_wf_iff w).mp hw
  have hd := encodeOpnd_lt hd
  have ha := encodeOpnd_lt ha
  have hb := encodeOpnd_lt hb
  have hc := encodeOpnd_lt hc
  have hp := bit_lt w.pn
  have h5 := bit_lt w.m5
  constructor <;> simp only [bits, encodeFull] <;> omega

theorem decodeFull_encodeFull : decodeFull (encodeFull op w) = .ok w := by
  obtain ⟨hs, hdw, haw, hbw, hcw, hm, hf, ht⟩ := (full_wf_iff w).mp hw
  have hd := encodeOpnd_lt hdw
  have ha := encodeOpnd_lt haw
  have hb := encodeOpnd_lt hbw
  have hc := encodeOpnd_lt hcw
  have hp := bit_lt w.pn
  have h5 := bit_lt w.m5
  have hx : bits (encodeFull op w) 55 52 = w.sub ∧ bits (encodeFull op w) 51 42 = encodeOpnd w.d ∧
      bits (encodeFull op w) 41 32 = encodeOpnd w.a ∧ bits (encodeFull op w) 31 22 = encodeOpnd w.b ∧
      bits (encodeFull op w) 21 12 = encodeOpnd w.c ∧ bits (encodeFull op w) 11 11 = (if w.pn then 1 else 0) ∧
      bits (encodeFull op w) 10 8 = w.pm ∧ bits (encodeFull op w) 7 6 = w.fs ∧
      bits (encodeFull op w) 5 5 = (if w.m5 then 1 else 0) ∧ bits (encodeFull op w) 4 0 = w.ty := by
    simp only [bits, encodeFull]
    omega
  simp only [decodeFull, hx, decodeOpnd_encodeOpnd, hdw, haw, hbw, hcw, bit_eq_one]
  rfl

end

theorem mform_wf_iff (w : MForm) : w.wf = true ↔ w.sub < 16 ∧ w.d.wf = true ∧ w.a.wf = true ∧ w.b.wf = true ∧ -512 ≤ w.off ∧
    w.off ≤ 511 ∧ w.pm < 8 ∧ w.fs < 4 ∧ w.ty < 32 := by
  simp only [MForm.wf, Bool.and_eq_true, decide_eq_true_eq, and_assoc]

section
variable {op : Nat} {w : MForm} (hop : op < 128) (hw : w.wf = true)
include hw

include hop in
theorem encodeM_hasForm : HasForm (encodeM op w) op := by
  obtain ⟨hs, hd, ha, hb, -, -, hm, hf, ht⟩ := (mform_wf_iff w).mp hw
  have hd := encodeOpnd_lt hd
  have ha := encodeOpnd_lt ha
  have hb := encodeOpnd_lt hb
  have ho := wrapNat_lt w.off 10
  have hp := bit_lt w.pn
  constructor <;> simp only [bits, encodeM] <;> omega

theorem decodeM_encodeM : decodeM (encodeM op w) = .ok w := by
  obtain ⟨hs, hdw, haw, hbw, hlo, hhi, hm, hf, ht⟩ := (mform_wf_iff w).mp hw
  have hd := encodeOpnd_lt hdw
  have ha := encodeOpnd_lt haw
  have hb := encodeOpnd_lt hbw
  have ho := wrapNat_lt w.off 10
  have hp := bit_lt w.pn
  have hx : bits (encodeM op w) 55 52 = w.sub ∧ bits (encodeM op w) 51 42 = encodeOpnd w.d ∧
      bits (encodeM op w) 41 32 = encodeOpnd w.a ∧ bits (encodeM op w) 31 22 = encodeOpnd w.b ∧
      bits (encodeM op w) 21 12 = wrapNat w.off 10 ∧ bits (encodeM op w) 11 11 = (if w.pn then 1 else 0) ∧
      bits (encodeM op w) 10 8 = w.pm ∧ bits (encodeM op w) 7 6 = w.fs ∧ bits (encodeM op w) 5 1 = w.ty ∧
      bits (encodeM op w) 0 0 = 0 := by
    simp only [bits, encodeM]
    omega
  have hoff : sextNat (wrapNat w.off 10) 10 = w.off := sextNat_wrapNat_of_bounds (k := 9) (by omega) (by omega)
  simp only [decodeM, hx, decodeOpnd_encodeOpnd, hdw, haw, hbw, bit_eq_one, hoff]
  rfl

end

/-- The fields of a B-form word. -/
structure BFields (x sub : Nat) (cond aux : Opnd) (off : Int) (md : Nat) : Prop where
  sub : bits x 55 52 = sub
  cond : decodeOpnd (bits x 51 42) = .ok cond
  aux : decodeOpnd (bits x 41 32) = .ok aux
  off : 8 * sextNat (bits x 31 8) 24 = off
  md : bits x 7 0 = md

section
variable {op sub md : Nat} {cond aux : Opnd} {off : Int} (hop : op < 128) (hs : sub < 16) (hc : cond.wf = true) (ha : aux.wf = true)
  (hoff : offWf off = true) (hm : md < 256)
include hs hc ha hm

include hop in
theorem encodeB_hasForm : HasForm (encodeB op sub cond aux off md) op := by
  have hc := encodeOpnd_lt hc
  have ha := encodeOpnd_lt ha
  have ho := wrapNat_lt (off / 8) 24
  constructor <;> simp only [bits, encodeB] <;> omega

include hoff in
theorem encodeB_fields : BFields (encodeB op sub cond aux off md) sub cond aux off md := by
  have hcl := encodeOpnd_lt hc
  have hal := encodeOpnd_lt ha
  have ho := wrapNat_lt (off / 8) 24
  simp only [offWf, Bool.and_eq_true, decide_eq_true_eq] at hoff
  obtain ⟨⟨h8, hlo⟩, hhi⟩ := hoff
  have hx : bits (encodeB op sub cond aux off md) 55 52 = sub ∧ bits (encodeB op sub cond aux off md) 51 42 = encodeOpnd cond ∧
      bits (encodeB op sub cond aux off md) 41 32 = encodeOpnd aux ∧
      bits (encodeB op sub cond aux off md) 31 8 = wrapNat (off / 8) 24 ∧ bits (encodeB op sub cond aux off md) 7 0 = md := by
    simp only [bits, encodeB]
    omega
  obtain ⟨hsub, hbc, hba, hbo, hmd⟩ := hx
  have hback : sextNat (wrapNat (off / 8) 24) 24 = off / 8 := sextNat_wrapNat_of_bounds (k := 23) (by omega) (by omega)
  exact ⟨hsub, by rw [hbc, decodeOpnd_encodeOpnd hc], by rw [hba, decodeOpnd_encodeOpnd ha], by rw [hbo, hback]; omega, hmd⟩

end

theorem slot_wf_iff (x : Slot) : x.wf = true ↔ x.pop < 64 ∧ x.d.wf = true ∧ x.b.wf = true ∧ x.ty < 32 := by
  simp only [Slot.wf, Bool.and_eq_true, decide_eq_true_eq, and_assoc]

theorem encodePair_lt {x y : Slot} (hx : x.wf = true) (hy : y.wf = true) : encodePair x y < 2 ^ 64 ∧ bits (encodePair x y) 63 63 = 1 := by
  obtain ⟨hxp, hxd, hxb, hxt⟩ := (slot_wf_iff x).mp hx
  obtain ⟨hyp, hyd, hyb, hyt⟩ := (slot_wf_iff y).mp hy
  have hxd := encodeOpnd_lt hxd
  have hxb := encodeOpnd_lt hxb
  have hyd := encodeOpnd_lt hyd
  have hyb := encodeOpnd_lt hyb
  simp only [bits, encodePair]
  omega

theorem decodePair_encodePair {x y : Slot} (hx : x.wf = true) (hy : y.wf = true) : decodePair (encodePair x y) = .ok (.pairWord x y) := by
  obtain ⟨hxp, hxdw, hxbw, hxt⟩ := (slot_wf_iff x).mp hx
  obtain ⟨hyp, hydw, hybw, hyt⟩ := (slot_wf_iff y).mp hy
  have hxd := encodeOpnd_lt hxdw
  have hxb := encodeOpnd_lt hxbw
  have hyd := encodeOpnd_lt hydw
  have hyb := encodeOpnd_lt hybw
  have hf : bits (encodePair x y) 62 57 = x.pop ∧ bits (encodePair x y) 56 47 = encodeOpnd x.d ∧
      bits (encodePair x y) 46 37 = encodeOpnd x.b ∧ bits (encodePair x y) 36 32 = x.ty ∧ bits (encodePair x y) 31 31 = 0 ∧
      bits (encodePair x y) 30 25 = y.pop ∧ bits (encodePair x y) 24 15 = encodeOpnd y.d ∧
      bits (encodePair x y) 14 5 = encodeOpnd y.b ∧ bits (encodePair x y) 4 0 = y.ty := by
    simp only [bits, encodePair]
    omega
  simp only [decodePair, hf, decodeOpnd_encodeOpnd, hxdw, hxbw, hydw, hybw]
  rfl

/-! The tokens of an extension word (12 R283). -/

theorem encodeTokens_lt {ts : List Nat} (h : ∀ t ∈ ts, t < 16) : encodeTokens ts < 16 ^ ts.length := by
  induction ts with
  | nil => exact Nat.one_pos
  | cons t ts ih =>
    obtain ⟨ht, hts⟩ := List.forall_mem_cons.mp h
    have hlow := ih hts
    have hhead : t * 16 ^ ts.length ≤ 15 * 16 ^ ts.length := Nat.mul_le_mul_right _ (Nat.le_of_lt_succ ht)
    rw [encodeTokens, List.length_cons, Nat.pow_succ]
    omega

/-- Tokens are read back from below whatever stands above them. -/
theorem decodeTokens_encodeTokens {ts : List Nat} (h : ∀ t ∈ ts, t < 16) (a : Nat) :
    decodeTokens (a * 16 ^ ts.length + encodeTokens ts) ts.length = ts := by
  induction ts generalizing a with
  | nil => rfl
  | cons t ts ih =>
    obtain ⟨ht, hts⟩ := List.forall_mem_cons.mp h
    have hsplit : a * 16 ^ (ts.length + 1) + encodeTokens (t :: ts) = (a * 16 + t) * 16 ^ ts.length + encodeTokens ts := by
      rw [encodeTokens, Nat.pow_succ', ← Nat.mul_assoc, ← Nat.add_assoc, ← Nat.add_mul]
    have hdiv : ((a * 16 + t) * 16 ^ ts.length + encodeTokens ts) / 16 ^ ts.length = a * 16 + t := by
      rw [Nat.mul_comm, Nat.mul_add_div (Nat.pow_pos (by decide)), Nat.div_eq_of_lt (encodeTokens_lt hts), Nat.add_zero]
    rw [List.length_cons, hsplit, decodeTokens, hdiv, ih hts (a * 16 + t)]
    congr 1
    omega

end Sys2Proof
end

section
/-! PROOFS. Every legal native instruction is read back from its words (O7). -/
namespace Sys2Proof

/-! Opcodes of the full form (12 R287). -/

/-- Opcodes whose word is in the full form, and is all of the instruction. -/
def plainOp (op : Nat) : Bool :=
  op < 128 && !reservedOp op && !(op = 0x01 || op = 0x02 || op = 0x04 || op = 0x07) && op != 0x2D &&
    !(op = 0x3C || op = 0x3D || op = 0x60 || op = 0x61 || op = 0x62) && op != 0x51

theorem plainOp_of_fullOp {i : Instr} {op : Nat} {w : Full} (h : i.fullOp = some (op, w)) : plainOp op = true := by
  unfold Instr.fullOp at h
  split at h
  all_goals simp only [Option.some.injEq, Prod.mk.injEq, reduceCtorEq] at h
  all_goals
    obtain ⟨rfl, -⟩ := h
    rfl

theorem wf_of_fullOp {i : Instr} {op : Nat} {w : Full} (h : i.fullOp = some (op, w)) : i.wf = w.wf := by
  unfold Instr.fullOp at h
  split at h
  all_goals simp only [Option.some.injEq, Prod.mk.injEq, reduceCtorEq] at h
  all_goals
    obtain ⟨-, rfl⟩ := h
    rfl

theorem illegal_of_illop {i : Instr} {w : Full} {h : Shape} (hs : i.shape = some (w, h)) (hi : h.illop i w = true) :
    i.illegal = some .illop := by
  simp only [Instr.illegal, hs, hi, if_true]

/-- A legal instruction's SUB is one that its entry lists (12 R275, R287). -/
theorem sub_mem_of_legal {i : Instr} {w : Full} {h : Shape} (hs : i.shape = some (w, h)) (hl : i.illegal = none) : w.sub ∈ h.subs := by
  refine Decidable.byContradiction fun hsub => ?_
  have hill := illegal_of_illop hs (by simp only [Shape.illop, List.contains_eq_mem, hsub, decide_false, Bool.not_false, Bool.or_true, Bool.true_or])
  rw [hl] at hill
  cases hill

/-- An opcode and a SUB of the entry name the instruction: the entry's SUBs are tried one by one. -/
theorem fullInstr_of_fullOp {i : Instr} {op : Nat} {w : Full} (h : i.fullOp = some (op, w)) (hl : i.illegal = none) : fullInstr op w = some i := by
  obtain ⟨sub, d, a, b, c, pn, pm, fs, m5, ty⟩ := w
  unfold Instr.fullOp at h
  split at h
  all_goals simp only [Option.some.injEq, Prod.mk.injEq, reduceCtorEq] at h
  all_goals
    obtain ⟨rfl, rfl⟩ := h
    have hsub := sub_mem_of_legal rfl hl
    clear hl
    dsimp only at hsub
    revert sub
    simp only [List.mem_cons, List.not_mem_nil, or_false, forall_eq_or_imp, forall_eq, roundSubs]
  all_goals and_intros
  all_goals rfl

/-! The decoder on each form (12 R274, R282-R288). -/

theorem ok_bind {α β : Type} (a : α) (f : α → Except Reject β) : (Except.ok a >>= f) = f a := rfl

theorem pure_eq_ok {α : Type} (a : α) : (pure a : Except Reject α) = .ok a := rfl

theorem decodeWord_of_fields {x : Nat} {ext : Option Nat} {i : Instr} (h : decodeFields x ext = .ok i) (hl : i.illegal = none) :
    decodeWord x ext = .ok i := by
  simp only [decodeWord, h, hl]

/-- An instruction is read back from a word, and the extension word after it where it has one (12 R274). -/
def ReadsBack (x : Nat) (rest : List Nat) (i : Instr) : Prop := x < 2 ^ 64 ∧ (∀ y ∈ rest, y < 2 ^ 64) ∧ decodeFields x rest.head? = .ok i

theorem readsBack_one {x : Nat} {i : Instr} (hx : x < 2 ^ 64) (h : decodeFields x none = .ok i) : ReadsBack x [] i :=
  ⟨hx, fun _ hy => absurd hy (List.not_mem_nil), h⟩

theorem readsBack_full {i : Instr} {op : Nat} {w : Full} (h : i.fullOp = some (op, w)) (hwf : i.wf = true) (hl : i.illegal = none) :
    ReadsBack (encodeFull op w) [] i := by
  have hw : w.wf = true := wf_of_fullOp h ▸ hwf
  have hp := plainOp_of_fullOp h
  simp only [plainOp, Bool.and_eq_true, Bool.not_eq_true', decide_eq_true_eq, bne_iff_ne, ne_eq] at hp
  obtain ⟨⟨⟨⟨⟨hop, hres⟩, hB⟩, hmovi⟩, hM⟩, hexpr⟩ := hp
  obtain ⟨hlt, hnat, hbop⟩ := encodeFull_hasForm hop hw
  refine readsBack_one hlt ?_
  simp only [decodeFields, hnat, Nat.zero_ne_one, ↓reduceIte, hbop, hres, Bool.false_eq_true, hB, hmovi, hM, decodeFull_encodeFull hw, hexpr,
    pure_eq_ok, ok_bind, fullInstr_of_fullOp h hl]

theorem readsBack_expr {w : Full} {in3 : Opnd} {ts : List Nat} (hwf : (Instr.expr w in3 ts).wf = true) :
    ReadsBack (encodeFull 0x51 w) [encodeOpnd in3 * 2 ^ 54 + encodeTokens ts] (.expr w in3 ts) := by
  simp only [Instr.wf, Bool.and_eq_true, decide_eq_true_eq, List.all_eq_true] at hwf
  obtain ⟨⟨⟨hw, hin⟩, hlen⟩, hts⟩ := hwf
  obtain ⟨hlt, hnat, hbop⟩ := encodeFull_hasForm (op := 0x51) (by decide) hw
  have htl := encodeTokens_lt hts
  have hil := encodeOpnd_lt hin
  rw [hlen] at htl
  generalize hx : encodeOpnd in3 * 2 ^ 54 + encodeTokens ts = x
  have hf : x < 2 ^ 64 ∧ bits x 63 54 = encodeOpnd in3 ∧ bits x 53 52 = 0 ∧ bits x 51 0 = encodeTokens ts := by
    simp only [bits]
    omega
  have hback : decodeTokens (encodeTokens ts) 13 = ts := by
    have := decodeTokens_encodeTokens hts 0
    rwa [hlen, Nat.zero_mul, Nat.zero_add] at this
  refine ⟨hlt, List.forall_mem_singleton.mpr hf.1, ?_⟩
  simp only [decodeFields, hnat, Nat.zero_ne_one, ↓reduceIte, reservedOp, hbop, Nat.reduceEqDiff, Nat.reduceLeDiff, decide_false, decide_true, Bool.and_true,
    Bool.or_self, Bool.false_eq_true, decodeFull_encodeFull hw, List.head?_cons, hf, decodeOpnd_encodeOpnd hin, bne_self_eq_false,
    hback, pure_eq_ok, ok_bind]

theorem readsBack_movi {d : Opnd} {ty : Nat} {imm : Word} (hwf : (Instr.movi d ty imm).wf = true) :
    ReadsBack (0x2D * 2 ^ 56 + encodeOpnd d * 2 ^ 42 + ty * 2 ^ 32 + imm.toNat) [] (.movi d ty imm) := by
  simp only [Instr.wf, Bool.and_eq_true, decide_eq_true_eq] at hwf
  obtain ⟨hd, hty⟩ := hwf
  have hdl := encodeOpnd_lt hd
  have hil := imm.isLt
  generalize hx : 0x2D * 2 ^ 56 + encodeOpnd d * 2 ^ 42 + ty * 2 ^ 32 + imm.toNat = x
  have hf : x < 2 ^ 64 ∧ bits x 63 63 = 0 ∧ bits x 62 56 = 0x2D ∧ bits x 55 52 = 0 ∧ bits x 51 42 = encodeOpnd d ∧ bits x 41 37 = 0 ∧
      bits x 36 32 = ty ∧ bits x 31 0 = imm.toNat := by
    simp only [bits]
    omega
  refine readsBack_one hf.1 ?_
  simp only [decodeFields, hf, Nat.zero_ne_one, ↓reduceIte, reservedOp, Nat.reduceEqDiff, Nat.reduceLeDiff, decide_false, decide_true, Bool.and_true,
    Bool.or_self, Bool.false_eq_true, decodeOpnd_encodeOpnd hd, bne_self_eq_false, BitVec.ofNat_toNat, BitVec.setWidth_eq,
    pure_eq_ok, ok_bind]

theorem readsBack_pair {x y : Slot} (hwf : (Instr.pairWord x y).wf = true) : ReadsBack (encodePair x y) [] (.pairWord x y) := by
  obtain ⟨hx, hy⟩ := Bool.and_eq_true_iff.mp hwf
  obtain ⟨hlt, hpair⟩ := encodePair_lt hx hy
  refine readsBack_one hlt ?_
  simp only [decodeFields, hpair, ↓reduceIte, decodePair_encodePair hx hy]

theorem readsBack_reserved {x : DWord} (hwf : (Instr.reservedOpcode x).wf = true) : ReadsBack x.toNat [] (.reservedOpcode x) := by
  simp only [Instr.wf, reservedWord, Bool.and_eq_true, decide_eq_true_eq] at hwf
  obtain ⟨h63, hop⟩ := hwf
  refine readsBack_one x.isLt ?_
  have hnat : bits x.toNat 63 63 = 0 := by
    simp only [bits]
    omega
  change reservedOp (bits x.toNat 62 56) = true at hop
  simp only [decodeFields, hnat, Nat.zero_ne_one, ↓reduceIte, hop, BitVec.ofNat_toNat, BitVec.setWidth_eq, pure_eq_ok]

theorem readsBack_m {op : Nat} {w : MForm} {i : Instr} (hw : w.wf = true)
    (h : (op, i) ∈ [(0x3C, Instr.cld w), (0x3D, .cst w), (0x60, .ld w), (0x61, .st w), (0x62, .pfetch w)]) : ReadsBack (encodeM op w) [] i := by
  simp only [List.mem_cons, Prod.mk.injEq, List.not_mem_nil, or_false] at h
  obtain ⟨hlt, hnat, hbop⟩ := encodeM_hasForm (op := op) (by omega) hw
  refine readsBack_one hlt ?_
  rcases h with ⟨rfl, rfl⟩ | ⟨rfl, rfl⟩ | ⟨rfl, rfl⟩ | ⟨rfl, rfl⟩ | ⟨rfl, rfl⟩
  all_goals simp only [decodeFields, hnat, Nat.zero_ne_one, ↓reduceIte, reservedOp, hbop, Nat.reduceEqDiff, Nat.reduceLeDiff, decide_false, decide_true, Bool.and_true,
    Bool.and_false, Nat.succ_ne_self, Bool.or_true, Bool.or_false, Bool.or_self, Bool.false_eq_true, decodeM_encodeM hw, pure_eq_ok, ok_bind]

/-- A B-form instruction is what its opcode makes of the fields. -/
theorem readsBack_b {op sub md : Nat} {cond aux : Opnd} {off : Int} {i : Instr} (hop : op ∈ [0x01, 0x02, 0x04, 0x07]) (hs : sub < 16)
    (hc : cond.wf = true) (ha : aux.wf = true) (hoff : offWf off = true) (hm : md < 256)
    (h : ∀ x, BFields x sub cond aux off md → decodeB op x = .ok i) : ReadsBack (encodeB op sub cond aux off md) [] i := by
  simp only [List.mem_cons, List.not_mem_nil, or_false] at hop
  obtain ⟨hlt, hnat, hbop⟩ := encodeB_hasForm (op := op) (off := off) (by omega) hs hc ha hm
  refine readsBack_one hlt ?_
  have hb := h _ (encodeB_fields (op := op) hs hc ha hoff hm)
  rcases hop with rfl | rfl | rfl | rfl
  all_goals simp only [decodeFields, hnat, Nat.zero_ne_one, ↓reduceIte, reservedOp, hbop, Nat.reduceEqDiff, Nat.reduceLeDiff, decide_false, decide_true, Bool.and_true,
    Nat.succ_ne_self, Bool.or_true, Bool.or_false, Bool.or_self, Bool.false_eq_true, hb]

theorem readsBack_bra {sub : Nat} {cond : Opnd} {off : Int} (hwf : (Instr.bra sub cond off).wf = true) :
    ReadsBack (encodeB 0x01 sub cond (.s 0) off 0) [] (.bra sub cond off) := by
  simp only [Instr.wf, Bool.and_eq_true, decide_eq_true_eq] at hwf
  obtain ⟨⟨hs, hc⟩, ho⟩ := hwf
  refine readsBack_b (by decide) hs hc rfl ho (by decide) fun x hx => ?_
  simp only [decodeB, hx.sub, hx.cond, hx.aux, hx.off, hx.md, Nat.reduceEqDiff, ↓reduceIte, bne_self_eq_false,
    Bool.false_eq_true, pure_eq_ok, ok_bind]

theorem readsBack_brc {sub : Nat} {cond : Opnd} {off : Int} (hwf : (Instr.brc sub cond off).wf = true) :
    ReadsBack (encodeB 0x02 sub cond (.s 0) off 0) [] (.brc sub cond off) := by
  simp only [Instr.wf, Bool.and_eq_true, decide_eq_true_eq] at hwf
  obtain ⟨⟨hs, hc⟩, ho⟩ := hwf
  refine readsBack_b (by decide) hs hc rfl ho (by decide) fun x hx => ?_
  simp only [decodeB, hx.sub, hx.cond, hx.aux, hx.off, hx.md, Nat.reduceEqDiff, Nat.succ_ne_self, ↓reduceIte, bne_self_eq_false,
    Bool.false_eq_true, pure_eq_ok, ok_bind]

theorem readsBack_call {sub : Nat} {cond link : Opnd} {off : Int} (hwf : (Instr.call sub cond link off).wf = true) :
    ReadsBack (encodeB 0x04 sub cond link off 0) [] (.call sub cond link off) := by
  simp only [Instr.wf, Bool.and_eq_true, decide_eq_true_eq] at hwf
  obtain ⟨⟨⟨hs, hc⟩, hlink⟩, ho⟩ := hwf
  refine readsBack_b (by decide) hs hc hlink ho (by decide) fun x hx => ?_
  simp only [decodeB, hx.sub, hx.cond, hx.aux, hx.off, hx.md, Nat.reduceEqDiff, ↓reduceIte, bne_self_eq_false,
    Bool.false_eq_true, pure_eq_ok, ok_bind]

theorem readsBack_loop {lc count : Opnd} {body : Nat} (hwf : (Instr.loop lc count body).wf = true) :
    ReadsBack (encodeB 0x07 0 count lc 0 (body - 1)) [] (.loop lc count body) := by
  simp only [Instr.wf, Bool.and_eq_true, decide_eq_true_eq] at hwf
  obtain ⟨⟨⟨hlc, hcount⟩, hone⟩, hmax⟩ := hwf
  refine readsBack_b (by decide) (by decide) hcount hlc (by decide) (by omega) fun x hx => ?_
  simp only [decodeB, hx.sub, hx.cond, hx.aux, hx.off, hx.md, ↓reduceIte, bne_self_eq_false, Bool.or_self, Bool.false_eq_true, pure_eq_ok,
    ok_bind, Nat.sub_add_cancel hone]

theorem readsBack_of_encode {i : Instr} {w : Nat} {rest : List Nat} (hwf : i.wf = true) (hl : i.illegal = none) (hc : candOp i = none)
    (he : encode i = w :: rest) : ReadsBack w rest i := by
  cases hf : i.fullOp with
  | some p =>
    obtain ⟨op, f⟩ := p
    simp only [encode, hf, List.cons.injEq] at he
    obtain ⟨rfl, rfl⟩ := he
    exact readsBack_full hf hwf hl
  | none =>
    simp only [encode, hf, hc] at he
    split at he
    all_goals simp only [List.cons.injEq, reduceCtorEq] at he
    all_goals obtain ⟨rfl, rfl⟩ := he
    · exact readsBack_bra hwf
    · exact readsBack_brc hwf
    · exact readsBack_call hwf
    · exact readsBack_loop hwf
    · exact readsBack_movi hwf
    · exact readsBack_m hwf (.head _)
    · exact readsBack_m hwf (.tail _ (.head _))
    · exact readsBack_m hwf (.tail _ (.tail _ (.head _)))
    · exact readsBack_m hwf (.tail _ (.tail _ (.tail _ (.head _))))
    · exact readsBack_m hwf (.tail _ (.tail _ (.tail _ (.tail _ (.head _)))))
    · exact readsBack_expr hwf
    · exact readsBack_pair hwf
    · exact readsBack_reserved hwf

/-- Settles O7: each form's fields are read back from its word, and a full-form opcode with a SUB of its entry names the instruction. -/
theorem encodeDecodeNative : Obligations.EncodeDecodeNative := by
  refine ⟨fun i w rest hwf hl hc he => ?_, fun i op w h => by simp only [encode, h]⟩
  obtain ⟨hw, hrest, hd⟩ := readsBack_of_encode hwf hl hc he
  exact ⟨hw, hrest, decodeWord_of_fields hd hl⟩

end Sys2Proof
end

section
/-! PROOFS. A pair slot whose special source is read from another state than the word's (O25). -/
namespace Sys2Proof.Machine

/-- A word of a group that is between the steps of its word is not judged again (03 R82; 06 R168). -/
theorem issues_of_midSteps {s : State} {c : Cursor} (i : Instr) (h : Head) (hc : s.cur = some c)
    (hk : ((s.wave c.wave).stepsOf c.group).isSome = true) : Issues s c i h :=
  ⟨hc, by
    unfold State.issueFault
    exact if_pos hk⟩

/-- The unit coordinate X as a special source, moved to v4: a pair word may not name it (12 R285). -/
def coordSlot : Slot := { pop := 0x0C, d := .v 4, b := .sp 0x52, ty := tagN32 }

/-- Lane 0 of wave 0, at a word of a module that declares 8 varying registers. -/
def lane0Cursor : Cursor := { missCursor 0 1 0 8 with vvirt := 8 }

/-- Wave 0 of unit 0, whose X is `n`, with its lane 0 between the steps of the word at the cursor. -/
def midStepsAt (n : Nat) : State :=
  { State.reset with
    cur := some lane0Cursor
    waves := [(0, { Wave.blank with steps := [{ cur := lane0Cursor, instr := .pairWord coordSlot coordSlot, left := [], vals := [] }] })]
    units := [(0, { UnitSt.blank with x := n })] }

theorem midStepsAt_issues (n : Nat) : Issues (midStepsAt n) lane0Cursor (.pairWord coordSlot coordSlot) (Head.plain [] false) :=
  issues_of_midSteps _ _ rfl rfl

/-- v4 of lane 0 of wave 0 after a slot. -/
def v4After : Res → Word
  | .done s => (s.wave 0).rv 4 0
  | _ => 0

/-- The slot reads X of the state it runs in. -/
theorem v4After_coordSlot : v4After (slotRun coordSlot ((midStepsAt 0).issOf lane0Cursor false 0) (midStepsAt 1)) = 1 := by decide

end Sys2Proof.Machine

namespace Sys2Proof
open Machine

/-- Refutes O25: in a state whose group is between the steps of its word, that word is not judged by the rules that refuse a pair slot a
special source, and such a slot, run in a state whose unit has another X, gives its destination that X and not the X that the word's own state
has. -/
theorem not_pairAndCrossLane : ¬ Obligations.PairAndCrossLane := by
  rintro ⟨hpair, -⟩
  obtain ⟨-, -, -, -, -, hslot⟩ := hpair coordSlot coordSlot (midStepsAt 0) lane0Cursor (midStepsAt_issues 0)
  obtain ⟨-, -, -, hvalue⟩ := hslot coordSlot (midStepsAt 1) (.inl rfl) (by decide)
  obtain ⟨-, -, -, -, -, -, -, -, -, -, -, hmove, -⟩ := hvalue (by decide) (by decide) (by decide)
  have hgives := hmove (by decide) tagN32 (by decide)
  rw [if_neg (by decide)] at hgives
  have hzero := congrArg v4After hgives
  rw [v4After_coordSlot] at hzero
  exact absurd hzero (by decide)

end Sys2Proof
end

section
/-! PROOFS. Words written out from the spec's encodings, and the lanes that a predicate enables (O6, O13). -/
namespace Sys2Proof.Machine

/-- The lanes that a predicate enables (12 R281). -/
theorem getLsbD_enabledLanes (v : Wave) (g : Mask) (pn : Bool) {pm l : Nat} (hl : l < 32) :
    (enabledLanes v g pn pm).getLsbD l = (g.getLsbD l && (pm = 0 || ((v.rm g pm).getLsbD l != pn))) := by
  unfold enabledLanes
  by_cases h0 : pm = 0
  · simp only [h0, ↓reduceIte, decide_true, Bool.true_or, Bool.and_true]
  · cases pn
    · simp only [h0, ↓reduceIte, Bool.false_eq_true, BitVec.getLsbD_and, decide_false, Bool.bne_false, Bool.false_or]
    · simp only [h0, ↓reduceIte, hl, BitVec.getLsbD_and, BitVec.getLsbD_not, decide_true, Bool.true_and, decide_false, Bool.bne_true,
        Bool.false_or]

theorem mform_illop_of_not_m0 {w : MForm} (hn : w.pn = true) (hm : w.pm = 0) (typed : Bool) : w.illop typed = true := by
  simp only [MForm.illop, hn, hm, decide_true, Bool.and_self, Bool.or_true, Bool.true_or]

end Sys2Proof.Machine

namespace Sys2Proof
open Machine

/-- Settles O6: each word evaluates to its instruction. -/
theorem decodeSpecWords : Obligations.DecodeSpecWords := by
  unfold Obligations.DecodeSpecWords
  decide

/-- Settles O13: the enabled lanes by the predicate's definition, and PN 1 with m0 by the first rule of every form. -/
theorem predicateRule : Obligations.PredicateRule := by
  refine ⟨fun s c pn pm l _ hl => getLsbD_enabledLanes _ _ _ hl, fun i w h hs hn hm => ?_, fun w hn hm => ?_, fun w in3 ts hn hm => ?_⟩
  · exact illegal_of_illop hs (by simp only [Shape.illop, hn, hm, decide_true, Bool.and_self, Bool.or_true, Bool.true_or])
  · simp only [List.forall_mem_cons]
    have hill := mform_illop_of_not_m0 hn hm
    refine ⟨if_pos (hill true), if_pos (hill true), if_pos ?_, if_pos (hill false), if_pos (hill false), fun _ h => nomatch h⟩
    rw [hill false, Bool.true_or]
  · exact if_pos (by simp only [hn, hm, decide_true, Bool.and_self, Bool.or_true, Bool.true_or])

end Sys2Proof
end

section
/-! PROOFS. Integer arithmetic and shifts, by lane and affine (O18). -/
namespace Sys2Proof.Machine

section
variable {i : Instr} {w : Full} {srcs : List Opnd} {cls : ClsPol} {aff : State → Iss → DWord × Int}
  {f : Nat → Bool → Nat → Nat → Nat → Nat × Bool × Bool} {s : State} {c : Cursor}

/-- An integer word that is not computed affine is computed element by element (13 R297). -/
theorem intWord_of {g : Nat → Bool → Nat → Nat → Nat → Nat × Bool × Bool} (he : exec i s = intOp i w srcs cls aff f s) (hfg : f = g) :
    IntWord s c i w srcs cls g := by
  subst hfg
  intro hi hty htags hE hcls
  refine writesSticky_of (completes hi he ?_)
  have hE' : (s.issOf c (headT w srcs).pn (headT w srcs).pm).e ≠ 0 := hE
  have htags' : tagsAre (s.issOf c (headT w srcs).pn (headT w srcs).pm) srcs w.ty = true := htags
  simp only [intBody, hty, htags', hE', hcls, Bool.not_true, Bool.false_eq_true, if_false]
  rfl

/-- An integer word computed affine gives the BASE and the STRIDE of its affine form (06 R157). -/
theorem affineWord_of {r : Iss → DWord × Int} (he : exec i s = intOp i w srcs cls aff f s) (hr : aff s = r) :
    AffineWord s c i w srcs cls r := by
  subst hr
  intro hi hty htags hE hcls hst
  refine writesAffine_of (completes hi he ?_)
  have hE' : (s.issOf c (headT w srcs).pn (headT w srcs).pm).e ≠ 0 := hE
  have htags' : tagsAre (s.issOf c (headT w srcs).pn (headT w srcs).pm) srcs w.ty = true := htags
  have hst' : strideOk (aff s (s.issOf c (headT w srcs).pn (headT w srcs).pm)).2 = true := hst
  simp only [intBody, hty, htags', hE', hcls, hst', Bool.not_true, Bool.false_eq_true, if_false, if_true]
  rfl

end

theorem affMul_eq (w : Full) (s : State) (x : Iss) : affMul w s x =
    ((s.srcA x w.a (wide w.ty)).1 * (s.srcA x w.b (wide w.ty)).1,
      if w.a.level = 1 then (s.srcA x w.a (wide w.ty)).2 * (s.srcA x w.b (wide w.ty)).1.toInt
      else (s.srcA x w.b (wide w.ty)).2 * (s.srcA x w.a (wide w.ty)).1.toInt) := by
  unfold affMul
  dsimp only
  split <;> rfl

end Sys2Proof.Machine

namespace Sys2Proof
open Machine

/-- Settles O18: every word is `intOp`, whose two ways are `intWord_of` and `affineWord_of`. -/
theorem integerResults : Obligations.IntegerResults := by
  unfold Obligations.IntegerResults
  refine ⟨fun w s c => ?_, fun w s c => ?_⟩
  · exact ⟨intWord_of (aff := affAdd w) rfl rfl, intWord_of (aff := affSub w) rfl rfl, intWord_of (aff := affMul w) rfl rfl,
      intWord_of (aff := noAffine) rfl rfl, intWord_of (aff := noAffine) rfl rfl, intWord_of (aff := noAffine) rfl rfl,
      intWord_of (aff := noAffine) rfl rfl, intWord_of (aff := noAffine) rfl rfl, intWord_of (aff := noAffine) rfl rfl,
      intWord_of (aff := noAffine) rfl rfl, intWord_of (aff := noAffine) rfl rfl, intWord_of (aff := affShl w) rfl rfl,
      intWord_of (aff := noAffine) rfl rfl, intWord_of (aff := noAffine) rfl rfl, intWord_of (aff := noAffine) rfl rfl⟩
  · exact ⟨affineWord_of rfl rfl, affineWord_of rfl rfl, affineWord_of rfl (funext fun x => affMul_eq w s x), affineWord_of rfl rfl⟩

end Sys2Proof
end

section
/-! PROOFS. Bitwise, bit-field, bit-count and mask words (O19). -/
namespace Sys2Proof.Machine

section
variable {i : Instr} {w : Full} {s : State} {c : Cursor}

/-- A word whose meaning is one write of its destination, lane by lane, has the frame of a register write. -/
theorem writes_of_body {h : Head} {body : Iss → State → Res} {d : Opnd} {wd : Bool} {tag : Nat} {f : Nat → Nat} (hi : Issues s c i h)
    (he : exec i s = s.perform i h body) (hb : body (s.issOf c h.pn h.pm) s = .done (s.put (s.issOf c h.pn h.pm) d wd tag f)) :
    Writes s c i h d wd tag f := writes_of (completes hi he hb)

/-- The same for an affine result. -/
theorem writesAffine_of_body {h : Head} {body : Iss → State → Res} {d : Opnd} {wd : Bool} {tag : Nat} {b : DWord} {st : Int}
    (hi : Issues s c i h) (he : exec i s = s.perform i h body)
    (hb : body (s.issOf c h.pn h.pm) s = .done (s.putAffine (s.issOf c h.pn h.pm) d wd tag b st)) :
    WritesAffine s c i h d wd tag b st := writesAffine_of (completes hi he hb)

/-- The same for a mask destination. -/
theorem writesMask_of_body {h : Head} {body : Iss → State → Res} {d : Opnd} {p : Nat → Bool} (hi : Issues s c i h)
    (he : exec i s = s.perform i h body) (hb : body (s.issOf c h.pn h.pm) s = .done (s.putMask (s.issOf c h.pn h.pm) d p)) :
    WritesMask s c i h d p := writesMask_of (completes hi he hb)

/-- A bitwise word whose varying sources agree in their tag keeps that tag (05 R133). -/
theorem bitWord_of {srcs : List Opnd} {g : Nat → Nat → Nat → Nat} (he : exec i s = bitOp i w srcs g s) : BitWord s c i w srcs g := by
  intro t hi ht
  refine writes_of_body hi he ?_
  have ht' : keptTag (s.issOf c (headT w srcs).pn (headT w srcs).pm) srcs w.ty = some t := ht
  simp only [bitBody, ht']
  rfl

/-- The head of BFE and BFI: an offset and a width of one register each (log 13). -/
def fieldHead (w : Full) : Head := headF w [(w.d, regsFor w.ty), (w.a, regsFor w.ty), (w.b, 1), (w.c, 1)] (perWave w.d)

/-- A bit-field word on operands of its type gives each lane `f` of its source, offset, width and old destination. -/
theorem fieldOp_writes {also : List Opnd} {f : Nat → Nat → Nat → Nat → Nat → Nat} (he : exec i s = fieldOp i w also f s)
    (hi : Issues s c i (fieldHead w)) (hty : wordInts w.ty = true) (htags : tagsAre (s.issOf c w.pn w.pm) (w.a :: also) w.ty = true) :
    Writes s c i (fieldHead w) w.d (wide w.ty) w.ty (fun l =>
      let x := s.issOf c w.pn w.pm
      f (if wide w.ty then 64 else 32) (s.src x w.a w.ty (wide w.ty) l) (s.srcU x w.b 32 l) (s.srcU x w.c 32 l)
        (s.src x w.d w.ty (wide w.ty) l)) := by
  unfold fieldOp at he
  refine writes_of_body (h := fieldHead w) hi he ?_
  have htags' : tagsAre (s.issOf c (fieldHead w).pn (fieldHead w).pm) (w.a :: also) w.ty = true := htags
  simp only [hty, htags', Bool.not_true, Bool.false_eq_true, if_false]
  rfl

/-- A bit-count word on a source of its type gives each lane `f` of its width and source (13 R318). -/
theorem countOp_writes {f : Nat → Nat → Nat} (he : exec i s = countOp i w f s)
    (hi : Issues s c i (headF w [(w.d, regsFor w.ty), (w.a, regsFor w.ty)] (perWave w.d)))
    (hty : wordInts w.ty = true) (htags : tagsAre (s.issOf c w.pn w.pm) [w.a] w.ty = true) :
    Writes s c i (headF w [(w.d, regsFor w.ty), (w.a, regsFor w.ty)] (perWave w.d)) w.d (wide w.ty) w.ty (fun l =>
      f (if wide w.ty then 64 else 32) (s.src (s.issOf c w.pn w.pm) w.a w.ty (wide w.ty) l)) := by
  unfold countOp at he
  refine writes_of_body hi he ?_
  exact (if_neg (by simp [hty])).trans (if_neg (by rw [Bool.not_eq_true, Bool.not_eq_false']; exact htags))

/-- A mask word gives each lane of E its bit of `f` of the two masks (13 R328; 06 R162). -/
theorem maskOp_writes {f : Mask → Mask → Mask} {p : Nat → Bool} (he : exec i s = maskOp i w f s)
    (hp : ∀ l, p l = (f ((s.issOf c w.pn w.pm).mask w.a) ((s.issOf c w.pn w.pm).mask w.b)).getLsbD l)
    (hi : Issues s c i (headF w [] false)) : WritesMask s c i (headF w [] false) w.d p := by
  rw [funext hp]
  exact writesMask_of_body hi he rfl

/-- A word made from a mask is one value for every lane, tagged N32 (13 R329). -/
theorem maskWord_writes {f : Iss → Nat} (he : exec i s = maskWord i w f s) (hi : Issues s c i (headF w [(w.d, 1)] (perWave w.d))) :
    Writes s c i (headF w [(w.d, 1)] (perWave w.d)) w.d false tagN32 (fun _ => f (s.issOf c w.pn w.pm)) :=
  writes_of_body hi he rfl

end

theorem exec_stom (w : Full) (s : State) : exec (.stom w) s = execStom w s := rfl

end Sys2Proof.Machine

namespace Sys2Proof
open Machine

/-- Settles O19: each group of words by its one operation. -/
theorem bitAndMaskResults : Obligations.BitAndMaskResults := by
  unfold Obligations.BitAndMaskResults
  refine ⟨fun w s c => ⟨bitWord_of rfl, bitWord_of rfl, bitWord_of rfl, bitWord_of rfl, bitWord_of rfl, ⟨?_, ?_⟩, fun hty htags => ?_⟩,
    fun w s c => ⟨?_, ?_, ?_, ?_, ?_, ?_⟩⟩
  · exact fun hi hty htags => fieldOp_writes (also := []) (f := fun n x o k _ => bfeWord n (w.sub = 1) x o k) rfl hi hty htags
  · exact fun hi hty htags => fieldOp_writes (also := [w.d]) (f := fun n x o k d => bfiWord n d x o k) rfl hi hty htags
  · exact ⟨fun hi => countOp_writes (f := popCount) rfl hi hty htags, fun hi => countOp_writes (f := clz) rfl hi hty htags,
      fun hi => countOp_writes (f := ctz) rfl hi hty htags, fun hi => countOp_writes (f := revBits) rfl hi hty htags⟩
  · exact maskOp_writes (f := fun a b => a &&& b) rfl fun _ => (BitVec.getLsbD_and ..).symm
  · exact maskOp_writes (f := fun a b => a ||| b) rfl fun _ => (BitVec.getLsbD_or ..).symm
  · exact maskOp_writes (f := fun a b => a ^^^ b) rfl fun _ => rfl
  · exact maskOp_writes (f := fun a _ => ~~~a) rfl fun _ => rfl
  · exact maskOp_writes (f := fun a b => a &&& ~~~b) rfl fun _ => rfl
  · exact ⟨maskWord_writes (f := fun x => popCount 32 (x.mask w.a).toNat) rfl, maskWord_writes (f := fun x => ctz 32 (x.mask w.a).toNat) rfl,
      maskWord_writes (f := fun x => (x.mask w.a).toNat) rfl, maskWord_writes (f := fun x => x.live.toNat) rfl,
      fun hi => writesMask_of_body hi (exec_stom w s) rfl⟩

end Sys2Proof
end

section
/-! PROOFS. Compares, moves, class movement and indexed registers (O20). -/
namespace Sys2Proof.Machine

theorem exec_icmp (w : Full) (s : State) : exec (.icmp w) s = execIcmp w s := rfl
theorem exec_isel (w : Full) (s : State) : exec (.isel w) s = execIsel w s := rfl
theorem exec_movi (d : Opnd) (ty : Nat) (imm : Word) (s : State) : exec (.movi d ty imm) s = execMovi d ty imm s := rfl
theorem exec_lea (w : Full) (s : State) : exec (.lea w) s = execLea w s := rfl
theorem exec_pickl (w : Full) (s : State) : exec (.pickl w) s = execPickl w s := rfl
theorem exec_vtoa (w : Full) (s : State) : exec (.vtoa w) s = execVtoa w s := rfl
theorem exec_mkaff (w : Full) (s : State) : exec (.mkaff w) s = execMkaff w s := rfl
theorem exec_abase (w : Full) (s : State) : exec (.abase w) s = execAbase w s := rfl
theorem exec_astride (w : Full) (s : State) : exec (.astride w) s = execAstride w s := rfl
theorem exec_vrdx (w : Full) (s : State) : exec (.vrdx w) s = execVrdx w s := rfl
theorem exec_vwrx (w : Full) (s : State) : exec (.vwrx w) s = execVwrx w s := rfl

section
variable {i : Instr} {w : Full} {s : State} {c : Cursor}

/-! Compares and moves (13 R319-R322). -/

theorem icmp_writes (hi : Issues s c (.icmp w) (headF w [(w.a, regsFor w.ty), (w.b, regsFor w.ty)] false))
    (hty : wordInts w.ty = true ∨ w.ty = 15) (htags : tagsAre (s.issOf c w.pn w.pm) [w.a, w.b] w.ty = true) :
    WritesMask s c (.icmp w) (headF w [(w.a, regsFor w.ty), (w.b, regsFor w.ty)] false) w.d (fun l =>
      icmpCond w.sub (if wide w.ty then 64 else 32) (s.src (s.issOf c w.pn w.pm) w.a w.ty (wide w.ty) l)
        (s.src (s.issOf c w.pn w.pm) w.b w.ty (wide w.ty) l)) := by
  have he := exec_icmp w s
  unfold execIcmp at he
  refine writesMask_of_body hi he ((if_neg ?_).trans (if_neg ?_))
  · rcases hty with hty | hty <;> simp [hty]
  · rw [Bool.not_eq_true, Bool.not_eq_false']
    exact htags

theorem isel_writes {t m : Nat} (hi : Issues s c (.isel w) (headF w [(w.d, regsFor w.ty), (w.a, regsFor w.ty), (w.b, regsFor w.ty)] false))
    (hm : w.c = .m m) (ht : keptTag (s.issOf c w.pn w.pm) [w.a, w.b] w.ty = some t) :
    Writes s c (.isel w) (headF w [(w.d, regsFor w.ty), (w.a, regsFor w.ty), (w.b, regsFor w.ty)] false) w.d (wide w.ty) t (fun l =>
      let x := s.issOf c w.pn w.pm
      if (x.wave.rm x.g m).getLsbD l then s.src x w.a w.ty (wide w.ty) l else s.src x w.b w.ty (wide w.ty) l) := by
  have he := exec_isel w s
  unfold execIsel at he
  refine writes_of_body hi he ?_
  have ht' : keptTag (s.issOf c (headF w [(w.d, regsFor w.ty), (w.a, regsFor w.ty), (w.b, regsFor w.ty)] false).pn w.pm) [w.a, w.b] w.ty =
    some t := ht
  simp only [hm]
  simp only [headF] at ht' ⊢
  simp only [ht']
  rfl

/-- A move of a source that is not affine (13 R321). -/
theorem moveOp_writes {t : Nat} (he : exec i s = moveOp i w s) (ht : keptTag (s.issOf c w.pn w.pm) [w.a] w.ty = some t)
    (ha : w.a.level ≠ 1) (hi : Issues s c i (headT w [w.a])) :
    Writes s c i (headT w [w.a]) w.d (wide w.ty) t (fun l => s.src (s.issOf c w.pn w.pm) w.a w.ty (wide w.ty) l) := by
  refine writes_of_body hi he ?_
  have ht' : keptTag (s.issOf c (headT w [w.a]).pn (headT w [w.a]).pm) [w.a] w.ty = some t := ht
  simp only [moveBody, ht', ha, if_false]
  rfl

/-- A move of an affine source (13 R321; 06 R158). -/
theorem moveOp_writesAffine {t : Nat} (he : exec i s = moveOp i w s) (ht : keptTag (s.issOf c w.pn w.pm) [w.a] w.ty = some t)
    (ha : w.a.level = 1) (hi : Issues s c i (headT w [w.a])) :
    WritesAffine s c i (headT w [w.a]) w.d (wide w.ty) t (s.srcA (s.issOf c w.pn w.pm) w.a (wide w.ty)).1
      (s.srcA (s.issOf c w.pn w.pm) w.a (wide w.ty)).2 := by
  refine writesAffine_of_body hi he ?_
  have ht' : keptTag (s.issOf c (headT w [w.a]).pn (headT w [w.a]).pm) [w.a] w.ty = some t := ht
  simp only [moveBody, ht', ha, if_true]
  rfl

/-! LEA, PICKL and VTOA (13 R324-R326). -/

/-- The head of LEA. -/
def leaHead (w : Full) : Head := headF w [(w.d, regsFor w.ty), (w.a, regsFor w.ty), (w.b, regsFor w.ty), (w.c, 1)] (perWave w.d)

/-- LEA on checked operands, with lanes to write, comes to its affine or its lane-by-lane form. -/
theorem lea_body (hty : w.ty = tagN32 ∨ w.ty = tagN64) (htags : tagsAre (s.issOf c w.pn w.pm) [w.a, w.b] w.ty = true)
    (hE : (s.issOf c w.pn w.pm).e ≠ 0) (hi : Issues s c (.lea w) (leaHead w)) {eff : State}
    (heff : eff =
      let x := s.issOf c w.pn w.pm
      let wd := wide w.ty
      let sh := s.srcU x w.c 32 (lowestLane x.e) % 64
      if computedLevel .lea w = 1 then s.putAffine x w.d wd w.ty ((s.srcA x w.a wd).1 + ((s.srcA x w.b wd).1 <<< sh)) (s.srcA x w.a wd).2
      else s.put x w.d wd w.ty (fun l => s.src x w.a w.ty wd l + s.src x w.b w.ty wd l * 2 ^ sh)) :
    Completes s c (.lea w) (leaHead w) eff := by
  have he := exec_lea w s
  unfold execLea at he
  refine completes hi he ((if_neg ?_).trans ((if_neg ?_).trans ((if_neg hE).trans ?_)))
  · rcases hty with hty | hty <;> simp [hty]
  · rw [Bool.not_eq_true, Bool.not_eq_false']
    exact htags
  · rw [heff]
    dsimp only
    split <;> rfl

theorem pickl_writes (hi : Issues s c (.pickl w) (headF w [(w.d, regsFor w.ty), (w.a, regsFor w.ty), (w.b, 1)] true)) :
    Writes s c (.pickl w) (headF w [(w.d, regsFor w.ty), (w.a, regsFor w.ty), (w.b, 1)] true) w.d (wide w.ty) w.ty (fun _ =>
      let x := s.issOf c w.pn w.pm
      s.src x w.a w.ty (wide w.ty) (s.srcU x w.b 32 x.lane0 % 32)) := by
  have he := exec_pickl w s
  unfold execPickl at he
  exact writes_of_body hi he rfl

theorem vtoa_writes {r : DWord × Int} (hi : Issues s c (.vtoa w) (headF w [(w.d, 1), (w.a, regsFor w.ty)] true))
    (hty : w.ty = tagN32 ∨ w.ty = tagN64) (hE : (s.issOf c w.pn w.pm).e ≠ 0)
    (hr : affineFit (if wide w.ty then 64 else 32) (lanesOf (s.issOf c w.pn w.pm).live)
      (fun l => s.src (s.issOf c w.pn w.pm) w.a w.ty (wide w.ty) l) = some r) :
    WritesAffine s c (.vtoa w) (headF w [(w.d, 1), (w.a, regsFor w.ty)] true) w.d (wide w.ty) w.ty r.1 r.2 := by
  have he := exec_vtoa w s
  unfold execVtoa at he
  refine writesAffine_of_body hi he ((if_neg ?_).trans ((if_neg hE).trans ?_))
  · rcases hty with hty | hty <;> simp [hty]
  · simp only [headF]
    simp only [hr]

/-! Indexed registers (13 R330). -/

/-- The lowest lane of a set that is not empty is in it. -/
theorem lowestLane_mem {m : Mask} (h : m ≠ 0) : lowestLane m ∈ lanesOf m := by
  unfold lowestLane
  cases hl : lanesOf m with
  | nil =>
    refine absurd (BitVec.eq_of_getLsbD_eq fun l hl32 => ?_) h
    have hnot : l ∉ lanesOf m := by simp [hl]
    simpa [mem_lanesOf, hl32] using hnot
  | cons a ls => exact List.mem_cons_self

/-- The head of VRDX and VWRX. -/
def indexedHead (w : Full) : Head := headF w [(w.d, regsFor w.ty), (w.a, regsFor w.ty), (w.b, 1)] false

/-- The register that a lane's index names past a base. -/
def indexedReg (s : State) (x : Iss) (w : Full) (b l : Nat) : Nat := b + regsFor w.ty * s.srcU x w.b 32 l

/-- The varying registers that a word may name: those declared, or virtual ones. -/
def varyingCount (s : State) (c : Cursor) : Nat := max (s.footOf c.wave).vregs c.vvirt

/-- A lane of E that names a register which its wave has not: there is none. -/
theorem no_outside {x : Iss} {n k : Nat} {reg : Nat → Nat} (hin : ∀ l ∈ lanesOf x.e, reg l + k ≤ n) {l : Nat}
    (h : (lanesOf x.e).find? (fun l => n < reg l + k) = some l) : False := by
  have hlt : n < reg l + k := by simpa using List.find?_some h
  have hle := hin l (List.mem_of_find?_eq_some h)
  omega

theorem vrdx_writes {b t : Nat} (hin : ∀ l ∈ lanesOf (s.issOf c w.pn w.pm).e,
      indexedReg s (s.issOf c w.pn w.pm) w b l + regsFor w.ty ≤ varyingCount s c)
    (hi : Issues s c (.vrdx w) (indexedHead w)) (ha : w.a = .v b)
    (ht : ∀ l ∈ lanesOf (s.issOf c w.pn w.pm).e, (s.issOf c w.pn w.pm).wave.rtag (indexedReg s (s.issOf c w.pn w.pm) w b l) = t)
    (hE : (s.issOf c w.pn w.pm).e ≠ 0) :
    Writes s c (.vrdx w) (indexedHead w) w.d (wide w.ty) t (fun l =>
      s.src (s.issOf c w.pn w.pm) (.v (indexedReg s (s.issOf c w.pn w.pm) w b l)) w.ty (wide w.ty) l) := by
  have he := exec_vrdx w s
  unfold execVrdx at he
  refine writes_of_body hi he ?_
  have hlow := ht _ (lowestLane_mem hE)
  simp only [ha]
  split
  · rename_i hf
    exact (no_outside (x := s.issOf c w.pn w.pm) (n := varyingCount s c) (reg := indexedReg s (s.issOf c w.pn w.pm) w b) hin hf).elim
  · rw [if_neg]
    · subst hlow
      rfl
    · rw [Bool.not_eq_true, Bool.not_eq_false']
      exact List.all_eq_true.mpr fun l hl => decide_eq_true ((ht l hl).trans hlow.symm)

/-- The effect of VWRX: each lane of E writes its own lane of the register that its index names. -/
def indexedWrite (s : State) (x : Iss) (w : Full) (b t : Nat) : State :=
  s.modWave x.w (fun v => (lanesOf x.e).foldl (fun v l =>
    v.putV (indexedReg s x w b l) (wide w.ty) (x.wave.rtag t) (laneBit l) (fun l => s.src x w.a w.ty (wide w.ty) l)) v)

theorem vwrx_completes {b t : Nat} (hin : ∀ l ∈ lanesOf (s.issOf c w.pn w.pm).e,
      indexedReg s (s.issOf c w.pn w.pm) w b l + regsFor w.ty ≤ varyingCount s c)
    (hi : Issues s c (.vwrx w) (indexedHead w)) (hd : w.d = .v b) (ha : w.a = .v t) :
    Completes s c (.vwrx w) (indexedHead w) (indexedWrite s (s.issOf c w.pn w.pm) w b t) := by
  have he := exec_vwrx w s
  unfold execVwrx at he
  refine completes hi he ?_
  simp only [hd]
  split
  · rename_i hf
    exact (no_outside (x := s.issOf c w.pn w.pm) (n := varyingCount s c) (reg := indexedReg s (s.issOf c w.pn w.pm) w b) hin hf).elim
  · unfold indexedWrite
    simp only [ha]
    rfl

/-- A frame holds of a destination that names more registers. -/
theorem SameRegs.widen {v u : Wave} {d d' : Opnd} {n n' : Nat} (h : SameRegs v u d n)
    (hw : ∀ r, namesReg d' n' r = false → namesReg d n r = false) : SameRegs v u d' n' where
  uni r hr := h.uni r (hw _ hr)
  vary r l hl hr := h.vary r l hl (hw _ hr)
  tag r hr := h.tag r (hw _ hr)
  aff r hr := h.aff r (hw _ hr)
  mask g r hr := h.mask g r (hw _ hr)
  cap q hq := h.cap q fun r h1 h2 => hw _ (hq r h1 h2)

/-- Varying registers among the first `n` are named by the first `n`. -/
theorem namesReg_within {b k n : Nat} (h : b + k ≤ n) (r : Opnd) (hr : namesReg (.v 0) n r = false) : namesReg (.v b) k r = false := by
  cases r <;> simp only [namesReg, Bool.and_eq_false_iff, decide_eq_false_iff_not, reduceCtorEq, decide_false] at hr ⊢
  omega

theorem namesReg_v_outside {b k r : Nat} (h : r < b ∨ b + k ≤ r) : namesReg (.v b) k (.v r) = false := by
  simp only [namesReg, Bool.and_eq_false_iff, decide_eq_false_iff_not]
  omega

/-- One lane written leaves every other lane, and every other register. -/
theorem Wave.rv_putV_outside (v : Wave) {b k r l : Nat} {wd : Bool} (tag : Nat) (f : Nat → Nat) (hk : k < 32) (hl : l < 32)
    (h : l = k → r < b ∨ b + (if wd then 2 else 1) ≤ r) : (v.putV b wd tag (laneBit k) f).rv r l = v.rv r l := by
  by_cases hr : r < b ∨ b + (if wd then 2 else 1) ≤ r
  · exact (sameRegs_putV v b wd tag (laneBit k) f).vary r l hl (namesReg_v_outside hr)
  · have hlk : k ≠ l := fun e => hr (h e.symm)
    have hbit : (laneBit k).getLsbD l = false := by simp [getLsbD_laneBit hk, hlk]
    have hne : laneBit k ≠ 0 := fun e => by
      have := getLsbD_laneBit hk k
      simp [e] at this
    have hwrite : ∀ {x : Word}, (∀ v : Wave, (v.putLane b wd l (f l)).rv r l = x) → (v.putV b wd tag (laneBit k) f).rv r l = v.rv r l :=
      fun hx => (Wave.rv_putV v tag f hne hl hx).trans (by rw [hbit]; rfl)
    cases wd
    · obtain rfl : r = b := by simp at hr; omega
      exact hwrite fun v => v.rv_putLane_low r false (f l) hl
    · have hcase : r = b ∨ r = b + 1 := by simp at hr; omega
      rcases hcase with rfl | rfl
      · exact hwrite fun v => v.rv_putLane_low r true (f l) hl
      · exact hwrite fun v => v.rv_putLane_high b l (f l)

/-- What every lane's write keeps, VWRX keeps. -/
theorem indexedWrite_rel {b t : Nat} (R : Wave → Wave → Prop) (hr : ∀ v, R v v) (ht : ∀ {v u x}, R v u → R u x → R v x)
    (h : ∀ v, ∀ l ∈ lanesOf (s.issOf c w.pn w.pm).e, R v (v.putV (indexedReg s (s.issOf c w.pn w.pm) w b l) (wide w.ty)
      ((s.issOf c w.pn w.pm).wave.rtag t) (laneBit l) (fun l => s.src (s.issOf c w.pn w.pm) w.a w.ty (wide w.ty) l))) :
    R (s.wave c.wave) ((indexedWrite s (s.issOf c w.pn w.pm) w b t).wave c.wave) := by
  have hw : (indexedWrite s (s.issOf c w.pn w.pm) w b t).wave c.wave = _ := State.wave_modWave s c.wave _
  rw [hw]
  exact foldl_rel R hr ht _ _ h _

/-- What VWRX leaves: everything but its wave; of its wave all but registers; and of those every one that no lane of E names, in that lane. -/
theorem vwrx_frame {b t : Nat} (hin : ∀ l ∈ lanesOf (s.issOf c w.pn w.pm).e,
      indexedReg s (s.issOf c w.pn w.pm) w b l + regsFor w.ty ≤ varyingCount s c) (h : Head) :
    let x := s.issOf c w.pn w.pm
    let u := s.retire c h (indexedWrite s x w b t)
    OnlyWave s u c.wave ∧ SameWave (s.wave c.wave) (u.wave c.wave) false ∧
      SameRegs (s.wave c.wave) (u.wave c.wave) (.v 0) (varyingCount s c) ∧
      (∀ r l, l < 32 → ¬ (x.e.getLsbD l = true ∧ indexedReg s x w b l ≤ r ∧ r < indexedReg s x w b l + regsFor w.ty) →
        (u.wave c.wave).rv r l = (s.wave c.wave).rv r l) ∧
      ∀ r, (∀ l ∈ lanesOf x.e, r < indexedReg s x w b l ∨ indexedReg s x w b l + regsFor w.ty ≤ r) →
        (u.wave c.wave).rtag r = (s.wave c.wave).rtag r := by
  intro x u
  have hregs : RegsOnly (s.wave c.wave) ((indexedWrite s x w b t).wave c.wave) :=
    indexedWrite_rel RegsOnly RegsOnly.refl RegsOnly.trans fun v l _ => regsOnly_putV v _ _ _ _ _
  refine ⟨onlyWave_retire (onlyWave_modWave _ _ _), sameWave_retire (sameWave_of_regsOnly hregs _) ?_, sameRegs_retire ?_, ?_, ?_⟩
  · obtain ⟨_, _, _, _, _, _, e⟩ := hregs
    rw [e]
  · exact indexedWrite_rel (fun v u => SameRegs v u (.v 0) _) (fun v => SameRegs.refl v _ _) SameRegs.trans fun v l hl =>
      (sameRegs_putV v _ _ _ _ _).widen (namesReg_within (hin l hl))
  · intro r l hl hout
    rw [retire_keeps (·.rv r l) (by simp [Wave.rv]) (by simp [Wave.rv])]
    refine (indexedWrite_rel (fun v u => u.rv r l = v.rv r l) (fun _ => rfl) (fun h k => k.trans h) fun v k hk => ?_)
    obtain ⟨hk32, hkE⟩ := mem_lanesOf.mp hk
    refine Wave.rv_putV_outside v _ _ hk32 hl fun e => ?_
    subst e
    rcases Nat.lt_or_ge r (indexedReg s x w b l) with hlt | hge
    · exact .inl hlt
    · exact .inr (Nat.le_of_not_lt fun hlt => hout ⟨hkE, hge, hlt⟩)
  · intro r hout
    rw [retire_keeps (·.rtag r) (by simp [Wave.rtag]) (by simp [Wave.rtag])]
    exact indexedWrite_rel (fun v u => u.rtag r = v.rtag r) (fun _ => rfl) (fun h k => k.trans h) fun v k hk =>
      (sameRegs_putV v _ _ _ _ _).tag r (namesReg_v_outside (hout k hk))

end

end Sys2Proof.Machine

namespace Sys2Proof
open Machine

/-- Settles O20: each word by its own lemma; VWRX's frame through what one lane's write keeps. -/
theorem moveResults : Obligations.MoveResults := by
  unfold Obligations.MoveResults
  refine ⟨fun w s c => ⟨?_, ?_, ?_, ?_, ?_, ?_, ?_, ?_, ?_, ?_, ?_⟩, fun w s c b t => ?_⟩
  · exact fun hi hty htags => icmp_writes hi hty htags
  · exact fun t m hi hm ht => isel_writes hi hm ht
  · exact fun t ht ha => ⟨moveOp_writes rfl ht ha, moveOp_writes rfl ht ha⟩
  · exact fun t ht ha => ⟨moveOp_writesAffine rfl ht ha, moveOp_writesAffine rfl ht ha⟩
  · exact fun d ty imm hi => writes_of_body hi (exec_movi d ty imm s) rfl
  · exact fun hi hty htags hE => ⟨fun hl => writes_of (lea_body hty htags hE hi (if_neg hl).symm),
      fun hl => writesAffine_of (lea_body hty htags hE hi (if_pos hl).symm)⟩
  · exact fun hi => pickl_writes hi
  · exact fun r hi hty hE hr => vtoa_writes hi hty hE hr
  · exact fun hi => writesAffine_of_body hi (exec_mkaff w s) rfl
  · exact fun hi => writes_of_body hi (exec_abase w s) rfl
  · exact fun hi => writes_of_body hi (exec_astride w s) rfl
  · intro x wd k reg h hin
    refine ⟨fun hi ha ht hE => vrdx_writes hin hi ha ht hE, fun hi hd ha => ?_⟩
    have hc := vwrx_completes hin hi hd ha
    refine ⟨hc, fun u hu => ?_⟩
    obtain rfl : _ = u := Host.Outcome.next.inj (hc.symm.trans hu)
    exact vwrx_frame hin h

end Sys2Proof
end

section
/-! PROOFS. CVTI and FCVT (O21). -/
namespace Sys2Proof.Machine

theorem exec_cvti (w : Full) (s : State) : exec (.cvti w) s = convertOp (.cvti w) w intGroup s := rfl
theorem exec_fcvt (w : Full) (s : State) :
    exec (.fcvt w) s = convertOp (.fcvt w) w (fun t => floatGroup t || convGroup t) s := rfl

/-- THE FRAME of a word whose effect writes a register and, after it, sticky records and %wstat alone. -/
theorem regFrame_of_sticky {s r eff : State} {c : Cursor} {h : Head} {d : Opnd} {n : Nat} {a b k : Word} (hr : OnlyWave s r c.wave)
    (hw : RegsOnly (s.wave c.wave) (r.wave c.wave)) (hs : SameRegs (s.wave c.wave) (r.wave c.wave) d n) (ho : OnlyWave r eff c.wave)
    (he : eff.wave c.wave = { r.wave c.wave with dzmask := a, iovmask := b, wstat := k }) :
    RegFrame s (s.retire c h eff) c.wave d n true := by
  refine ⟨onlyWave_retire (hr.trans ho), sameWave_retire ?_ ?_, sameRegs_retire ?_⟩
  · rw [he]
    obtain ⟨_, _, _, _, _, _, e⟩ := hw
    rw [e]
    constructor
    case wstat | dzmask | iovmask => exact nofun
    all_goals rfl
  · rw [he]
    obtain ⟨_, _, _, _, _, _, e⟩ := hw
    rw [e]
  · rw [he]
    exact ⟨hs.uni, hs.vary, hs.tag, hs.aff, hs.mask, hs.cap⟩

/-- Setting SAT changes %wstat alone. -/
theorem setSat_wave (s : State) (w : Nat) (sat : Bool) :
    (∃ k, (s.setSat w sat).wave w = { s.wave w with wstat := k }) ∧ OnlyWave s (s.setSat w sat) w := by
  unfold State.setSat
  split
  · exact ⟨⟨_, State.wave_modWave _ _ _⟩, onlyWave_modWave _ _ _⟩
  · exact ⟨⟨_, rfl⟩, OnlyWave.refl _ _⟩

section
variable {i : Instr} {w : Full} {s : State} {c : Cursor}

/-- The head of a conversion. -/
def convertHead (w : Full) : Head := headF w [(w.d, regsFor w.ty), (w.a, regsFor (litOf w.b))] (perWave w.d)

/-- A lane of a conversion: its elements' bits, SAT, and the overflow record (13 R323; 14 R345). -/
def convertedLane (s : State) (x : Iss) (w : Full) (l : Nat) : Nat × Bool × Bool :=
  convertLane (litOf w.b) w.ty (roundMode x w.sub) (w.m5 && w.ty = 23) (s.src x w.a (litOf w.b) (wide (litOf w.b)) l)

/-- The effect of a conversion: its destination, the sticky record of the lanes that overflow, and SAT. -/
def convertEffect (s : State) (x : Iss) (w : Full) : State :=
  ((s.put x w.d (wide w.ty) w.ty (fun l => (convertedLane s x w l).1)).sticky x w.d 0
    (x.where_ (fun l => (convertedLane s x w l).2.2))).setSat x.w (x.where_ (fun l => (convertedLane s x w l).2.1) != 0)

theorem convertOp_completes {dstOk : Nat → Bool} (he : exec i s = convertOp i w dstOk s) (hi : Issues s c i (convertHead w))
    (hd : dstOk w.ty = true) (hsrc : (intGroup (litOf w.b) || floatGroup (litOf w.b) || convGroup (litOf w.b)) = true)
    (hok : convOk (litOf w.b) w.ty = true) (htags : tagsAre (s.issOf c w.pn w.pm) [w.a] (litOf w.b) = true)
    (hE : (s.issOf c w.pn w.pm).e ≠ 0) : Completes s c i (convertHead w) (convertEffect s (s.issOf c w.pn w.pm) w) := by
  unfold convertOp at he
  refine completes hi he ((if_neg ?_).trans ((if_neg ?_).trans (if_neg hE)))
  · simp [hd, hsrc, hok]
  · rw [Bool.not_eq_true, Bool.not_eq_false']
    exact htags

theorem convertEffect_frame (h : Head) :
    RegFrame s (s.retire c h (convertEffect s (s.issOf c w.pn w.pm) w)) c.wave w.d (if wide w.ty then 2 else 1) true := by
  obtain ⟨hregs, hsame⟩ := put_wave s (s.issOf c w.pn w.pm) w.d (wide w.ty) w.ty (fun l => (convertedLane s (s.issOf c w.pn w.pm) w l).1)
  obtain ⟨a, b, hsticky, honly⟩ := sticky_wave
    (s.put (s.issOf c w.pn w.pm) w.d (wide w.ty) w.ty (fun l => (convertedLane s (s.issOf c w.pn w.pm) w l).1)) (s.issOf c w.pn w.pm) w.d 0
    ((s.issOf c w.pn w.pm).where_ (fun l => (convertedLane s (s.issOf c w.pn w.pm) w l).2.2))
  obtain ⟨⟨k, hsat⟩, honly'⟩ := setSat_wave _ (s.issOf c w.pn w.pm).w _
  rw [hsticky] at hsat
  exact regFrame_of_sticky (put_onlyWave _ _ _ _ _ _) hregs hsame (honly.trans honly') hsat

end

end Sys2Proof.Machine

namespace Sys2Proof
open Machine

/-- Settles O21: both words are one conversion, whose frame is that of a register write with sticky records. -/
theorem conversionResults : Obligations.ConversionResults := by
  intro w s c x src dst h r eff hsrc hok htags hE
  have hframe := convertEffect_frame (s := s) (c := c) (w := w) h
  exact ⟨fun hi hd => ⟨convertOp_completes (exec_cvti w s) hi hd hsrc hok htags hE, hframe⟩,
    fun hi hd => ⟨convertOp_completes (exec_fcvt w s) hi hd hsrc hok htags hE, hframe⟩⟩

end Sys2Proof
end

section
/-! PROOFS. Capability words: what they derive and read (O22), and CFMT whole (O23). -/
namespace Sys2Proof.Machine

/-! The fields of a capability (01 R35). -/

section
variable (base : DWord) (length perms fmt pitch : Nat)

theorem capOf_pitch : (capOf base length perms fmt pitch).pitch = pitch % 2 ^ 11 :=
  (congrArg BitVec.toNat BitVec.extractLsb'_append_eq_right).trans (BitVec.toNat_ofNat ..)

theorem capOf_fmt : (capOf base length perms fmt pitch).fmt = fmt % 2 ^ 5 :=
  (congrArg BitVec.toNat ((BitVec.extractLsb'_append_eq_of_le (w := 11) (by decide)).trans
    BitVec.extractLsb'_append_eq_right)).trans (BitVec.toNat_ofNat ..)

/-- What stands above FMT and PITCH. -/
theorem capOf_above {start len : Nat} (h : 16 ≤ start) :
    (capOf base length perms fmt pitch).extractLsb' start len =
      (base ++ BitVec.ofNat 40 length ++ BitVec.ofNat 8 perms).extractLsb' (start - 11 - 5) len :=
  (BitVec.extractLsb'_append_eq_of_le (w := 11) (by omega)).trans (BitVec.extractLsb'_append_eq_of_le (w := 5) (by omega))

theorem capOf_perms : (capOf base length perms fmt pitch).perms = perms % 2 ^ 8 :=
  (congrArg BitVec.toNat ((capOf_above _ _ _ _ _ (by decide)).trans BitVec.extractLsb'_append_eq_right)).trans (BitVec.toNat_ofNat ..)

theorem capOf_length : (capOf base length perms fmt pitch).length = length % 2 ^ 40 :=
  (congrArg BitVec.toNat ((capOf_above _ _ _ _ _ (by decide)).trans ((BitVec.extractLsb'_append_eq_of_le (w := 8) (by decide)).trans
    BitVec.extractLsb'_append_eq_right))).trans (BitVec.toNat_ofNat ..)

theorem capOf_base : (capOf base length perms fmt pitch).base = base :=
  (capOf_above _ _ _ _ _ (by decide)).trans ((BitVec.extractLsb'_append_eq_of_le (w := 8) (by decide)).trans
    BitVec.extractLsb'_append_eq_left)

end

theorem CapBits.length_lt (k : CapBits) : k.length < 2 ^ 40 := BitVec.isLt _

theorem CapBits.perms_lt (k : CapBits) : k.perms < 2 ^ 8 := BitVec.isLt _

/-! A capability register written (01 R35, R36). -/

theorem Wave.rs2_ws2_apart (v : Wave) {n k : Nat} (x : DWord) (h : k + 1 < n) : (v.ws2 n x).rs2 k = v.rs2 k := by
  unfold Wave.ws2 Wave.rs2
  rw [Wave.rs_ws_ne _ _ (by omega), Wave.rs_ws_ne _ _ (by omega), Wave.rs_ws_ne _ _ (by omega), Wave.rs_ws_ne _ _ (by omega)]

theorem Wave.rk_wk_same (v : Wave) (n : Nat) (x : CapBits) (tag : Bool) : (v.wk n x tag).rk n = x := by
  have hhigh : (v.wk n x tag).rs2 (4 * n + 2) = x.extractLsb' 64 64 := Wave.rs2_ws2_same _ _ _
  have hlow : (v.wk n x tag).rs2 (4 * n) = x.extractLsb' 0 64 := (Wave.rs2_ws2_apart _ _ (by omega)).trans (Wave.rs2_ws2_same _ _ _)
  unfold Wave.rk
  rw [hhigh, hlow]
  exact BitVec.extractLsb'_append_extractLsb' (w := 64) (len := 64)

theorem Wave.rktag_wk_same (v : Wave) (n : Nat) (x : CapBits) (tag : Bool) : (v.wk n x tag).rktag n = tag := tget_tset_same _ _ _ _

/-! The words that derive a capability (13 R331-R333). -/

theorem exec_cnarrow (w : Full) (s : State) : exec (.cnarrow w) s = execCnarrow w s := rfl
theorem exec_cperm (w : Full) (s : State) : exec (.cperm w) s = execCperm w s := rfl
theorem exec_cfmt (w : Full) (s : State) : exec (.cfmt w) s = execCfmt w s := rfl
theorem exec_cget (w : Full) (s : State) : exec (.cget w) s = execCget w s := rfl
theorem exec_ctag (w : Full) (s : State) : exec (.ctag w) s = execCtag w s := rfl

section
variable {i : Instr} {w : Full} {s : State} {c : Cursor} {d a : Nat} {regs : List (Opnd × Nat)}
  {f : State → Iss → CapBits → Except Code CapBits}

/-- The head of a word that derives a capability. -/
def capHead (w : Full) (regs : List (Opnd × Nat)) : Head := headF w ((w.d, 4) :: (w.a, 4) :: regs) true

/-- A capability that a word may derive from a tagged one is written, tagged. -/
theorem capOp_completes {y : CapBits} (he : exec i s = capOp i w regs f s) (hi : Issues s c i (capHead w regs)) (hd : w.d = .k d)
    (ha : w.a = .k a) (hE : (s.issOf c w.pn w.pm).e ≠ 0) (ht : (s.issOf c w.pn w.pm).wave.rktag a = true)
    (hy : f s (s.issOf c w.pn w.pm) ((s.issOf c w.pn w.pm).wave.rk a) = .ok y) :
    Completes s c i (capHead w regs) (s.modWave c.wave (fun v => v.wk d y true)) := by
  refine completes hi he ((if_neg hE).trans ((if_neg ?_).trans ?_))
  · rw [ha, Bool.not_eq_true, Bool.not_eq_false']
    exact ht
  · simp only [ha, hd, capNum]
    change (match f s (s.issOf c w.pn w.pm) ((s.issOf c w.pn w.pm).wave.rk a) with
      | .error c => Iss.fail _ c s
      | .ok y => Res.done (s.modWave _ (fun v => v.wk d y true))) = _
    rw [hy]
    rfl

/-- A word that derives a capability from an untagged one faults CAPTAG (01 R37). -/
theorem capOp_traps (he : exec i s = capOp i w regs f s) (hi : Issues s c i (capHead w regs)) (ha : w.a = .k a)
    (hE : (s.issOf c w.pn w.pm).e ≠ 0) (ht : (s.issOf c w.pn w.pm).wave.rktag a = false) (hs : (s.wave c.wave).stoppable = true) :
    Traps s c i (capHead w regs) Code.captag (s.issOf c w.pn w.pm).lane0 0xF 0 := by
  refine traps hi hs he ((if_neg hE).trans (if_pos ?_))
  rw [ha, Bool.not_eq_true']
  exact ht

end

/-- CNARROW stays within its source's LENGTH (13 R331). -/
theorem cnarrow_within {len off n : Nat} (h : off + n ≤ len) : (decide (len < off) || decide (len - off < n)) = false := by
  rw [Bool.or_eq_false_iff, decide_eq_false_iff_not, decide_eq_false_iff_not]
  omega

/-- CGET reads the field that its SUB names (13 R334). -/
theorem cget_writes {w : Full} {s : State} {c : Cursor} {a : Nat} (ha : w.a = .k a)
    (hi : Issues s c (.cget w) (headF w [(w.d, if w.sub < 2 then 2 else 1), (w.a, 4)] true)) :
    let k := (s.issOf c w.pn w.pm).wave.rk a
    Writes s c (.cget w) (headF w [(w.d, if w.sub < 2 then 2 else 1), (w.a, 4)] true) w.d (w.sub < 2) tagN32 (fun _ =>
      if w.sub = 0 then k.base.toNat else if w.sub = 1 then k.length else if w.sub = 2 then k.perms else if w.sub = 3 then k.fmt
      else k.pitch) := by
  intro k
  have he := exec_cget w s
  unfold execCget at he
  refine writes_of_body hi he ?_
  simp only [ha, capNum]
  refine congrArg (fun r : Nat → Nat => Res.done (s.put (s.issOf c w.pn w.pm) w.d (w.sub < 2) tagN32 r)) (funext fun _ => ?_)
  split
  case h_1 h => rw [h]; rfl
  case h_2 h => rw [h]; rfl
  case h_3 h => rw [h]; rfl
  case h_4 h => rw [h]; rfl
  case h_5 h0 h1 h2 h3 => rw [if_neg h0, if_neg h1, if_neg h2, if_neg h3]; rfl

/-! CFMT (13 R333). -/

/-- The operands of a legal instruction of the full form are of the kinds that its entry accepts (12 R278, R288). -/
theorem operands_of_legal {i : Instr} {w : Full} {h : Shape} (hs : i.shape = some (w, h)) (hl : i.illegal = none) :
    h.d.illclass w.d = false ∧ h.a.illclass w.a = false ∧ h.b.illclass w.b = false ∧ h.c.illclass w.c = false := by
  simp only [Instr.illegal, hs] at hl
  have hclass : h.illclass i w = false := by
    cases hc : h.illclass i w
    · rfl
    · cases ho : h.illop i w <;> simp [hc, ho] at hl
  simp only [Shape.illclass, Bool.or_eq_false_iff] at hclass
  obtain ⟨⟨⟨⟨⟨hd, ha⟩, hb⟩, hc⟩, -⟩, -⟩ := hclass
  exact ⟨hd, ha, hb, hc⟩

/-- A position of capability registers accepts them alone. -/
theorem k_of_accepted {o : Opnd} (h : Pos.k.illclass o = false) : ∃ n, o = .k n := by
  cases o with
  | k n => exact ⟨n, rfl⟩
  | m n => by_cases hn : n = 0 <;> simp [Pos.k, Pos.illclass, Opnd.kind, hn] at h
  | sp n => by_cases hn : n = 0x50 <;> simp [Pos.k, Pos.illclass, Opnd.kind, hn] at h
  | _ => simp [Pos.k, Pos.illclass, Opnd.kind] at h

/-- The operands of a legal CFMT: two capability registers, and two uniform sources. -/
theorem cfmt_operands {w : Full} (h : (Instr.cfmt w).illegal = none) :
    (∃ n, w.d = .k n) ∧ (∃ n, w.a = .k n) ∧ Pos.uni.illclass w.b = false ∧ Pos.uni.illclass w.c = false := by
  have hs : (Instr.cfmt w).shape = some (w, ⟨[0], .none, Pos.k, Pos.k, Pos.uni, Pos.uni, .free, false⟩) := rfl
  obtain ⟨hd, ha, hb, hc⟩ := operands_of_legal hs h
  exact ⟨k_of_accepted hd, k_of_accepted ha, hb, hc⟩

/-- What a CFMT of a tagged capability leaves in its destination. -/
theorem cfmt_fields {w : Full} {s : State} {c : Cursor} {d a : Nat} {h : Head} (f q : Nat) :
    let k := (s.issOf c w.pn w.pm).wave.rk a
    let t := s.retire c h (s.modWave c.wave (fun v => v.wk d (capOf k.base k.length k.perms (f % 32) (q % 2048)) true))
    let y := (t.wave c.wave).rk d
    (t.wave c.wave).rktag d = true ∧ y.base = k.base ∧ y.length = k.length ∧ y.perms = k.perms ∧ y.fmt = f % 32 ∧ y.pitch = q % 2048 := by
  intro k t y
  have hy : y = capOf k.base k.length k.perms (f % 32) (q % 2048) := by
    refine (retire_keeps (·.rk d) (by simp [Wave.rk, Wave.rs2, Wave.rs]) (by simp [Wave.rk, Wave.rs2, Wave.rs]) _ _ _ _).trans ?_
    rw [State.wave_modWave]
    exact Wave.rk_wk_same _ _ _ _
  rw [hy, capOf_base, capOf_length, capOf_perms, capOf_fmt, capOf_pitch]
  refine ⟨?_, rfl, Nat.mod_eq_of_lt k.length_lt, Nat.mod_eq_of_lt k.perms_lt, Nat.mod_mod _ _, Nat.mod_mod _ _⟩
  refine (retire_keeps (·.rktag d) (by simp [Wave.rktag]) (by simp [Wave.rktag]) _ _ _ _).trans ?_
  rw [State.wave_modWave]
  exact Wave.rktag_wk_same _ _ _ _

theorem cnarrow_completes {w : Full} {s : State} {c : Cursor} {d a : Nat} (hi : Issues s c (.cnarrow w) (capHead w [(w.b, 2), (w.c, 2)]))
    (hd : w.d = .k d) (ha : w.a = .k a) (hE : (s.issOf c w.pn w.pm).e ≠ 0) (ht : (s.issOf c w.pn w.pm).wave.rktag a = true) :
    let x := s.issOf c w.pn w.pm
    let k := x.wave.rk a
    let off := s.addrBase x w.b x.lane0
    let len := (s.addrBase x w.c x.lane0).toNat
    off.toNat + len ≤ k.length →
      Completes s c (.cnarrow w) (capHead w [(w.b, 2), (w.c, 2)])
        (s.modWave c.wave (fun v => v.wk d (capOf (k.base + off) len k.perms k.fmt k.pitch) true)) := by
  intro x k off len hle
  refine capOp_completes (exec_cnarrow w s) hi hd ha hE ht (if_neg ?_)
  rw [Bool.not_eq_true]
  exact cnarrow_within hle

end Sys2Proof.Machine

namespace Sys2Proof
open Machine

/-- Settles O22: the three words that derive a capability by `capOp_completes`, and the two that read one. -/
theorem capabilityResults : Obligations.CapabilityResults := by
  refine ⟨fun w s c d a => ?_, fun w s c a => ?_⟩
  · intro x k set hd ha hE ht
    exact ⟨fun hi hle => cnarrow_completes hi hd ha hE ht hle, fun hi => capOp_completes (exec_cperm w s) hi hd ha hE ht rfl,
      fun hi => capOp_completes (exec_cfmt w s) hi hd ha hE ht rfl⟩
  · intro x k ha
    refine ⟨fun hi => cget_writes ha hi, fun hi => writes_of_body hi (exec_ctag w s) ?_⟩
    simp only [ha, capNum]
    rfl

/-- Settles O23: CFMT's opcode and operands, and its two ends by `capOp_completes` and `capOp_traps`. -/
theorem capabilityFormatRule : Obligations.CapabilityFormatRule := by
  intro w s c d a h x k
  refine ⟨rfl, rfl, cfmt_operands, fun hd ha hi hE => ⟨fun ht => ?_, fun ht hs => capOp_traps (exec_cfmt w s) hi ha hE ht hs⟩⟩
  exact ⟨_, capOp_completes (exec_cfmt w s) hi hd ha hE ht rfl, cfmt_fields _ _⟩

end Sys2Proof
end

section
/-! PROOFS. A word that places its lanes: what follows its effect, and what it leaves of them (13 R296, R298). -/
namespace Sys2Proof.Machine

/-- Where a lane stands: its address, its clause, and what it waits for. -/
structure SamePlace (x y : Lane) : Prop where
  pc : y.pc = x.pc
  clause : y.clause = x.clause
  wait : y.wait = x.wait

/-- A word issues: a part of its wave that no change of lanes where they stand touches, nor its flags and counts, is as its effect left it. -/
theorem issued_keeps {α : Type} (p : Wave → α) (hl : ∀ v g f, (∀ y, SamePlace y (f y)) → p (Wave.modLanes v g f) = p v)
    (hw : ∀ (v : Wave) k f r, p { v with wwords := k, flags := f, replay := r } = p v) (eff : State) (x : Iss) (fs : Nat) :
    p (((eff.walked x).issued x fs).wave x.w) = p (eff.wave x.w) := by
  have hwalk : p ((eff.walked x).wave x.w) = p (eff.wave x.w) := by
    unfold State.walked
    rw [State.wave_modWave]
    exact hw (eff.wave x.w) _ _ _
  have hflag : ∀ a : State, p ((a.flagged x fs).wave x.w) = p (a.wave x.w) := fun a => by
    unfold State.flagged
    dsimp only
    split
    · rfl
    · rw [State.wave_modWave]
      exact (hw ((a.wave x.w).modLanes x.g _) _ _ _).trans (hl _ _ _ fun _ => ⟨rfl, rfl, rfl⟩)
  unfold State.issued
  rw [State.wave_modWave]
  refine (hw (((State.flagged _ x fs).wave x.w).modLanes x.g _) _ _ _).trans ((hl _ _ _ ?_).trans ((hflag _).trans hwalk))
  exact fun _ => ⟨rfl, rfl, rfl⟩

theorem retired_wave (s : State) (x : Iss) (k : Nat) : (s.retired x).wave k = s.wave k := by
  unfold State.retired
  split
  · rfl
  · exact beginChild_wave _ _ _

theorem onlyWave_retired (s : State) (x : Iss) (w : Nat) : OnlyWave s (s.retired x) w := by
  unfold State.retired
  split
  · exact OnlyWave.refl _ _
  · exact onlyWave_beginChild _ _ _

section
variable {s eff : State} {c : Cursor} {h : Head}

theorem onlyWave_retireMoved (he : OnlyWave s eff c.wave) : OnlyWave s (s.retireMoved c h eff) c.wave :=
  ((he.trans (onlyWave_walked eff (s.issOf c h.pn h.pm))).trans (onlyWave_issued _ (s.issOf c h.pn h.pm) h.fs)).trans (onlyWave_retired _ _ _)

theorem retireMoved_keeps {α : Type} (p : Wave → α) (hl : ∀ v g f, (∀ y, SamePlace y (f y)) → p (Wave.modLanes v g f) = p v)
    (hw : ∀ (v : Wave) k f r, p { v with wwords := k, flags := f, replay := r } = p v) :
    p ((s.retireMoved c h eff).wave c.wave) = p (eff.wave c.wave) :=
  (congrArg p (retired_wave _ _ _)).trans (issued_keeps p hl hw eff (s.issOf c h.pn h.pm) h.fs)

theorem sameRegs_retireMoved {v : Wave} {d : Opnd} {n : Nat} (he : SameRegs v (eff.wave c.wave) d n) :
    SameRegs v ((s.retireMoved c h eff).wave c.wave) d n := by
  have k : ∀ {α : Type} (p : Wave → α), (∀ v g f, p (Wave.modLanes v g f) = p v) →
      (∀ (v : Wave) k f r, p { v with wwords := k, flags := f, replay := r } = p v) →
      p ((s.retireMoved c h eff).wave c.wave) = p (eff.wave c.wave) := fun p hl hw => retireMoved_keeps p (fun v g f _ => hl v g f) hw
  constructor
  · intro r hr; rw [k (·.rs r) (by simp [Wave.rs]) (by simp [Wave.rs])]; exact he.uni r hr
  · intro r l hl hr; rw [k (·.rv r l) (by simp [Wave.rv]) (by simp [Wave.rv])]; exact he.vary r l hl hr
  · intro r hr; rw [k (·.rtag r) (by simp [Wave.rtag]) (by simp [Wave.rtag])]; exact he.tag r hr
  · intro r hr; rw [k (·.ra r) (by simp [Wave.ra]) (by simp [Wave.ra])]; exact he.aff r hr
  · intro g r hr; rw [k (·.rm g r) (by simp [Wave.rm]) (by simp [Wave.rm])]; exact he.mask g r hr
  · intro q hq; rw [k (·.rktag q) (by simp [Wave.rktag]) (by simp [Wave.rktag])]; exact he.cap q hq

/-- A change of lanes where they stand leaves each where it stood. -/
theorem samePlace_modLanes (v : Wave) (g : Mask) {f : Lane → Lane} (hf : ∀ y, SamePlace y (f y)) (l : Nat) :
    SamePlace (v.lane l) ((v.modLanes g f).lane l) := by
  rw [Wave.lane_modLanes]
  split
  · exact hf _
  · exact ⟨rfl, rfl, rfl⟩

/-- A word whose effect has placed its lanes leaves them there. -/
theorem samePlace_retireMoved (l : Nat) : SamePlace ((eff.wave c.wave).lane l) (((s.retireMoved c h eff).wave c.wave).lane l) where
  pc := retireMoved_keeps (fun v => (v.lane l).pc) (fun v g _ hf => (samePlace_modLanes v g hf l).pc) (fun _ _ _ _ => rfl)
  clause := retireMoved_keeps (fun v => (v.lane l).clause) (fun v g _ hf => (samePlace_modLanes v g hf l).clause) (fun _ _ _ _ => rfl)
  wait := retireMoved_keeps (fun v => (v.lane l).wait) (fun v g _ hf => (samePlace_modLanes v g hf l).wait) (fun _ _ _ _ => rfl)

/-- Lanes of a set that go on to the next word, and the others (12 R272). -/
theorem lane_advance (s : State) (c : Cursor) (g : Mask) (l : Nat) :
    ((s.advance c g).wave c.wave).lane l =
      if (g &&& (s.wave c.wave).live).getLsbD l then Lane.wentOn (s.wave c.wave) c ((s.wave c.wave).lane l) else (s.wave c.wave).lane l := by
  unfold State.advance
  rw [State.wave_modWave, Wave.lane_modLanes]
  rfl

/-- A word that has retired leaves the lanes of its group at the next word, and the others where they stood. -/
theorem pc_retire (hg : c.group &&& (eff.wave c.wave).live = c.group) (l : Nat) :
    (((s.retire c h eff).wave c.wave).lane l).pc = if c.group.getLsbD l then c.next else ((eff.wave c.wave).lane l).pc := by
  have hlive := issued_keeps (·.live) (by simp) (by simp) eff (s.issOf c h.pn h.pm) h.fs
  have hpc := issued_keeps (fun v => (v.lane l).pc) (fun v g _ hf => (samePlace_modLanes v g hf l).pc) (fun _ _ _ _ => rfl) eff
    (s.issOf c h.pn h.pm) h.fs
  have hg' : c.group &&& ((((eff.walked (s.issOf c h.pn h.pm)).issued (s.issOf c h.pn h.pm) h.fs).beginChild c.wave).wave c.wave).live =
      c.group := by
    rw [beginChild_wave]
    exact (congrArg (c.group &&& ·) hlive).trans hg
  unfold State.retire
  dsimp only
  rw [lane_advance, hg']
  split
  · rfl
  · rw [beginChild_wave]
    exact hpc

end

end Sys2Proof.Machine
end

section
/-! PROOFS. Branches, calls and returns (O32). -/
namespace Sys2Proof.Machine

/-- A list in ascending order has no earlier element of a kind than its least of that kind. -/
theorem find?_least {ls : List Nat} (hs : ls.Pairwise (· < ·)) {q : Nat → Bool} {l : Nat} (hl : l ∈ ls) (hq : q l = true)
    (hk : ∀ k ∈ ls, k < l → q k = false) : ls.find? q = some l := by
  induction ls with
  | nil => cases hl
  | cons a ls ih =>
    obtain ⟨ha, hs⟩ := List.pairwise_cons.mp hs
    rcases List.mem_cons.mp hl with rfl | hl
    · exact List.find?_cons_of_pos hq
    · rw [List.find?_cons_of_neg (by simp [hk a List.mem_cons_self (ha l hl)])]
      exact ih hs hl fun k hk' => hk k (List.mem_cons_of_mem _ hk')

theorem lanesOf_ascending (m : Mask) : (lanesOf m).Pairwise (· < ·) := List.pairwise_lt_range.filter _

/-- The lanes of a set, each with its target. -/
def targetsOf (m : Mask) (a : Nat → DWord) : List (Nat × DWord) := (lanesOf m).map (fun l => (l, a l))

/-- An address outside the body of the innermost active loop (13 R298, R305). -/
def outsideLoop (v : Wave) (a : DWord) : Bool :=
  match v.loops with
  | f :: _ => a < f.first || f.after ≤ a
  | [] => false

theorem outsideLoop_iff {v : Wave} {a : DWord} :
    outsideLoop v a = true ↔ ∃ f, v.loops.head? = some f ∧ (a < f.first ∨ f.after ≤ a) := by
  unfold outsideLoop
  cases v.loops <;> simp

/-- A lane that has come to a target: it starts a clause there, or a record (13 R298). -/
def Lane.jumped (c : Cursor) (a : DWord) (l : Lane) : Lane :=
  { l with pc := a, clause := none, modBase := c.modBase, enter := c.modBase.isSome, wait := none }

/-- The lanes of a set stand at their targets, the rest of the group at the next word. -/
def State.transferred (s : State) (x : Iss) (m : Mask) (a : Nat → DWord) : State :=
  (s.advance x.cur x.g).modWave x.w (fun v => (lanesOf m).foldl (fun v l => v.modLane l (Lane.jumped x.cur (a l))) v)

theorem transferred_eq (s : State) (x : Iss) (m : Mask) (a : Nat → DWord) :
    (s.advance x.cur x.g).modWave x.w (fun v => (targetsOf m a).foldl (fun v t => v.modLane t.1 (Lane.jumped x.cur t.2)) v) =
      s.transferred x m a := by
  unfold State.transferred targetsOf
  simp only [List.foldl_map]

/-- A transfer faults at the lowest lane whose target lies outside the loop's body, and else places its lanes (13 R298). -/
theorem transfer_eq (s : State) (x : Iss) (m : Mask) (a : Nat → DWord) :
    s.transfer x (targetsOf m a) =
      match (lanesOf m).find? (fun l => outsideLoop (s.wave x.w) (a l)) with
      | some l => .fault Code.illop l 0xF 0 s
      | none => .moved (s.transferred x m a) := by
  rw [← transferred_eq]
  cases hloops : (s.wave x.w).loops with
  | nil =>
    have hnone : (lanesOf m).find? (fun l => outsideLoop (s.wave x.w) (a l)) = none :=
      List.find?_eq_none.mpr fun l _ => by simp [outsideLoop, hloops]
    simp only [State.transfer, hloops, hnone]
    rfl
  | cons f rest =>
    have hout : (fun l => outsideLoop (s.wave x.w) (a l)) = fun l => a l < f.first || f.after ≤ a l :=
      funext fun l => by simp only [outsideLoop, hloops]
    have hbad : (targetsOf m a).filter (fun t => t.2 < f.first || f.after ≤ t.2) =
        ((lanesOf m).filter (fun l => a l < f.first || f.after ≤ a l)).map (fun l => (l, a l)) := List.filter_map
    rw [hout, ← List.head?_filter]
    simp only [State.transfer, hloops, hbad]
    cases (lanesOf m).filter (fun l => a l < f.first || f.after ≤ a l) <;> rfl

theorem transfer_moved {s : State} {x : Iss} {m : Mask} {a : Nat → DWord} (h : ∀ l, m.getLsbD l = true → outsideLoop (s.wave x.w) (a l) = false) :
    s.transfer x (targetsOf m a) = .moved (s.transferred x m a) := by
  have hnone : (lanesOf m).find? (fun l => outsideLoop (s.wave x.w) (a l)) = none :=
    List.find?_eq_none.mpr fun l hl => by simp [h l (mem_lanesOf.mp hl).2]
  rw [transfer_eq, hnone]

theorem transfer_fault {s : State} {x : Iss} {m : Mask} {a : Nat → DWord} {l : Nat} (hl : m.getLsbD l = true)
    (ho : outsideLoop (s.wave x.w) (a l) = true) (hk : ∀ k, k < l → m.getLsbD k = true → outsideLoop (s.wave x.w) (a k) = false) :
    s.transfer x (targetsOf m a) = .fault Code.illop l 0xF 0 s := by
  have hfirst : (lanesOf m).find? (fun l => outsideLoop (s.wave x.w) (a l)) = some l :=
    find?_least (lanesOf_ascending m) (mem_lanesOf.mpr ⟨BitVec.lt_of_getLsbD hl, hl⟩) ho fun k hk' hlt => hk k hlt (mem_lanesOf.mp hk').2
  rw [transfer_eq, hfirst]

/-! What a transfer does to its wave. -/

theorem transferred_onlyWave {s : State} {x : Iss} (hc : x.cur.wave = x.w) (m : Mask) (a : Nat → DWord) :
    OnlyWave s (s.transferred x m a) x.w :=
  (hc ▸ onlyWave_advance s x.cur x.g).trans (onlyWave_modWave _ _ _)

/-- A change of lanes, each its own, changes each lane of the list once. -/
theorem Wave.lane_foldl_modLane_each (f : Nat → Lane → Lane) (l : Nat) (ls : List Nat) (hd : ls.Nodup) (v : Wave) :
    (ls.foldl (fun v k => v.modLane k (f k)) v).lane l = if l ∈ ls then f l (v.lane l) else v.lane l := by
  induction ls generalizing v with
  | nil => rfl
  | cons k ls ih =>
    obtain ⟨hk, hd⟩ := List.nodup_cons.mp hd
    rw [List.foldl_cons, ih hd]
    by_cases hl : l = k
    · subst hl
      simp [hk, Wave.lane_modLane]
    · simp [hl, Wave.lane_modLane_ne]

theorem sameRegs_modLane (v : Wave) (l : Nat) (f : Lane → Lane) (d : Opnd) (n : Nat) : SameRegs v (v.modLane l f) d n := by
  constructor <;> intros <;> rfl

theorem transferred_sameRegs {s : State} {x : Iss} (hc : x.cur.wave = x.w) (m : Mask) (a : Nat → DWord) (d : Opnd) (n : Nat) :
    SameRegs (s.wave x.w) ((s.transferred x m a).wave x.w) d n := by
  unfold State.transferred State.advance
  rw [State.wave_modWave, hc, State.wave_modWave]
  exact (sameRegs_modLanes _ _ _ _ _).trans (foldl_rel (fun v u => SameRegs v u d n) (fun v => SameRegs.refl v _ _) SameRegs.trans _ _
    (fun v l _ => sameRegs_modLane v l _ d n) _)

/-- Each lane of the machine after a transfer: at its target, at the next word, or where it was. -/
theorem lane_transferred {s : State} {x : Iss} (hc : x.cur.wave = x.w) (hg : x.g &&& (s.wave x.w).live = x.g) (m : Mask) (a : Nat → DWord)
    {l : Nat} (hl : l < 32) : ((s.transferred x m a).wave x.w).lane l =
      let y := if x.g.getLsbD l then Lane.wentOn (s.wave x.w) x.cur ((s.wave x.w).lane l) else (s.wave x.w).lane l
      if m.getLsbD l then Lane.jumped x.cur (a l) y else y := by
  have hadv := lane_advance s x.cur x.g l
  rw [hc, hg] at hadv
  unfold State.transferred
  rw [State.wave_modWave, Wave.lane_foldl_modLane_each (fun l => Lane.jumped x.cur (a l)) l _ (nodup_lanesOf m), hadv]
  simp [mem_lanesOf, hl]

/-! The words (13 R299-R302). -/

section
variable (s : State) (c : Cursor) (dest : Nat → Option DWord)

/-- Every target lies in the body of the innermost active loop. -/
def StaysInLoop : Prop :=
  ∀ l a f, c.group.getLsbD l = true → dest l = some a → (s.wave c.wave).loops.head? = some f → f.first ≤ a ∧ a < f.after

/-- A lane's target lies outside the body. -/
def LeavesLoop (l : Nat) : Prop := ∃ a f, dest l = some a ∧ (s.wave c.wave).loops.head? = some f ∧ (a < f.first ∨ f.after ≤ a)

/-- The lowest lane of the group whose target lies outside the body. -/
def FirstToLeave (l : Nat) : Prop :=
  l < 32 ∧ c.group.getLsbD l = true ∧ LeavesLoop s c dest l ∧ ∀ k, k < l → c.group.getLsbD k = true → ¬ LeavesLoop s c dest k

end

section
variable {s : State} {c : Cursor} {i : Instr} {h : Head} {dest : Nat → Option DWord} {m : Mask} {a : Nat → DWord}

/-- The lanes of a set within the group transfer to their targets. -/
structure Targets (c : Cursor) (dest : Nat → Option DWord) (m : Mask) (a : Nat → DWord) : Prop where
  within : ∀ l, m.getLsbD l = true → c.group.getLsbD l = true
  dest : ∀ l, c.group.getLsbD l = true → dest l = if m.getLsbD l then some (a l) else none

theorem Targets.of_mem (ht : Targets c dest m a) {l : Nat} (hl : m.getLsbD l = true) : dest l = some (a l) := by
  rw [ht.dest l (ht.within l hl), if_pos hl]

theorem Targets.stays (ht : Targets c dest m a) (hs : StaysInLoop s c dest) {l : Nat} (hl : m.getLsbD l = true) :
    outsideLoop (s.wave c.wave) (a l) = false := by
  rw [Bool.eq_false_iff, Ne, outsideLoop_iff]
  rintro ⟨f, hf, hout⟩
  obtain ⟨hfirst, hafter⟩ := hs l (a l) f (ht.within l hl) (ht.of_mem hl) hf
  rcases hout with hout | hout
  · exact absurd hout (BitVec.not_lt.mpr hfirst)
  · exact absurd hafter (BitVec.not_lt.mpr hout)

theorem Targets.leaves_iff (ht : Targets c dest m a) {l : Nat} (hl : c.group.getLsbD l = true) :
    LeavesLoop s c dest l ↔ m.getLsbD l = true ∧ outsideLoop (s.wave c.wave) (a l) = true := by
  unfold LeavesLoop
  rw [outsideLoop_iff, ht.dest l hl]
  cases m.getLsbD l
  · simp
  · simp only [if_true, true_and, Option.some.injEq]
    exact ⟨fun ⟨b, f, hb, hf, ho⟩ => ⟨f, hf, hb ▸ ho⟩, fun ⟨f, hf, ho⟩ => ⟨a l, f, rfl, hf, ho⟩⟩

theorem Targets.transfer_fault (ht : Targets c dest m a) {pn : Bool} {pm l : Nat} (hl : FirstToLeave s c dest l) :
    s.transfer (s.issOf c pn pm) (targetsOf m a) = .fault Code.illop l 0xF 0 s := by
  obtain ⟨_, hgl, hleaves, hbefore⟩ := hl
  obtain ⟨hml, hout⟩ := (ht.leaves_iff hgl).mp hleaves
  refine Machine.transfer_fault hml hout fun k hk hmk => ?_
  exact Bool.eq_false_iff.mpr fun ho => hbefore k hk (ht.within k hmk) ((ht.leaves_iff (ht.within k hmk)).mpr ⟨hmk, ho⟩)

/-- A word whose lanes transfer, and whose effect changes no lane after that. -/
theorem jumps_of_places {eff : State} {d : Opnd} {n : Nat} (hg : c.group &&& (s.wave c.wave).live = c.group) (ht : Targets c dest m a)
    (he : Places s c i h eff) (ho : OnlyWave s eff c.wave) (hs : SameRegs (s.wave c.wave) (eff.wave c.wave) d n)
    (hl : ∀ l, (eff.wave c.wave).lane l = ((s.transferred (s.issOf c h.pn h.pm) m a).wave c.wave).lane l) : Jumps s c i dest d n := by
  refine ⟨_, he, onlyWave_retireMoved ho, sameRegs_retireMoved hs, fun l hl32 => ?_⟩
  have hp := samePlace_retireMoved (s := s) (eff := eff) (c := c) (h := h) l
  have hlane := (hl l).trans (lane_transferred (x := s.issOf c h.pn h.pm) rfl hg m a hl32)
  rw [hlane] at hp
  have hgroup : (s.issOf c h.pn h.pm).g = c.group := rfl
  rw [hgroup] at hp
  refine ⟨fun hgl => ?_, fun hgl hd => ?_, fun b hgl hd => ?_⟩
  · have hml : m.getLsbD l = false := Bool.eq_false_iff.mpr fun hml => by simp [ht.within l hml] at hgl
    simp only [hgl, hml, Bool.false_eq_true, if_false] at hp
    exact hp.pc
  · have hml : m.getLsbD l = false := Bool.eq_false_iff.mpr fun hml => by simp [ht.of_mem hml] at hd
    exact hp.pc.trans (by simp only [hgl, hml, if_true, Bool.false_eq_true, if_false]; rfl)
  · rw [ht.dest l hgl] at hd
    have hml : m.getLsbD l = true := by
      cases hml : m.getLsbD l
      · simp [hml] at hd
      · rfl
    obtain rfl : a l = b := by simpa [hml] using hd
    simp only [hgl, hml, if_true] at hp
    exact ⟨hp.pc, hp.clause, hp.wait⟩

/-- A word that comes to a transfer. -/
theorem branch_of_transfer {body : Iss → State → Res} (hg : c.group &&& (s.wave c.wave).live = c.group) (hi : Issues s c i h)
    (he : exec i s = s.perform i h body) (ht : Targets c dest m a)
    (hb : body (s.issOf c h.pn h.pm) s = s.transfer (s.issOf c h.pn h.pm) (targetsOf m a)) :
    (StaysInLoop s c dest → Jumps s c i dest (.m 0) 0) ∧
      ∀ l, FirstToLeave s c dest l → (s.wave c.wave).stoppable = true → Traps s c i h Code.illop l 0xF 0 := by
  refine ⟨fun hs => ?_, fun l hfirst hstop => traps hi hstop he (hb.trans (ht.transfer_fault hfirst))⟩
  have hm := transfer_moved (x := s.issOf c h.pn h.pm) fun l hl => ht.stays hs hl
  exact jumps_of_places hg ht (places hi he (hb.trans hm)) (transferred_onlyWave (x := s.issOf c h.pn h.pm) rfl m a)
    (transferred_sameRegs (x := s.issOf c h.pn h.pm) rfl m a _ _) fun _ => rfl

/-- A word whose lanes all go on (13 R299). -/
theorem jumps_of_done (hg : c.group &&& (s.wave c.wave).live = c.group) (he : Completes s c i h s)
    (hd : ∀ l, dest l = none) (d : Opnd) (n : Nat) : Jumps s c i dest d n := by
  refine ⟨_, he, onlyWave_retire (OnlyWave.refl _ _), sameRegs_retire (SameRegs.refl _ _ _), fun l _ => ?_⟩
  rw [pc_retire hg]
  refine ⟨fun hgl => ?_, fun hgl _ => if_pos hgl, fun b _ hb => ?_⟩
  · rw [hgl]
    rfl
  · rw [hd l] at hb
    cases hb

end

/-! BRA, BRC, JMPI and RET (13 R299-R301). -/

theorem exec_bra (sub : Nat) (cond : Opnd) (off : Int) (s : State) : exec (.bra sub cond off) s = execBra sub cond off s := rfl
theorem exec_brc (sub : Nat) (cond : Opnd) (off : Int) (s : State) : exec (.brc sub cond off) s = execBrc sub cond off s := rfl
theorem exec_jmpi (w : Full) (s : State) : exec (.jmpi w) s = execJmpi w s := rfl
theorem exec_ret (w : Full) (s : State) : exec (.ret w) s = execRet w s := rfl
theorem exec_call (sub : Nat) (cond link : Opnd) (off : Int) (s : State) :
    exec (.call sub cond link off) s = execCall sub cond link off s := rfl

/-- What a word with a direct target comes to: a transfer whose targets outside the body fault, unless the target is no BLOCK record. -/
def Branch (s : State) (c : Cursor) (i : Instr) (h : Head) (target : DWord) (dest : Nat → Option DWord) : Prop :=
  (s.noBlock (s.issOf c false 0) target = false → StaysInLoop s c dest → Jumps s c i dest (.m 0) 0) ∧
  (s.noBlock (s.issOf c false 0) target = false → ∀ l, FirstToLeave s c dest l → (s.wave c.wave).stoppable = true →
    Traps s c i h Code.illop l 0xF 0) ∧
  (s.noBlock (s.issOf c false 0) target = true → (s.wave c.wave).stoppable = true → Traps s c i h Code.illop (lowestLane c.group) 0xF 0)

section
variable {s : State} {c : Cursor}

theorem bra_branch {sub : Nat} {cond : Opnd} {off : Int} {h : Head} (hg : c.group &&& (s.wave c.wave).live = c.group)
    (hh : h = Head.plain (if sub = 0 then [] else [(cond, 1)]) false) (hi : Issues s c (.bra sub cond off) h) :
    let x := s.issOf c false 0
    let v := s.srcU x cond 32 (lowestLane c.group)
    Branch s c (.bra sub cond off) h (x.home + BitVec.ofInt 64 off) (fun _ =>
      if sub = 0 ∨ (sub = 1 ∧ v ≠ 0) ∨ (sub = 2 ∧ v = 0) then some (x.home + BitVec.ofInt 64 off) else none) := by
  intro x v
  subst hh
  have he := exec_bra sub cond off s
  unfold execBra at he
  have hcond : ((sub = 0 || (sub = 1 && v != 0) || (sub = 2 && v = 0) : Bool) = true) ↔ (sub = 0 ∨ (sub = 1 ∧ v ≠ 0) ∨ (sub = 2 ∧ v = 0)) := by
    simp [or_assoc]
  by_cases htaken : sub = 0 ∨ (sub = 1 ∧ v ≠ 0) ∨ (sub = 2 ∧ v = 0)
  · have ht : Targets c (fun _ => if sub = 0 ∨ (sub = 1 ∧ v ≠ 0) ∨ (sub = 2 ∧ v = 0) then some (x.home + BitVec.ofInt 64 off) else none)
        c.group (fun _ => x.home + BitVec.ofInt 64 off) :=
      ⟨fun _ h => h, fun l hl => by rw [if_pos htaken, if_pos hl]⟩
    have hb := fun hn : s.noBlock x (x.home + BitVec.ofInt 64 off) = false =>
      branch_of_transfer hg hi he ht ((if_neg (by rw [Bool.not_eq_true]; exact hn)).trans (if_pos (hcond.mpr htaken)))
    exact ⟨fun hn => (hb hn).1, fun hn => (hb hn).2, fun hn hs => traps hi hs he (if_pos hn)⟩
  · refine ⟨fun hn _ => ?_, fun hn l hl => ?_, fun hn hs => traps hi hs he (if_pos hn)⟩
    · exact jumps_of_done hg (completes hi he ((if_neg (by rw [Bool.not_eq_true]; exact hn)).trans (if_neg fun h => htaken (hcond.mp h))))
        (fun _ => if_neg htaken) _ _
    · obtain ⟨_, _, ⟨a, f, hd, _⟩, _⟩ := hl
      rw [if_neg htaken] at hd
      cases hd

theorem brc_branch {sub n : Nat} {off : Int} (hg : c.group &&& (s.wave c.wave).live = c.group)
    (hi : Issues s c (.brc sub (.m n) off) (Head.plain [] false)) :
    let x := s.issOf c false 0
    Branch s c (.brc sub (.m n) off) (Head.plain [] false) (x.home + BitVec.ofInt 64 off) (fun l =>
      if ((s.wave c.wave).rm c.group n).getLsbD l = (sub = 0) then some (x.home + BitVec.ofInt 64 off) else none) := by
  intro x
  have he := exec_brc sub (.m n) off s
  unfold execBrc at he
  have ht : Targets c (fun l => if ((s.wave c.wave).rm c.group n).getLsbD l = (sub = 0) then some (x.home + BitVec.ofInt 64 off) else none)
      (c.group &&& (if sub = 0 then (s.wave c.wave).rm c.group n else ~~~(s.wave c.wave).rm c.group n)) (fun _ => x.home + BitVec.ofInt 64 off) := by
    refine ⟨fun l hl => ?_, fun l hl => ?_⟩
    · rw [BitVec.getLsbD_and, Bool.and_eq_true] at hl
      exact hl.1
    · rw [BitVec.getLsbD_and, hl, Bool.true_and]
      by_cases hsub : sub = 0
      · simp [hsub]
      · simp [hsub, BitVec.lt_of_getLsbD hl]
  have hb := fun hn : s.noBlock x (x.home + BitVec.ofInt 64 off) = false =>
    branch_of_transfer hg hi he ht (if_neg (by rw [Bool.not_eq_true]; exact hn))
  exact ⟨fun hn => (hb hn).1, fun hn => (hb hn).2, fun hn hs => traps hi hs he (if_pos hn)⟩

/-- The lanes that a predicate enables are of the group (12 R281). -/
theorem getLsbD_group_of_enabled {pn : Bool} {pm l : Nat} (h : (s.issOf c pn pm).e.getLsbD l = true) : c.group.getLsbD l = true := by
  change (enabledLanes (s.wave c.wave) c.group pn pm).getLsbD l = true at h
  unfold enabledLanes at h
  split at h
  · exact h
  · split at h <;> exact (Bool.and_eq_true_iff.mp (BitVec.getLsbD_and .. ▸ h)).1

/-- The lanes that JMPI and RET move, with the addresses that they read. -/
theorem indirect_targets (w : Full) :
    let x := s.issOf c w.pn w.pm
    Targets c (fun l => if x.e.getLsbD l then some (BitVec.ofNat 64 (s.src x w.a tagN64 true l)) else none) x.e
      (fun l => BitVec.ofNat 64 (s.src x w.a tagN64 true l)) :=
  ⟨fun _ => getLsbD_group_of_enabled, fun _ _ => rfl⟩

end

/-! CALL (13 R302). -/

section
variable {s : State} {c : Cursor} {sub : Nat} {cond link : Opnd} {off : Int}

/-- The head of CALL. -/
def callHead (sub : Nat) (cond link : Opnd) : Head := Head.plain ((link, 2) :: (if sub = 0 then [] else [(cond, 2)])) false

/-- The target of a lane of CALL. -/
def callTarget (s : State) (c : Cursor) (sub : Nat) (cond : Opnd) (off : Int) (l : Nat) : DWord :=
  if sub = 0 then (s.issOf c false 0).home + BitVec.ofInt 64 off else BitVec.ofNat 64 (s.src (s.issOf c false 0) cond tagN64 true l)

theorem call_targets : Targets c (fun l => some (callTarget s c sub cond off l)) c.group (callTarget s c sub cond off) :=
  ⟨fun _ h => h, fun _ hl => (if_pos hl).symm⟩

/-- The effect of CALL: its lanes at their targets, and the next word's address in its link pair. -/
def callEffect (s : State) (c : Cursor) (sub : Nat) (cond link : Opnd) (off : Int) : State :=
  (s.transferred (s.issOf c false 0) c.group (callTarget s c sub cond off)).put (s.issOf c false 0) link true tagN64 (fun _ => c.next.toNat)

theorem call_places (hi : Issues s c (.call sub cond link off) (callHead sub cond link))
    (hn : ¬ (sub = 0 ∧ s.noBlock (s.issOf c false 0) ((s.issOf c false 0).home + BitVec.ofInt 64 off) = true))
    (hs : StaysInLoop s c (fun l => some (callTarget s c sub cond off l))) :
    Places s c (.call sub cond link off) (callHead sub cond link) (callEffect s c sub cond link off) := by
  have hm := transfer_moved (x := s.issOf c false 0) fun l hl => (call_targets (c := c)).stays hs hl
  refine places hi (exec_call sub cond link off s) ((if_neg ?_).trans ?_)
  · rw [Bool.and_eq_true, decide_eq_true_eq]
    exact hn
  · have hm' : let x := s.issOf c (callHead sub cond link).pn (callHead sub cond link).pm
        s.transfer x ((lanesOf x.g).map (fun l => (l, if sub = 0 then x.target off else BitVec.ofNat 64 (s.src x cond tagN64 true l)))) =
          .moved (s.transferred (s.issOf c false 0) c.group (callTarget s c sub cond off)) := hm
    simp only [hm']
    rfl

/-- CALL to a target outside the body faults at the lowest such lane. -/
theorem call_traps {l : Nat} (hi : Issues s c (.call sub cond link off) (callHead sub cond link))
    (hn : ¬ (sub = 0 ∧ s.noBlock (s.issOf c false 0) ((s.issOf c false 0).home + BitVec.ofInt 64 off) = true))
    (hl : FirstToLeave s c (fun l => some (callTarget s c sub cond off l)) l) (hs : (s.wave c.wave).stoppable = true) :
    Traps s c (.call sub cond link off) (callHead sub cond link) Code.illop l 0xF 0 := by
  have hf := (call_targets (c := c)).transfer_fault (pn := false) (pm := 0) hl
  refine traps hi hs (exec_call sub cond link off s) ((if_neg ?_).trans ?_)
  · rw [Bool.and_eq_true, decide_eq_true_eq]
    exact hn
  · have hf' : let x := s.issOf c (callHead sub cond link).pn (callHead sub cond link).pm
        s.transfer x ((lanesOf x.g).map (fun l => (l, if sub = 0 then x.target off else BitVec.ofNat 64 (s.src x cond tagN64 true l)))) =
          .fault Code.illop l 0xF 0 s := hf
    simp only [hf']

/-- An effect on registers alone changes no lane. -/
theorem RegsOnly.lane {v u : Wave} (h : RegsOnly v u) (l : Nat) : u.lane l = v.lane l := by
  obtain ⟨_, _, _, _, _, _, rfl⟩ := h
  rfl

theorem call_jumps (hg : c.group &&& (s.wave c.wave).live = c.group) (hi : Issues s c (.call sub cond link off) (callHead sub cond link))
    (hn : ¬ (sub = 0 ∧ s.noBlock (s.issOf c false 0) ((s.issOf c false 0).home + BitVec.ofInt 64 off) = true))
    (hs : StaysInLoop s c (fun l => some (callTarget s c sub cond off l))) :
    Jumps s c (.call sub cond link off) (fun l => some (callTarget s c sub cond off l)) link 2 := by
  obtain ⟨hregs, hsame⟩ := put_wave (s.transferred (s.issOf c false 0) c.group (callTarget s c sub cond off)) (s.issOf c false 0) link true
    tagN64 (fun _ => c.next.toNat)
  exact jumps_of_places hg call_targets (call_places hi hn hs)
    ((transferred_onlyWave (x := s.issOf c false 0) rfl _ _).trans (put_onlyWave _ _ _ _ _ _))
    ((transferred_sameRegs (x := s.issOf c false 0) rfl _ _ _ _).trans hsame) hregs.lane

/-- A pair of words written from a doubleword reads as it. -/
theorem pairOf_toNat (x : DWord) : pairOf (BitVec.ofNat 32 x.toNat) (BitVec.ofNat 32 (x.toNat / 2 ^ 32)) = x := by
  have hlow : BitVec.ofNat 32 x.toNat = loWord x := BitVec.eq_of_toNat_eq (by simp [loWord])
  have hhigh : BitVec.ofNat 32 (x.toNat / 2 ^ 32) = hiWord x := BitVec.eq_of_toNat_eq (by simp [hiWord, Nat.shiftRight_eq_div_pow])
  rw [hlow, hhigh, pairOf_words]

/-- CALL leaves the next word's address in a varying link pair (13 R302). -/
theorem call_link {n l : Nat} (hi : Issues s c (.call sub cond (.v n) off) (callHead sub cond (.v n)))
    (hn : ¬ (sub = 0 ∧ s.noBlock (s.issOf c false 0) ((s.issOf c false 0).home + BitVec.ofInt 64 off) = true))
    (hs : StaysInLoop s c (fun l => some (callTarget s c sub cond off l))) (hne : c.group ≠ 0) (hl : l < 32)
    (hgl : c.group.getLsbD l = true) {t : State} (ht : exec (.call sub cond (.v n) off) s = .next t) :
    pairOf ((t.wave c.wave).rv n l) ((t.wave c.wave).rv (n + 1) l) = c.next := by
  obtain rfl : _ = t := Host.Outcome.next.inj ((call_places hi hn hs).symm.trans ht)
  have hrv : ∀ k {x : Word}, (∀ v : Wave, (v.putLane n true l c.next.toNat).rv k l = x) →
      ((s.retireMoved c (callHead sub cond (.v n)) (callEffect s c sub cond (.v n) off)).wave c.wave).rv k l = x := by
    intro k x hx
    refine (retireMoved_keeps (·.rv k l) (by simp [Wave.rv]) (by simp [Wave.rv])).trans ?_
    have hput : (callEffect s c sub cond (.v n) off).wave c.wave = _ := wave_put_v _ (s.issOf c false 0) n true tagN64 _
    rw [hput]
    exact (Wave.rv_putV _ _ _ hne hl hx).trans (if_pos hgl)
  rw [hrv n fun v => v.rv_putLane_low n true _ hl, hrv (n + 1) fun v => v.rv_putLane_high n l _]
  exact pairOf_toNat c.next

end

end Sys2Proof.Machine

namespace Sys2Proof
open Machine

/-- Settles O32: every word is a transfer of a set of lanes, by `branch_of_transfer`; CALL writes its link after it. -/
theorem branches : Obligations.Branches := by
  intro s c hg inLoop leaves first traps
  refine ⟨fun sub cond off => ?_, fun sub n off => ?_, fun w => ?_, fun sub cond link off => ?_⟩
  · intro h x v dest hi
    exact bra_branch hg rfl hi
  · intro h x m dest hi
    exact brc_branch hg hi
  · intro h x dest
    exact ⟨fun hi => branch_of_transfer hg hi (exec_jmpi w s) (indirect_targets w) rfl,
      fun hi => branch_of_transfer hg hi (exec_ret w s) (indirect_targets w) rfl⟩
  · intro h x dest hi
    refine ⟨fun hn hs => ?_, fun hn => ⟨fun l hl hs => call_traps hi hn hl hs, fun hin => ⟨call_jumps hg hi hn hin, ?_⟩⟩⟩
    · refine Machine.traps hi hs (exec_call sub cond link off s) (if_pos ?_)
      rw [Bool.and_eq_true, decide_eq_true_eq]
      exact hn
    · intro t ht hne n l hlink hl hgl
      subst hlink
      exact call_link hi hn hin hne hl hgl ht

end Sys2Proof
end

section
/-! PROOFS. Hardware loops (O34). -/
namespace Sys2Proof.Machine

theorem exec_loop (lc count : Opnd) (body : Nat) (s : State) : exec (.loop lc count body) s = execLoop lc count body s := rfl
theorem exec_loopEnd (s : State) : exec .loopEnd s = execLoopEnd s := rfl
theorem exec_lbrk (w : Full) (s : State) : exec (.lbrk w) s = execLbrk w s := rfl

/-! LOOP (13 R304). -/

/-- The first word of a body: after LOOP's clause, or its record. -/
def Cursor.bodyStart (c : Cursor) : DWord :=
  match c.clause with
  | some (b, hd) => clauseAfter b hd
  | none => c.next

/-- What LOOP finds of its body. -/
def State.scanBody (s : State) (c : Cursor) (body : Nat) : BodyScan × State :=
  match c.clause with
  | some _ => s.scanClauses c.wave c.group 257 c.bodyStart body
  | none => s.scanRecords c.wave c.group c.vvirt 1024 c.bodyStart body

/-- The end of a body that has none of its own: its outer loop's (log 72). -/
def outerEnd (v : Wave) : DWord := (v.loops.head?.map (·.after)).getD (BitVec.ofNat 64 (2 ^ 64 - 1))

/-- A body of which LOOP has found the end, or that it has none. -/
def BodyEnds (v : Wave) (scan : BodyScan) (after last : DWord) : Prop :=
  scan = .ends after last ∨ scan = .endless ∧ after = last ∧ after = outerEnd v

/-- LOOP takes its count. -/
def State.countLoop (s : State) (x : Iss) (i : Nat) (count : Opnd) : State :=
  s.modWave x.w (fun v => v.wlc i (BitVec.ofNat 32 (s.srcU x count 32 x.lane0)))

/-- LOOP's lanes skip the body where COUNT is 0, and else enter it. -/
def State.enterLoop (s : State) (x : Iss) (i : Nat) (count : Opnd) (body : Nat) (first after last : DWord) : State :=
  if s.srcU x count 32 x.lane0 = 0 then (s.countLoop x i count).modWave x.w (fun v => v.leaveTo x.g after x.cur.modBase)
  else (s.countLoop x i count).modWave x.w (fun v =>
    { v with loops := { lc := i, first, last, after, body, buf := [] } :: v.loops }.modLanes x.g (fun l =>
      { l with pc := first, clause := none, modBase := x.cur.modBase, enter := false, wait := none }))

/-- A body ends no later than the innermost active loop's. -/
def endsWithin (v : Wave) (after : DWord) : Bool :=
  match v.loops with
  | f :: _ => after ≤ f.after
  | [] => true

theorem endsWithin_of {v : Wave} {after : DWord} (h : ∀ f, v.loops.head? = some f → after ≤ f.after) : endsWithin v after = true := by
  unfold endsWithin
  cases hl : v.loops with
  | nil => rfl
  | cons f rest => exact decide_eq_true (h f (by rw [hl]; rfl))

/-- A LOOP that stands where it may, with a body that may stand within its outer loop's, enters its body or skips it. -/
theorem loop_enters (s : State) (x : Iss) (i : Nat) (count : Opnd) (body : Nat) (first after last : DWord) {within misplaced : Bool}
    (hw : within = true) (hm : misplaced = false) :
    (if !within || misplaced then x.fail Code.illop s
    else if s.srcU x count 32 x.lane0 = 0 then
      .moved ((s.countLoop x i count).modWave x.w (fun v => v.leaveTo x.g after x.cur.modBase))
    else .moved ((s.countLoop x i count).modWave x.w (fun v =>
      { v with loops := { lc := i, first, last, after, body, buf := [] } :: v.loops }.modLanes x.g (fun l =>
        { l with pc := first, clause := none, modBase := x.cur.modBase, enter := false, wait := none })))) =
      .moved (s.enterLoop x i count body first after last) := by
  subst hw hm
  unfold State.enterLoop
  rw [if_neg (by decide)]
  split <;> rfl

theorem loop_places {s s1 : State} {c : Cursor} {i : Nat} {count : Opnd} {body : Nat} {scan : BodyScan} {after last : DWord}
    (hi : Issues s c (.loop (.lc i) count body) (Head.plain [(count, 1)] true)) (hdepth : (s.wave c.wave).loops.length < 3)
    (hfree : ∀ f ∈ (s.wave c.wave).loops, f.lc ≠ i) (hscan : s.scanBody c body = (scan, s1)) (hends : BodyEnds (s.wave c.wave) scan after last)
    (hnest : ∀ f, (s.wave c.wave).loops.head? = some f → after ≤ f.after) (hlast : c.clause = none ∨ c.lastInClause = true) :
    Places s c (.loop (.lc i) count body) (Head.plain [(count, 1)] true)
      (s1.enterLoop (s.issOf c false 0) i count body c.bodyStart after last) := by
  refine places hi (exec_loop (.lc i) count body s) ((if_neg (Nat.not_le.mpr hdepth)).trans ((if_neg ?_).trans ?_))
  · rw [List.any_eq_true]
    exact fun ⟨f, hf, heq⟩ => hfree f hf (of_decide_eq_true heq)
  · have hwithin := endsWithin_of hnest
    unfold State.scanBody at hscan
    unfold Cursor.bodyStart at hscan ⊢
    cases hcl : c.clause with
    | none =>
      simp only [hcl] at hscan
      simp only [State.issOf, hcl, hscan]
      rcases hends with rfl | ⟨rfl, rfl, rfl⟩
      · exact loop_enters s1 (s.issOf c false 0) _ _ _ _ _ _ hwithin rfl
      · exact loop_enters s1 (s.issOf c false 0) _ _ _ _ _ _ hwithin rfl
    | some b =>
      have hl : c.lastInClause = true := hlast.resolve_left (by simp [hcl])
      simp only [hcl] at hscan
      simp only [State.issOf, hcl, hscan]
      rcases hends with rfl | ⟨rfl, rfl, rfl⟩
      · exact loop_enters s1 (s.issOf c false 0) _ _ _ _ _ _ hwithin (by rw [hl]; rfl)
      · exact loop_enters s1 (s.issOf c false 0) _ _ _ _ _ _ hwithin (by rw [hl]; rfl)

/-! The end of a body (13 R305). -/

section
variable {s : State} {f : LoopFrame} {rest : List LoopFrame}

/-- Every live lane of a wave waits at the end of its innermost loop's body. -/
theorem allAtEnd {v : Wave} (h : ∀ l, l < 32 → v.live.getLsbD l = true → (v.lane l).wait = some .loopEnd) :
    (lanesOf v.live).all (fun l => (v.lane l).wait = some .loopEnd) = true :=
  List.all_eq_true.mpr fun l hl => decide_eq_true (h l (mem_lanesOf.mp hl).1 (mem_lanesOf.mp hl).2)

/-- The last repetition: all live lanes leave the body together. -/
theorem loopEnd_leaves (hloops : (s.wave s.occ.a).loops = f :: rest) (ha : s.awake s.occ.a = true)
    (hw : ∀ l, l < 32 → (s.wave s.occ.a).live.getLsbD l = true → ((s.wave s.occ.a).lane l).wait = some .loopEnd)
    (hn : (s.wave s.occ.a).rlc f.lc ≤ 1) :
    exec .loopEnd s = .next (s.setWave s.occ.a (({ s.wave s.occ.a with loops := rest }.wlc f.lc 0).leaveTo (s.wave s.occ.a).live f.after
      ((s.wave s.occ.a).lane (lowestLane (s.wave s.occ.a).live)).modBase)) := by
  rw [exec_loopEnd]
  unfold execLoopEnd
  simp only [hloops, ha, allAtEnd hw, Bool.and_self, if_true]
  exact if_pos hn

/-- The wave after a repetition that is not the last: its count has fallen, and its live lanes stand at the body's first word. -/
def Wave.repeated (v : Wave) (f : LoopFrame) : Wave :=
  (v.wlc f.lc (BitVec.ofNat 32 ((v.rlc f.lc).toNat - 1))).modLanes v.live (fun l =>
    { l with pc := f.first, clause := none, enter := false, wait := none })

theorem loopEnd_repeats (hloops : (s.wave s.occ.a).loops = f :: rest) (ha : s.awake s.occ.a = true)
    (hw : ∀ l, l < 32 → (s.wave s.occ.a).live.getLsbD l = true → ((s.wave s.occ.a).lane l).wait = some .loopEnd)
    (hn : 1 < (s.wave s.occ.a).rlc f.lc) : exec .loopEnd s = .next (s.setWave s.occ.a ((s.wave s.occ.a).repeated f)) := by
  rw [exec_loopEnd]
  unfold execLoopEnd
  simp only [hloops, ha, allAtEnd hw, Bool.and_self, if_true]
  exact if_neg (Nat.not_le.mpr hn)

/-- A count that has fallen by one. -/
theorem ofNat_pred {x : Word} (h : 1 < x) : BitVec.ofNat 32 (x.toNat - 1) = x - 1 := by
  have hx : 1 < x.toNat := h
  bv_omega

theorem Wave.rlc_repeated {v : Wave} {f : LoopFrame} (h : 1 < v.rlc f.lc) : (v.repeated f).rlc f.lc = v.rlc f.lc - 1 := by
  unfold Wave.repeated Wave.rlc
  rw [Wave.modLanes_lc]
  exact (tget_tset_same _ _ _ _).trans (ofNat_pred h)

theorem Wave.loops_repeated (v : Wave) (f : LoopFrame) : (v.repeated f).loops = v.loops := by
  unfold Wave.repeated
  rw [Wave.modLanes_loops]
  rfl

theorem Wave.lane_repeated (v : Wave) (f : LoopFrame) {l : Nat} (hl : v.live.getLsbD l = true) :
    ((v.repeated f).lane l).pc = f.first ∧ ((v.repeated f).lane l).wait = none := by
  unfold Wave.repeated
  rw [Wave.lane_modLanes, if_pos hl]
  exact ⟨rfl, rfl⟩

end

end Sys2Proof.Machine

namespace Sys2Proof
open Machine

/-- Settles O34: LOOP by what it finds of its body, the end of a body by its count, and LBRK. -/
theorem loops : Obligations.Loops := by
  intro s
  refine ⟨?_, ?_, ?_⟩
  · intro c i count body scan after last s1 h x v first n s2 hi hdepth hfree hscan hends hnest hlast
    have hp := loop_places hi hdepth hfree hscan hends hnest hlast
    exact ⟨fun hn => (if_pos hn : s1.enterLoop x i count body first after last = _) ▸ hp,
      fun hn => (if_neg hn : s1.enterLoop x i count body first after last = _) ▸ hp⟩
  · intro w v f rest hloops ha hw
    refine ⟨loopEnd_leaves hloops ha hw, fun hn => ⟨_, loopEnd_repeats hloops ha hw hn, onlyWave_setWave _ _ _, ?_⟩⟩
    rw [State.wave_setWave]
    exact ⟨Wave.rlc_repeated hn, Wave.loops_repeated v f, fun l _ hl => Wave.lane_repeated v f hl⟩
  · intro c w h v hi
    refine ⟨fun hl => ?_, fun f rest hl => ?_⟩
    · refine completes hi (exec_lbrk w s) ?_
      have hl' : (s.issOf c h.pn h.pm).wave.loops = [] := hl
      simp only [hl']
    · refine places hi (exec_lbrk w s) ?_
      have hl' : (s.issOf c h.pn h.pm).wave.loops = f :: rest := hl
      simp only [hl']
      rfl

end Sys2Proof
end

section
/-! PROOFS. YIELD, and the port's cycle that it gives up (O35). -/
namespace Sys2Proof.Machine

theorem exec_yield (w : Full) (s : State) : exec (.yield w) s = execYield w s := rfl

/-- A legal word whose entry has no predication has neither a predicate nor a flag select (12 R281, R287). -/
theorem bare_of_legal {i : Instr} {w : Full} {h : Shape} (hs : i.shape = some (w, h)) (hn : h.nopred = true) (hl : i.illegal = none) :
    w.pn = false ∧ w.pm = 0 ∧ w.fs = 0 := by
  have hbare : (w.pn || w.pm != 0 || w.fs != 0) = false := by
    rw [Bool.eq_false_iff]
    intro hb
    have hill := illegal_of_illop hs (by simp only [Shape.illop, hn, hb, Bool.and_self, Bool.or_true, Bool.true_or])
    rw [hl] at hill
    cases hill
  simpa [and_assoc] using hbare

/-- A wave that has yielded. -/
def Wave.yielded (v : Wave) : Wave := { v with age := 0, skipCycle := true }

theorem yield_completes {s : State} {c : Cursor} {w : Full} (hi : Issues s c (.yield w) (headF w [] false)) :
    Completes s c (.yield w) (headF w [] false) (s.modWave c.wave Wave.yielded) := completes hi (exec_yield w s) rfl

/-- YIELD changes nothing but its wave's age and its cycle. -/
theorem yield_frame (s : State) (c : Cursor) (h : Head) :
    RegFrame s (s.retire c h (s.modWave c.wave Wave.yielded)) c.wave (.m 0) 0 false := by
  refine ⟨onlyWave_retire (onlyWave_modWave _ _ _), sameWave_retire ?_ ?_, sameRegs_retire ?_⟩
  · rw [State.wave_modWave]
    constructor <;> intros <;> rfl
  · rw [State.wave_modWave]
    rfl
  · rw [State.wave_modWave]
    constructor <;> intros <;> rfl

/-! The cycle given up (13 R308). -/

/-- A wave that has given up the cycle is not among the ready ones. -/
theorem not_ready_of_skip {s : State} {w : Nat} (h : (s.wave w).skipCycle = true) (core port : Nat) :
    w ∉ (s.readyGroups core port).1.map (·.1) := by
  intro hw
  obtain ⟨x, hx, rfl⟩ := List.mem_map.mp hw
  obtain ⟨-, gs, hgs, -⟩ := (readyGroups_spec s core port).1 x hx
  obtain ⟨-, -, hskip, -⟩ := mem_portGroups hgs
  rw [h] at hskip
  cases hskip

/-- Its own part of a cycle in which it is not selected ends what a wave has given up. -/
theorem skip_passCycle_self (s : State) {sel : Option Nat} (rdy : List Nat) {w : Nat} (hs : sel ≠ some w) :
    ((s.passCycle sel rdy w).wave w).skipCycle = false := by
  unfold State.passCycle
  dsimp only
  rw [if_neg hs]
  split
  · rw [State.wave_setWave]
  · rw [State.stalled, State.wave_modWave, State.wave_setWave]

theorem skip_passCycles {s : State} {sel : Option Nat} (rdy : List Nat) {w : Nat} (hs : sel ≠ some w) (ws : List Nat)
    (h : w ∈ ws ∨ (s.wave w).skipCycle = false) : ((ws.foldl (fun s k => s.passCycle sel rdy k) s).wave w).skipCycle = false := by
  induction ws generalizing s with
  | nil => exact h.resolve_left List.not_mem_nil
  | cons k ws ih =>
    refine ih ?_
    by_cases hk : w = k
    · subst hk
      exact .inr (skip_passCycle_self s rdy hs)
    · refine h.imp (fun hw => (List.mem_cons.mp hw).resolve_left hk) fun hskip => ?_
      rw [(passCycle_onlyWave s sel rdy k).waves w hk, hskip]

end Sys2Proof.Machine

namespace Sys2Proof
open Machine

/-- Settles O35: the word by its encoding, the effect by its frame, and the cycle through the ready waves and `passCycle`. -/
theorem yieldRule : Obligations.YieldRule := by
  refine ⟨by decide, fun w => bare_of_legal rfl rfl, ?_, ?_, fun s w core port sel rdy _ hw hs => ?_⟩
  · intro s c w h hi
    have hwave : ∀ {α : Type} (p : Wave → α) (_ : ∀ v g f, p (Wave.modLanes v g f) = p v)
        (_ : ∀ (v : Wave) k f r, p { v with wwords := k, flags := f, replay := r } = p v),
        p ((s.retire c h (s.modWave c.wave Wave.yielded)).wave c.wave) = p (s.wave c.wave).yielded := fun p hl hw => by
      rw [retire_keeps p hl hw, State.wave_modWave]
    exact ⟨_, yield_completes hi, hwave (·.age) (by simp) (by simp), hwave (·.skipCycle) (by simp) (by simp), yield_frame s c h⟩
  · intro s w core port hskip
    have hnot := not_ready_of_skip hskip core port
    exact ⟨hnot, fun hsel => hnot (select_spec hsel).1⟩
  · rw [portCycle_eq]
    exact skip_passCycles rdy hs _ (.inl hw)

end Sys2Proof
end

section
/-! PROOFS. The unit barrier: its words, the end of its waits, and its phase (O37). -/
namespace Sys2Proof.Machine

theorem exec_barArrive (w : Full) (s : State) : exec (.barArrive w) s = execBarArrive w s := rfl
theorem exec_barWait (w : Full) (s : State) : exec (.barWait w) s = execBarWait w s := rfl
theorem exec_barSync (w : Full) (s : State) : exec (.barSync w) s = execBarSync w s := rfl
theorem exec_barWaitResume (s : State) : exec .barWaitResume s = execBarWaitResume s := rfl

/-! The words (13 R310). -/

section
variable {s : State} {c : Cursor} {w : Full}

theorem barArrive_settles (hi : Issues s c (.barArrive w) (headF w [] true)) :
    ((s.wave c.wave).barArrived = false → Completes s c (.barArrive w) (headF w [] true) (s.barArrive c.wave c.group)) ∧
    ((s.wave c.wave).barArrived = true →
      Places s c (.barArrive w) (headF w [] true) (s.waitOn (s.issOf c w.pn w.pm) c.group .barArrive)) :=
  ⟨fun h => completes hi (exec_barArrive w s) (if_neg (by rw [Bool.not_eq_true]; exact h)),
    fun h => places hi (exec_barArrive w s) (if_pos h)⟩

theorem barWait_settles (hi : Issues s c (.barWait w) (headF w [] true)) :
    (s.barPasses c.wave = true → Completes s c (.barWait w) (headF w [] true) (s.barAcquire c.wave c.group c.pc 1)) ∧
    (s.barPasses c.wave = false →
      Places s c (.barWait w) (headF w [] true) (s.waitOn (s.issOf c w.pn w.pm) c.group .barWait)) :=
  ⟨fun h => completes hi (exec_barWait w s) (if_pos h),
    fun h => places hi (exec_barWait w s) (if_neg (by rw [Bool.not_eq_true]; exact h))⟩

theorem barSync_settles (hi : Issues s c (.barSync w) (headF w [] true)) :
    let a := s.barArrive c.wave c.group
    ((s.wave c.wave).barArrived = true →
      Places s c (.barSync w) (headF w [] true) (s.waitOn (s.issOf c w.pn w.pm) c.group .barSyncArrive)) ∧
    ((s.wave c.wave).barArrived = false → a.barPasses c.wave = true →
      Completes s c (.barSync w) (headF w [] true) (a.barAcquire c.wave c.group c.pc 1)) ∧
    ((s.wave c.wave).barArrived = false → a.barPasses c.wave = false →
      Places s c (.barSync w) (headF w [] true) (a.waitOn (s.issOf c w.pn w.pm) c.group .barWait)) := by
  refine ⟨fun h => places hi (exec_barSync w s) (if_pos h), fun h hp => ?_, fun h hp => ?_⟩
  · exact completes hi (exec_barSync w s) ((if_neg (by rw [Bool.not_eq_true]; exact h)).trans (if_pos hp))
  · exact places hi (exec_barSync w s) ((if_neg (by rw [Bool.not_eq_true]; exact h)).trans (if_neg (by rw [Bool.not_eq_true]; exact hp)))

end

/-! BAR_WAIT_RESUME (13 R310). -/

/-- A wave's lanes wait for one thing. -/
theorem allWait_unique {s : State} {w : Nat} {a b : Wait} (ha : s.allWait w a = true) (hb : s.allWait w b = true) : a = b := by
  unfold State.allWait at ha hb
  simp only [Bool.and_eq_true, bne_iff_ne, List.all_eq_true, decide_eq_true_eq] at ha hb
  obtain ⟨hne, ha⟩ := ha
  have hl := lowestLane_mem hne
  exact Option.some.inj ((ha _ hl).1.symm.trans (hb.2 _ hl).1)

theorem allWait_other {s : State} {w : Nat} {a b : Wait} (ha : s.allWait w a = true) (hne : a ≠ b) : s.allWait w b = false :=
  Bool.eq_false_iff.mpr fun hb => hne (allWait_unique ha hb)

section
variable {s : State}

theorem barWaitResume_wait (ha : s.awake s.occ.a = true) (hw : s.allWait s.occ.a .barWait = true) (hp : s.barPasses s.occ.a = true) :
    let v := s.wave s.occ.a
    exec .barWaitResume s = .next ((s.barAcquire s.occ.a v.live v.pcNow 0).leaveWait s.occ.a v.live) := by
  rw [exec_barWaitResume]
  unfold execBarWaitResume
  simp only [ha, hw, hp, Bool.and_self, if_true]

theorem barWaitResume_arrive (ha : s.awake s.occ.a = true) (hw : s.allWait s.occ.a .barArrive = true)
    (hb : (s.wave s.occ.a).barArrived = false) :
    let v := s.wave s.occ.a
    exec .barWaitResume s = .next ((s.barArrive s.occ.a v.live).leaveWait s.occ.a v.live) := by
  rw [exec_barWaitResume]
  unfold execBarWaitResume
  simp only [ha, hw, hb, allWait_other hw (b := .barWait) (by decide), Bool.false_and, Bool.not_false, Bool.and_self, if_true,
    Bool.false_eq_true, if_false]

/-- A wave held at BAR.SYNC arrives, and then goes on or waits. -/
theorem barWaitResume_sync (ha : s.awake s.occ.a = true) (hw : s.allWait s.occ.a .barSyncArrive = true)
    (hb : (s.wave s.occ.a).barArrived = false) :
    let v := s.wave s.occ.a
    let a := s.barArrive s.occ.a v.live
    exec .barWaitResume s = if a.barPasses s.occ.a then .next ((a.barAcquire s.occ.a v.live v.pcNow 0).leaveWait s.occ.a v.live)
      else .next (a.modWave s.occ.a (fun v' => v'.modLanes v.live (fun l => { l with wait := some .barWait }))) := by
  rw [exec_barWaitResume]
  unfold execBarWaitResume
  simp only [ha, hw, hb, allWait_other hw (b := .barWait) (by decide), allWait_other hw (b := .barArrive) (by decide), Bool.false_and,
    Bool.not_false, Bool.and_self, if_true, Bool.false_eq_true, if_false]

end

/-! The phase (13 R310). -/

section
variable (s : State) (u : Nat)

/-- The waves that take part in a unit's barrier: those that have not exited. -/
def State.barParts : List Nat := (s.unit u).waves.filter (fun w => !(s.wave w).exited)

/-- Every participant has arrived. -/
def State.BarFull : Prop := s.barParts u ≠ [] ∧ ∀ w ∈ s.barParts u, (s.wave w).barArrived = true

/-- The participants' arrivals are taken back for the next phase. -/
def State.clearArrivals (s : State) (ws : List Nat) : State :=
  ws.foldl (fun s w => s.modWave w (fun v => { v with barArrived := false })) s

theorem barJudge_of_full (h : s.BarFull u) :
    s.barJudge u = (s.clearArrivals (s.barParts u)).modUnit u (fun x => { x with barPhase := x.barPhase + 1 }) := by
  obtain ⟨hne, hall⟩ := h
  refine if_pos ?_
  rw [Bool.and_eq_true, Bool.not_eq_true', List.isEmpty_eq_false_iff, List.all_eq_true]
  exact ⟨hne, hall⟩

theorem barJudge_of_not_full (h : ¬ s.BarFull u) : s.barJudge u = s := by
  refine if_neg fun hc => h ?_
  rw [Bool.and_eq_true, Bool.not_eq_true', List.isEmpty_eq_false_iff, List.all_eq_true] at hc
  exact hc

/-- Taking back arrivals changes waves alone, and each one's arrival alone. -/
theorem clearArrivals_spec (ws : List Nat) :
    (s.clearArrivals ws).mem = s.mem ∧ (s.clearArrivals ws).units = s.units ∧
      ∀ w, w ∈ ws ∨ (s.wave w).barArrived = false → ((s.clearArrivals ws).wave w).barArrived = false := by
  induction ws generalizing s with
  | nil => exact ⟨rfl, rfl, fun w h => h.resolve_left List.not_mem_nil⟩
  | cons k ws ih =>
    obtain ⟨hmem, hunits, hwaves⟩ := ih (s.modWave k (fun v => { v with barArrived := false }))
    refine ⟨hmem, hunits, fun w h => hwaves w ?_⟩
    by_cases hk : w = k
    · subst hk
      exact .inr (by rw [State.wave_modWave])
    · rw [State.wave_modWave_ne _ _ _ _ hk]
      exact h.imp_left fun hw => (List.mem_cons.mp hw).resolve_left hk

end

end Sys2Proof.Machine

namespace Sys2Proof
open Machine

/-- Settles O37: the words and the event branch by branch; the phase by whether every participant has arrived. -/
theorem unitBarrier : Obligations.UnitBarrier := by
  refine ⟨fun s => ⟨fun c w => ⟨barArrive_settles, barWait_settles, barSync_settles⟩, fun ha => ⟨barWaitResume_wait ha, barWaitResume_arrive ha,
    fun hw hb hp => (barWaitResume_sync ha hw hb).trans (if_pos hp), fun hw hb hp => (barWaitResume_sync ha hw hb).trans (if_neg ?_)⟩⟩, ?_⟩
  · rw [Bool.not_eq_true]
    exact hp
  · intro s u ps
    obtain ⟨hmem, hunits, hwaves⟩ := clearArrivals_spec s (s.barParts u)
    have hunit : ∀ k, (s.clearArrivals (s.barParts u)).unit k = s.unit k := fun k => congrArg (fun us => (tfind? us k).getD UnitSt.blank) hunits
    by_cases h : s.BarFull u
    · rw [barJudge_of_full s u h]
      refine ⟨fun _ => ⟨?_, fun w hw => hwaves w (.inl hw)⟩, fun hn => absurd h hn, hmem, fun k hk => ?_⟩
      · rw [State.unit_modUnit, hunit]
      · rw [State.unit_modUnit_ne _ _ _ _ hk, hunit]
    · rw [barJudge_of_not_full s u h]
      exact ⟨fun hf => absurd hf h, fun _ => rfl, rfl, fun _ _ => rfl⟩

end Sys2Proof
end

section
/-! PROOFS. Lanes that end where they wait at an arrival barrier change its WAITERS in memory (O36). -/
namespace Sys2Proof.Machine

/-- A change of a barrier's WAITERS is a write of its own, which draws a stamp (03 R77; 14 R368). -/
theorem clock_abarWaiters (s : State) (loc k : Nat) : (s.abarWaiters loc k).mem.clock = s.mem.clock + 1 := rfl

theorem wave_abarWaiters (s : State) (loc k w : Nat) : (s.abarWaiters loc k).wave w = s.wave w := rfl

/-- Lanes of a wave that is no handler exit (13 R307). -/
theorem endLanes_of_no_handler {s : State} {x : Iss} {m : Mask} (h : (s.wave x.w).handles = none) (hm : m ≠ 0) :
    s.endLanes x m = s.exitLanes x.w m x.cur.pc .exit := by
  simp only [State.endLanes, h, hm, if_false]

/-- Lanes that exit while others live write no memory but at the barriers that they leave. -/
theorem mem_exitLanes {s : State} {w : Nat} {g : Mask} (h : ((s.leaveBarriers w g).wave w).live &&& ~~~g ≠ 0) (pc : DWord) (e : Ending) :
    (s.exitLanes w g pc e).mem = (s.leaveBarriers w g).mem := by
  unfold State.exitLanes
  dsimp only
  rw [if_neg]
  · rfl
  · rw [State.wave_modWave, Wave.modLanes_live]
    exact h

/-- Two live lanes, of which lane 0 waits in ABAR.WAIT at location 0. -/
def barrierWave : Wave :=
  { Wave.blank with live := 3, exited := false, lanes := [(0, { Lane.init with wait := some (.abar 1 0 0) })] }

/-- The machine after reset, with that wave alone. -/
def barrierState : State := { State.reset with waves := [(0, barrierWave)] }

/-- The other lane, at its word. -/
def barrierCursor : Cursor :=
  { wave := 0, group := 2, pc := 8, next := 16, clause := none, modBase := none, lastInClause := false, minor := 0, vvirt := 0, cand := none }

/-- Lane 0 ends, and leaves the barrier at which it alone waits. -/
theorem leaveBarriers_barrierState : barrierState.leaveBarriers 0 1 = barrierState.abarWaiters 0 (2 ^ 16 - 1) := by rfl

theorem clock_endLanes_barrierState (pn : Bool) (pm : Nat) :
    (barrierState.endLanes (barrierState.issOf barrierCursor pn pm) 1).mem.clock = barrierState.mem.clock + 1 := by
  rw [endLanes_of_no_handler rfl (by decide)]
  have hw : (barrierState.issOf barrierCursor pn pm).w = 0 := rfl
  rw [hw, mem_exitLanes, leaveBarriers_barrierState, clock_abarWaiters]
  rw [leaveBarriers_barrierState, wave_abarWaiters]
  decide

end Sys2Proof.Machine

namespace Sys2Proof
open Machine

/-- Refutes O36: its clause on `endLanes` lets the set hold lanes that wait. One that waits alone in ABAR.WAIT leaves the barrier as it ends
(04 R117), which is a write of the barrier's WAITERS, where the clause says that memory stands. -/
theorem not_laneEndingAndTraps : ¬ Obligations.LaneEndingAndTraps := by
  rintro ⟨hends, -⟩
  obtain ⟨-, -, -, -, -, hexit⟩ := hends barrierState barrierCursor
    { sub := 0, d := .s 0, a := .s 0, b := .s 0, c := .s 0, pn := false, pm := 0, fs := 0, m5 := false, ty := 0 }
  obtain ⟨honly, -⟩ := hexit 1 rfl (by decide) (by decide)
  have hclock := clock_endLanes_barrierState false 0
  rw [show (barrierState.endLanes (barrierState.issOf barrierCursor false 0) 1).mem = barrierState.mem from honly.mem] at hclock
  exact absurd hclock (Nat.ne_of_lt (Nat.lt_succ_self _))

end Sys2Proof
end

section
/-! PROOFS. Floating-point words: each element rounded once (O24). -/
namespace Sys2Proof.Machine

section
variable {i : Instr} {w : Full} {s : State} {c : Cursor}

/-- A floating-point word on operands of its type gives each element its exact value rounded once (14 R338). -/
theorem floatWord_of {srcs : List Opnd} {ok : Nat → Bool} {rm : Iss → Nat} {r : Nat} {g : Nat → Num → Num → Num → Num}
    (he : exec i s = s.perform i (headT w srcs) (fltBody w srcs ok rm g)) (hr : rm (s.issOf c w.pn w.pm) = r) :
    FloatWord s c i w srcs ok r g := by
  subst hr
  intro hi hok htags
  refine writes_of_body hi he ?_
  have htags' : tagsAre (s.issOf c (headT w srcs).pn (headT w srcs).pm) srcs w.ty = true := htags
  simp only [fltBody, hok, htags', Bool.not_true, Bool.false_eq_true, if_false]
  rfl

/-- A word that checks its type, then its operands' tags, and whose operands pass both, comes to its effect (05 R133). -/
theorem formatChecked {x : Iss} {ok tags : Bool} {r : Res} (hok : ok = true) (htags : tags = true) :
    (if !ok then x.fail Code.fmtuns s else if !tags then x.fail Code.fmtmis s else r) = r := by
  rw [hok, htags]
  rfl

end

theorem exec_fcmp (w : Full) (s : State) : exec (.fcmp w) s = execFcmp w s := rfl
theorem exec_retag (w : Full) (s : State) : exec (.retag w) s = execRetag w s := rfl
theorem exec_fclass (w : Full) (s : State) : exec (.fclass w) s = execFclass w s := rfl
theorem exec_fscale (w : Full) (s : State) : exec (.fscale w) s = execFscale w s := rfl
theorem exec_dotp (w : Full) (s : State) : exec (.dotp w) s = execDotp w s := rfl
theorem exec_expr (w : Full) (in3 : Opnd) (ts : List Nat) (s : State) : exec (.expr w in3 ts) s = execExpr w in3 ts s := rfl

end Sys2Proof.Machine

namespace Sys2Proof
open Machine

/-- Settles O24: the words of one exact operation are `floatWord_of`, and every other word checks its type and tags before its one write. -/
theorem floatResults : Obligations.FloatResults := by
  unfold Obligations.FloatResults
  refine ⟨fun w s c => ?_, fun w s c => ⟨?_, ?_, ?_, ?_, ?_, ?_⟩⟩
  · exact ⟨floatWord_of (rm := bySub w) rfl rfl, floatWord_of (rm := bySub w) rfl rfl, floatWord_of (rm := bySub w) rfl rfl,
      floatWord_of (rm := bySub w) rfl rfl, floatWord_of (rm := bySub w) rfl rfl, floatWord_of (rm := bySub w) rfl rfl,
      floatWord_of (rm := exactRound) rfl rfl, floatWord_of (rm := exactRound) rfl rfl, floatWord_of (rm := exactRound) rfl rfl,
      floatWord_of (rm := exactRound) rfl rfl, floatWord_of (rm := bySub w) rfl rfl, floatWord_of (rm := byRound) rfl rfl,
      floatWord_of (rm := byRound) rfl rfl, floatWord_of (rm := byRound) rfl rfl, floatWord_of (rm := byRound) rfl rfl,
      floatWord_of (rm := byRound) rfl rfl, floatWord_of (rm := byRound) rfl rfl, floatWord_of (rm := byRound) rfl rfl,
      floatWord_of (rm := byRound) rfl rfl⟩
  · intro h hi hty htags
    have he := exec_fcmp w s
    unfold execFcmp at he
    exact writesMask_of_body hi he (formatChecked (by simpa using hty) htags)
  · exact fun hi => writes_of_body hi (exec_retag w s) rfl
  · intro h hi hty htags
    have he := exec_fclass w s
    unfold execFclass at he
    exact writes_of_body hi he (formatChecked hty htags)
  · intro h hi hty htags
    have he := exec_fscale w s
    unfold execFscale at he
    exact writes_of_body hi he (formatChecked hty htags)
  · intro h f g p rm hi htags
    have he := exec_dotp w s
    unfold execDotp at he
    refine ⟨fun hty => writes_of_body hi he ?_, fun hno hlo hhi => writes_of_body hi he ?_⟩
    · have hf : floatGroup w.ty = true := (Bool.and_eq_true_iff.mp hty).1
      refine (formatChecked (by simp [hty]) htags).trans ?_
      simp only [hf, if_true]
      rfl
    · refine (formatChecked (by simp [hlo, hhi]) htags).trans ?_
      simp only [hno, Bool.false_eq_true, if_false]
      rfl
  · intro in3 ts h hi hty htags
    have he := exec_expr w in3 ts s
    unfold execExpr at he
    exact writes_of_body hi he (formatChecked hty htags)

end Sys2Proof
end

section
/-! PROOFS. Loads and stores: what the steps of their lanes leave alone, and their frame (O26, O27). -/
namespace Sys2Proof.Machine

theorem exec_ld (w : MForm) (s : State) : exec (.ld w) s = execLd w s := rfl
theorem exec_cld (w : MForm) (s : State) : exec (.cld w) s = execCld w s := rfl
theorem exec_st (w : MForm) (s : State) : exec (.st w) s = execSt w s := rfl
theorem exec_cst (w : MForm) (s : State) : exec (.cst w) s = execCst w s := rfl

/-! What an access may change beside memory: its own wave's lanes and its count of TLB misses, translations held, and what the device draws. -/

/-- Nothing that MemFrame speaks of differs, and of its own wave only the lanes and the count of TLB misses. -/
structure AccessOnly (s t : State) (w : Nat) : Prop where
  waves : ∀ k, k ≠ w → t.wave k = s.wave k
  own : ∃ ls n, t.wave w = { s.wave w with lanes := ls, wtlb := n }
  units : t.units = s.units
  launches : t.launches = s.launches
  held : t.held = s.held
  ctxs : t.ctxs = s.ctxs
  pf : t.pf = s.pf
  dies : t.dies = s.dies
  pkg : t.pkg = s.pkg
  rels : t.rels = s.rels

/-- Neither does memory differ: read steps, and writes that join a queue (03 R80). -/
structure LanesOnly (s t : State) (w : Nat) : Prop extends AccessOnly s t w where
  mem : t.mem = s.mem

theorem AccessOnly.trans {s t u : State} {w : Nat} (h : AccessOnly s t w) (k : AccessOnly t u w) : AccessOnly s u w where
  waves n hn := (k.waves n hn).trans (h.waves n hn)
  own := by
    obtain ⟨ls, n, hst⟩ := h.own
    obtain ⟨ls', n', htu⟩ := k.own
    exact ⟨ls', n', by rw [htu, hst]⟩
  units := k.units.trans h.units
  launches := k.launches.trans h.launches
  held := k.held.trans h.held
  ctxs := k.ctxs.trans h.ctxs
  pf := k.pf.trans h.pf
  dies := k.dies.trans h.dies
  pkg := k.pkg.trans h.pkg
  rels := k.rels.trans h.rels

theorem LanesOnly.trans {s t u : State} {w : Nat} (h : LanesOnly s t w) (k : LanesOnly t u w) : LanesOnly s u w :=
  ⟨h.toAccessOnly.trans k.toAccessOnly, k.mem.trans h.mem⟩

/-- Waves apart, nothing that MemFrame speaks of differs where only memory, translations and counts do. -/
theorem OnlyMemTlbs.accessOnly {s t : State} (h : OnlyMemTlbs s t) (w : Nat) : AccessOnly s t w where
  waves k _ := by simp only [State.wave, h.waves]
  own := ⟨(s.wave w).lanes, (s.wave w).wtlb, by simp only [State.wave, h.waves]⟩
  units := h.units
  launches := h.launches
  held := h.held
  ctxs := h.ctxs
  pf := h.pf
  dies := h.dies
  pkg := h.pkg
  rels := h.rels

theorem lanesOnly_drawn (s : State) (f n w : Nat) : LanesOnly s { s with fresh := f, nextId := n } w :=
  ⟨⟨fun _ _ => rfl, ⟨(s.wave w).lanes, (s.wave w).wtlb, rfl⟩, rfl, rfl, rfl, rfl, rfl, rfl, rfl, rfl⟩, rfl⟩

theorem LanesOnly.refl (s : State) (w : Nat) : LanesOnly s s w := lanesOnly_drawn s s.fresh s.nextId w

theorem lanesOnly_modWave (s : State) (w : Nat) {f : Wave → Wave} (hf : ∃ ls n, f (s.wave w) = { s.wave w with lanes := ls, wtlb := n }) :
    LanesOnly s (s.modWave w f) w :=
  ⟨⟨fun k hk => State.wave_setWave_ne s w k _ hk, by rw [State.wave_modWave]; exact hf, rfl, rfl, rfl, rfl, rfl, rfl, rfl, rfl⟩, rfl⟩

theorem lanesOnly_setAgent (s : State) (w l : Nat) (x : AgentSt) : LanesOnly s (s.setAgent (.lane w l) x) w :=
  lanesOnly_modWave s w (f := fun v => v.modLane l (fun y => { y with ag := x })) ⟨_, (s.wave w).wtlb, rfl⟩

/-- The checks of an access that passes. -/
theorem Reaches.accessOnly {s s1 : State} {x : Iss} {reqs : List Req} {ps : List Place} (h : Reaches s x reqs ps s1) : AccessOnly s s1 x.w :=
  (lanesOnly_modWave s x.w ⟨(s.wave x.w).lanes, _, rfl⟩).toAccessOnly.trans ((checkAccess_onlyMemTlbs h).accessOnly x.w)

theorem lanesOnly_foldl {α : Type} {w : Nat} {f : State → α → State} (hf : ∀ s a, LanesOnly s (f s a) w) (l : List α) (s : State) :
    LanesOnly s (l.foldl f s) w := by
  induction l generalizing s with
  | nil => exact .refl s w
  | cons a l ih => exact (hf s a).trans (ih _)

theorem lanesOnly_foldl_snd {α β : Type} {w : Nat} {f : β × State → α → β × State} (hf : ∀ acc a, LanesOnly acc.2 (f acc a).2 w) (l : List α)
    (acc : β × State) : LanesOnly acc.2 (l.foldl f acc).2 w := by
  induction l generalizing acc with
  | nil => exact .refl acc.2 w
  | cons a l ih => exact (hf acc a).trans (ih _)

/-! Read steps (03 R80). -/

theorem lanesOnly_readThrough (s : State) (w l : Nat) (ext : Option Nat) (locs : List Nat) :
    LanesOnly s (s.readThrough (.lane w l) ext locs).2 w := by
  obtain ⟨f, hf⟩ := readView_state s (s.memFor (.lane w l)) (s.agent (.lane w l)).view ((s.agent (.lane w l)).due locs) ext locs
  simp only [State.readThrough, hf]
  exact (lanesOnly_drawn s f s.nextId w).trans (lanesOnly_setAgent _ w l _)

theorem lanesOnly_readWrites (s : State) (w l : Nat) (locs : List Nat) : LanesOnly s (s.readWrites (.lane w l) locs).2 w :=
  lanesOnly_readThrough s w l _ _

theorem lanesOnly_readOnlyWrites (s : State) (w l : Nat) (locs : List Nat) : LanesOnly s (s.readOnlyWrites (.lane w l) locs).2 w := by
  obtain ⟨f, hf⟩ := readView_state s (s.memFor (.lane w l)) (s.agent (.lane w l)).view1 false (some (extOf locs)) locs
  simp only [State.readOnlyWrites, hf]
  exact (lanesOnly_drawn s f s.nextId w).trans (lanesOnly_setAgent _ w l _)

/-- The read steps of a load, through V1 or V as each lane's path says. -/
theorem lanesOnly_loadSteps (s : State) (w : Nat) (ps : List Place) (n : Nat) : LanesOnly s (s.loadSteps w ps n).2 w := by
  refine lanesOnly_foldl_snd (fun acc p => ?_) ps ([], s)
  dsimp only
  split
  · exact lanesOnly_readOnlyWrites acc.2 w p.lane _
  · exact lanesOnly_readWrites acc.2 w p.lane _

theorem lanesOnly_pick (s : State) (n w : Nat) : LanesOnly s (s.pick n).2 w := by
  obtain ⟨⟨f, hf⟩, -⟩ := pick_spec s n
  rw [hf]
  exact lanesOnly_drawn s f s.nextId w

/-- A capability read. -/
theorem lanesOnly_readCap (s : State) (w l : Nat) (p : Place) : LanesOnly s (s.readCap (.lane w l) p).2.2 w := by
  have hread : ∀ locs, LanesOnly s (if pathOf p.ea = 1 then s.readOnlyWrites (.lane w l) locs else s.readWrites (.lane w l) locs).2 w := by
    intro locs
    split
    · exact lanesOnly_readOnlyWrites s w l locs
    · exact lanesOnly_readWrites s w l locs
  refine (hread ((List.range 16).map (p.loc + ·))).trans ?_
  unfold State.readCap
  dsimp only
  exact lanesOnly_pick _ _ w

/-! Write steps: the write joins the lane's queue (03 R80). -/

theorem lanesOnly_queueWrite (s : State) (w l : Nat) (bs : List (Nat × Byte)) (i : Nat) (ea pc : DWord) (acc : Nat) :
    LanesOnly s (s.queueWrite (.lane w l) bs i ea pc acc) w := lanesOnly_setAgent s w l _

/-- A source operand is read from the word's wave, and from the unit and launch that special sources name (06 R159). -/
theorem src_congr {s t : State} (hu : t.units = s.units) (hl : t.launches = s.launches) (x : Iss) (o : Opnd) (ty : Nat) (wd : Bool) (l : Nat) :
    t.src x o ty wd l = s.src x o ty wd l := by
  have hspecial : t.special = s.special := by
    funext v code
    simp only [State.special, State.unit, State.launch, hu, hl]
  simp only [State.src, hspecial]

/-- The write steps of a store, each of the bytes that `val` gives for its state and lane, with the tags of its granules cleared (14 R358). -/
def State.storeSteps (s : State) (w size i : Nat) (pc : DWord) (ps : List Place) (val : State → Nat → Nat) : State :=
  ps.foldl (fun t p => t.queueWrite (.lane w p.lane) (plainWrite p.loc size (val t p.lane)) i p.ea pc) s

/-- A value that no write step changes may as well be read before the first. -/
theorem storeSteps_read_before {s t : State} {w : Nat} {val : State → Nat → Nat} (hval : ∀ u, LanesOnly s u w → val u = val s) (ht : LanesOnly s t w)
    (size i : Nat) (pc : DWord) (ps : List Place) : t.storeSteps w size i pc ps val = t.storeSteps w size i pc ps (fun _ => val s) := by
  induction ps generalizing t with
  | nil => simp only [State.storeSteps, List.foldl_nil]
  | cons p ps ih =>
    have hcons : ∀ f, t.storeSteps w size i pc (p :: ps) f =
        (t.queueWrite (.lane w p.lane) (plainWrite p.loc size (f t p.lane)) i p.ea pc).storeSteps w size i pc ps f := fun _ => List.foldl_cons ..
    rw [hcons, hcons, hval t ht]
    exact ih (ht.trans (lanesOnly_queueWrite t w p.lane _ i p.ea pc 1))

/-! The frame of a word that has accessed memory and then at most writes a register. -/

theorem retire_onlyWave (s eff : State) (c : Cursor) (h : Head) : OnlyWave eff (s.retire c h eff) c.wave :=
  (((onlyWave_walked eff (s.issOf c h.pn h.pm)).trans (onlyWave_issued _ (s.issOf c h.pn h.pm) h.fs)).trans
    (onlyWave_beginChild _ c.wave c.wave)).trans (onlyWave_advance _ c c.group)

theorem regsOnly_wk (v : Wave) (k : Nat) (x : CapBits) (tag : Bool) : RegsOnly v (v.wk k x tag) := by
  have hws : ∀ (v : Wave) (n : Nat) (y : DWord), RegsOnly v (v.ws2 n y) := fun v n y => (regsOnly_ws v n _).trans (regsOnly_ws _ (n + 1) _)
  have htag : ∀ (v : Wave) (ks : SMap Bool), RegsOnly v { v with ktag := ks } := fun v ks => ⟨v.s, v.a, v.v, v.vtag, ks, v.masks, rfl⟩
  exact ((hws v _ _).trans (hws _ _ _)).trans (htag _ _)

/-- A capability written: its quad and its tag change alone (01 R36). -/
theorem sameRegs_wk (v : Wave) (k : Nat) (x : CapBits) (tag : Bool) : SameRegs v (v.wk k x tag) (.k k) 4 := by
  have hquad : ∀ r, 4 * k ≤ r → r < 4 * k + 4 → namesReg (.k k) 4 (.s r) = true := fun r hlo hhi => by simp [namesReg, hlo, hhi]
  have hws : ∀ (v : Wave) (j : Nat) (y : DWord), j + 1 < 4 → SameRegs v (v.ws2 (4 * k + j) y) (.k k) 4 := fun v j y hj =>
    (sameRegs_ws v _ _ (hquad _ (by omega) (by omega))).trans (sameRegs_ws _ _ _ (hquad _ (by omega) (by omega)))
  have htag : ∀ v : Wave, SameRegs v { v with ktag := tset false v.ktag k tag } (.k k) 4 := fun v =>
    { SameRegs.refl v (.k k) 4 with
      cap := fun q hq => tget_tset_ne _ _ _ _ _ fun hqk => by
        have hnot := hq (4 * k) (by omega) (by omega)
        rw [hquad _ (by omega) (by omega)] at hnot
        cases hnot }
  exact ((hws v 0 _ (by omega)).trans (hws _ 2 _ (by omega))).trans (htag _)

section
variable {s t eff : State} {c : Cursor} {h : Head} {d : Opnd} {n : Nat}

theorem memFrame_of_accessOnly (ha : AccessOnly s t c.wave) (ho : OnlyWave t eff c.wave) (hr : RegsOnly (t.wave c.wave) (eff.wave c.wave))
    (hs : SameRegs (t.wave c.wave) (eff.wave c.wave) d n) : MemFrame s (s.retire c h eff) c.wave d n := by
  have hret := ho.trans (retire_onlyWave s eff c h)
  obtain ⟨ls, k, hown⟩ := ha.own
  refine ⟨fun j hj => (hret.waves j hj).trans (ha.waves j hj), hret.units.trans ha.units, hret.launches.trans ha.launches,
    hret.held.trans ha.held, hret.ctxs.trans ha.ctxs, hret.pf.trans ha.pf, hret.dies.trans ha.dies, hret.pkg.trans ha.pkg,
    hret.rels.trans ha.rels, sameWave_retire ?_ ?_, sameRegs_retire (SameRegs.trans ?_ hs)⟩
  · obtain ⟨_, _, _, _, _, _, he⟩ := hr
    rw [he, hown]
    constructor <;> intros <;> rfl
  · obtain ⟨_, _, _, _, _, _, he⟩ := hr
    rw [he, hown]
  · rw [hown]
    constructor <;> intros <;> rfl

theorem sameBytes_retire (hm : eff.mem = t.mem) : SameBytes t (s.retire c h eff) := fun a => by
  rw [(retire_onlyWave s eff c h).mem, hm]

end

end Sys2Proof.Machine

namespace Sys2Proof
open Machine

/-- Settles O26: an access that passes goes on where its checks left the state, its read steps move its own lanes alone, and what is written
then is one destination. -/
theorem loads : Obligations.Loads := by
  unfold Obligations.Loads
  refine fun s c ps s1 => ⟨?_, ?_⟩
  · intro w x size h r eff hi hr hc
    have he := exec_ld w s
    unfold execLd at he
    have hsteps := lanesOnly_loadSteps s1 c.wave ps size
    have hput := put_onlyWave r.2 x w.d (size = 8) w.ty (fun l => extendLoad w size (valOf r.1 l))
    have hwave := put_wave r.2 x w.d (size = 8) w.ty (fun l => extendLoad w size (valOf r.1 l))
    refine ⟨completes hi he ((access_of_reaches hr _).trans (consume_of_clean hc _ _)), sameBytes_retire (hput.mem.trans hsteps.mem),
      memFrame_of_accessOnly (hr.accessOnly.trans hsteps.toAccessOnly) hput hwave.1 ?_⟩
    have hregs := hwave.2
    simp only [decide_eq_true_eq] at hregs
    exact hregs
  · intro w k p x l h r eff hi hd hx hr hc
    have he := exec_cld w s
    unfold execCld at he
    have hread := lanesOnly_readCap s1 c.wave l p
    refine ⟨completes hi he ?_, sameBytes_retire hread.mem, memFrame_of_accessOnly (hr.accessOnly.trans hread.toAccessOnly)
      (onlyWave_modWave _ _ _) ?_ ?_⟩
    · refine (if_neg hx).trans ((access_of_reaches hr _).trans ((consume_of_clean hc _ _).trans ?_))
      rw [hd]
      rfl
    · rw [State.wave_modWave]
      exact regsOnly_wk _ _ _ _
    · rw [State.wave_modWave, hd]
      exact sameRegs_wk _ _ _ _

/-- Settles O27: the checks leave the state where the writes join their lanes' queues, which neither a register nor a byte of memory shows. -/
theorem stores : Obligations.Stores := by
  unfold Obligations.Stores
  refine fun w s c ps s1 => ⟨?_, ?_⟩
  · intro size h eff hi hr
    have he := exec_st w s
    unfold execSt at he
    have hid := lanesOnly_drawn s1 s1.fresh (s1.nextId + 1) c.wave
    have hqueue : LanesOnly s1 eff c.wave := hid.trans (lanesOnly_foldl (fun t p => lanesOnly_queueWrite t c.wave p.lane _ _ _ _ _) ps _)
    refine ⟨completes hi he ((access_of_reaches hr _).trans (congrArg Res.done ?_)), sameBytes_retire hqueue.mem,
      memFrame_of_accessOnly (hr.accessOnly.trans hqueue.toAccessOnly) (.refl _ _) (.refl _) (.refl _ _ _)⟩
    exact storeSteps_read_before (val := fun t l => t.src (s.issOf c w.pn w.pm) w.d w.ty (size = 8) l)
      (fun u hu => funext fun l => src_congr hu.units hu.launches _ _ _ _ l) hid size s1.nextId c.pc ps
  · intro k h eff hi hd hr
    have he := exec_cst w s
    unfold execCst at he
    have hqueue : LanesOnly s1 eff c.wave := (lanesOnly_drawn s1 s1.fresh (s1.nextId + 1) c.wave).trans
      (lanesOnly_foldl (fun t p => lanesOnly_queueWrite t c.wave p.lane _ _ _ _ _) ps _)
    refine ⟨completes hi he ((access_of_reaches hr _).trans ?_), sameBytes_retire hqueue.mem,
      memFrame_of_accessOnly (hr.accessOnly.trans hqueue.toAccessOnly) (.refl _ _) (.refl _) (.refl _ _ _)⟩
    rw [hd]
    rfl

end Sys2Proof
end

section
/-! PROOFS. An atomic word whose steps left name a lane that no wave has (O28). -/
namespace Sys2Proof.Machine

/-- ATOM's addition to a 32-bit word, which discards the old value. -/
def strayAtom : Full := { sub := 0, d := .imm 0, a := .s 0, b := .s 0, c := .s 0, pn := false, pm := 0, fs := 0, m5 := false, ty := tagN32 }

/-- A queued write of the word at location 0 and of the byte after it. -/
def strayWrite : QEntry := { bytes := [(0, 1), (4, 1)], instr := 0, key := 0, acc := 1, ea := 0, pc := 0 }

/-- Wave 0 between the steps of its ATOM, of which the one left is lane 32's, at location 0; that lane has the write queued. -/
def strayState : State :=
  { State.reset with
    cur := some lane0Cursor
    waves := [(0, { Wave.blank with
      lanes := [(32, { Lane.init with ag := { AgentSt.init with queue := [strayWrite] } })]
      steps := [{ cur := lane0Cursor, instr := .atom strayAtom, left := [(32, 0)], vals := [] }] })] }

/-- The byte at a location in the state that an instruction answers. -/
def byteAfter (o : Host.Outcome State Fault Refusal) (a : Nat) : Byte :=
  match o with
  | .next t => t.mem.byte a
  | _ => 0

theorem next_of_byteAfter {o : Host.Outcome State Fault Refusal} {a : Nat} (h : byteAfter o a ≠ 0) :
    ∃ t, o = .next t ∧ t.mem.byte a = byteAfter o a := by
  cases o with
  | next t => exact ⟨t, rfl, rfl⟩
  | fault r => exact absurd rfl h
  | refused r => exact absurd rfl h

/-- The step drains the write, and with it the byte that is not the word's. -/
theorem byteAfter_strayAtom : byteAfter (exec (.atom strayAtom) strayState) 4 = 1 := by decide

theorem strayState_issues (h : Head) : Issues strayState lane0Cursor (.atom strayAtom) h := issues_of_midSteps _ _ rfl rfl

end Sys2Proof.Machine

namespace Sys2Proof
open Machine

/-- Refutes O28: the lanes left of a word are any numbers that its record holds, and its clause on bytes asks for empty queues of lanes 0 to 31
alone. A step left to lane 32 drains that lane's queue, which writes a byte outside the word (03 R92). -/
theorem not_atomics : ¬ Obligations.Atomics := by
  rintro ⟨hwords, -⟩
  obtain ⟨hatom, -⟩ := hwords strayAtom strayState lane0Cursor
  obtain ⟨-, hleft⟩ := hatom (strayState_issues _) (by decide) (by decide)
  obtain ⟨-, hbytes⟩ := hleft _ rfl
  obtain ⟨t, he, hafter⟩ := next_of_byteAfter (o := exec (.atom strayAtom) strayState) (a := 4)
    (by rw [byteAfter_strayAtom]; decide)
  have hkept := hbytes (by decide) t he 4 (by decide) (by decide)
  rw [hafter, byteAfter_strayAtom] at hkept
  exact absurd hkept (by decide)

end Sys2Proof
end

section
/-! PROOFS. Fences, prefetches, flushes and the discarding of fetched copies (O29). -/
namespace Sys2Proof.Machine

theorem exec_fence (w : Full) (s : State) : exec (.fence w) s = execFence w s := rfl
theorem exec_fencePath (w : Full) (s : State) : exec (.fencePath w) s = execFencePath w s := rfl
theorem exec_pfetch (w : MForm) (s : State) : exec (.pfetch w) s = execPfetch w s := rfl
theorem exec_cflush (w : Full) (s : State) : exec (.cflush w) s = execCflush w s := rfl
theorem exec_icinv (w : Full) (s : State) : exec (.icinv w) s = execIcinv w s := rfl

section
variable {s : State} {c : Cursor} {w : Full}

/-- The lanes of a fence still to step: those left of it, or every lane of E where it begins (03 R82). -/
def fenceLanes (x : Iss) : List (Nat × Nat) :=
  match x.wave.stepsOf x.g with
  | some t => t.left
  | none => (lanesOf x.e).map (fun l => (l, 0))

theorem fenceLanes_eq_getD (x : Iss) : fenceLanes x = ((x.wave.stepsOf x.g).map (·.left)).getD ((lanesOf x.e).map (fun l => (l, 0))) := by
  unfold fenceLanes
  cases x.wave.stepsOf x.g <;> rfl

theorem fence_stepsApart (hi : Issues s c (.fence w) (headF w [] false)) :
    StepsApart s c (.fence w) (headF w [] false) s (fenceLanes (s.issOf c w.pn w.pm)) []
      (fun l _ t => (0, t.fenceStep c.wave l w.sub)) (fun _ t => t.fenceMeet c.wave (s.issOf c w.pn w.pm).e) := by
  have he := exec_fence w s
  unfold execFence at he
  exact stepsApart_of (he.trans (perform_eq hi _))

/-- ICINV of a range that the fetch path accepts (14 R370). -/
theorem icinv_completes (hi : Issues s c (.icinv w) (headF w [(w.a, 2), (w.b, 1)] true)) (hx : (s.issOf c w.pn w.pm).e ≠ 0)
    (hp : fetchPathFault (s.addrBase (s.issOf c w.pn w.pm) w.a (lowestLane (s.issOf c w.pn w.pm).e)) false = none)
    (hn : s.srcU (s.issOf c w.pn w.pm) w.b 32 (lowestLane (s.issOf c w.pn w.pm).e) ≠ 0) :
    Completes s c (.icinv w) (headF w [(w.a, 2), (w.b, 1)] true) (s.cores.foldl (fun t p => t.modCore p.1 (fun k => k.discard (s.vfOf c.wave)
      (s.addrBase (s.issOf c w.pn w.pm) w.a (lowestLane (s.issOf c w.pn w.pm).e)).toNat
      (s.srcU (s.issOf c w.pn w.pm) w.b 32 (lowestLane (s.issOf c w.pn w.pm).e)))) s) := by
  have he := exec_icinv w s
  unfold execIcinv at he
  refine completes hi he ((if_neg hx).trans ?_)
  simp only [headF, hp]
  exact if_neg hn

end

end Sys2Proof.Machine

namespace Sys2Proof
open Machine

/-- Settles O29: a fence's lanes step apart, and the other words are their checks and one change, if any. -/
theorem fencesAndFlushes : Obligations.FencesAndFlushes := by
  unfold Obligations.FencesAndFlushes
  refine fun s c => ⟨fun w => ⟨fun hi => ?_, fun hi => completes hi (exec_fencePath w s) rfl⟩, fun w ps s1 hi hr => ?_,
    fun w ps s1 hi hr => ?_, fun w => icinv_completes⟩
  · exact fenceLanes_eq_getD (s.issOf c w.pn w.pm) ▸ fence_stepsApart hi
  · exact completes hi (exec_pfetch w s) (access_of_reaches hr _)
  · exact completes hi (exec_cflush w s) (access_of_reaches hr _)

end Sys2Proof
end

section
/-! PROOFS. Releases, acquires and bindings (O30). -/
namespace Sys2Proof.Machine

theorem exec_acq (w : Full) (s : State) : exec (.acq w) s = execAcq w s := rfl
theorem exec_relI (w : Full) (s : State) : exec (.relI w) s = execRelI w s := rfl
theorem exec_bindI (w : Full) (s : State) : exec (.bindI w) s = execBindI w s := rfl
theorem exec_unbind (w : Full) (s : State) : exec (.unbind w) s = execUnbind w s := rfl

/-! What a drain leaves (03 R86, R92). -/

/-- An entry that stays in a queue has no byte at the locations drained for. -/
theorem bytes_of_unmarked {p : Nat → Bool} {q : List QEntry} {e : QEntry} (h : (e, false) ∈ markNeeded p q) :
    ∀ y ∈ e.bytes, p y.1 = false := by
  induction q with
  | nil => cases h
  | cons x q ih =>
    rcases List.mem_cons.mp h with h | h
    · obtain ⟨rfl, hmark⟩ := Prod.mk.inj h
      have hany := (Bool.or_eq_false_iff.mp hmark.symm).1
      exact fun y hy => Bool.eq_false_iff.mpr (List.any_eq_false.mp hany y hy)
    · exact ih h

theorem drainWhere_rels (s : State) (ag : Agent) (p : Nat → Bool) : (s.drainWhere ag p).rels = s.rels := setAgent_rels _ _ _

theorem drainWhere_pkg (s : State) (w l : Nat) (p : Nat → Bool) : (s.drainWhere (.lane w l) p).pkg = s.pkg := rfl

theorem drainWhere_queue (s : State) (w l : Nat) (p : Nat → Bool) :
    ((s.drainWhere (.lane w l) p).agent (.lane w l)).queue =
      ((markNeeded p (s.agent (.lane w l)).queue).filter (fun x => !x.2)).map Prod.fst :=
  congrArg AgentSt.queue (agent_setAgent_lane _ _ _ _)

theorem drainWhere_queue_avoids {s : State} {w l : Nat} {p : Nat → Bool} {q : QEntry}
    (h : q ∈ ((s.drainWhere (.lane w l) p).agent (.lane w l)).queue) : ∀ y ∈ q.bytes, p y.1 = false := by
  rw [drainWhere_queue] at h
  obtain ⟨⟨e, b⟩, he, rfl⟩ := List.mem_map.mp h
  obtain ⟨hmem, hb⟩ := List.mem_filter.mp he
  obtain rfl : b = false := by simpa using hb
  exact bytes_of_unmarked hmem

/-! A write made directly to the backing store (03 R86; 22 R421). -/

theorem cutOff_congr {s t : State} (h : t.pkg = s.pkg) (loc : Nat) : t.cutOff loc = s.cutOff loc := by
  unfold State.cutOff State.linked
  rw [h]

/-- No capability tag is cut off, so a write's tags fail with its bytes alone (01 R40). -/
theorem cutOff_tagClears {s : State} {loc n : Nat} {p : Nat × Byte} (h : p ∈ plainWrite.tagClears loc n) : s.cutOff p.1 = false := by
  have hp := (mem_tagClears h).1
  have : isRemote p.1 = false := by
    simp only [isRemote, Bool.and_eq_false_iff, decide_eq_false_iff_not]
    omega
  simp only [State.cutOff, this, Bool.false_and]

theorem plainWrite_reaches {s : State} {loc n : Nat} (v : Nat) (h : ∀ i, i < n → s.cutOff (loc + i) = false) :
    (plainWrite loc n v).any (fun p => s.cutOff p.1) = false := by
  refine List.any_eq_false.mpr fun p hp => Bool.eq_false_iff.mp ?_
  rcases List.mem_append.mp hp with hp | hp
  · obtain ⟨i, hi, rfl⟩ := List.mem_map.mp hp
    exact h i (List.mem_range.mp hi)
  · exact cutOff_tagClears hp

theorem plainWrite_cutOff {s : State} {loc n : Nat} (v : Nat) (hn : 0 < n) (h : s.cutOff loc = true) :
    (plainWrite loc n v).any (fun p => s.cutOff p.1) = true :=
  List.any_eq_true.mpr ⟨_, List.mem_append_left _ (List.mem_map.mpr ⟨0, List.mem_range.mpr hn, rfl⟩), h⟩

/-- A number written whole below the capability tags is what memory then holds (00 R9). -/
theorem storeNow_nat (s : State) (loc n x key : Nat) (hloc : loc + n ≤ 2 ^ 96) :
    (s.storeNow (plainWrite loc n x) key).mem.nat loc n = x % 256 ^ n := by
  refine Mem.nat_eq_of_bytes _ _ _ _ (Nat.mod_lt _ (Nat.pow_pos (by decide))) fun i hi => ?_
  have hbyte : BitVec.ofNat 8 (x % 256 ^ n / 256 ^ i) = BitVec.ofNat 8 (x / 256 ^ i) := by
    obtain ⟨k, rfl⟩ : ∃ k, n = i + (k + 1) := ⟨n - i - 1, by omega⟩
    apply BitVec.eq_of_toNat_eq
    rw [BitVec.toNat_ofNat, BitVec.toNat_ofNat, Nat.pow_add, Nat.mod_mul_right_div_self, Nat.pow_succ']
    exact Nat.mod_mod_of_dvd _ (Nat.dvd_mul_right _ _)
  rw [hbyte]
  refine (storeNow_byte _ _ _ _).trans (Mem.puts_byte_mem _ _ _ _ _ _ ?_ fun b h => ?_)
  · exact List.mem_append_left _ (List.mem_map.mpr ⟨i, List.mem_range.mpr hi, rfl⟩)
  · rcases List.mem_append.mp h with h | h
    · obtain ⟨j, -, hj⟩ := List.mem_map.mp h
      obtain ⟨hij, hb⟩ := Prod.mk.inj hj
      obtain rfl : j = i := by omega
      exact hb.symm
    · have := (mem_tagClears h).1
      dsimp only at this
      omega

theorem storeOrFail_of_reaches {s : State} {bs : List (Nat × Byte)} (h : bs.any (fun p => s.cutOff p.1) = false) (ag : Agent) (ea pc : DWord) :
    s.storeOrFail ag bs ea pc = s.storeNow bs (s.agentKey ag) := if_neg (Bool.eq_false_iff.mp h)

theorem storeOrFail_rels (s : State) (ag : Agent) (bs : List (Nat × Byte)) (ea pc : DWord) : (s.storeOrFail ag bs ea pc).rels = s.rels := by
  unfold State.storeOrFail
  split <;> rfl

theorem storeOrFail_agent (s : State) (ag : Agent) (bs : List (Nat × Byte)) (ea pc : DWord) (w l : Nat) :
    (s.storeOrFail ag bs ea pc).agent (.lane w l) = s.agent (.lane w l) := by
  unfold State.storeOrFail
  split <;> rfl

/-- A write that fails on its way leaves nothing but its record. -/
theorem storeOrFail_mem_of_cutOff {s : State} {bs : List (Nat × Byte)} (h : bs.any (fun p => s.cutOff p.1) = true) (ag : Agent) (ea pc : DWord) :
    (s.storeOrFail ag bs ea pc).mem = s.mem := by
  unfold State.storeOrFail
  rw [if_pos h]

theorem viewLatest_queue (s : State) (w l : Nat) (locs : List Nat) :
    ((s.viewLatest (.lane w l) locs).agent (.lane w l)).queue = (s.agent (.lane w l)).queue := by
  unfold State.viewLatest
  dsimp only
  rw [agent_setAgent_lane]

theorem viewLatest_rels (s : State) (ag : Agent) (locs : List Nat) : (s.viewLatest ag locs).rels = s.rels := setAgent_rels _ _ _

theorem viewLatest_mem (s : State) (ag : Agent) (locs : List Nat) : (s.viewLatest ag locs).mem = s.mem := setAgent_mem _ _ _

/-! REL by one lane (03 R86). -/

theorem viewTop_filter (f : Nat → Bool) (v : View) (y : Nat) :
    viewTop (v.filter (fun p => f p.1)) y = if f y = true then viewTop v y else 0 := by
  unfold viewTop
  rw [List.filter_filter]
  split
  · next hf =>
    refine congrArg (List.foldl _ 0) (List.filter_congr fun p _ => ?_)
    by_cases hp : p.1 = y <;> simp [hp, hf]
  · next hf =>
    rw [List.filter_eq_nil_iff.mpr fun p _ => ?_, List.foldl_nil]
    by_cases hp : p.1 = y <;> simp [hp, hf]

section
variable (t : State) (vf : Nat) (ag : Agent) (ea pc : DWord) (loc v : Nat)

/-- The state in which a release has drained the writes of its object and of the regions bound to it. -/
def State.relDrained : State := t.drainWhere ag (fun y => (loc ≤ y && y < loc + 8) || inRuns (t.boundRuns vf ea loc) y)

/-- What a release publishes: its view of the regions bound, but of no object's word. -/
def State.relView : View :=
  ((t.relDrained vf ag ea loc).agent ag).view.filter (fun p => inRuns (t.boundRuns vf ea loc) p.1 && !inRuns (t.objectRuns loc) p.1)

/-- The state in which a release has published its view. -/
def State.relMerged : State := (t.relDrained vf ag ea loc).relMerge (.sync loc) (t.relView vf ag ea loc)

theorem relStep_eq : t.relStep vf ag ea pc loc v =
    if (t.relMerged vf ag ea loc).cutOff loc then (t.relMerged vf ag ea loc).storeOrFail ag (plainWrite loc 8 v) ea pc
    else ((t.relMerged vf ag ea loc).storeOrFail ag (plainWrite loc 8 v) ea pc).viewLatest ag ((List.range 8).map (loc + ·)) := rfl

theorem relStep_rels : (t.relStep vf ag ea pc loc v).rels = (t.relMerged vf ag ea loc).rels := by
  rw [relStep_eq]
  split
  · exact storeOrFail_rels _ _ _ _ _
  · exact (viewLatest_rels _ _ _).trans (storeOrFail_rels _ _ _ _ _)

theorem relStep_rel_sync (y : Nat) : tget 0 ((t.relStep vf ag ea pc loc v).rel (.sync loc)) y =
    max (tget 0 (t.rel (.sync loc)) y) (if inRuns (t.boundRuns vf ea loc) y = true ∧ inRuns (t.objectRuns loc) y = false then
      viewTop ((t.relDrained vf ag ea loc).agent ag).view y else 0) := by
  have hview : viewTop (t.relView vf ag ea loc) y = _ :=
    viewTop_filter (fun y => inRuns (t.boundRuns vf ea loc) y && !inRuns (t.objectRuns loc) y) _ y
  rw [rel_congr (relStep_rels t vf ag ea pc loc v), State.relMerged, rel_relMerge_same, tget_vmerge, hview,
    rel_congr (show (t.relDrained vf ag ea loc).rels = t.rels from drainWhere_rels _ _ _)]
  simp only [Bool.and_eq_true, Bool.not_eq_true']

theorem relStep_rel_ne {j : RKey} (h : j ≠ .sync loc) : (t.relStep vf ag ea pc loc v).rel j = t.rel j := by
  rw [rel_congr (relStep_rels t vf ag ea pc loc v), State.relMerged, rel_relMerge_ne _ _ h]
  exact rel_congr (drainWhere_rels _ _ _) _

theorem relMerged_agent : (t.relMerged vf ag ea loc).agent ag = (t.relDrained vf ag ea loc).agent ag := by
  cases ag <;> rfl

theorem relMerged_cutOff (w l y : Nat) : (t.relMerged vf (.lane w l) ea loc).cutOff y = t.cutOff y := cutOff_congr rfl y

theorem relStep_queue (w l : Nat) : ((t.relStep vf (.lane w l) ea pc loc v).agent (.lane w l)).queue =
    ((t.relDrained vf (.lane w l) ea loc).agent (.lane w l)).queue := by
  rw [← relMerged_agent, relStep_eq]
  split
  · rw [storeOrFail_agent]
  · rw [viewLatest_queue, storeOrFail_agent]

theorem relStep_mem : (t.relStep vf ag ea pc loc v).mem = ((t.relMerged vf ag ea loc).storeOrFail ag (plainWrite loc 8 v) ea pc).mem := by
  rw [relStep_eq]
  split
  · rfl
  · exact viewLatest_mem _ _ _

variable {t vf ag ea pc loc v}

theorem relStep_queue_avoids {w l : Nat} {q : QEntry} (h : q ∈ ((t.relStep vf (.lane w l) ea pc loc v).agent (.lane w l)).queue) :
    ∀ y ∈ q.bytes, inRuns (t.boundRuns vf ea loc) y.1 = false ∧ ¬ (loc ≤ y.1 ∧ y.1 < loc + 8) := by
  rw [relStep_queue] at h
  intro y hy
  have havoids := drainWhere_queue_avoids h y hy
  simp only [Bool.or_eq_false_iff, Bool.and_eq_false_iff, decide_eq_false_iff_not] at havoids
  exact ⟨havoids.2, fun ⟨h1, h2⟩ => havoids.1.elim (· h1) (· h2)⟩

/-- The object that a port reaches holds the word released. -/
theorem relStep_nat {w l : Nat} (h : ∀ i, i < 8 → t.cutOff (loc + i) = false) (hloc : loc + 8 ≤ 2 ^ 96) :
    (t.relStep vf (.lane w l) ea pc loc v).mem.nat loc 8 = v % 2 ^ 64 := by
  rw [relStep_mem, storeOrFail_of_reaches (plainWrite_reaches v fun i hi => (relMerged_cutOff _ _ _ _ _ _ _).trans (h i hi))]
  exact storeNow_nat _ _ _ _ _ hloc

/-- A release to an object that no port reaches writes nothing (log 26). -/
theorem relStep_of_cutOff {w l : Nat} (h : t.cutOff loc = true) :
    (t.relStep vf (.lane w l) ea pc loc v).mem = (t.relDrained vf (.lane w l) ea loc).mem ∧
    ((t.relStep vf (.lane w l) ea pc loc v).agent (.lane w l)).view = ((t.relDrained vf (.lane w l) ea loc).agent (.lane w l)).view := by
  have hcut : (t.relMerged vf (.lane w l) ea loc).cutOff loc = true := (relMerged_cutOff _ _ _ _ _ _ _).trans h
  rw [relStep_eq, if_pos hcut]
  exact ⟨storeOrFail_mem_of_cutOff (plainWrite_cutOff v (by decide) hcut) _ _ _, by rw [storeOrFail_agent, relMerged_agent]⟩

end

/-! The words (14 R364-R366). -/

section
variable {s : State} {c : Cursor} {i : Instr} {h : Head} {body : Iss → State → Res} {reqs : List Req}
  {one : Nat → Nat → State → Nat × State} {fin : List (Nat × Nat) → State → State}

/-- A word whose body is the steps of its lanes in some state. -/
theorem stepsApart_of_body {s1 : State} {ls vals : List (Nat × Nat)} (hi : Issues s c i h) (he : exec i s = s.perform i h body)
    (hb : body (s.issOf c h.pn h.pm) s = s1.laneSteps (s.issOf c h.pn h.pm) i ls vals one (fun v t => .done (fin v t))) :
    StepsApart s c i h s1 ls vals one fin :=
  stepsApart_of ((he.trans (perform_eq hi body)).trans (congrArg (fun r => Host.Outcome.next (State.settle _ _ r)) hb))

/-- What an access at 8-byte places comes to where its lanes step apart: its checks with the first steps, and none with the later ones (03 R82). -/
def RunsApart (s : State) (c : Cursor) (i : Instr) (h : Head) (reqs : List Req) (one : Nat → Nat → State → Nat × State)
    (fin : List (Nat × Nat) → State → State) : Prop :=
  ((s.wave c.wave).stepsOf c.group = none → ∀ ps s1, Reaches s (s.issOf c h.pn h.pm) reqs ps s1 → Clean s1 ps 8 →
    StepsApart s c i h s1 (ps.map (fun p => (p.lane, p.loc))) [] one fin) ∧
  (∀ t, (s.wave c.wave).stepsOf c.group = some t → StepsApart s c i h s t.left t.vals one fin)

/-- A word that consumes what its lanes' steps read. -/
theorem runsApart_of_steppedAccess {kind : Nat} (hi : Issues s c i h) (he : exec i s = s.perform i h body)
    (hb : body (s.issOf c h.pn h.pm) s = s.steppedAccess (s.issOf c h.pn h.pm) i reqs 8 kind one (fun v t => .done (fin v t))) :
    RunsApart s c i h reqs one fin := by
  refine ⟨fun hs ps s1 hr hc => stepsApart_of_body hi he (hb.trans ?_), fun t hs => stepsApart_of_body hi he (hb.trans ?_)⟩
  · unfold State.steppedAccess
    simp only [show (s.issOf c h.pn h.pm).wave.stepsOf (s.issOf c h.pn h.pm).g = none from hs]
    exact (access_of_reaches hr _).trans (consume_of_clean hc _ _)
  · unfold State.steppedAccess
    simp only [show (s.issOf c h.pn h.pm).wave.stepsOf (s.issOf c h.pn h.pm).g = some t from hs]

end

section
variable {s : State} {c : Cursor} {w : Full}

/-- A lane's step of an acquire, whose value is 0 where its bytes are poisoned (03 R87; 09 R228). -/
def acqOne (c : Cursor) (k loc : Nat) (t : State) : Nat × State :=
  let r := t.acqStep (.lane c.wave k) loc
  (if t.poisoned loc then 0 else r.1, r.2)

theorem acq_runsApart (hi : Issues s c (.acq w) (headF w [(w.d, if w.m5 then 2 else 1), (w.a, 2)] (perWave w.d))) :
    RunsApart s c (.acq w) (headF w [(w.d, if w.m5 then 2 else 1), (w.a, 2)] (perWave w.d))
      (s.uniReqs (s.issOf c w.pn w.pm) w.a 8 8 AccKind.load [0]) (acqOne c)
      (fun vals t => t.put (s.issOf c w.pn w.pm) w.d w.m5 w.ty
        (fun k => valOf vals (if isVarying w.d then k else lowestLane (s.issOf c w.pn w.pm).e))) := by
  have he := exec_acq w s
  unfold execAcq at he
  exact runsApart_of_steppedAccess hi he rfl

/-- A lane's step of a release (03 R86). -/
def relOne (c : Cursor) (x : Iss) (w : Full) (k loc : Nat) (t : State) : Nat × State :=
  (0, t.relStep (t.vfOf c.wave) (.lane c.wave k) (t.addrBase x w.a k) c.pc loc (t.srcU x w.b (if w.m5 then 64 else 32) k))

theorem relI_runsApart (hi : Issues s c (.relI w) (headF w [(w.a, 2), (w.b, if w.m5 then 2 else 1)] false)) :
    RunsApart s c (.relI w) (headF w [(w.a, 2), (w.b, if w.m5 then 2 else 1)] false)
      (s.uniReqs (s.issOf c w.pn w.pm) w.a 8 8 AccKind.store [0]) (relOne c (s.issOf c w.pn w.pm) w) (fun _ t => t) := by
  have he := exec_relI w s
  unfold execRelI at he
  refine ⟨fun hs ps s1 hr _ => stepsApart_of_body hi he ?_, fun t hs => stepsApart_of_body hi he ?_⟩
  · dsimp only
    simp only [show (s.issOf c w.pn w.pm).wave.stepsOf (s.issOf c w.pn w.pm).g = none from hs, headF]
    exact access_of_reaches hr _
  · simp only [show (s.issOf c w.pn w.pm).wave.stepsOf (s.issOf c w.pn w.pm).g = some t from hs, headF]
    rfl

/-- BIND of a region that its object and the context's table accept (14 R366). -/
theorem bindI_completes (hi : Issues s c (.bindI w) (headF w [(w.a, 2), (w.b, if w.m5 then 2 else 1), (w.c, 2)] true))
    {l len : Nat} {base obj : DWord} (hl : lowestLane (s.issOf c w.pn w.pm).e = l)
    (hbase : s.addrBase (s.issOf c w.pn w.pm) w.a l = base) (hobj : s.addrBase (s.issOf c w.pn w.pm) w.c l = obj)
    (hlen : s.srcU (s.issOf c w.pn w.pm) w.b (if w.m5 then 64 else 32) l = len)
    (hx : (s.issOf c w.pn w.pm).e ≠ 0) (hpo : plainPathFault obj 8 8 = none) (hpb : plainPathFault base len 64 = none)
    (hmod : len % 64 = 0) (hle : 64 ≤ len) (hov : (s.ctx (s.vfOf c.wave)).bindOverlap base.toNat len = false) :
    Completes s c (.bindI w) (headF w [(w.a, 2), (w.b, if w.m5 then 2 else 1), (w.c, 2)] true)
      (s.modCtx (s.vfOf c.wave) (fun k => { k with bindings := k.bindings ++ [(base.toNat, len, obj.toNat)] })) := by
  have he := exec_bindI w s
  unfold execBindI at he
  refine completes hi he ((if_neg hx).trans ?_)
  have hsize : ¬ ((len % 64 != 0 || decide (len < 64)) = true) := by simp [hmod, hle]
  dsimp only [headF]
  simp only [hl, hbase, hobj, hlen, hpo, hpb, if_neg hsize]
  exact if_neg (Bool.eq_false_iff.mp hov)

theorem unbind_completes (hi : Issues s c (.unbind w) (headF w [(w.a, 2)] true)) (hx : (s.issOf c w.pn w.pm).e ≠ 0) :
    Completes s c (.unbind w) (headF w [(w.a, 2)] true) (s.modCtx (s.vfOf c.wave) (fun k =>
      { k with bindings := k.bindings.filter (fun b => b.1 != (s.addrBase (s.issOf c w.pn w.pm) w.a (lowestLane (s.issOf c w.pn w.pm).e)).toNat) })) :=
  completes hi (exec_unbind w s) (if_neg hx)

end

end Sys2Proof.Machine

namespace Sys2Proof
open Machine

/-- Settles O30: the lanes of ACQ and REL step apart, a lane's REL is its drain, its merge and its word, and BIND and UNBIND change one table. -/
theorem syncObjects : Obligations.SyncObjects := by
  unfold Obligations.SyncObjects
  refine fun w s c => ⟨acq_runsApart, relI_runsApart, fun t vf k loc v ea pc _ _ => ?_, fun hi hx => bindI_completes hi rfl rfl rfl rfl hx, unbind_completes⟩
  exact ⟨fun y => relStep_rel_sync _ _ _ _ _ _ _ y, fun j => relStep_rel_ne _ _ _ _ _ _ _, fun q => relStep_queue_avoids,
    relStep_nat, fun h => relStep_of_cutOff (h 0 (by decide))⟩

end Sys2Proof
end

section
/-! PROOFS. Arrival barriers (O31). -/
namespace Sys2Proof.Machine

theorem exec_abarInit (w : Full) (s : State) : exec (.abarInit w) s = execAbarInit w s := rfl
theorem exec_abarArrive (w : Full) (s : State) : exec (.abarArrive w) s = execAbarArrive w s := rfl
theorem exec_abarWait (w : Full) (s : State) : exec (.abarWait w) s = execAbarWait w s := rfl
theorem exec_abarTest (w : Full) (s : State) : exec (.abarTest w) s = execAbarTest w s := rfl
theorem exec_abarWaitResume (s : State) : exec .abarWaitResume s = execAbarWaitResume s := rfl

/-! The words, on a barrier that the access reaches (14 R367, R368). -/

/-- The access to the barrier that a word names (14 R367). -/
def barrierReq (s : State) (x : Iss) (a : Opnd) : Req :=
  { lane := lowestLane x.e, ea := s.addrBase x a (lowestLane x.e), size := 16, kind := AccKind.atomic, align := 16, cap := none, paths := [2] }

theorem withBarrier_of_reaches {s s1 : State} {x : Iss} {a : Opnd} {p : Place} (hx : x.e ≠ 0) (hr : Reaches s x [barrierReq s x a] [p] s1)
    (k : Nat → Nat → State → Res) : s.withBarrier x a k = k (lowestLane x.e) p.loc s1 :=
  (if_neg hx).trans (access_of_reaches hr _)

section
variable {s s1 : State} {c : Cursor} {w : Full} {p : Place} (hx : (s.issOf c w.pn w.pm).e ≠ 0)
  (hr : Reaches s (s.issOf c w.pn w.pm) [barrierReq s (s.issOf c w.pn w.pm) w.a] [p] s1)
include hx hr

theorem abarInit_completes (hi : Issues s c (.abarInit w) (headF w [(w.a, 2), (w.b, 1)] true)) :
    Completes s c (.abarInit w) (headF w [(w.a, 2), (w.b, 1)] true) (s1.atomicStep (.lane c.wave (lowestLane (s.issOf c w.pn w.pm).e)) p.loc 16
      (fun o => some (initNew o (s1.srcU (s.issOf c w.pn w.pm) w.b 32 (lowestLane (s.issOf c w.pn w.pm).e))))).2 :=
  completes hi (exec_abarInit w s) (withBarrier_of_reaches hx hr _)

theorem abarArrive_completes (hi : Issues s c (.abarArrive w) (headF w [(w.a, 2), (w.b, 1)] true)) :
    Completes s c (.abarArrive w) (headF w [(w.a, 2), (w.b, 1)] true)
      ((s1.releaseLanes c.wave (s.issOf c w.pn w.pm).e (.abar p.loc)).abarArriveAt (.lane c.wave (lowestLane (s.issOf c w.pn w.pm).e)) p.loc
        (s1.srcU (s.issOf c w.pn w.pm) w.b 32 (lowestLane (s.issOf c w.pn w.pm).e))) :=
  completes hi (exec_abarArrive w s) (withBarrier_of_reaches hx hr _)

/-- WAIT on a phase that has finished: the wait is over at once (14 R368). -/
theorem abarWait_completes (hi : Issues s c (.abarWait w) (headF w [(w.a, 2), (w.b, 1)] false))
    (hp : (s1.abarWaiters p.loc 1).mem.abarPhase p.loc ≠ s1.srcU (s.issOf c w.pn w.pm) w.b 32 (lowestLane (s.issOf c w.pn w.pm).e)) :
    Completes s c (.abarWait w) (headF w [(w.a, 2), (w.b, 1)] false)
      (((s1.abarWaiters p.loc 1).abarWaiters p.loc (2 ^ 16 - 1)).acquireLanes c.wave (s.issOf c w.pn w.pm).e (.abarPhase p.loc)) :=
  completes hi (exec_abarWait w s) ((withBarrier_of_reaches hx hr _).trans (if_pos (bne_iff_ne.mpr hp)))

theorem abarWait_places (hi : Issues s c (.abarWait w) (headF w [(w.a, 2), (w.b, 1)] false))
    (hp : (s1.abarWaiters p.loc 1).mem.abarPhase p.loc = s1.srcU (s.issOf c w.pn w.pm) w.b 32 (lowestLane (s.issOf c w.pn w.pm).e)) :
    Places s c (.abarWait w) (headF w [(w.a, 2), (w.b, 1)] false)
      ((s1.abarWaiters p.loc 1).waitOn (s.issOf c w.pn w.pm) (s.issOf c w.pn w.pm).e (.abar (s.issOf c w.pn w.pm).e p.loc
        (BitVec.ofNat 32 (s1.srcU (s.issOf c w.pn w.pm) w.b 32 (lowestLane (s.issOf c w.pn w.pm).e))))) :=
  places hi (exec_abarWait w s) ((withBarrier_of_reaches hx hr _).trans (if_neg (Bool.eq_false_iff.mp (bne_eq_false_iff_eq.mpr hp))))

theorem abarTest_completes_of_ne (hi : Issues s c (.abarTest w) (headF w [(w.d, 1), (w.a, 2), (w.b, 1)] (perWave w.d)))
    (hp : s1.mem.abarPhase p.loc ≠ s1.srcU (s.issOf c w.pn w.pm) w.b 32 (lowestLane (s.issOf c w.pn w.pm).e)) :
    Completes s c (.abarTest w) (headF w [(w.d, 1), (w.a, 2), (w.b, 1)] (perWave w.d))
      ((s1.acquireLanes c.wave (s.issOf c w.pn w.pm).e (.abarPhase p.loc)).put (s.issOf c w.pn w.pm) w.d false tagN32 (fun _ => 1)) := by
  refine completes hi (exec_abarTest w s) ((withBarrier_of_reaches hx hr _).trans ?_)
  simp only [headF, bne_iff_ne.mpr hp, if_true]
  rfl

theorem abarTest_completes_of_eq (hi : Issues s c (.abarTest w) (headF w [(w.d, 1), (w.a, 2), (w.b, 1)] (perWave w.d)))
    (hp : s1.mem.abarPhase p.loc = s1.srcU (s.issOf c w.pn w.pm) w.b 32 (lowestLane (s.issOf c w.pn w.pm).e)) :
    Completes s c (.abarTest w) (headF w [(w.d, 1), (w.a, 2), (w.b, 1)] (perWave w.d))
      (s1.put (s.issOf c w.pn w.pm) w.d false tagN32 (fun _ => 0)) := by
  refine completes hi (exec_abarTest w s) ((withBarrier_of_reaches hx hr _).trans ?_)
  simp only [headF, bne_eq_false_iff_eq.mpr hp, Bool.false_eq_true, if_false]

end

/-- ABAR_WAIT_RESUME of a wave that can go on, once PHASE differs from the one waited on (14 R368). -/
theorem abarWaitResume_of_changed {s : State} {e : Mask} {loc : Nat} {p : Word} (hw : s.waitOf s.occ.a s.occ.b = some (.abar e loc p))
    (ha : s.awake s.occ.a = true) (hp : s.mem.abarPhase loc ≠ p.toNat) :
    exec .abarWaitResume s = .next (((s.abarWaiters loc (2 ^ 16 - 1)).acquireLanes s.occ.a e (.abarPhase loc)).leaveWait s.occ.a
      (s.waiters s.occ.a s.occ.b)) := by
  rw [exec_abarWaitResume]
  unfold execAbarWaitResume
  simp only [hw, ha, bne_iff_ne.mpr hp, Bool.and_self, if_true]

/-! An arrival (04 R117). -/

/-- An arrival keeps a barrier's 128 bits within their fields. -/
theorem arriveNew_lt {o : Nat} (b : Nat) (h : o < 256 ^ 16) : arriveNew o b < 256 ^ 16 := by
  have htop : Nat.lor (o / 2 ^ 96) 1 < 2 ^ 32 := Nat.or_lt_two_pow (by omega) (by decide)
  unfold arriveNew
  dsimp only
  generalize Nat.lor (o / 2 ^ 96) 1 = top at htop
  split
  · split <;> omega
  · omega

theorem rel_relSet_same (s : State) (k : RKey) (v : View) : (s.relSet k v).rel k = v := by
  simp [State.rel, State.relSet]

/-- A release set replaced differs from one merged in nothing but its view. -/
theorem rel_relSet_ne (s : State) {k j : RKey} (v : View) (h : j ≠ k) : (s.relSet k v).rel j = s.rel j := by
  rw [← rel_relMerge_ne s [] h]
  simp [State.rel, State.relSet, State.relMerge, Ne.symm h]

/-- A drain of a lane with nothing queued changes no byte, and reads memory under the same key (02 R71). -/
theorem drainWhere_memFor {s : State} {w l : Nat} (p : Nat → Bool) (h : ((s.wave w).lane l).ag.queue = []) :
    (s.drainWhere (.lane w l) p).memFor (.lane w l) = s.memOf (s.unit (s.wave w).unit).vf := by
  have hq : (s.agent (.lane w l)).queue = [] := h
  have hmem : (s.drainWhere (.lane w l) p).mem = s.mem := by
    unfold State.drainWhere
    rw [drainList_mem, hq]
    rfl
  have hunit : ((s.drainWhere (.lane w l) p).wave w).unit = (s.wave w).unit := by
    unfold State.drainWhere State.drainList State.setAgent
    dsimp only
    rw [State.wave_modWave]
    rfl
  have hctxs : (s.drainWhere (.lane w l) p).ctxs = s.ctxs := rfl
  have hunits : (s.drainWhere (.lane w l) p).unit = s.unit := rfl
  unfold State.memFor State.agentKey
  dsimp only
  rw [hunit, hunits]
  exact memOf_congr hmem hctxs _

section
variable {s : State} {ag : Agent} {w l loc n : Nat} {f : Nat → Option Nat}

theorem atomicStep_value (n : Nat) (f : Nat → Option Nat) (h : ((s.wave w).lane l).ag.queue = []) :
    (s.atomicStep (.lane w l) loc n f).1 = (s.memOf (s.unit (s.wave w).unit).vf).nat loc n := by
  unfold State.atomicStep
  dsimp only
  rw [drainWhere_memFor _ h]

theorem atomicStep_rels : (s.atomicStep ag loc n f).2.rels = s.rels := by
  unfold State.atomicStep
  dsimp only
  rw [viewLatest_rels]
  split <;> exact drainWhere_rels _ _ _

/-- An atomic step that always has a new value leaves it in memory (03 R92). -/
theorem atomicStep_nat (g : Nat → Nat) (hloc : loc + n ≤ 2 ^ 96) :
    (s.atomicStep ag loc n (fun o => some (g o))).2.mem.nat loc n = g (s.atomicStep ag loc n (fun o => some (g o))).1 % 256 ^ n := by
  unfold State.atomicStep
  dsimp only
  rw [viewLatest_mem]
  exact storeNow_nat _ _ _ _ _ hloc

end

/-- The atomic step of an arrival (04 R117). -/
def State.arrival (s : State) (ag : Agent) (loc b : Nat) : Nat × State := s.atomicStep ag loc 16 (fun o => some (arriveNew o b))

section
variable {s : State} {ag : Agent} {loc b o : Nat}

theorem arrival_nat (hloc : loc + 16 ≤ 2 ^ 96) (ho : (s.arrival ag loc b).1 = o) (hlt : o < 256 ^ 16) :
    (s.arrival ag loc b).2.mem.nat loc 16 = arriveNew o b := by
  subst ho
  unfold State.arrival at hlt ⊢
  rw [atomicStep_nat (fun o => arriveNew o b) hloc]
  exact Nat.mod_eq_of_lt (arriveNew_lt b hlt)

theorem arrival_rel (k : RKey) : (s.arrival ag loc b).2.rel k = s.rel k := rel_congr atomicStep_rels k

theorem abarArriveAt_mem : (s.abarArriveAt ag loc b).mem = (s.arrival ag loc b).2.mem := by
  unfold State.abarArriveAt State.arrival
  dsimp only
  split <;> rfl

/-- An arrival that changes PHASE hands on what the barrier's set holds (log 61). -/
theorem abarArriveAt_of_changed (ho : (s.arrival ag loc b).1 = o) (h : o / 2 ^ 64 % 2 ^ 32 ≠ arriveNew o b / 2 ^ 64 % 2 ^ 32) :
    s.abarArriveAt ag loc b = (s.arrival ag loc b).2.relSet (.abarPhase loc) ((s.arrival ag loc b).2.rel (.abar loc)) := by
  subst ho
  exact if_pos (bne_iff_ne.mpr h)

theorem abarArriveAt_of_unchanged (ho : (s.arrival ag loc b).1 = o) (h : o / 2 ^ 64 % 2 ^ 32 = arriveNew o b / 2 ^ 64 % 2 ^ 32) :
    s.abarArriveAt ag loc b = (s.arrival ag loc b).2 := by
  subst ho
  exact if_neg (Bool.eq_false_iff.mp (bne_eq_false_iff_eq.mpr h))

theorem abarArriveAt_rel_ne {k : RKey} (h : k ≠ .abarPhase loc) : (s.abarArriveAt ag loc b).rel k = s.rel k := by
  by_cases hphase : (s.arrival ag loc b).1 / 2 ^ 64 % 2 ^ 32 = arriveNew (s.arrival ag loc b).1 b / 2 ^ 64 % 2 ^ 32
  · rw [abarArriveAt_of_unchanged rfl hphase, arrival_rel]
  · rw [abarArriveAt_of_changed rfl hphase, rel_relSet_ne _ _ h, arrival_rel]

end

end Sys2Proof.Machine

namespace Sys2Proof
open Machine

/-- Settles O31: each word by the access that reaches its barrier, and an arrival by its atomic step and whether that changes PHASE. -/
theorem arrivalBarriers : Obligations.ArrivalBarriers := by
  unfold Obligations.ArrivalBarriers
  refine ⟨fun s c => ⟨fun w p s1 hx hr => ⟨⟨abarInit_completes hx hr, abarArrive_completes hx hr⟩,
    ⟨abarWait_completes hx hr, abarWait_places hx hr⟩, fun hi => ⟨abarTest_completes_of_ne hx hr hi, abarTest_completes_of_eq hx hr hi⟩⟩,
    fun e loc p => abarWaitResume_of_changed⟩, fun s w l loc b _ hloc _ hq => ?_⟩
  have ho : (s.arrival (.lane w l) loc b).1 = (s.memOf (s.unit (s.wave w).unit).vf).nat loc 16 := atomicStep_value 16 _ hq
  refine ⟨?_, fun hne => ?_, fun heq => ?_, fun k hk => abarArriveAt_rel_ne hk⟩
  · rw [abarArriveAt_mem]
    exact arrival_nat hloc ho (Mem.nat_lt _ _ _)
  · rw [abarArriveAt_of_changed ho hne, rel_relSet_same, arrival_rel]
  · rw [abarArriveAt_of_unchanged ho heq, arrival_rel]

end Sys2Proof
end

section
/-! PROOFS. Tile words and tile events (O41). -/
namespace Sys2Proof.Machine

theorem exec_twait (w : Full) (s : State) : exec (.twait w) s = execTwait w s := rfl
theorem exec_tstat (w : Full) (s : State) : exec (.tstat w) s = execTstat w s := rfl

/-! Tile events (02 R65, R66). -/

section
variable (u : UnitSt) (t : Nat) (use : TileUse)

theorem Tile.apply_desc (x : Tile) : (x.apply use).desc = x.desc := by cases use <;> rfl

theorem Tile.apply_cfg (x : Tile) (h : use ≠ .tcfg) : (x.apply use).cfg = x.cfg := by
  cases use
  case tcfg => exact absurd rfl h
  all_goals rfl

theorem UnitSt.tile_tileEvent : (u.tileEvent t use).tile t = (u.tile t).apply use := UnitSt.tile_setTile_same _ _ _

theorem UnitSt.tile_tileEvent_ne {k : Nat} (h : k ≠ t) : (u.tileEvent t use).tile k = u.tile k := UnitSt.tile_setTile_ne _ _ h

variable {u t use}

theorem UnitSt.verdict_undeclared (h : u.foot.tiles ≤ t) : u.verdict t use = .bad Code.tilecfg := if_pos h

theorem UnitSt.verdict_moving (h : t < u.foot.tiles) (hst : (u.tile t).state = .filling ∨ (u.tile t).state = .draining) :
    u.verdict t use = .wait := by
  refine (if_neg (Nat.not_le.mpr h)).trans ?_
  rcases hst with hst | hst <;> simp only [hst]

theorem UnitSt.verdict_ready (h : t < u.foot.tiles) (hst : (u.tile t).state = .ready) :
    u.verdict t use = if (u.tile t).readers = 0 || use = .twait || use = .mmaAB then .go else .wait := by
  refine (if_neg (Nat.not_le.mpr h)).trans ?_
  simp only [hst]

end

/-! The words (15 R373, R374). -/

section
variable {s : State} {c : Cursor} {w : Full}

/-- A tile word whose tile lets it go. -/
theorem onTile_go {x : Iss} {t : Nat} {use : TileUse} {bad : Bool} (hx : x.e ≠ 0) (ht : t < (s.unit x.wave.unit).foot.tiles)
    (hbad : bad = false) (hgo : (s.unit x.wave.unit).verdict t use = .go) (k : State → Res) :
    s.onTile x t use bad k = k (s.modUnit x.wave.unit (fun u => u.tileEvent t use)) := by
  refine (if_neg hx).trans ((if_neg ?_).trans ?_)
  · simp [Nat.not_le.mpr ht, hbad]
  · simp only [hgo]

theorem tcfg_completes (hi : Issues s c (.tcfg w) (headF w [(w.a, 2)] true).notHandler) (hx : (s.issOf c w.pn w.pm).e ≠ 0)
    (ht : tileNum w.d < (s.unit (s.wave c.wave).unit).foot.tiles)
    (hbad : (s.unit (s.wave c.wave).unit).descBad (s.addrBase (s.issOf c w.pn w.pm) w.a (lowestLane c.group)) = false)
    (hgo : (s.unit (s.wave c.wave).unit).verdict (tileNum w.d) .tcfg = .go) :
    Completes s c (.tcfg w) (headF w [(w.a, 2)] true).notHandler
      ((s.modUnit (s.wave c.wave).unit (fun y => y.tileEvent (tileNum w.d) .tcfg)).modUnit (s.wave c.wave).unit (fun y =>
        y.setTile (tileNum w.d) { y.tile (tileNum w.d) with desc := s.addrBase (s.issOf c w.pn w.pm) w.a (lowestLane c.group) })) :=
  completes hi (exec_tcfg w s) (onTile_go hx ht hbad hgo _)

theorem trel_completes (hi : Issues s c (.trel w) (headF w [] true).notHandler) (hx : (s.issOf c w.pn w.pm).e ≠ 0)
    (ht : tileNum w.a < (s.unit (s.wave c.wave).unit).foot.tiles) (hgo : (s.unit (s.wave c.wave).unit).verdict (tileNum w.a) .trel = .go) :
    Completes s c (.trel w) (headF w [] true).notHandler (s.modUnit (s.wave c.wave).unit (fun y => y.tileEvent (tileNum w.a) .trel)) :=
  completes hi (exec_trel w s) (onTile_go hx ht rfl hgo _)

/-- The granules of a tile written with zeros by one instruction, from the lowest lane of E (15 R374; 03 R97). -/
def State.zeroTile (t : State) (w l u : Nat) (g : TileGeom) : State :=
  (List.range (g.size / 16)).foldl (fun s j => s.queueWrite (.lane w l) (plainWrite (locBuf g.buf u (g.off + 16 * j)) 16 0) t.nextId)
    { t with nextId := t.nextId + 1 }

theorem tzero_completes (hi : Issues s c (.tzero w) (headF w [] true).notHandler) (hx : (s.issOf c w.pn w.pm).e ≠ 0)
    (ht : tileNum w.a < (s.unit (s.wave c.wave).unit).foot.tiles) (hgo : (s.unit (s.wave c.wave).unit).verdict (tileNum w.a) .tzero = .go) :
    Completes s c (.tzero w) (headF w [] true).notHandler
      (((s.modUnit (s.wave c.wave).unit (fun y => y.tileEvent (tileNum w.a) .tzero)).zeroTile c.wave (lowestLane (s.issOf c w.pn w.pm).e)
        (s.wave c.wave).unit (geomOf ((s.unit (s.wave c.wave).unit).tile (tileNum w.a)).desc)).releaseLanes c.wave (s.issOf c w.pn w.pm).e
        (.tile (s.wave c.wave).unit (tileNum w.a))) := by
  refine completes hi (exec_tzero w s) ((onTile_go hx ht rfl hgo _).trans ?_)
  have hdesc : (((s.modUnit (s.wave c.wave).unit (fun y => y.tileEvent (tileNum w.a) .tzero)).unit (s.wave c.wave).unit).tile (tileNum w.a)).desc =
      ((s.unit (s.wave c.wave).unit).tile (tileNum w.a)).desc := by
    rw [State.unit_modUnit, UnitSt.tile_tileEvent, Tile.apply_desc]
  rw [← hdesc]
  rfl

theorem twait_completes (hi : Issues s c (.twait w) (headF w [] false)) (hx : (s.issOf c w.pn w.pm).e ≠ 0)
    (ht : tileNum w.a < (s.unit (s.wave c.wave).unit).foot.tiles) (hgo : (s.unit (s.wave c.wave).unit).verdict (tileNum w.a) .twait = .go) :
    Completes s c (.twait w) (headF w [] false) ((s.modUnit (s.wave c.wave).unit (fun y => y.tileEvent (tileNum w.a) .twait)).acquireLanes c.wave
      (s.issOf c w.pn w.pm).e (.tile (s.wave c.wave).unit (tileNum w.a))) :=
  completes hi (exec_twait w s) (onTile_go hx ht rfl hgo _)

theorem tstat_writes (hi : Issues s c (.tstat w) (headF w [(w.d, 1)] (perWave w.d))) (hx : (s.issOf c w.pn w.pm).e ≠ 0)
    (ht : tileNum w.a < (s.unit (s.wave c.wave).unit).foot.tiles) :
    Writes s c (.tstat w) (headF w [(w.d, 1)] (perWave w.d)) w.d false tagN32
      (fun _ => (s.unit (s.wave c.wave).unit).tileStatus (tileNum w.a)) :=
  writes_of (completes hi (exec_tstat w s) ((if_neg hx).trans (if_neg (Nat.not_le.mpr ht))))

end

end Sys2Proof.Machine

namespace Sys2Proof
open Machine

/-- Settles O41: each word by its tile's verdict, and each event by the row of 02 R65 that it applies. -/
theorem tileWords : Obligations.TileWords := by
  unfold Obligations.TileWords
  refine ⟨fun w s c => ⟨?_, trel_completes, tzero_completes, twait_completes, tstat_writes⟩, fun u t use => ?_⟩
  · rintro hm rfl
    exact tcfg_completes
  · dsimp only
    rw [UnitSt.tile_tileEvent]
    refine ⟨Tile.apply_desc _ _, Tile.apply_cfg _ _, fun k => UnitSt.tile_tileEvent_ne u t use, ?_, ?_, ?_, ?_, ?_, ?_, ?_, ?_,
      UnitSt.verdict_moving, fun ht hst hr h1 h2 => ?_, fun ht hst hr => ?_, UnitSt.verdict_undeclared⟩
    · rintro rfl
      exact ⟨rfl, rfl, rfl, rfl, rfl, rfl⟩
    iterate 7
      · rintro rfl
        rfl
    · simp [UnitSt.verdict_ready ht hst, hr, h1, h2]
    · simp [UnitSt.verdict_ready ht hst, hr]

end Sys2Proof
end

section
/-! PROOFS. Status registers, time and counters (O53). -/
namespace Sys2Proof.Machine

theorem exec_srd (w : Full) (s : State) : exec (.srd w) s = execSrd w s := rfl
theorem exec_swr (w : Full) (s : State) : exec (.swr w) s = execSwr w s := rfl
theorem exec_timens (w : Full) (s : State) : exec (.timens w) s = execTimens w s := rfl
theorem exec_cycles (w : Full) (s : State) : exec (.cycles w) s = execCycles w s := rfl
theorem exec_perfrd (w : Full) (s : State) : exec (.perfrd w) s = execPerfrd w s := rfl

/-- The counters in the order of their numbers (15 R395). -/
def State.counters (s : State) (w : Nat) : List Nat :=
  let v := s.wave w
  let u := s.unit v.unit
  [v.wwords, v.wopp, v.wstall, v.wtile, v.wblock, v.wcand, v.wtlb, u.umma, u.ueng, u.ucurr]

theorem perf_eq (s : State) (w n : Nat) : s.perf w n = (s.counters w)[n]?.getD 0 := by
  unfold State.perf State.counters
  match n with
  | 0 | 1 | 2 | 3 | 4 | 5 | 6 | 7 | 8 | 9 => rfl
  | n + 10 => rfl

section
variable {s : State} {c : Cursor} {w : Full}

theorem srd_writes (hi : Issues s c (.srd w) (headF w [(w.d, 1)] (perWave w.d))) :
    Writes s c (.srd w) (headF w [(w.d, 1)] (perWave w.d)) w.d false tagN32 (fun _ => (s.readStatus c.wave (litOf w.c)).toNat) :=
  writes_of (completes hi (exec_srd w s) rfl)

theorem swr_completes {t : State} (hi : Issues s c (.swr w) (headF w [(w.a, 1)] true)) (hx : (s.issOf c w.pn w.pm).e ≠ 0)
    (ht : s.writeStatus c.wave (litOf w.c) (BitVec.ofNat 32 (s.srcU (s.issOf c w.pn w.pm) w.a 32 (lowestLane (s.issOf c w.pn w.pm).e))) = .ok t) :
    Completes s c (.swr w) (headF w [(w.a, 1)] true) t := by
  have he := exec_swr w s
  unfold execSwr at he
  refine completes hi he ((if_neg hx).trans ?_)
  rw [show (s.issOf c (headF w [(w.a, 1)] true).pn (headF w [(w.a, 1)] true).pm).w = c.wave from rfl]
  simp only [headF, ht]

theorem timens_completes (hi : Issues s c (.timens w) (headF w [(w.d, 2)] (perWave w.d))) (hx : (s.issOf c w.pn w.pm).e ≠ 0) :
    Completes s c (.timens w) (headF w [(w.d, 2)] (perWave w.d))
      ((s.readTime (s.vfOf c.wave)).2.put (s.issOf c w.pn w.pm) w.d true tagN64 (fun _ => (s.readTime (s.vfOf c.wave)).1.toNat)) :=
  completes hi (exec_timens w s) (if_neg hx)

theorem cycles_writes (hi : Issues s c (.cycles w) (headF w [(w.d, 2)] (perWave w.d))) :
    Writes s c (.cycles w) (headF w [(w.d, 2)] (perWave w.d)) w.d true tagN64 (fun _ => (s.core (s.wave c.wave).core).cycles) :=
  writes_of (completes hi (exec_cycles w s) rfl)

theorem perfrd_writes (hi : Issues s c (.perfrd w) (headF w [(w.d, 2), (w.a, 1)] (perWave w.d))) (hx : (s.issOf c w.pn w.pm).e ≠ 0) :
    Writes s c (.perfrd w) (headF w [(w.d, 2), (w.a, 1)] (perWave w.d)) w.d true tagN64 (fun _ =>
      (s.counters c.wave)[s.srcU (s.issOf c w.pn w.pm) w.a 32 (lowestLane (s.issOf c w.pn w.pm).e) % 256]?.getD 0) := by
  have he := exec_perfrd w s
  unfold execPerfrd at he
  simp only [perf_eq] at he
  exact writes_of (completes hi he (if_neg hx))

end

end Sys2Proof.Machine

namespace Sys2Proof
open Machine

/-- Settles O53: each word by the register it reads or writes, PERFRD by the counters in the order of their numbers. -/
theorem systemRegisters : Obligations.SystemRegisters := by
  unfold Obligations.SystemRegisters
  exact fun w s c => ⟨srd_writes, fun t => swr_completes, timens_completes, cycles_writes, perfrd_writes⟩

end Sys2Proof
end

section
/-! PROOFS. A matrix word of a wave that has stopped faults nothing (O42). -/
namespace Sys2Proof.Machine

/-- A fault of a wave that no longer stops at a word leaves the state as it is. -/
theorem exec_of_fault_not_stoppable {s : State} {c : Cursor} {i : Instr} {h : Head} {body : Iss → State → Res} {code lane acc : Nat}
    {ea : DWord} (hi : Issues s c i h) (hs : (s.wave c.wave).stoppable = false) (he : exec i s = s.perform i h body)
    (hb : body (s.issOf c h.pn h.pm) s = .fault code lane acc ea s) : exec i s = .next s := by
  rw [he, perform_eq hi, hb]
  exact congrArg Host.Outcome.next (if_neg (Bool.eq_false_iff.mp hs))

/-- A wave that takes a fault, and is no handler, holds a trap record then. -/
theorem trap_takeFault {s : State} {w : Nat} (h : (s.wave w).handles = none) (t : TrapRec) : ((s.takeFault w t).wave w).trap = some t := by
  obtain ⟨hwaves, -⟩ := stopWave_spec s w t
  rw [takeFault_of_no_handler h, hwaves, State.wave_setWave, Wave.trappedBy, Wave.modLanes_trap]

/-- MMA on tiles t0, t1 and t2. -/
def gangMma : Full := { sub := 0, d := .t 0, a := .t 1, b := .t 2, c := .s 0, pn := false, pm := 0, fs := 0, m5 := false, ty := 0 }

/-- A configured tile of a buffer, with its rows and columns, of F32. -/
def gangTile (buf rows cols : Nat) : Tile :=
  { Tile.init with cfg := true, desc := BitVec.ofNat 64 (buf * 2 ^ 62 + (rows - 1) * 2 ^ 32 + (cols - 1) * 2 ^ 24 + 23 * 2 ^ 19) }

/-- Waves 0 and 1 of one unit, which owns the engine of core 0: wave 0, whose gang is both, has stopped with a fault that its handler has yet
to take, and wave 1 has exited. -/
def stoppedGang : State :=
  { State.reset with
    cur := some lane0Cursor
    waves := [(0, { Wave.blank with live := 1, exited := false, gang := BitVec.ofNat 32 (2 * 2 ^ 24 + 1 * 2 ^ 4), trapState := .trapped }),
      (1, { Wave.blank with idx := 1 })]
    units := [(0, { UnitSt.blank with
      waves := [0, 1], foot := { Foot.zero with tiles := 3, engines := 2 ^ 7 }
      tiles := [(0, gangTile 2 32 16), (1, gangTile 1 16 16), (2, gangTile 0 16 16)] })]
    cores := [(0, { CoreSt.init with owner := some 0 })] }

theorem stoppedGang_issues : Issues stoppedGang lane0Cursor (.mma gangMma) (headF gangMma [] true).notHandler := ⟨rfl, by decide⟩

theorem matrixCheck_stoppedGang : (stoppedGang.unit 0).matrixCheck 0 2 0 1 2 0 = .ok (0, 1) := by rfl

theorem matrixBody_stoppedGang : stoppedGang.matrixBody (stoppedGang.issOf lane0Cursor false 0) 0 gangMma 0 =
    .fault Code.gangmis (lowestLane lane0Cursor.group) 0xF 0 stoppedGang := by rfl

theorem exec_stoppedGang : exec (.mma gangMma) stoppedGang = .next stoppedGang :=
  exec_of_fault_not_stoppable stoppedGang_issues rfl (exec_mma _ _) matrixBody_stoppedGang

end Sys2Proof.Machine

namespace Sys2Proof
open Machine

/-- Refutes O42: its clause on a gang with a wave that has exited does not ask that the word's own wave can still stop. One that has stopped
already keeps the record of its first fault (09 R218), so the word faults nothing. -/
theorem not_matrixWords : ¬ Obligations.MatrixWords := by
  rintro ⟨-, -, hgang⟩
  have htraps := hgang gangMma stoppedGang lane0Cursor (0, 1) (by decide) (by decide) (by decide) (by decide) ⟨1, by decide, by decide, by decide⟩
    stoppedGang_issues matrixCheck_stoppedGang
  obtain ⟨t, hstate⟩ : ∃ t, stoppedGang = stoppedGang.takeFault 0 t := ⟨_, Host.Outcome.next.inj (exec_stoppedGang.symm.trans htraps)⟩
  have htrap := trap_takeFault (s := stoppedGang) (w := 0) rfl t
  rw [← hstate] at htrap
  cases htrap

end Sys2Proof
end

section
/-! PROOFS. Gangs at the latch, and matrix operations that run (O43). -/
namespace Sys2Proof.Machine

theorem exec_gangLatchMatch (s : State) : exec .gangLatchMatch s = execGangLatchMatch s := rfl
theorem exec_mmaComplete (s : State) : exec .mmaComplete s = execMmaComplete s := rfl

/-! The latch (15 R380, R381). -/

section
variable {s : State} {g : Word} {hs : List LatchEntry} (hfull : s.latchFull s.occ.a = some (g, hs)) (hawake : ∀ h ∈ hs, s.awake h.wave = true)
include hfull hawake

/-- Members that agree and whose tiles let them go leave the latch with one operation. -/
theorem gangLatchMatch_issues {a : LatchEntry} {ms : List LatchEntry} {c0 cn : Nat} (horder : s.gangOrder g hs = a :: ms)
    (hclash : s.latchClash g hs = false)
    (hcheck : ∀ h ∈ a :: ms, (s.unit s.occ.a).matrixCheck a.sub (ms.length + 1) h.td h.ta h.tb h.r = .ok (c0, cn))
    (hgo : s.judgeTiles s.occ.a (matrixUses a.td a.tb ((a :: ms).map (·.ta))) = .go) (hroom : ((s.unit s.occ.a).ctx 7).outstanding < 16) :
    exec .gangLatchMatch s = .next ((s.matrixIssue s.occ.a a.sub a.td a.tb ((a :: ms).map (fun h => (h.wave, h.lanes, h.ta))) c0 cn).latchLeave
      s.occ.a hs) := by
  have hall : hs.all (fun h => s.awake h.wave) = true := List.all_eq_true.mpr hawake
  have hchecks : (a :: ms).map (fun h => (s.unit s.occ.a).matrixCheck a.sub (a :: ms).length h.td h.ta h.tb h.r) =
      List.replicate (ms.length + 1) (.ok (c0, cn)) :=
    List.eq_replicate_iff.mpr ⟨by simp, fun r hr => by obtain ⟨h, hh, rfl⟩ := List.mem_map.mp hr; exact hcheck h hh⟩
  rw [exec_gangLatchMatch]
  unfold execGangLatchMatch
  simp only [hfull, hall, hclash, horder, List.head?_cons, hchecks, List.findSome?_replicate, Nat.succ_ne_zero,
    hgo, Nat.not_le.mpr hroom, Bool.not_true, Bool.false_eq_true, if_false]
  rfl

/-- Members that differ, and those that no wave's %gang names, fault GANGMIS (log 41). -/
theorem gangLatchMatch_faults (hclash : s.latchClash g hs = true) :
    exec .gangLatchMatch s = .next (s.latchFault s.occ.a Code.gangmis hs) := by
  have hall : hs.all (fun h => s.awake h.wave) = true := List.all_eq_true.mpr hawake
  rw [exec_gangLatchMatch]
  unfold execGangLatchMatch
  simp only [hfull, hall, hclash, Bool.not_true, Bool.false_eq_true, if_false, if_true]

end

/-! A running matrix operation (15 R381; 02 R68; 21 R414). -/

/-- A K-group's sums leave KSTEP at the groups performed. -/
theorem kstep_mmaGroup (s : State) (u n sub td tb : Nat) (ms : List (Nat × Nat)) (c0 c : Nat) :
    (((s.mmaGroup u n sub td tb ms c0 c).unit u).tile td).kstep = c + 1 - c0 := by
  unfold State.mmaGroup
  dsimp only
  rw [State.unit_modUnit]
  exact congrArg Tile.kstep (UnitSt.tile_setTile_same _ _ _)

/-- None is left after the last K-group. -/
theorem groupsLeft_last (s : State) (u n sub td tb : Nat) (ms : List (Nat × Nat)) {c0 cn c : Nat} (h : c + 1 = c0 + cn) :
    ((s.mmaGroup u n sub td tb ms c0 c).unit u).groupsLeft td c0 cn = [] := by
  unfold UnitSt.groupsLeft
  simp only [kstep_mmaGroup, show cn - (c + 1 - c0) = 0 by omega]
  rfl

/-- Some K-groups of a matrix operation, in order. -/
def State.mmaRun (s : State) (u n sub td tb : Nat) (ms : List (Nat × Nat)) (c0 : Nat) (cs : List Nat) : State :=
  cs.foldl (fun s c => s.mmaGroup u n sub td tb ms c0 c) s

/-- One step performs the next K-groups, at least one where any is left (log 16). -/
theorem mmaGroups_spec (s : State) (u n sub td tb : Nat) (ms : List (Nat × Nat)) (c0 cn : Nat) : ∃ k f, 0 < k ∧
    s.mmaGroups u n sub td tb ms c0 cn = { s with fresh := f }.mmaRun u n sub td tb ms c0 (((s.unit u).groupsLeft td c0 cn).take k) := by
  obtain ⟨⟨f, hf⟩, -⟩ := pick_spec s ((s.unit u).groupsLeft td c0 cn).length
  refine ⟨(s.pick ((s.unit u).groupsLeft td c0 cn).length).1 + 1, f, Nat.succ_pos _, ?_⟩
  rw [← hf]
  rfl

theorem mmaGroups_one {s : State} {u n sub td tb : Nat} {ms : List (Nat × Nat)} {c0 cn c : Nat}
    (h : (s.unit u).groupsLeft td c0 cn = [c]) : s.mmaGroups u n sub td tb ms c0 cn = s.mmaGroup u n sub td tb ms c0 c := by
  unfold State.mmaGroups
  rw [h]
  rfl

/-- A matrix operation after its last K-group: its tiles are free, tD's set holds what it has seen, its current goes back, and it completes. -/
def State.mmaDone (t : State) (u n td tb : Nat) (ms : List (Nat × Nat)) : State :=
  (((t.modUnit u (fun y => y.mmaRelease td tb (ms.map (fun m => m.2)) true)).fullRelease (.op u 7 n) (.tile u td)).returnCurrent u 7 n 24).completeOp
    u 7 n

section
variable {s : State} {o : Op} {sub td tb c0 cn : Nat} {ms : List (Nat × Nat)} (ho : (s.unit s.occ.a).headOp 7 = some o)
  (hkind : o.kind = .mma sub td tb ms c0 cn) (hphase : o.phase = .running) (hrun : s.enginesRun s.occ.a = true)
include ho hkind hphase hrun

theorem mmaComplete_requests (hreq : o.requested = false) : exec .mmaComplete s = .next (s.requestCurrent s.occ.a 7 o.num 24) := by
  rw [exec_mmaComplete]
  unfold execMmaComplete
  simp only [ho, hkind, hphase, hrun, hreq, Bool.not_true, Bool.not_false, Bool.false_eq_true, if_false, if_true]

/-- With its current, an operation performs K-groups, and completes where none is left then. -/
theorem mmaComplete_runs (hreq : o.requested = true) (hres : o.reserved = true) {t : State}
    (ht : s.mmaGroups s.occ.a o.num sub td tb ms c0 cn = t) : exec .mmaComplete s =
      .next (if ((t.unit s.occ.a).groupsLeft td c0 cn).isEmpty then t.mmaDone s.occ.a o.num td tb ms else t) := by
  rw [exec_mmaComplete]
  unfold execMmaComplete
  simp only [ho, hkind, hphase, hrun, hreq, hres, ht, Bool.not_true, Bool.false_eq_true, if_false]
  unfold State.mmaDone
  by_cases hdone : ((t.unit s.occ.a).groupsLeft td c0 cn).isEmpty = true
  · simp only [hdone, Bool.not_true, Bool.false_eq_true, if_false, if_true]
  · simp only [Bool.eq_false_iff.mpr hdone, Bool.not_false, Bool.false_eq_true, if_false, if_true]

end

end Sys2Proof.Machine

namespace Sys2Proof
open Machine

/-- Settles O43: the latch by whether its members clash, and a matrix operation by the K-groups that one step performs. -/
theorem matrixRuns : Obligations.MatrixRuns := by
  unfold Obligations.MatrixRuns
  refine fun s => ⟨fun g hs a ms c0 cn hfull horder hawake => gangLatchMatch_issues hfull hawake horder, fun g hs => gangLatchMatch_faults,
    fun o sub td tb ms c0 cn ho hkind hphase hrun => ⟨mmaComplete_requests ho hkind hphase hrun, fun hreq hres => ⟨?_, fun c hleft hlast => ?_⟩⟩⟩
  · obtain ⟨k, f, hk, ht⟩ := mmaGroups_spec s s.occ.a o.num sub td tb ms c0 cn
    exact ⟨k, f, fun _ => hk, mmaComplete_runs ho hkind hphase hrun hreq hres ht⟩
  · rw [mmaComplete_runs ho hkind hphase hrun hreq hres (mmaGroups_one hleft), groupsLeft_last _ _ _ _ _ _ _ hlast]
    exact congrArg Host.Outcome.next (if_pos rfl)

end Sys2Proof
end

section
/-! PROOFS. Engine issue words and timeline words, and the ends of their waits (O44). -/
namespace Sys2Proof.Machine

theorem exec_tlge (w : Full) (s : State) : exec (.tlge w) s = execTlge w s := rfl
theorem exec_tlout (w : Full) (s : State) : exec (.tlout w) s = execTlout w s := rfl
theorem exec_tlrd (w : Full) (s : State) : exec (.tlrd w) s = execTlrd w s := rfl
theorem exec_tliss (w : Full) (s : State) : exec (.tliss w) s = execTliss w s := rfl
theorem exec_tlflt (w : Full) (s : State) : exec (.tlflt w) s = execTlflt w s := rfl
theorem exec_tlgeResume (s : State) : exec .tlgeResume s = execTlgeResume s := rfl
theorem exec_tloutResume (s : State) : exec .tloutResume s = execTloutResume s := rfl
theorem exec_commitResume (s : State) : exec .commitResume s = execCommitResume s := rfl
theorem exec_engineLimitResume (s : State) : exec .engineLimitResume s = execEngineLimitResume s := rfl
theorem exec_tileWaitResume (s : State) : exec .tileWaitResume s = execTileWaitResume s := rfl

/-! Chains (15 R382; 04 R105, R107). -/

/-- A chain issued by a word: an operation of the context with the views of the lanes of E as its start set (03 R100). -/
def State.chainIssue (s : State) (x : Iss) (w : Full) : State :=
  (s.releaseLanesView x.w x.e).2.issueOp x.wave.unit (engNum w.a) x.w (.chain (s.addrBase x w.b (lowestLane x.e)) (capOperand x w.c))
    (s.releaseLanesView x.w x.e).1

theorem chainBody_issues {s : State} {x : Iss} {w : Full} (hx : x.e ≠ 0)
    (hok : s.chainFault x (engNum w.a) (s.addrBase x w.b (lowestLane x.e)) w.c = none)
    (hroom : ((s.unit x.wave.unit).ctx (engNum w.a)).outstanding < 16) : s.chainBody x w = .done (s.chainIssue x w) := by
  unfold State.chainBody
  simp only [hx, hok, Nat.not_le.mpr hroom, if_false]
  rfl

/-! Timeline words on a context that the unit has (15 R383, R384). -/

theorem onContext_of_hasCtx {s : State} {x : Iss} {a : Opnd} (hx : x.e ≠ 0) (hctx : (s.unit x.wave.unit).hasCtx (engNum a) = true)
    (k : Nat → Nat → EngCtx → Res) :
    s.onContext x a k = k x.wave.unit (engNum a) ((s.unit x.wave.unit).ctx (engNum a)) :=
  (if_neg hx).trans (if_neg (by simp [hctx]))

section
variable {s : State} {c : Cursor} {w : Full} {n : Nat} (hx : (s.issOf c w.pn w.pm).e ≠ 0)
  (hctx : (s.unit (s.wave c.wave).unit).hasCtx (engNum w.a) = true)
include hx hctx

theorem tlge_completes (hn : s.srcU (s.issOf c w.pn w.pm) w.b 64 (lowestLane (s.issOf c w.pn w.pm).e) = n)
    (hi : Issues s c (.tlge w) (headF w [(w.b, 2)] false)) (h : n ≤ ((s.unit (s.wave c.wave).unit).ctx (engNum w.a)).cnt.toNat) :
    Completes s c (.tlge w) (headF w [(w.b, 2)] false)
      (s.acquireLanes c.wave (s.issOf c w.pn w.pm).e (.timeline (s.wave c.wave).unit (engNum w.a))) := by
  subst hn
  exact completes hi (exec_tlge w s) ((onContext_of_hasCtx hx hctx _).trans (if_pos h))

theorem tlge_places (hn : s.srcU (s.issOf c w.pn w.pm) w.b 64 (lowestLane (s.issOf c w.pn w.pm).e) = n)
    (hi : Issues s c (.tlge w) (headF w [(w.b, 2)] false)) (h : ((s.unit (s.wave c.wave).unit).ctx (engNum w.a)).cnt.toNat < n) :
    Places s c (.tlge w) (headF w [(w.b, 2)] false) (s.waitOn (s.issOf c w.pn w.pm) (s.issOf c w.pn w.pm).e
      (.tlge (s.issOf c w.pn w.pm).e (engNum w.a) (BitVec.ofNat 64 n))) := by
  subst hn
  exact places hi (exec_tlge w s) ((onContext_of_hasCtx hx hctx _).trans (if_neg (Nat.not_le.mpr h)))

theorem tlout_completes (hn : s.srcU (s.issOf c w.pn w.pm) w.b 32 (lowestLane (s.issOf c w.pn w.pm).e) = n)
    (hi : Issues s c (.tlout w) (headF w [(w.b, 1)] false)) (h : ((s.unit (s.wave c.wave).unit).ctx (engNum w.a)).outstanding ≤ n) :
    Completes s c (.tlout w) (headF w [(w.b, 1)] false) s := by
  subst hn
  exact completes hi (exec_tlout w s) ((onContext_of_hasCtx hx hctx _).trans (if_pos h))

theorem tlout_places (hn : s.srcU (s.issOf c w.pn w.pm) w.b 32 (lowestLane (s.issOf c w.pn w.pm).e) = n)
    (hi : Issues s c (.tlout w) (headF w [(w.b, 1)] false)) (h : n < ((s.unit (s.wave c.wave).unit).ctx (engNum w.a)).outstanding) :
    Places s c (.tlout w) (headF w [(w.b, 1)] false)
      (s.waitOn (s.issOf c w.pn w.pm) (s.issOf c w.pn w.pm).e (.tlout (engNum w.a) (BitVec.ofNat 32 n))) := by
  subst hn
  exact places hi (exec_tlout w s) ((onContext_of_hasCtx hx hctx _).trans (if_neg (Nat.not_le.mpr h)))

theorem tlrd_writes (hi : Issues s c (.tlrd w) (headF w [(w.d, 2)] (perWave w.d))) :
    Writes s c (.tlrd w) (headF w [(w.d, 2)] (perWave w.d)) w.d true tagN64
      (fun _ => ((s.unit (s.wave c.wave).unit).ctx (engNum w.a)).cnt.toNat) :=
  writes_of (completes hi (exec_tlrd w s) (onContext_of_hasCtx hx hctx _))

theorem tliss_writes (hi : Issues s c (.tliss w) (headF w [(w.d, 2)] (perWave w.d))) :
    Writes s c (.tliss w) (headF w [(w.d, 2)] (perWave w.d)) w.d true tagN64
      (fun _ => ((s.unit (s.wave c.wave).unit).ctx (engNum w.a)).iss.toNat) :=
  writes_of (completes hi (exec_tliss w s) (onContext_of_hasCtx hx hctx _))

theorem tlflt_completes (hi : Issues s c (.tlflt w) (headF w [(w.d, 2)] true)) :
    Completes s c (.tlflt w) (headF w [(w.d, 2)] true)
      ((s.put (s.issOf c w.pn w.pm) w.d true tagN64 (fun _ => ((s.unit (s.wave c.wave).unit).ctx (engNum w.a)).fault.toNat)).modUnit
        (s.wave c.wave).unit (fun y => y.setEng (engNum w.a) { y.ctx (engNum w.a) with fault := 0 })) :=
  completes hi (exec_tlflt w s) (onContext_of_hasCtx hx hctx _)

end

/-! COMMIT (15 R385; 04 R119). -/

/-- COMMIT of a slot that is FULL, into a destination that takes its rows. -/
theorem commit_completes {s : State} {c : Cursor} {w : Full} {lb : Landing} (hlb : tget Landing.init (s.wave c.wave).landing (opndNum w.b % 8) = lb)
    (hi : Issues s c (.commit w) (headF w [(w.d, 1)] false).notHandler) (hfull : lb.state = .full)
    (hreg : lb.rowBytes = 8 → regOk (s.footOf c.wave) c.vvirt (w.d, 2) = true) :
    Completes s c (.commit w) (headF w [(w.d, 1)] false).notHandler
      (s.modWave c.wave (fun v => v.commitSlot (opndNum w.d) (opndNum w.b % 8) c.group)) := by
  have he := exec_commit w s
  unfold execCommit at he
  refine completes hi he ?_
  have hwave : (s.issOf c (headF w [(w.d, 1)] false).notHandler.pn (headF w [(w.d, 1)] false).notHandler.pm).wave = s.wave c.wave := rfl
  simp only [hwave, hlb, hfull]
  refine if_neg ?_
  rw [Bool.and_eq_true, decide_eq_true_eq, Bool.not_eq_true']
  exact fun ⟨h8, hno⟩ => Bool.false_ne_true (hno.symm.trans (hreg h8))

/-! The ends of the waits of a wave that can go on (04 R105, R106, R119). -/

section
variable {s : State} (ha : s.awake s.occ.a = true)
include ha

theorem tlgeResume_of_reached {g : Mask} {e : Nat} {n : DWord} (hw : s.waitOf s.occ.a s.occ.b = some (.tlge g e n))
    (hn : n ≤ ((s.unit (s.wave s.occ.a).unit).ctx e).cnt) :
    exec .tlgeResume s = .next ((s.acquireLanes s.occ.a g (.timeline (s.wave s.occ.a).unit e)).leaveWait s.occ.a
      (s.waiters s.occ.a s.occ.b)) := by
  rw [exec_tlgeResume]
  unfold execTlgeResume
  simp only [hw, ha, hn, decide_true, Bool.and_self, if_true]

theorem tloutResume_of_room {e : Nat} {n : Word} (hw : s.waitOf s.occ.a s.occ.b = some (.tlout e n))
    (hn : ((s.unit (s.wave s.occ.a).unit).ctx e).outstanding ≤ n.toNat) :
    exec .tloutResume s = .next (s.leaveWait s.occ.a (s.waiters s.occ.a s.occ.b)) := by
  rw [exec_tloutResume]
  unfold execTloutResume
  simp only [hw, ha, hn, decide_true, Bool.and_self, if_true]

theorem commitResume_of_full {n : Nat} (hw : s.waitOf s.occ.a s.occ.b = some (.hold (.commitSlot n)))
    (hfull : (tget Landing.init (s.wave s.occ.a).landing n).state = .full) :
    exec .commitResume s = .next (s.endHold s.occ.a (s.waiters s.occ.a s.occ.b)) := by
  rw [exec_commitResume]
  unfold execCommitResume
  simp only [hw, ha, hfull, decide_true, Bool.true_or, Bool.and_self, if_true]

theorem engineLimitResume_of_room {e : Nat} (hw : s.waitOf s.occ.a s.occ.b = some (.hold (.engineLimit e)))
    (hroom : ((s.unit (s.wave s.occ.a).unit).ctx e).outstanding < 16) :
    exec .engineLimitResume s = .next (s.endHold s.occ.a (s.waiters s.occ.a s.occ.b)) := by
  rw [exec_engineLimitResume]
  unfold execEngineLimitResume
  simp only [hw, ha, hroom, decide_true, Bool.and_self, if_true]

theorem tileWaitResume_of_judged {us : List (Nat × TileUse)} (hw : s.waitOf s.occ.a s.occ.b = some (.hold (.tile us)))
    (hgo : s.judgeTiles (s.wave s.occ.a).unit us ≠ .wait) :
    exec .tileWaitResume s = .next (s.endHold s.occ.a (s.waiters s.occ.a s.occ.b)) := by
  rw [exec_tileWaitResume]
  unfold execTileWaitResume
  simp only [hw, ha, bne_iff_ne.mpr hgo, Bool.and_self, if_true]

end

end Sys2Proof.Machine

namespace Sys2Proof
open Machine

/-- Settles O44: the three chain words by one body, timeline words by the context they name, and each wait's end by its own condition. -/
theorem engineWords : Obligations.EngineWords := by
  unfold Obligations.EngineWords
  refine ⟨fun w s c hx hok hroom => ?_, fun s => ⟨fun w c hx hctx => ⟨?_, ?_, ?_, tlflt_completes hx hctx⟩,
    fun w c => commit_completes rfl, fun ha => ⟨?_, ?_, ?_, ?_, ?_⟩⟩⟩
  · have hbody := chainBody_issues (x := s.issOf c w.pn w.pm) hx hok hroom
    exact ⟨fun hi => completes hi (exec_cgo w s) hbody, fun hi => completes hi (exec_ggo w s) hbody, fun hi => completes hi (exec_xgo w s) hbody⟩
  · exact fun hi => ⟨tlge_completes hx hctx rfl hi, tlge_places hx hctx rfl hi⟩
  · exact fun hi => ⟨tlout_completes hx hctx rfl hi, tlout_places hx hctx rfl hi⟩
  · exact ⟨tlrd_writes hx hctx, tliss_writes hx hctx⟩
  · exact fun g e n => tlgeResume_of_reached ha
  · exact fun e n => tloutResume_of_room ha
  · exact fun n => commitResume_of_full ha
  · exact fun e => engineLimitResume_of_room ha
  · exact fun us => tileWaitResume_of_judged ha

end Sys2Proof
end

section
/-! PROOFS. EMIT and LAUNCH, and the ends of their waits (O49). -/
namespace Sys2Proof.Machine

theorem exec_emit (w : Full) (s : State) : exec (.emit w) s = execEmit w s := rfl
theorem exec_launch (w : Full) (s : State) : exec (.launch w) s = execLaunch w s := rfl
theorem exec_emitResume (s : State) : exec .emitResume s = execEmitResume s := rfl
theorem exec_launchLimitResume (s : State) : exec .launchLimitResume s = execLaunchLimitResume s := rfl

theorem issOf_w (s : State) (c : Cursor) (pn : Bool) (pm : Nat) : (s.issOf c pn pm).w = c.wave := rfl

/-! EMIT (15 R387; 08 R206, R207). -/

/-- A record's bytes at its slot, from 16 uniform registers, with what its lanes have released in the record's set (15 R387; log 26). -/
def State.emitStore (s : State) (x : Iss) (k : Nat) (key : RKey) (loc : Nat) (ea : DWord) : State :=
  let t := ((s.relDrop key).releaseLanes x.w x.e key).storeOrFail (.lane x.w (lowestLane x.e))
    (plainBytes loc ((List.range 16).flatMap (fun i => leBytes 4 (x.wave.rs (k + i)).toNat))) ea x.cur.pc
  t.relMerge key ((List.range 64).foldl (fun v i => vset v (loc + i) (t.mem.lastOf (loc + i)).1) [])

/-- A record joins its node's queue and its graph: TAIL and READY move together (log 47). -/
def State.emitCount (s : State) (vf n tail : Nat) : State :=
  let t := (s.setNode vf n 0x1C 4 ((tail + 1) % 2 ^ 32)).setNode vf n 0x20 4 ((tail + 1) % 2 ^ 32)
  (t.withGraph vf 0 0).modGraph vf (fun g => { g with
    counter := g.counter + 1, readySince := tins g.readySince (recordKey n tail) t.pkg.ticks })

section
variable {s s0 s1 : State} {c : Cursor} {w : Full} {k vf n cap tail : Nat} {ea : DWord} {p : Place} {g : Graph}
  (hi : Issues s c (.emit w) (headF w [(w.a, 1), (w.b, 16)] true)) (hb : w.b = .s k) (hx : (s.issOf c w.pn w.pm).e ≠ 0)
  (hvf : s.vfOf c.wave = vf) (hn : s.srcU (s.issOf c w.pn w.pm) w.a 32 (lowestLane (s.issOf c w.pn w.pm).e) = n)
  (hbase : (s.ctx vf).mgmt.gtbase ≠ 0) (hnodes : n < (s.ctx vf).mgmt.gtnodes.toNat) (h0 : s.devUse vf (s.nodeAddr vf n) 64 = s0)
  (hcap : s0.nodeField vf n 0x10 4 = cap) (htail : s0.nodeField vf n 0x1C 4 = tail)
  (hea : BitVec.ofNat 64 (s0.nodeField vf n 8 8 + 64 * (tail % max 1 cap)) = ea)
  (hr : Reaches s0 (s.issOf c w.pn w.pm)
    [{ lane := lowestLane (s.issOf c w.pn w.pm).e, ea, size := 64, kind := AccKind.store, align := 64, cap := none, paths := [0] }] [p] s1)
  (hroom : countDiff tail (s1.nodeField vf n 0x18 4) < cap)
  (hg : (((s1.emitStore (s.issOf c w.pn w.pm) k (.record vf n tail) p.loc ea).emitCount vf n tail).ctx vf).graph = some g)
include hi hb hx hvf hn hbase hnodes h0 hcap htail hea hr hroom hg

/-- EMIT to a node with room, in a graph: the record joins, and is retired at once where the graph is cancelled (06 R149). -/
theorem emit_completes : Completes s c (.emit w) (headF w [(w.a, 1), (w.b, 16)] true)
    (if g.cancelled then (((s1.emitStore (s.issOf c w.pn w.pm) k (.record vf n tail) p.loc ea).emitCount vf n tail).retireRecords vf n).graphJudge vf
     else (s1.emitStore (s.issOf c w.pn w.pm) k (.record vf n tail) p.loc ea).emitCount vf n tail) := by
  have he := exec_emit w s
  unfold execEmit at he
  refine completes hi he ((if_neg hx).trans ?_)
  have hbad : ((s.ctx vf).mgmt.gtbase = 0 || (s.ctx vf).mgmt.gtnodes.toNat ≤ n) = false := by
    rw [decide_eq_false hbase, decide_eq_false (Nat.not_le.mpr hnodes)]
    rfl
  dsimp only [headF]
  simp only [issOf_w, hvf, hn, hbad, h0, hcap, htail, hea, hb, Bool.false_eq_true, if_false]
  refine (access_of_reaches hr _).trans ((if_neg (Nat.not_le.mpr hroom)).trans (congrArg Res.done ?_))
  have hany : ((((s1.emitStore (s.issOf c w.pn w.pm) k (.record vf n tail) p.loc ea).emitCount vf n tail).ctx vf).graph.any (·.cancelled)) =
      g.cancelled := by rw [hg]; rfl
  rw [← hany]
  rfl

end

/-- EMIT_RESUME of a wave that can go on, once its node's queue has room (08 R207). -/
theorem emitResume_of_room {s : State} {vf n : Nat} (hvf : s.vfOf s.occ.a = vf)
    (hw : s.waitOf s.occ.a s.occ.b = some (.hold (.emitFull n))) (ha : s.awake s.occ.a = true)
    (hroom : countDiff (s.nodeField vf n 0x1C 4) (s.nodeField vf n 0x18 4) < s.nodeField vf n 0x10 4) :
    exec .emitResume s = .next ((s.devUse vf (s.nodeAddr vf n) 64).endHold s.occ.a (s.waiters s.occ.a s.occ.b)) := by
  rw [exec_emitResume]
  unfold execEmitResume
  simp only [hw, ha, hvf, hroom, decide_true, Bool.and_self, if_true]

/-! LAUNCH (15 R388; 08 R189-R193). -/

/-- Half of the record of a LAUNCH, as an access (15 R388). -/
def launchHalf (l : Nat) (ea : DWord) : Req := { lane := l, ea, size := 64, kind := AccKind.load, align := 64, cap := none, paths := [0, 2] }

section
variable {s s1 : State} {c : Cursor} {w : Full} {p q : Place} {r : List Byte × Bool × Bool × State} {rec_ : Launch × Nat}
  (hi : Issues s c (.launch w) (headF w [(w.d, 1), (w.a, 2)] true)) (hx : (s.issOf c w.pn w.pm).e ≠ 0)
  (hr : Reaches s (s.issOf c w.pn w.pm) [launchHalf (lowestLane (s.issOf c w.pn w.pm).e) (s.addrBase (s.issOf c w.pn w.pm) w.a
    (lowestLane (s.issOf c w.pn w.pm).e)), launchHalf (lowestLane (s.issOf c w.pn w.pm).e) (s.addrBase (s.issOf c w.pn w.pm) w.a
    (lowestLane (s.issOf c w.pn w.pm).e) + 64)] [p, q] s1) (hc : Clean s1 [p, q] 64)
  (hbytes : s1.launchBytes (.lane c.wave (lowestLane (s.issOf c w.pn w.pm).e)) [p.loc, q.loc] = r)
include hi hx hr hc hbytes

/-- A record with no place for its completion record is counted, and gives 0 (08 R189). -/
theorem launch_counted (hok : r.2.2.2.completionOk (s.vfOf c.wave) r.1 = false) :
    Completes s c (.launch w) (headF w [(w.d, 1), (w.a, 2)] true)
      ((r.2.2.2.countReject (s.vfOf c.wave)).put (s.issOf c w.pn w.pm) w.d false tagN32 (fun _ => 0)) := by
  obtain ⟨bs, t0, t1, s2⟩ := r
  have he := exec_launch w s
  unfold execLaunch at he
  refine completes hi he ((if_neg hx).trans ((access_of_reaches hr _).trans ((consume_of_clean hc _ _).trans ?_)))
  simp only [issOf_w, List.map_cons, List.map_nil, headF, hbytes, hok, Bool.not_false, if_true]

variable (hok : r.2.2.2.completionOk (s.vfOf c.wave) r.1 = true)
  (hrec : r.2.2.2.readRecord (s.vfOf c.wave) r.1 (.program (r.2.2.2.launchOf c.wave).phase) = rec_)
include hok hrec

/-- A record with a fault is rejected, and gives 0 (08 R191-R193). -/
theorem launch_rejects (hreason : rec_.2 ≠ 0) : Completes s c (.launch w) (headF w [(w.d, 1), (w.a, 2)] true)
    (((r.2.2.2.recordReads (s.vfOf c.wave) r.1 rec_.1.code).rejectRecord (s.vfOf c.wave) rec_.1 rec_.2).put (s.issOf c w.pn w.pm) w.d false
      tagN32 (fun _ => 0)) := by
  obtain ⟨bs, t0, t1, s2⟩ := r
  obtain ⟨n, reason⟩ := rec_
  have he := exec_launch w s
  unfold execLaunch at he
  refine completes hi he ((if_neg hx).trans ((access_of_reaches hr _).trans ((consume_of_clean hc _ _).trans ?_)))
  simp only [issOf_w, List.map_cons, List.map_nil, headF, hbytes, hok, hrec, bne_iff_ne.mpr hreason, Bool.not_true, Bool.false_eq_true, if_false, if_true]

/-- A record that is right starts a launch, whose %launch the destination takes. -/
theorem launch_starts (hreason : rec_.2 = 0)
    (hroom : (r.2.2.2.recordReads (s.vfOf c.wave) r.1 rec_.1.code).inFlight rec_.1.die rec_.1.part < 1024) :
    let start := (r.2.2.2.recordReads (s.vfOf c.wave) r.1 rec_.1.code).releaseLanesView c.wave (s.issOf c w.pn w.pm).e
    let t := start.2.startLaunch { rec_.1 with k0tag := rec_.1.k0tag && r.2.1, k1tag := rec_.1.k1tag && r.2.2.1 } start.1
    Completes s c (.launch w) (headF w [(w.d, 1), (w.a, 2)] true) (t.2.put (s.issOf c w.pn w.pm) w.d false tagN32 (fun _ => t.1)) := by
  obtain ⟨bs, t0, t1, s2⟩ := r
  obtain ⟨n, reason⟩ := rec_
  have he := exec_launch w s
  unfold execLaunch at he
  refine completes hi he ((if_neg hx).trans ((access_of_reaches hr _).trans ((consume_of_clean hc _ _).trans ?_)))
  dsimp only at hok hrec hreason hroom ⊢
  simp only [issOf_w, List.map_cons, List.map_nil, headF, hbytes, hok, hrec, hreason, bne_self_eq_false, Nat.not_le.mpr hroom, Bool.not_true,
    Bool.false_eq_true, if_false]

end

/-- LAUNCH_LIMIT_RESUME of a wave that can go on, once its partition takes one more (15 R388). -/
theorem launchLimitResume_of_room {s : State} {d e : Nat} (hw : s.waitOf s.occ.a s.occ.b = some (.hold (.launchLimit d e)))
    (ha : s.awake s.occ.a = true) (hroom : s.inFlight d e < 1024) :
    exec .launchLimitResume s = .next (s.endHold s.occ.a (s.waiters s.occ.a s.occ.b)) := by
  rw [exec_launchLimitResume]
  unfold execLaunchLimitResume
  simp only [hw, ha, hroom, decide_true, Bool.and_self, if_true]

end Sys2Proof.Machine

namespace Sys2Proof
open Machine

/-- Settles O49: EMIT by the record that joins its graph, LAUNCH by what its record comes to, and each wait's end by its own condition. -/
theorem emitAndLaunch : Obligations.EmitAndLaunch := by
  unfold Obligations.EmitAndLaunch
  refine ⟨fun s => ⟨fun w c k p s1 hi hb hx hbase hnodes hr hroom g hg => ?_, fun n => emitResume_of_room rfl⟩,
    fun s => ⟨fun w c p q s1 hi hx hr hc => ⟨?_, ?_, ?_⟩, fun d e => launchLimitResume_of_room⟩⟩
  · have h := emit_completes hi hb hx rfl rfl hbase hnodes rfl rfl rfl rfl hr hroom hg
    exact ⟨fun hc => by rwa [hc] at h, fun hc => by rwa [hc] at h⟩
  · exact fun hok => launch_starts hi hx hr hc rfl hok rfl
  · exact fun hok => launch_rejects hi hx hr hc rfl hok rfl
  · exact launch_counted hi hx hr hc rfl

end Sys2Proof
end

section
/-! PROOFS. CANCEL, LVLCNT, and the retiring of a cancelled wave (O50). -/
namespace Sys2Proof.Machine

theorem exec_cancel (w : Full) (s : State) : exec (.cancel w) s = execCancel w s := rfl
theorem exec_lvlcnt (w : Full) (s : State) : exec (.lvlcnt w) s = execLvlcnt w s := rfl
theorem exec_cancelRetire (s : State) : exec .cancelRetire s = execCancelRetire s := rfl

/-- What CANCEL of a level does (06 R149; 15 R389). -/
def State.cancelLevel (s : State) (w level id : Nat) : State :=
  if level = 1 then s.cancelUnit (s.wave w).unit 1
  else if level = 2 then (s.levelLaunch w id).elim s (fun n => s.cancelLaunch n 2)
  else if level = 3 then (if (s.launchOf w).graphNode.isSome then s.cancelGraph (s.vfOf w) 3 else s)
  else s.cancelPhase (s.vfOf w)

section
variable {s : State} {c : Cursor} {w : Full} {lv id : Nat} (hx : (s.issOf c w.pn w.pm).e ≠ 0)
  (hlv : s.srcU (s.issOf c w.pn w.pm) w.a 32 (lowestLane (s.issOf c w.pn w.pm).e) = lv)
  (hid : s.srcU (s.issOf c w.pn w.pm) w.b 32 (lowestLane (s.issOf c w.pn w.pm).e) = id) (hok : levelBad lv id = false)
include hx hlv hid hok

theorem cancel_completes (hi : Issues s c (.cancel w) (headF w [(w.a, 1), (w.b, 1)] true)) :
    Completes s c (.cancel w) (headF w [(w.a, 1), (w.b, 1)] true) (s.cancelLevel c.wave lv id) := by
  have he := exec_cancel w s
  unfold execCancel at he
  refine completes hi he ((if_neg hx).trans ?_)
  dsimp only [headF]
  simp only [hlv, hid, hok, Bool.false_eq_true, if_false]
  unfold State.cancelLevel
  split_ifs <;> rfl

theorem lvlcnt_writes (hi : Issues s c (.lvlcnt w) (headF w [(w.d, 1), (w.a, 1), (w.b, 1)] (perWave w.d))) :
    Writes s c (.lvlcnt w) (headF w [(w.d, 1), (w.a, 1), (w.b, 1)] (perWave w.d)) w.d false tagN32 (fun _ => s.levelCount c.wave lv id) := by
  have he := exec_lvlcnt w s
  unfold execLvlcnt at he
  refine writes_of (completes hi he ((if_neg hx).trans ?_))
  dsimp only [headF]
  simp only [hlv, hid, hok, Bool.false_eq_true, if_false]
  rfl

end

/-- CANCEL_RETIRE of a wave to retire whose lanes are between no steps (06 R149; 03 R82). -/
theorem cancelRetire_retires {s : State} (hret : s.retires s.occ.a = true) (hmid : s.midSteps s.occ.a = false) :
    exec .cancelRetire s = .next (s.retireWave s.occ.a) := by
  rw [exec_cancelRetire]
  unfold execCancelRetire
  simp only [hret, hmid, Bool.not_false, Bool.and_self, if_true]

end Sys2Proof.Machine

namespace Sys2Proof
open Machine

/-- Settles O50: CANCEL by what its level does, LVLCNT by its level's counter. -/
theorem cancelling : Obligations.Cancelling := by
  unfold Obligations.Cancelling
  refine fun s => ⟨fun w c hx hok => ⟨fun hi => ?_, lvlcnt_writes hx rfl rfl hok⟩, cancelRetire_retires⟩
  have h := cancel_completes hx rfl rfl hok hi
  unfold State.cancelLevel at h
  refine ⟨fun hlv => ?_, fun n hlv hn => ?_, fun hlv hn => ?_, fun hlv hg => ?_, fun hlv hg => ?_, fun hlv => ?_⟩
  · simpa [hlv] using h
  · simpa [hlv, hn] using h
  · simpa [hlv, hn] using h
  · simpa [hlv, Option.isSome_iff_ne_none.mpr hg] using h
  · simpa [hlv, hg] using h
  · simpa [hlv] using h

end Sys2Proof
end

section
/-! PROOFS. Boost, rails, current, the meter and its throttle, and temperature (O60). -/
namespace Sys2Proof.Machine

theorem exec_boostIntervalEnd (s : State) : exec .boostIntervalEnd s = execBoostIntervalEnd s := rfl
theorem exec_boostStepdown (s : State) : exec .boostStepdown s = execBoostStepdown s := rfl
theorem exec_permitRefill (s : State) : exec .permitRefill s = execPermitRefill s := rfl
theorem exec_railSwitch (s : State) : exec .railSwitch s = execRailSwitch s := rfl
theorem exec_currentReservationGrant (s : State) : exec .currentReservationGrant s = execCurrentReservationGrant s := rfl
theorem exec_boostGrant (s : State) : exec .boostGrant s = execBoostGrant s := rfl
theorem exec_meterSample (s : State) : exec .meterSample s = execMeterSample s := rfl
theorem exec_throttleStep (s : State) : exec .throttleStep s = execThrottleStep s := rfl
theorem exec_sensorSample (k : Nat) (t0 t1 t2 : Int) (s : State) : exec (.sensorSample k t0 t1 t2) s = execSensorSample k t0 t1 t2 s := rfl
theorem exec_thermalStep (s : State) : exec .thermalStep s = execThermalStep s := rfl

/-- A cluster whose clock moves to its lowest limit, after a change that leaves it as given. -/
theorem modClock_eq {s : State} {k : Nat} {f : ClusterSt → ClusterSt} {x : ClusterSt} (h : f (s.cluster k) = x) :
    s.modClock k f = s.setCluster k (x.reclock s.pkg.ticks (s.idleCluster k) (s.matrixHeld k)) := by
  subst h
  rfl

/-! Boost (21 R408, R410-R413). -/

/-- A cluster after a boost interval of 5 us, before what it pays: the next interval's class is fixed (21 R408). -/
def ClusterSt.nextInterval (c : ClusterSt) (held : Bool) : ClusterSt :=
  { c with intervalAt := c.intervalAt + 500, matrixHeavy := c.matrixSeen, matrixSeen := held, boostSeen := false }

section
variable {s : State} (hk : s.occ.a < 256) (hdue : (s.cluster s.occ.a).intervalAt + 500 ≤ s.pkg.ticks)
include hk hdue

/-- An interval with boost takes a permit; the last one denies boost and begins the steps down (21 R410, R411). -/
theorem boostIntervalEnd_last (hseen : (s.cluster s.occ.a).boostSeen = true) (hone : (s.cluster s.occ.a).permits = 1) :
    exec .boostIntervalEnd s = .next (s.setCluster s.occ.a ({ (s.cluster s.occ.a).nextInterval (s.matrixHeld s.occ.a) with
      permits := 0, denied := true, stepDue := some (s.pkg.ticks + 200), stepCap := min 1800 (s.cluster s.occ.a).mhz }.reclock s.pkg.ticks
      (s.idleCluster s.occ.a) (s.matrixHeld s.occ.a))) := by
  rw [exec_boostIntervalEnd]
  refine (if_pos (by simp [hk, hdue])).trans (congrArg Host.Outcome.next (modClock_eq ?_))
  simp [hseen, hone, ClusterSt.nextInterval]

theorem boostIntervalEnd_pays (hseen : (s.cluster s.occ.a).boostSeen = true) (hmore : 1 < (s.cluster s.occ.a).permits) :
    exec .boostIntervalEnd s = .next (s.setCluster s.occ.a ({ (s.cluster s.occ.a).nextInterval (s.matrixHeld s.occ.a) with
      permits := (s.cluster s.occ.a).permits - 1 }.reclock s.pkg.ticks (s.idleCluster s.occ.a) (s.matrixHeld s.occ.a))) := by
  rw [exec_boostIntervalEnd]
  refine (if_pos (by simp [hk, hdue])).trans (congrArg Host.Outcome.next (modClock_eq ?_))
  have hzero : (s.cluster s.occ.a).permits ≠ 0 := by omega
  have hone : (s.cluster s.occ.a).permits ≠ 1 := by omega
  simp [hseen, hzero, hone, ClusterSt.nextInterval]

theorem boostIntervalEnd_free (hfree : (s.cluster s.occ.a).boostSeen = false ∨ (s.cluster s.occ.a).permits = 0) :
    exec .boostIntervalEnd s = .next (s.setCluster s.occ.a (((s.cluster s.occ.a).nextInterval (s.matrixHeld s.occ.a)).reclock s.pkg.ticks
      (s.idleCluster s.occ.a) (s.matrixHeld s.occ.a))) := by
  rw [exec_boostIntervalEnd]
  refine (if_pos (by simp [hk, hdue])).trans (congrArg Host.Outcome.next (modClock_eq ?_))
  have hpays : ((s.cluster s.occ.a).boostSeen && (s.cluster s.occ.a).permits != 0) = false := by
    rcases hfree with h | h <;> simp [h]
  simp [hpays, ClusterSt.nextInterval]

end

theorem boostStepdown_ends {s : State} {t : Nat} (hdue : (s.cluster s.occ.a).stepDue = some t) (ht : t ≤ s.pkg.ticks) :
    exec .boostStepdown s = .next (s.setCluster s.occ.a ({ s.cluster s.occ.a with stepDue := none }.reclock s.pkg.ticks
      (s.idleCluster s.occ.a) (s.matrixHeld s.occ.a))) :=
  (exec_boostStepdown s).trans ((if_pos (by simp [hdue, ht])).trans (congrArg Host.Outcome.next (modClock_eq rfl)))

theorem permitRefill_adds {s : State} (hk : s.occ.a < 256) (hslow : (s.cluster s.occ.a).mhz ≤ 1600) (hroom : (s.cluster s.occ.a).permits < 64)
    (hdue : (s.cluster s.occ.a).refillFrom + 2000 ≤ s.pkg.ticks) :
    exec .permitRefill s = .next (s.setCluster s.occ.a ({ s.cluster s.occ.a with
      permits := (s.cluster s.occ.a).permits + 1, refillFrom := (s.cluster s.occ.a).refillFrom + 2000
      denied := (s.cluster s.occ.a).denied && (s.cluster s.occ.a).permits + 1 < 4 }.reclock s.pkg.ticks
      (s.idleCluster s.occ.a) (s.matrixHeld s.occ.a))) :=
  (exec_permitRefill s).trans ((if_pos (by simp [hk, hslow, hroom, hdue])).trans (congrArg Host.Outcome.next (modClock_eq rfl)))

/-- The older of two requests for boost, of two made at once the lower cluster's (21 R413). -/
def olderAsk (b r : Nat × Nat) : Nat × Nat := if r.1 < b.1 || (r.1 = b.1 && r.2 < b.2) then r else b

/-- The order in which a die's requests for boost are granted. -/
def AskLe (a b : Nat × Nat) : Prop := a.1 < b.1 ∨ (a.1 = b.1 ∧ a.2 ≤ b.2)

theorem askLe_olderAsk_left (b r : Nat × Nat) : AskLe (olderAsk b r) b := by
  unfold olderAsk AskLe
  split
  · next h => simp at h; omega
  · omega

theorem askLe_olderAsk_right (b r : Nat × Nat) : AskLe (olderAsk b r) r := by
  unfold olderAsk AskLe
  split
  · omega
  · next h => simp at h; omega

theorem AskLe.trans {a b c : Nat × Nat} (h : AskLe a b) (k : AskLe b c) : AskLe a c := by
  unfold AskLe at *
  omega

theorem AskLe.antisymm {a b : Nat × Nat} (h : AskLe a b) (k : AskLe b a) : a = b := by
  unfold AskLe at *
  exact Prod.ext (by omega) (by omega)

/-- The request granted is one of those made, and none goes before it. -/
theorem foldl_olderAsk_spec (rs : List (Nat × Nat)) (r : Nat × Nat) :
    rs.foldl olderAsk r ∈ r :: rs ∧ ∀ p ∈ r :: rs, AskLe (rs.foldl olderAsk r) p := by
  induction rs generalizing r with
  | nil => exact ⟨List.mem_singleton_self r, fun p hp => by rw [List.mem_singleton.mp hp]; exact .inr ⟨rfl, Nat.le_refl _⟩⟩
  | cons x rs ih =>
    obtain ⟨hmem, hle⟩ := ih (olderAsk r x)
    rw [List.foldl_cons]
    have hhead := hle _ (List.mem_cons_self ..)
    refine ⟨?_, fun p hp => ?_⟩
    · rcases List.mem_cons.mp hmem with h | h
      · rw [h]
        unfold olderAsk
        split
        · exact List.mem_cons_of_mem _ (List.mem_cons_self ..)
        · exact List.mem_cons_self ..
      · exact List.mem_cons_of_mem _ (List.mem_cons_of_mem _ h)
    · rcases List.mem_cons.mp hp with rfl | hp
      · exact hhead.trans (askLe_olderAsk_left _ _)
      · rcases List.mem_cons.mp hp with rfl | hp
        · exact hhead.trans (askLe_olderAsk_right _ _)
        · exact hle p (List.mem_cons_of_mem _ hp)

/-- The requests for boost of a die's clusters, by their time and cluster (21 R413). -/
def State.boostAsks (s : State) (die : Nat) : List (Nat × Nat) :=
  s.clusters.filterMap (fun p => if p.1 / 64 = die && !p.2.granted then p.2.requestedAt.map (fun t => (t, p.1)) else none)

/-- Below the die's limit the first request is granted. -/
theorem boostGrant_grants {s : State} {j t : Nat} (hask : (t, j) ∈ s.boostAsks s.occ.a) (hfirst : ∀ p ∈ s.boostAsks s.occ.a, AskLe (t, j) p)
    (hroom : s.dieCurrent s.occ.a < (s.die s.occ.a).boostLimit) :
    exec .boostGrant s = .next (s.setCluster j ({ s.cluster j with granted := true }.reclock s.pkg.ticks (s.idleCluster j) (s.matrixHeld j))) := by
  rw [exec_boostGrant]
  unfold execBoostGrant
  dsimp only
  rw [← State.boostAsks]
  cases hasks : s.boostAsks s.occ.a with
  | nil => rw [hasks] at hask; cases hask
  | cons r rs =>
    rw [hasks] at hask hfirst
    obtain ⟨hmem, hle⟩ := foldl_olderAsk_spec rs r
    have hbest : rs.foldl olderAsk r = (t, j) := (hle _ hask).antisymm (hfirst _ hmem)
    refine (if_pos hroom).trans (congrArg Host.Outcome.next ?_)
    change s.modClock (rs.foldl olderAsk r).2 _ = _
    rw [hbest]
    exact modClock_eq rfl

theorem boostGrant_refused {s : State} (hfull : (s.die s.occ.a).boostLimit ≤ s.dieCurrent s.occ.a) :
    exec .boostGrant s = .refused (.notEnabled "BOOST_GRANT") := by
  rw [exec_boostGrant]
  unfold execBoostGrant
  dsimp only
  rw [← State.boostAsks]
  cases hasks : s.boostAsks s.occ.a with
  | nil => rfl
  | cons r rs => exact if_neg (Nat.not_lt.mpr hfull)

/-! Rails and current (21 R407, R414, R415). -/

/-- A switch to the rail that a cluster wants begins with its clock at 1.2 GHz or below. -/
theorem railSwitch_begins {s : State} {up : Bool} (hup : decide (s.occ.b = 1) = up) (hc : s.occ.c ≠ 1) (hk : s.occ.a < 256)
    (hno : (s.cluster s.occ.a).switching = false) (hrail : (s.cluster s.occ.a).railHigh ≠ up)
    (hwant : s.wantsHigh s.occ.a = up) :
    exec .railSwitch s = .next (s.setCluster s.occ.a { (s.cluster s.occ.a).runAt s.pkg.ticks (min (s.cluster s.occ.a).mhz 1200) with
      switching := true, switchHigh := up, switchAt := s.pkg.ticks }) := by
  rw [exec_railSwitch]
  unfold execRailSwitch
  simp only [hup, hc, hno, hwant, if_false]
  exact if_pos (by simp [hk, hrail])

theorem railSwitch_ends {s : State} (hc : s.occ.c = 1) (hsw : (s.cluster s.occ.a).switching = true) :
    exec .railSwitch s = .next (s.setCluster s.occ.a ({ s.cluster s.occ.a with
      switching := false, railHigh := (s.cluster s.occ.a).switchHigh }.reclock s.pkg.ticks (s.idleCluster s.occ.a) (s.matrixHeld s.occ.a))) :=
  (exec_railSwitch s).trans ((if_pos hc).trans ((if_pos hsw).trans (congrArg Host.Outcome.next (modClock_eq rfl))))

theorem currentReservationGrant_grants {s : State} {r : CurReq} {rest : List CurReq} (hreq : (s.cluster s.occ.a).requests = r :: rest)
    (hfree : r.units ≤ (s.cluster s.occ.a).unitsFree) (hno : (s.cluster s.occ.a).switching = false) (hrun : s.clusterRuns s.occ.a = true) :
    exec .currentReservationGrant s = .next ((s.setCluster s.occ.a { s.cluster s.occ.a with
      requests := rest, unitsFree := (s.cluster s.occ.a).unitsFree - r.units
      matrixSeen := (s.cluster s.occ.a).matrixSeen || r.who.isMatrix }).grantTo r.who) := by
  rw [exec_currentReservationGrant]
  unfold execCurrentReservationGrant
  simp only [hreq, hfree, hno, hrun, decide_true, Bool.not_false, Bool.and_self, if_true]

/-! The meter and the throttle of a partition (21 R416). -/

/-- The clusters that a partition runs on. -/
def State.partClusters (s : State) (die e : Nat) : List Nat := ((s.partCores die e).map clusterOf).eraseDups

/-- A meter without a sample of the last 10 us has no mean. -/
theorem mean_of_no_recent {p : Part} {now : Nat} (h : ∀ x ∈ p.samples, x.1 + 1000 ≤ now) : p.mean now = none := by
  have hrecent : p.recent now = [] := List.filter_eq_nil_iff.mpr fun x hx => by simpa using h x hx
  unfold Part.mean
  rw [hrecent]
  rfl

section
variable {s : State} {p : Part} (hp : s.part s.occ.a s.occ.b = p)
include hp

theorem meterSample_records (hact : p.state = 1) (hdue : p.sampleAt + 100 ≤ s.pkg.ticks) :
    exec .meterSample s = .next ((s.partClusters s.occ.a s.occ.b).foldl (fun t k => t.modCluster k (fun c =>
      c.metered s.pkg.ticks (s.occ.c / max 1 (s.partClusters s.occ.a s.occ.b).length)))
      (s.modPart s.occ.a s.occ.b (fun p => { p with samples := (s.pkg.ticks, s.occ.c) :: p.recent s.pkg.ticks, sampleAt := s.pkg.ticks }))) := by
  subst hp
  exact (exec_meterSample s).trans (if_pos (by simp [hact, hdue]))

theorem throttleStep_refused (h : ∀ x ∈ p.samples, x.1 + 1000 ≤ s.pkg.ticks) : exec .throttleStep s = .refused (.notEnabled "THROTTLE_STEP") := by
  have hmove : s.throttleMove s.occ.a s.occ.b = none := by
    unfold State.throttleMove
    simp only [hp, mean_of_no_recent h, ite_self]
  rw [exec_throttleStep]
  unfold execThrottleStep
  simp only [hmove]

/-- A step of the throttle, up or down, moves every cluster that the partition runs on. -/
theorem throttleStep_moves {up : Bool} (hmove : s.throttleMove s.occ.a s.occ.b = some up) (hdue : p.throttleAt + 1000 ≤ s.pkg.ticks) :
    exec .throttleStep s = .next ((s.partClusters s.occ.a s.occ.b).foldl (fun t k => t.modClock k (fun c => { c with
      throttleMhz := if up then min 2000 (c.throttleMhz + 100) else max 800 (min c.throttleMhz c.mhz - 100) }))
      (s.modPart s.occ.a s.occ.b (fun p => { p with throttleAt := s.pkg.ticks }))) := by
  subst hp
  rw [exec_throttleStep]
  unfold execThrottleStep
  simp only [hmove]
  exact if_pos hdue

variable {x : Nat} (hact : p.state = 1) (hmean : p.mean s.pkg.ticks = some x)
include hact hmean

theorem throttleMove_down (hover : 1000 * p.watts < x) (hany : ∃ k ∈ s.partClusters s.occ.a s.occ.b, 800 < (s.cluster k).throttleMhz) :
    s.throttleMove s.occ.a s.occ.b = some false := by
  have hk : (s.partClusters s.occ.a s.occ.b).any (fun k => 800 < (s.cluster k).throttleMhz) = true := by simpa using hany
  unfold State.throttleMove
  simp only [hp, hact, hmean, if_true, hover]
  exact if_pos hk

theorem throttleMove_up (hunder : 100 * x < 95 * (1000 * p.watts))
    (hany : ∃ k ∈ s.partClusters s.occ.a s.occ.b, (s.cluster k).throttleMhz < 2000) : s.throttleMove s.occ.a s.occ.b = some true := by
  have hk : (s.partClusters s.occ.a s.occ.b).any (fun k => (s.cluster k).throttleMhz < 2000) = true := by simpa using hany
  have hnot : ¬ 1000 * p.watts < x := by omega
  unfold State.throttleMove
  simp only [hp, hact, hmean, if_true, hnot, if_false, hunder]
  exact if_pos hk

end

/-! Temperature (21 R417, R418, R420). -/

/-- Boost that begins leaves what its cluster's sensors say, and so does any clock that moves. -/
theorem beginBoost_sensors (c : ClusterSt) (now : Nat) (idle held : Bool) :
    (c.beginBoost now idle held).sensors = c.sensors ∧ (c.beginBoost now idle held).temp = c.temp := by
  unfold ClusterSt.beginBoost
  split <;> exact ⟨rfl, rfl⟩

theorem reclock_sensors (c : ClusterSt) (now : Nat) (idle held : Bool) :
    (c.reclock now idle held).sensors = c.sensors ∧ (c.reclock now idle held).temp = c.temp := by
  unfold ClusterSt.reclock
  exact beginBoost_sensors _ now idle held

/-- A cluster whose sensors have been read, before it takes heed of what they say (21 R417). -/
def ClusterSt.sensed (c : ClusterSt) (xs : List Sensor) : ClusterSt :=
  { c with sensors := xs, temp := if (c.sensors.zip xs).any (fun p => p.1.voted != p.2.voted) then c.temp else decideTemp xs }

/-- A notice tells the management controller alone. -/
theorem notifyHot_spec (s : State) (k : Nat) (before : Option Int) :
    (s.notifyHot k before).mem = s.mem ∧ (s.notifyHot k before).waves = s.waves ∧ (∀ j, (s.notifyHot k before).cluster j = s.cluster j) ∧
    (s.notifyHot k before).pkg.hotNotices = if (s.cluster k).temp.any (11000 ≤ ·) && !before.any (11000 ≤ ·) then s.pkg.hotNotices ++ [k]
      else s.pkg.hotNotices := by
  unfold State.notifyHot
  split
  · exact ⟨rfl, rfl, fun _ => rfl, rfl⟩
  · exact ⟨rfl, rfl, fun _ => rfl, rfl⟩

/-- The readings of a cluster's sensors, with their votes (21 R417). -/
def State.readings (s : State) (k : Nat) (ts : List Int) : List Sensor :=
  ((s.cluster k).sensors.zip ts).map (fun (p : Sensor × Int) =>
    p.1.sample s.pkg.ticks ((keepWindow s.pkg.ticks (s.cluster k).powers).map (·.2)) (median (s.neighbours k)) p.2)

theorem sensorSample_spec {s : State} {k : Nat} (hk : k < 256) (t0 t1 t2 : Int) :
    ∃ t, exec (.sensorSample k t0 t1 t2) s = .next t ∧ SameBytes s t ∧ t.waves = s.waves ∧
      (t.cluster k).sensors = s.readings k [t0, t1, t2] ∧ (t.cluster k).temp = ((s.cluster k).sensed (s.readings k [t0, t1, t2])).temp ∧
      t.pkg.hotNotices = (if (t.cluster k).temp.any (11000 ≤ ·) && !(s.cluster k).temp.any (11000 ≤ ·) then s.pkg.hotNotices ++ [k]
        else s.pkg.hotNotices) := by
  have hexec : exec (.sensorSample k t0 t1 t2) s = .next ((s.setCluster k (((s.cluster k).sensed (s.readings k [t0, t1, t2])).heeds.reclock
      s.pkg.ticks (s.idleCluster k) (s.matrixHeld k))).notifyHot k (s.cluster k).temp) :=
    (exec_sensorSample k t0 t1 t2 s).trans (if_neg (Nat.not_le.mpr hk))
  obtain ⟨hmem, hwaves, hclusters, hnotices⟩ := notifyHot_spec (s.setCluster k (((s.cluster k).sensed (s.readings k [t0, t1, t2])).heeds.reclock
      s.pkg.ticks (s.idleCluster k) (s.matrixHeld k))) k (s.cluster k).temp
  obtain ⟨hsensors, htemp⟩ := reclock_sensors ((s.cluster k).sensed (s.readings k [t0, t1, t2])).heeds s.pkg.ticks (s.idleCluster k)
    (s.matrixHeld k)
  refine ⟨_, hexec, fun a => by rw [hmem]; rfl, hwaves, ?_, ?_, ?_⟩
  · rw [hclusters, State.cluster_setCluster, hsensors]
    rfl
  · rw [hclusters, State.cluster_setCluster, htemp]
    rfl
  · rw [hnotices, hclusters]
    rfl

section
variable {s : State} {t : Int} (htemp : (s.cluster s.occ.a).temp = some t) (hk : s.occ.a < 256)
  (hpin : (s.cluster s.occ.a).pinned = false)
include htemp hk hpin

/-- A cluster of 100 degrees or more is hot, and steps down 100 MHz (21 R418). -/
theorem thermalStep_down (hhot : 10000 ≤ t) (hbelow : t < 11000) (hdue : (s.cluster s.occ.a).thermalAt + 1000 ≤ s.pkg.ticks)
    (hroom : 800 < (s.cluster s.occ.a).thermalMhz) :
    exec .thermalStep s = .next (s.setCluster s.occ.a ({ s.cluster s.occ.a with
      hot := true, thermalAt := s.pkg.ticks
      thermalMhz := max 800 (min (s.cluster s.occ.a).thermalMhz (s.cluster s.occ.a).mhz - 100) }.reclock s.pkg.ticks
      (s.idleCluster s.occ.a) (s.matrixHeld s.occ.a))) := by
  have hheed : (s.cluster s.occ.a).heed = (true, false) := by
    unfold ClusterSt.heed
    simp [htemp, hpin, hhot, Int.not_le.mpr hbelow]
  have hthermal : (s.cluster s.occ.a).thermalDue s.pkg.ticks = true := by
    unfold ClusterSt.thermalDue
    rw [hheed, hpin]
    cases (s.cluster s.occ.a).hot <;> simp [hroom, hdue]
  rw [exec_thermalStep]
  refine (if_pos (by simp [hk, hthermal])).trans (congrArg Host.Outcome.next (modClock_eq ?_))
  simp [ClusterSt.heeds, hheed, hroom, hdue, hpin]

/-- Below 95 degrees the limit ends. -/
theorem thermalStep_ends (hcool : t < 9500) (hhot : (s.cluster s.occ.a).hot = true) :
    exec .thermalStep s = .next (s.setCluster s.occ.a ({ s.cluster s.occ.a with hot := false, thermalMhz := 2000 }.reclock s.pkg.ticks
      (s.idleCluster s.occ.a) (s.matrixHeld s.occ.a))) := by
  have hheed : (s.cluster s.occ.a).heed = (false, false) := by
    unfold ClusterSt.heed
    simp [htemp, hpin]
    omega
  have hthermal : (s.cluster s.occ.a).thermalDue s.pkg.ticks = true := by
    unfold ClusterSt.thermalDue
    rw [hheed, hpin, hhot]
    rfl
  rw [exec_thermalStep]
  refine (if_pos (by simp [hk, hthermal])).trans (congrArg Host.Outcome.next (modClock_eq ?_))
  simp [ClusterSt.heeds, hheed, hpin]

end

end Sys2Proof.Machine

namespace Sys2Proof
open Machine

/-- Settles O60: each event by its condition, the grant of boost by the order of the requests, and a sample by what it leaves of the cluster. -/
theorem power : Obligations.Power := by
  unfold Obligations.Power
  refine fun s => ⟨fun hk hdue => ⟨boostIntervalEnd_last hk hdue, boostIntervalEnd_pays hk hdue, boostIntervalEnd_free hk hdue⟩,
    fun t => boostStepdown_ends, permitRefill_adds, ?_, railSwitch_ends, fun r rest => currentReservationGrant_grants,
    fun j t hask hfirst => ⟨boostGrant_grants hask hfirst, boostGrant_refused⟩,
    ⟨meterSample_records rfl, throttleStep_refused rfl, fun x hact hmean hdue => ⟨fun hover hany => ?_, fun hunder hany => ?_⟩⟩,
    fun t0 t1 t2 hk => sensorSample_spec hk t0 t1 t2, fun t htemp hk hpin => ⟨thermalStep_down htemp hk hpin, thermalStep_ends htemp hk hpin⟩⟩
  · exact fun hc hk hno hrail hwant => railSwitch_begins rfl hc hk hno (fun h => hrail (by simp [h])) (by simp [← hwant])
  · rw [throttleStep_moves rfl (throttleMove_down rfl hact hmean hover hany) hdue]
    rfl
  · rw [throttleStep_moves rfl (throttleMove_up rfl hact hmean hunder hany) hdue]
    rfl

end Sys2Proof
end

section
/-! PROOFS. Management commands, pausing and resuming (O58). -/
namespace Sys2Proof.Machine

/-! A code in a window's CMD register changes nothing that commands read (22 R423). -/

/-- A window's own registers changed: what stays is everything but one context's management registers, or the physical function's. -/
theorem ctx_modWin (s : State) (win : Win) (f : Mgmt → Mgmt) (vf : Nat) :
    (s.modWin win f).ctx vf = { s.ctx vf with mgmt := ((s.modWin win f).ctx vf).mgmt } := by
  cases win with
  | pf => rfl
  | vf n =>
    by_cases h : vf = n
    · subst h
      rw [State.modWin, State.ctx_modCtx]
    · rw [State.modWin, State.ctx_modCtx_ne _ _ _ _ h]

/-- A management register that a change of a window's own registers leaves stands in every context. -/
theorem mgmt_modWin {α : Type} (g : Mgmt → α) {f : Mgmt → Mgmt} (hf : ∀ m, g (f m) = g m) (s : State) (win : Win) (vf : Nat) :
    g ((s.modWin win f).ctx vf).mgmt = g (s.ctx vf).mgmt := by
  cases win with
  | pf => rfl
  | vf n =>
    by_cases h : vf = n
    · subst h
      rw [State.modWin, State.ctx_modCtx]
      exact hf _
    · rw [State.modWin, State.ctx_modCtx_ne _ _ _ _ h]

theorem modWin_mem (s : State) (win : Win) (f : Mgmt → Mgmt) : (s.modWin win f).mem = s.mem := by cases win <;> rfl
theorem modWin_waves (s : State) (win : Win) (f : Mgmt → Mgmt) : (s.modWin win f).waves = s.waves := by cases win <;> rfl
theorem modWin_units (s : State) (win : Win) (f : Mgmt → Mgmt) : (s.modWin win f).units = s.units := by cases win <;> rfl
theorem modWin_dies (s : State) (win : Win) (f : Mgmt → Mgmt) : (s.modWin win f).dies = s.dies := by cases win <;> rfl
theorem modWin_pkg (s : State) (win : Win) (f : Mgmt → Mgmt) : (s.modWin win f).pkg = s.pkg := by cases win <;> rfl

theorem winVf_cmdIn (s : State) (code : Nat) : (s.cmdIn code).winVf s.occ.win = s.winVf s.occ.win := by
  unfold State.cmdIn
  cases s.occ.win <;> rfl

/-- CMD is the one management register that a command's code changes. -/
theorem ctx_cmdIn (s : State) (code vf : Nat) :
    (s.cmdIn code).ctx vf = { s.ctx vf with mgmt := { (s.ctx vf).mgmt with cmd := ((s.cmdIn code).ctx vf).mgmt.cmd } } := by
  unfold State.cmdIn
  cases s.occ.win with
  | pf => rfl
  | vf n =>
    by_cases h : vf = n
    · subst h
      rw [State.modWin, State.ctx_modCtx]
    · rw [State.modWin, State.ctx_modCtx_ne _ _ _ _ h]

theorem cmdIn_die (s : State) (code die : Nat) : (s.cmdIn code).die die = s.die die :=
  congrArg (fun ds => tget DieSt.init ds die) (modWin_dies s _ _)

theorem timens_cmdIn (s : State) (code vf : Nat) : (s.cmdIn code).timens vf = s.timens vf := by
  unfold State.timens
  rw [ctx_cmdIn, State.cmdIn, modWin_pkg]

/-! The events of the commands (22 R425). -/

theorem exec_shootdown (s : State) : exec .shootdown s = s.cmdEvent "SHOOTDOWN" 1 (fun _ => true) := rfl
theorem exec_disposeReplay (s : State) : exec .disposeReplay s = s.cmdEvent "DISPOSE_REPLAY" 2 (fun m => m.arg1 != 1) := rfl
theorem exec_disposeFail (s : State) : exec .disposeFail s = s.cmdEvent "DISPOSE_FAIL" 2 (fun m => m.arg1 = 1) := rfl
theorem exec_gallery (s : State) : exec .gallery s = s.cmdEvent "GALLERY" 3 (fun _ => true) := rfl
theorem exec_nsnew (s : State) : exec .nsnew s = s.cmdEvent "NSNEW" 4 (fun _ => true) := rfl
theorem exec_nsfree (s : State) : exec .nsfree s = s.cmdEvent "NSFREE" 5 (fun _ => true) := rfl
theorem exec_collnew (s : State) : exec .collnew s = s.cmdEvent "COLLNEW" 6 (fun _ => true) := rfl
theorem exec_collfree (s : State) : exec .collfree s = s.cmdEvent "COLLFREE" 7 (fun _ => true) := rfl
theorem exec_pause (s : State) : exec .pause s = s.cmdEvent "PAUSE" 8 (fun _ => true) := rfl
theorem exec_resume (s : State) : exec .resume s = s.cmdEvent "RESUME" 9 (fun _ => true) := rfl
theorem exec_migin (s : State) : exec .migin s = s.cmdEvent "MIGIN" 10 (fun _ => true) := rfl
theorem exec_resync (s : State) : exec .resync s = s.cmdEvent "RESYNC" 11 (fun _ => true) := rfl
theorem exec_teardown (s : State) : exec .teardown s = s.cmdEvent "TEARDOWN" 12 (fun _ => true) := rfl
theorem exec_pfread (s : State) : exec .pfread s = s.cmdEvent "PFREAD" 14 (fun _ => true) := rfl
theorem exec_pfwrite (s : State) : exec .pfwrite s = s.cmdEvent "PFWRITE" 15 (fun _ => true) := rfl
theorem exec_cmdUnknown (s : State) : exec .cmdUnknown s = s.cmdEvent "CMD_UNKNOWN" s.occ.b (fun _ => s.occ.b = 0 || 16 ≤ s.occ.b) := rfl

/-! How a command that its window accepts ends (22 R425). -/

/-- A write to CMD that is accepted: what the command comes to, RESULT written where it is no package reset. -/
theorem command_runs {s : State} {own : Bool} {win : Win} {code : Nat} {run : State → CmdRes} {r : CmdRes}
    (hidle : (s.winMgmt win).cmdstat.getLsbD 31 = false) (hown : (pCommand code && !own) = false)
    (hrun : run (s.modWin win (fun m => { m with cmd := BitVec.ofNat 32 code })) = r) :
    s.command own win code run =
      if code = 13 && (s.winMgmt win).arg0 = 3 && r.code = 0 then r.s else r.s.cmdOut win r.code r.value r.busy := by
  subst hrun
  unfold State.command
  dsimp only
  rw [if_neg (by rw [hidle]; exact Bool.false_ne_true), if_neg (by rw [hown]; exact Bool.false_ne_true)]
  rfl

theorem command_eq {s : State} {own : Bool} {win : Win} {code : Nat} {run : State → CmdRes} {r : CmdRes}
    (hidle : (s.winMgmt win).cmdstat.getLsbD 31 = false) (hown : (pCommand code && !own) = false)
    (hreset : code ≠ 13 ∨ (s.winMgmt win).arg0 ≠ 3) (hrun : run (s.modWin win (fun m => { m with cmd := BitVec.ofNat 32 code })) = r) :
    s.command own win code run = r.s.cmdOut win r.code r.value r.busy := by
  have hgrain : (code = 13 && (s.winMgmt win).arg0 = 3 && r.code = 0) = false := by
    rcases hreset with h | h
    · simp [h]
    · rw [decide_eq_false h, Bool.and_false, Bool.false_and]
  rw [command_runs hidle hown hrun, hgrain]
  rfl

section
variable {s : State} {code : Nat} (h : Accepts s code)
include h

/-- What an accepted command runs as, among the commands of a context that is not torn down. -/
theorem Accepts.run (h0 : code ≠ 0) {a b c : CmdRes} :
    (if code = 0 || 14 ≤ code then a
      else if ((s.cmdIn code).ctx (s.winVf s.occ.win)).state = .torn && !(s.occ.win = .pf && (code = 11 || code = 13)) then b else c) = c := by
  have hknown : ¬ 14 ≤ code := Nat.not_le.mpr h.known
  have halive : ((s.cmdIn code).ctx (s.winVf s.occ.win)).state ≠ .torn := by
    rw [ctx_cmdIn]
    exact h.alive
  simp [h0, hknown, halive]

/-- An accepted command is one that its writer may write. -/
theorem Accepts.own : (pCommand code && !s.isOwner s.occ.a s.occ.win) = false := by
  cases hp : pCommand code with
  | false => rfl
  | true => simp [h.allowed hp]

theorem Accepts.event {row : String} {ok : Mgmt → Bool} (hok : ok (s.winMgmt s.occ.win) = true) :
    s.cmdEvent row code ok = .next (s.plainCommand s.occ.a (s.isOwner s.occ.a s.occ.win) s.occ.win code) := by
  obtain ⟨⟨hlo, hhi⟩, hvf, -, -, hknown, -⟩ := h
  have h14 : code ≠ 14 := by omega
  have h15 : code ≠ 15 := by omega
  exact (if_pos (by simp [hlo, hhi, hvf, hok])).trans (congrArg Host.Outcome.next (if_neg (by simp [h14, h15])))

/-- The event of an accepted command leaves what the command comes to, RESULT written. -/
theorem Accepts.next {row : String} {ok : Mgmt → Bool} {r : CmdRes} (hok : ok (s.winMgmt s.occ.win) = true)
    (hreset : code ≠ 13 ∨ (s.winMgmt s.occ.win).arg0 ≠ 3)
    (hrun : (s.cmdIn code).runCommand s.occ.a s.occ.win (s.winVf s.occ.win) code (s.winMgmt s.occ.win).arg0 (s.winMgmt s.occ.win).arg1 = r) :
    s.cmdEvent row code ok = .next (r.s.cmdOut s.occ.win r.code r.value r.busy) := by
  rw [h.event hok, State.plainCommand]
  refine congrArg Host.Outcome.next (command_eq h.idle h.own hreset ?_)
  rw [← State.cmdIn, winVf_cmdIn, hrun]

end

/-! Commands 1 to 12 with arguments that are right (22 R425). -/

section
variable {s : State}

theorem exec_shootdownComplete (s : State) : exec .shootdownComplete s = execShootdownComplete s := rfl

theorem shootdown_next (h : Accepts s 1) (hpath : bits (s.winMgmt s.occ.win).arg0.toNat 63 55 = 0)
    (hva : (s.winMgmt s.occ.win).arg0.toNat % 65536 = 0) (hlen : (s.winMgmt s.occ.win).arg1.toNat % 65536 = 0) :
    exec .shootdown s = .next (((s.cmdIn 1).modCtx (s.winVf s.occ.win) (fun c => { c with
      shoot := c.shoot ++ [{ va := (s.winMgmt s.occ.win).arg0.toNat, len := (s.winMgmt s.occ.win).arg1.toNat, win := s.occ.win }] })).cmdOut
      s.occ.win 0 0 true) :=
  (exec_shootdown s).trans (h.next rfl (.inl (by decide)) ((h.run (by decide)).trans (if_neg (by simp [hpath, hva, hlen]))))

/-- A shootdown completes once nothing holds or is still to use what it covers. -/
theorem shootdownComplete_next {r : ShootReq} {rest : List ShootReq} (hfirst : (s.ctx s.occ.a).shoot = r :: rest)
    (hruns : s.runHolds s.occ.a r = false) (hleft : s.accessesLeft s.occ.a r = false) :
    exec .shootdownComplete s = .next (((((s.drainCtx s.occ.a).dropTranslations s.occ.a r).rewatchAll s.occ.a r).modCtx s.occ.a (fun c =>
      { c with shoot := rest })).modWin r.win (fun m => { m with cmdstat := 0, result := 0 })) := by
  rw [exec_shootdownComplete]
  unfold execShootdownComplete
  simp only [hfirst, hruns, hleft, Bool.or_self, Bool.false_eq_true, if_false]

theorem disposeReplay_next (h : Accepts s 2) (ha1 : (s.winMgmt s.occ.win).arg1 = 0) :
    exec .disposeReplay s = .next (((s.cmdIn 2).dispose (s.winVf s.occ.win) (s.winMgmt s.occ.win).arg0.toNat false).cmdOut s.occ.win 0 0 false) :=
  (exec_disposeReplay s).trans (h.next (by simp [ha1]) (.inl (by decide)) ((h.run (by decide)).trans (if_pos ha1)))

theorem disposeFail_next (h : Accepts s 2) (ha1 : (s.winMgmt s.occ.win).arg1 = 1) :
    exec .disposeFail s = .next (((s.cmdIn 2).dispose (s.winVf s.occ.win) (s.winMgmt s.occ.win).arg0.toNat true).cmdOut s.occ.win 0 0 false) :=
  (exec_disposeFail s).trans (h.next (by simp [ha1]) (.inl (by decide)) ((h.run (by decide)).trans ((if_neg (by simp [ha1])).trans (if_pos ha1))))

theorem gallery_next (h : Accepts s 3) (hdie : (s.winMgmt s.occ.win).arg0.toNat ≤ 3) (hwhole : (s.winMgmt s.occ.win).arg1.toNat % 65536 = 0)
    (hsize : (s.winMgmt s.occ.win).arg1.toNat ≤ 2 ^ 32)
    (hruns : ∀ p ∈ s.waves, (s.unit p.2.unit).vf = s.winVf s.occ.win → p.2.cand.isSome = true → p.2.resident = true →
      dieOf p.2.core ≠ (s.winMgmt s.occ.win).arg0.toNat) :
    exec .gallery s = .next (((s.cmdIn 3).modCtx (s.winVf s.occ.win) (fun c => { c with
      galWin := tset 0 c.galWin (s.winMgmt s.occ.win).arg0.toNat (s.winMgmt s.occ.win).arg1.toNat })).cmdOut s.occ.win 0 0 false) := by
  have hnone : (s.cmdIn 3).waves.any (fun p => ((s.cmdIn 3).unit p.2.unit).vf = s.winVf s.occ.win && p.2.cand.isSome && p.2.resident &&
      dieOf p.2.core = (s.winMgmt s.occ.win).arg0.toNat) = false := by
    unfold State.cmdIn State.unit
    rw [modWin_waves, modWin_units]
    simpa [State.unit] using hruns
  refine (exec_gallery s).trans (h.next rfl (.inl (by decide)) ((h.run (by decide)).trans (if_neg ?_)))
  rw [hnone]
  simpa [Nat.not_lt.mpr hdie, hwhole] using hsize

/-- NSNEW activates an inactive namespace where its die has room for it (10 R252). -/
theorem nsnew_next (h : Accepts s 4) (hhi : bits (s.winMgmt s.occ.win).arg0.toNat 63 13 = 0)
    (hmid : bits (s.winMgmt s.occ.win).arg0.toNat 7 6 = 0) (hls : bits (s.winMgmt s.occ.win).arg0.toNat 12 8 ≤ 24)
    (hwhole : (s.winMgmt s.occ.win).arg1.toNat % 65536 = 0) (hfits : classFits 0 (s.winMgmt s.occ.win).arg1.toNat = true)
    {n die : Nat} (hn : bits (s.winMgmt s.occ.win).arg0.toNat 3 0 = n) (hd : bits (s.winMgmt s.occ.win).arg0.toNat 5 4 = die)
    (hfree : (tget Namespace.init (s.die die).spaces n).active = false)
    (hroom : (s.die die).nsEntries + 16 * 2 ^ bits (s.winMgmt s.occ.win).arg0.toNat 12 8 ≤ 2 ^ 28) :
    exec .nsnew s = .next (((s.cmdIn 4).modDie die (fun d => { d with spaces := tset Namespace.init d.spaces n {
      vf := s.winVf s.occ.win, logsets := bits (s.winMgmt s.occ.win).arg0.toNat 12 8, active := true
      base := (s.winMgmt s.occ.win).arg1.toNat, entries := [], stamp := (tget Namespace.init (s.die die).spaces n).stamp } })).cmdOut
      s.occ.win 0 0 false) := by
  subst hn hd
  rw [← cmdIn_die s 4] at hfree hroom ⊢
  exact (exec_nsnew s).trans (h.next rfl (.inl (by decide)) ((h.run (by decide)).trans ((if_neg (by simp [hhi, hmid, Nat.not_lt.mpr hls, hwhole, hfits])).trans
    (if_neg (by simpa [hfree] using hroom)))))

theorem nsfree_next (h : Accepts s 5) (hhi : bits (s.winMgmt s.occ.win).arg0.toNat 63 6 = 0)
    {n die : Nat} (hn : bits (s.winMgmt s.occ.win).arg0.toNat 3 0 = n) (hd : bits (s.winMgmt s.occ.win).arg0.toNat 5 4 = die)
    (hmine : (tget Namespace.init (s.die die).spaces n).active = true → (tget Namespace.init (s.die die).spaces n).vf = s.winVf s.occ.win) :
    exec .nsfree s = .next (((s.cmdIn 5).modDie die (fun d => { d with
      spaces := tset Namespace.init d.spaces n { tget Namespace.init (s.die die).spaces n with active := false } })).cmdOut s.occ.win 0 0 false) := by
  subst hn hd
  rw [← cmdIn_die s 5] at hmine ⊢
  exact (exec_nsfree s).trans (h.next rfl (.inl (by decide)) ((h.run (by decide)).trans (if_neg (by simpa [hhi] using hmine))))

/-- MIGIN raises LAST, and with it the least offset (22 R429). -/
theorem migin_next (h : Accepts s 10) {t : State} (ht : (s.cmdIn 10).modCtx (s.winVf s.occ.win) (fun c => { c with
      lastTime := max c.lastTime (s.winMgmt s.occ.win).arg0.toNat }) = t) :
    exec .migin s = .next ((t.modCtx (s.winVf s.occ.win) (fun c => { c with mgmt := { c.mgmt with
      toffset := t.toffsetFor (s.winVf s.occ.win) c.mgmt.toffset.toInt } })).cmdOut s.occ.win 0 0 false) := by
  subst ht
  exact (exec_migin s).trans (h.next rfl (.inl (by decide)) (h.run (by decide)))

/-- RESYNC writes the record to the issuing host's memory; the package's SEQ is its value (22 R430). -/
theorem cmdResync_eq {t : State} {ep : Nat} {win : Win} {a0 : DWord} (hpage : a0.toNat % 4096 = 0) {r : List Byte × State}
    (hr : t.resyncRecord (match win with
      | .vf n => some n
      | .pf => none) = r) :
    t.cmdResync ep win a0 = {
      s := r.2.hostStore (locPA 4 (ep * 2 ^ 43 + a0.toNat % 2 ^ 43)) r.1, code := 0
      value := zext64 (r.2.hostStore (locPA 4 (ep * 2 ^ 43 + a0.toNat % 2 ^ 43)) r.1).pkg.resyncSeq, busy := false } := by
  subst hr
  exact if_neg (by simp [hpage])

theorem resync_next (h : Accepts s 11) (hpage : (s.winMgmt s.occ.win).arg0.toNat % 4096 = 0) {r : List Byte × State}
    (hr : (s.cmdIn 11).resyncRecord (match s.occ.win with
      | .vf n => some n
      | .pf => none) = r) {t : State} (ht : r.2.hostStore (locPA 4 (s.occ.a * 2 ^ 43 + (s.winMgmt s.occ.win).arg0.toNat % 2 ^ 43)) r.1 = t) :
    exec .resync s = .next (t.cmdOut s.occ.win 0 (zext64 t.pkg.resyncSeq) false) := by
  subst ht
  exact (exec_resync s).trans (h.next rfl (.inl (by decide)) ((h.run (by decide)).trans (cmdResync_eq hpage hr)))

theorem teardown_next (h : Accepts s 12) :
    exec .teardown s = .next (((s.cmdIn 12).teardown (s.winVf s.occ.win) 1).cmdOut s.occ.win 0 0 false) :=
  (exec_teardown s).trans (h.next rfl (.inl (by decide)) (h.run (by decide)))

theorem pause_paused (h : Accepts s 8) (hstate : (s.ctx (s.winVf s.occ.win)).state = .paused) :
    exec .pause s = .next ((s.cmdIn 8).cmdOut s.occ.win 0 0 false) :=
  (exec_pause s).trans (h.next rfl (.inl (by decide)) ((h.run (by decide)).trans (if_pos (by rw [ctx_cmdIn]; exact hstate))))

theorem resume_active (h : Accepts s 9) (hstate : (s.ctx (s.winVf s.occ.win)).state = .active) :
    exec .resume s = .next ((s.cmdIn 9).cmdOut s.occ.win 0 0 false) :=
  (exec_resume s).trans (h.next rfl (.inl (by decide)) ((h.run (by decide)).trans (if_pos (by rw [ctx_cmdIn, hstate]; rfl))))

end

/-! Collective groups (22 R426). -/

section
variable {s : State} {vf : Nat} {ea : DWord} {ms : List (Nat × Nat)}

/-- A member list that keeps the rules: where it lies, its count, and that it has as many members. -/
theorem memberList_eq_some (h : s.memberList vf ea = some ms) :
    plainAddr ea 4 = true ∧ ∃ n, s.devRead vf ea 4 = some n ∧ ¬ (n < 2 || 1024 < n) ∧ ms.length = n := by
  unfold State.memberList at h
  cases hplain : plainAddr ea 4 with
  | false => simp [hplain] at h
  | true =>
    cases hread : s.devRead vf ea 4 with
    | none => simp [hplain, hread] at h
    | some n =>
      simp only [hplain, hread, Bool.not_true, Bool.false_eq_true, if_false] at h
      split at h
      · cases h
      · next hn =>
        split at h
        · next hok =>
          simp only [Bool.and_eq_true, decide_eq_true_eq] at hok
          obtain ⟨⟨⟨hlen, -⟩, -⟩, -⟩ := hok
          cases h
          exact ⟨rfl, n, rfl, hn, by rw [List.length_map, hlen]⟩
        · cases h

/-- The set on the pages of a list read whole (01 R30). -/
theorem useList_of_memberList (h : s.memberList vf ea = some ms) : s.useList vf ea = s.devUse vf ea (4 + 4 * ms.length) := by
  obtain ⟨hplain, n, hread, hn, hlen⟩ := memberList_eq_some h
  unfold State.useList
  simp only [hplain, hread, Bool.not_true, Bool.false_eq_true, if_false]
  rw [if_neg hn, hlen]

end

section
variable {s : State} {vf : Nat} {a0 : DWord} (hhi : bits a0.toNat 63 32 = 0)
include hhi

theorem cmdCollnew_eq {a1 : DWord} {ms : List (Nat × Nat)} (hnone : tfind? s.pkg.groups (groupNumber vf a0) = none)
    (hms : s.memberList vf a1 = some ms) {t : State} (ht : s.devUse vf a1 (4 + 4 * ms.length) = t) :
    s.cmdCollnew vf a0 a1 = .done (t.setPkg { t.pkg.dropShares (groupNumber vf a0) with
      groups := tins t.pkg.groups (groupNumber vf a0) { vf, members := ms, usable := false, round := 0 } }) 0 := by
  subst ht
  unfold State.cmdCollnew
  simp only [hhi, hnone, hms, useList_of_memberList hms]
  rfl

theorem cmdCollfree_eq {g : CollGroup} (hsome : tfind? s.pkg.groups (groupNumber vf a0) = some g) :
    s.cmdCollfree vf a0 = .done (s.setPkg { s.pkg.dropShares (groupNumber vf a0) with groups := tdel s.pkg.groups (groupNumber vf a0) }) 0 :=
  if_neg (by simp [hhi, hsome])

end

section
variable {s : State} {key : Nat} (hkey : groupNumber (s.winVf s.occ.win) (s.winMgmt s.occ.win).arg0 = key)
  (hhi : bits (s.winMgmt s.occ.win).arg0.toNat 63 32 = 0)
include hkey hhi

theorem collnew_next {ms : List (Nat × Nat)} (h : Accepts s 6) (hnone : tfind? s.pkg.groups key = none)
    (hms : (s.cmdIn 6).memberList (s.winVf s.occ.win) (s.winMgmt s.occ.win).arg1 = some ms) {t : State}
    (ht : (s.cmdIn 6).devUse (s.winVf s.occ.win) (s.winMgmt s.occ.win).arg1 (4 + 4 * ms.length) = t) :
    exec .collnew s = .next ((t.setPkg { t.pkg.dropShares key with
      groups := tins t.pkg.groups key { vf := s.winVf s.occ.win, members := ms, usable := false, round := 0 } }).cmdOut s.occ.win 0 0 false) := by
  subst hkey
  rw [← modWin_pkg s s.occ.win (fun m => { m with cmd := BitVec.ofNat 32 6 })] at hnone
  exact (exec_collnew s).trans (h.next rfl (.inl (by decide)) ((h.run (by decide)).trans (cmdCollnew_eq hhi hnone hms ht)))

theorem collfree_next {g : CollGroup} (h : Accepts s 7) (hsome : tfind? s.pkg.groups key = some g) :
    exec .collfree s = .next (((s.cmdIn 7).setPkg { s.pkg.dropShares key with groups := tdel s.pkg.groups key }).cmdOut s.occ.win 0 0 false) := by
  subst hkey
  rw [← modWin_pkg s s.occ.win (fun m => { m with cmd := BitVec.ofNat 32 7 })] at hsome ⊢
  exact (exec_collfree s).trans (h.next rfl (.inl (by decide)) ((h.run (by decide)).trans (cmdCollfree_eq hhi hsome)))

end

theorem exec_collectiveGroupUsable (s : State) : exec .collectiveGroupUsable s = execCollectiveGroupUsable s := rfl

/-- A group of a table marked as one that may be used. -/
def markUsable (gs : SMap CollGroup) (k : Nat) : SMap CollGroup :=
  match tfind? gs k with
  | some h => tins gs k { h with usable := true }
  | none => gs

/-- A group that may be used, with given members, stands under a number. -/
def UsableGroup (gs : SMap CollGroup) (key : Nat) (ms : List (Nat × Nat)) : Prop :=
  ∃ h, tfind? gs key = some h ∧ h.usable = true ∧ h.members = ms

theorem usableGroup_markUsable_same {gs : SMap CollGroup} {key : Nat} {g : CollGroup} (hg : tfind? gs key = some g) :
    UsableGroup (markUsable gs key) key g.members := by
  unfold markUsable
  rw [hg]
  exact ⟨_, tfind?_tins_same _ _ _, rfl, rfl⟩

theorem UsableGroup.markUsable {gs : SMap CollGroup} {key : Nat} {ms : List (Nat × Nat)} (h : UsableGroup gs key ms) (k : Nat) :
    UsableGroup (markUsable gs k) key ms := by
  by_cases hk : key = k
  · subst hk
    obtain ⟨g, hg, -, hms⟩ := h
    rw [← hms]
    exact usableGroup_markUsable_same hg
  · obtain ⟨g, hg, hrest⟩ := h
    refine ⟨g, ?_, hrest⟩
    unfold Machine.markUsable
    split
    · rw [tfind?_tins_ne _ _ _ _ hk, hg]
    · exact hg

theorem UsableGroup.foldl_markUsable {α : Type} (f : α → Nat) {key : Nat} {ms : List (Nat × Nat)} (xs : List α) {gs : SMap CollGroup}
    (h : UsableGroup gs key ms) : UsableGroup (xs.foldl (fun gs x => Machine.markUsable gs (f x)) gs) key ms := by
  induction xs generalizing gs with
  | nil => exact h
  | cons x xs ih => exact ih (h.markUsable (f x))

/-- A group becomes usable once this package's members have all made the same list (22 R426). -/
theorem collectiveGroupUsable_next {s : State} {g : CollGroup} (hg : tfind? s.pkg.groups s.occ.a = some g) (hnot : g.usable = false)
    (hsame : ∀ k ∈ g.members, k.1 = Config.packageNumber →
      ∃ h, tfind? s.pkg.groups (k.2 * 2 ^ 32 + s.occ.a % 2 ^ 32) = some h ∧ h.members = g.members) :
    ∃ t, exec .collectiveGroupUsable s = .next t ∧ UsableGroup t.pkg.groups s.occ.a g.members := by
  have hall : (g.members.filter (fun (m : Nat × Nat) => m.1 = Config.packageNumber)).all (fun (m : Nat × Nat) =>
      match tfind? s.pkg.groups (m.2 * 2 ^ 32 + s.occ.a % 2 ^ 32) with
      | some h => h.members = g.members
      | none => false) = true := by
    refine List.all_eq_true.mpr fun m hm => ?_
    obtain ⟨hmem, hhere⟩ := List.mem_filter.mp hm
    obtain ⟨h, hfind, hms⟩ := hsame m hmem (by simpa using hhere)
    rw [hfind]
    exact decide_eq_true hms
  refine ⟨s.setPkg { s.pkg with groups := (g.members.filter (fun (m : Nat × Nat) => m.1 = Config.packageNumber)).foldl (fun gs m =>
    markUsable gs (m.2 * 2 ^ 32 + s.occ.a % 2 ^ 32)) (markUsable s.pkg.groups s.occ.a) }, ?_, (usableGroup_markUsable_same hg).foldl_markUsable
    (fun (m : Nat × Nat) => m.2 * 2 ^ 32 + s.occ.a % 2 ^ 32) (g.members.filter (fun (m : Nat × Nat) => m.1 = Config.packageNumber))⟩
  rw [exec_collectiveGroupUsable]
  unfold execCollectiveGroupUsable
  dsimp only
  split
  · next h =>
    rw [hg] at h
    cases h
  · next g' h =>
    obtain rfl : g = g' := Option.some.inj (hg.symm.trans h)
    exact if_pos (Bool.and_eq_true_iff.mpr ⟨congrArg not hnot, hall⟩)

/-! The physical function's accesses to a context's registers, and codes that no command has (22 R424, R425). -/

theorem pfRead_eq {s : State} {v : DWord} (hv : (s.ctx (s.winVf .pf)).mgmt.get s.pf.arg0.toNat = some v) :
    s.pfRead = { s, code := 0, value := v, busy := false } := by
  unfold State.pfRead
  rw [hv]

section
variable {s : State} (hlo : 384 ≤ s.occ.a) (hhi : s.occ.a < 512) (hvf : s.winVf s.occ.win < 1024)
  (hidle : (s.winMgmt s.occ.win).cmdstat.getLsbD 31 = false)
include hlo hhi hvf hidle

theorem cmdUnknown_next (hcode : s.occ.b = 0 ∨ 16 ≤ s.occ.b) :
    exec .cmdUnknown s = .next ((s.cmdIn s.occ.b).cmdOut s.occ.win 1 0 false) := by
  have hplain : s.writeCmd s.occ.a s.occ.win s.occ.b = s.plainCommand s.occ.a (s.isOwner s.occ.a s.occ.win) s.occ.win s.occ.b :=
    if_neg (by simp; omega)
  have hfree : pCommand s.occ.b = false := by
    simp [pCommand]
    omega
  rw [exec_cmdUnknown]
  unfold State.cmdEvent
  rw [if_pos (by simpa [hlo, hhi, hvf] using hcode), hplain]
  unfold State.plainCommand
  dsimp only
  refine congrArg Host.Outcome.next (command_eq (r := .done (s.cmdIn s.occ.b) 1) hidle (by rw [hfree]; rfl) (.inl (by omega)) (if_pos ?_))
  simp
  omega

variable (hwin : s.occ.win = .pf) (halive : (s.ctx (s.winVf s.occ.win)).state ≠ .torn)
include hwin halive

/-- Commands 14 and 15 through the physical function's window. -/
theorem pfCommand_next {row : String} {code : Nat} {r : CmdRes} (hcode : code = 14 ∨ code = 15)
    (hrun : (if code = 14 then (s.cmdIn code).pfRead else (s.cmdIn code).pfWrite s.occ.a) = r) :
    s.cmdEvent row code (fun _ => true) = .next (r.s.cmdOut .pf r.code r.value r.busy) := by
  have hin : s.modWin .pf (fun m => { m with cmd := BitVec.ofNat 32 code }) = s.cmdIn code := by
    unfold State.cmdIn
    rw [hwin]
  unfold State.cmdEvent
  rw [if_pos (by simp [hlo, hhi, hvf]), hwin]
  rw [hwin] at hidle halive
  refine congrArg Host.Outcome.next ((if_pos (by simpa using hcode)).trans
    (command_eq (s := s) (win := .pf) hidle (by simp) (.inl (by omega)) ((if_neg (fun h => halive ?_)).trans (by rw [hin, hrun]))))
  exact h

theorem pfread_next {v : DWord} (hv : (s.ctx (s.winVf s.occ.win)).mgmt.get s.pf.arg0.toNat = some v) :
    exec .pfread s = .next ((s.cmdIn 14).cmdOut .pf 0 v false) := by
  refine (exec_pfread s).trans (pfCommand_next hlo hhi hvf hidle hwin halive (.inl rfl) ((if_pos rfl).trans (pfRead_eq ?_)))
  unfold State.cmdIn
  rw [hwin] at hv ⊢
  exact hv

theorem pfwrite_next {t : State} (hreg : pRegister s.pf.arg0.toNat = true)
    (hput : (s.cmdIn 15).regPut (s.winVf s.occ.win) s.pf.arg0.toNat s.pf.arg1 = some t) :
    exec .pfwrite s = .next (t.cmdOut .pf 0 0 false) := by
  refine (exec_pfwrite s).trans (pfCommand_next hlo hhi hvf hidle hwin halive (.inr rfl) ((if_neg (by decide)).trans
    (show (s.cmdIn 15).pfWrite s.occ.a = .done t 0 from ?_)))
  have hcmd : s.pf.arg0.toNat ≠ 0x80 := fun h => by rw [h] at hreg; exact absurd hreg (by decide)
  have hhead : s.pf.arg0.toNat ≠ 0x18 := fun h => by rw [h] at hreg; exact absurd hreg (by decide)
  have hpf : (s.cmdIn 15).pf = { s.pf with cmd := 15 } := by
    unfold State.cmdIn
    rw [hwin]
    rfl
  have hvf' : (s.cmdIn 15).winVf .pf = s.winVf s.occ.win := by
    rw [← hwin, winVf_cmdIn]
  unfold State.pfWrite
  rw [hvf', hpf]
  simp only [hcmd, hhead, hreg, hput, if_false, if_true]

end

/-! Pausing and resuming (22 R425, R428; 08 R211). -/

/-- A pause under FREEZE notes the time, and every active partition of the context that has a slice ends it. -/
theorem cmdPause_active {s : State} {vf : Nat} (hstate : (s.ctx vf).state = .active) :
    s.cmdPause vf = .done ((s.partsOf vf).foldl (fun t q => if (t.part q.1 q.2).state = 1 ∧ (t.part q.1 q.2).sliceEnd = none then
      t.endSlice q.1 q.2 else t) (s.modCtx vf (fun c => { c with
        state := .paused, pausedAt := if (s.ctx vf).mgmt.tpolicy.getLsbD 0 then some (s.timens vf).toNat else none }))) 0 := by
  have hends : (fun (t : State) (q : Nat × Nat) => if (t.part q.1 q.2).state = 1 && (t.part q.1 q.2).sliceEnd.isNone then t.endSlice q.1 q.2 else t) =
      fun t q => if (t.part q.1 q.2).state = 1 ∧ (t.part q.1 q.2).sliceEnd = none then t.endSlice q.1 q.2 else t := by
    funext t q
    simp only [Bool.and_eq_true, decide_eq_true_eq, Option.isNone_iff_eq_none]
  rw [← hends]
  exact if_neg (by rw [hstate]; decide)

section
variable {s : State}

theorem partsOf_cmdIn (s : State) (code vf : Nat) : (s.cmdIn code).partsOf vf = s.partsOf vf := by
  unfold State.partsOf State.die
  rw [State.cmdIn, modWin_dies]

theorem pause_next (h : Accepts s 8) (hstate : (s.ctx (s.winVf s.occ.win)).state = .active) :
    exec .pause s = .next (((s.partsOf (s.winVf s.occ.win)).foldl (fun t q =>
      if (t.part q.1 q.2).state = 1 ∧ (t.part q.1 q.2).sliceEnd = none then t.endSlice q.1 q.2 else t)
      ((s.cmdIn 8).modCtx (s.winVf s.occ.win) (fun c => { c with
        state := .paused
        pausedAt := if (s.ctx (s.winVf s.occ.win)).mgmt.tpolicy.getLsbD 0 then some (s.timens (s.winVf s.occ.win)).toNat else none }))).cmdOut
      s.occ.win 0 0 false) := by
  have hpause := cmdPause_active (s := s.cmdIn 8) (vf := s.winVf s.occ.win) (by rw [ctx_cmdIn]; exact hstate)
  rw [partsOf_cmdIn, timens_cmdIn, ctx_cmdIn] at hpause
  exact (exec_pause s).trans (h.next rfl (.inl (by decide)) ((h.run (by decide)).trans hpause))

/-- A context without partitions is paused at once. -/
theorem pause_alone (h : Accepts s 8) (hstate : (s.ctx (s.winVf s.occ.win)).state = .active) (hnone : s.partsOf (s.winVf s.occ.win) = []) :
    ∃ t, exec .pause s = .next t ∧ (t.ctx (s.winVf s.occ.win)).state = .paused ∧
      (t.ctx (s.winVf s.occ.win)).pausedAt = (if (s.ctx (s.winVf s.occ.win)).mgmt.tpolicy.getLsbD 0 then
        some (s.timens (s.winVf s.occ.win)).toNat else none) ∧ SameBytes s t := by
  have hpause := pause_next h hstate
  rw [hnone, List.foldl_nil] at hpause
  refine ⟨_, hpause, ?_, ?_, fun a => ?_⟩
  · rw [State.cmdOut, ctx_modWin, State.ctx_modCtx]
  · rw [State.cmdOut, ctx_modWin, State.ctx_modCtx]
  · rw [State.cmdOut, modWin_mem]
    exact congrArg (fun (m : Mem) => m.byte a) (modWin_mem s s.occ.win _)

end

theorem toffset_cmdOut (s : State) (win : Win) (code : Nat) (value : DWord) (busy : Bool) (vf : Nat) :
    ((s.cmdOut win code value busy).ctx vf).mgmt.toffset = (s.ctx vf).mgmt.toffset := by
  refine mgmt_modWin (fun m => m.toffset) ?_ s win vf
  exact fun _ => rfl

/-- The offset from which the time of a paused context goes on: under FREEZE the next tick reads what follows the time of the pause, and no less
than what follows LAST. -/
def State.resumeOffset (s : State) (vf : Nat) : DWord :=
  match (s.ctx vf).pausedAt with
  | none => (s.ctx vf).mgmt.toffset
  | some v => BitVec.ofInt 64 ((max v (s.ctx vf).lastTime : Nat) + 10 - 10 * ((s.pkg.ticks : Int) + 1))

theorem cmdResume_paused {s : State} {vf : Nat} (hstate : (s.ctx vf).state = .paused) :
    s.cmdResume vf = .done (s.modCtx vf (fun c => { c with
      state := .active, pausedAt := none, mgmt := { c.mgmt with toffset := s.resumeOffset vf } })) 0 :=
  if_neg (by rw [hstate]; decide)

theorem resumeOffset_cmdIn (s : State) (code vf : Nat) : (s.cmdIn code).resumeOffset vf = s.resumeOffset vf := by
  unfold State.resumeOffset
  rw [ctx_cmdIn, State.cmdIn, modWin_pkg]

theorem resume_next {s : State} (h : Accepts s 9) (hstate : (s.ctx (s.winVf s.occ.win)).state = .paused) :
    ∃ t, exec .resume s = .next t ∧ (t.ctx (s.winVf s.occ.win)).state = .active ∧ (t.ctx (s.winVf s.occ.win)).pausedAt = none ∧
      SameBytes s t ∧ (t.ctx (s.winVf s.occ.win)).mgmt.toffset = s.resumeOffset (s.winVf s.occ.win) := by
  have hresume := cmdResume_paused (s := s.cmdIn 9) (vf := s.winVf s.occ.win) (by rw [ctx_cmdIn]; exact hstate)
  refine ⟨_, (exec_resume s).trans (h.next rfl (.inl (by decide)) ((h.run (by decide)).trans hresume)), ?_, ?_, fun a => ?_, ?_⟩
  · rw [State.cmdOut, ctx_modWin, CmdRes.done, State.ctx_modCtx]
  · rw [State.cmdOut, ctx_modWin, CmdRes.done, State.ctx_modCtx]
  · rw [State.cmdOut, modWin_mem]
    exact congrArg (fun (m : Mem) => m.byte a) (modWin_mem s s.occ.win _)
  · rw [toffset_cmdOut, CmdRes.done, State.ctx_modCtx]
    exact resumeOffset_cmdIn s 9 _

/-! A slice that ends stops its units (08 R211; 20 R406). -/

/-- Removing no unit changes nothing. -/
theorem removeUnits_nil (s : State) : s.removeUnits [] = s := by
  simp only [State.removeUnits, List.contains_eq_mem, List.not_mem_nil, decide_false, List.filter_false, List.map_nil, Bool.not_false,
    List.filter_true, Bool.false_eq_true, ↓reduceIte, Option.bind_fun_some, List.map_id_fun', id_eq, State.unitCurrent, List.filter_nil,
    List.foldl_nil, mul_zero, add_zero]
  refine congrArg (fun cs => { s with clusters := cs }) ((List.map_congr_left fun p _ => ?_).trans (List.map_id s.clusters))
  refine congrArg (fun rs => (p.1, { p.2 with requests := rs })) (List.filter_eq_self.mpr fun r _ => ?_)
  split <;> rfl

theorem unstart_of_none_unbegun {s : State} {c : Nat} (h : ∀ y ∈ s.units, y.2.core = c → s.unbegun c y.2 = false) : s.unstart c = s := by
  have hnone : s.units.filter (fun p => p.2.core = c && !p.2.ended && s.unbegun c p.2) = [] :=
    List.filter_eq_nil_iff.mpr fun y hy => by
      simp only [Bool.and_eq_true, decide_eq_true_eq, not_and, Bool.not_eq_true]
      exact fun hc => h y hy hc.1
  unfold State.unstart
  rw [hnone]
  exact removeUnits_nil s

theorem endSlice_of_none_unbegun {s : State} {die e : Nat}
    (h : ∀ c ∈ s.partCores die e, ∀ y ∈ s.units, y.2.core = c → s.unbegun c y.2 = false) :
    s.endSlice die e = (s.modPart die e (fun p => { p with sliceEnd := some s.pkg.ticks })).stopUnits
      ((s.modPart die e (fun p => { p with sliceEnd := some s.pkg.ticks })).partUnits die e) (some (s.pkg.ticks + 20000)) true := by
  have hkeep : (s.partCores die e).foldl (fun s c => s.unstart c) s = s := by
    generalize s.partCores die e = cs at h
    induction cs with
    | nil => rfl
    | cons c cs ih =>
      rw [List.foldl_cons, unstart_of_none_unbegun (h c (List.mem_cons_self ..))]
      exact ih fun c hc => h c (List.mem_cons_of_mem _ hc)
  unfold State.endSlice
  dsimp only
  rw [hkeep]
  rfl

/-- A unit that is being stopped: by a slice's end, at a time no later than `d`. -/
structure SliceStopped (x : UnitSt) (d : Nat) : Prop where
  stopping : x.stopping = true
  sliced : x.sliced = true
  deadline : ∃ y, x.stopDeadline = some y ∧ y ≤ d

/-- A unit that can be stopped, and has given waves. -/
structure Stoppable (x : UnitSt) (ws : List Nat) : Prop where
  held : x.released = false
  running : x.saved = none
  waves : x.waves = ws

/-- One unit told to stop at a slice's end. -/
def State.stopSliced (s : State) (d u : Nat) : State :=
  if (s.unit u).released || (s.unit u).saved.isSome then s
  else s.setUnit u { s.unit u with
    stopping := true, sliced := (s.unit u).sliced || true
    stopDeadline := match (s.unit u).stopDeadline, some d with
      | some a, some b => some (min a b)
      | a, none => a
      | none, b => b }

theorem stopUnits_sliced (s : State) (us : List Nat) (d : Nat) :
    s.stopUnits us (some d) true = (us.flatMap s.mates).eraseDups.foldl (fun t u => t.stopSliced d u) s := rfl

theorem stopSliced_ne (s : State) {d u v : Nat} (h : u ≠ v) : (s.stopSliced d v).unit u = s.unit u := by
  unfold State.stopSliced
  split
  · rfl
  · exact State.unit_setUnit_ne _ _ _ _ h

theorem stopSliced_self {s : State} {d u : Nat} {ws : List Nat} (h : Stoppable (s.unit u) ws) :
    Stoppable ((s.stopSliced d u).unit u) ws ∧ SliceStopped ((s.stopSliced d u).unit u) d := by
  obtain ⟨hheld, hrunning, hwaves⟩ := h
  unfold State.stopSliced
  rw [if_neg (by simp [hheld, hrunning]), State.unit_setUnit]
  refine ⟨⟨hheld, hrunning, hwaves⟩, rfl, Bool.or_true _, ?_⟩
  cases (s.unit u).stopDeadline with
  | none => exact ⟨d, rfl, Nat.le_refl d⟩
  | some a => exact ⟨min a d, rfl, Nat.min_le_right a d⟩

/-- A unit among those told to stop is stopped, whichever are told before and after it. -/
theorem foldl_stopSliced {d u : Nat} {ws : List Nat} : ∀ (vs : List Nat) {s : State}, Stoppable (s.unit u) ws →
    (u ∈ vs ∨ SliceStopped (s.unit u) d) →
    Stoppable ((vs.foldl (fun t v => t.stopSliced d v) s).unit u) ws ∧ SliceStopped ((vs.foldl (fun t v => t.stopSliced d v) s).unit u) d
  | [], _, hcan, hin => ⟨hcan, hin.resolve_left (List.not_mem_nil)⟩
  | v :: vs, s, hcan, hin => by
    rw [List.foldl_cons]
    by_cases hv : u = v
    · subst hv
      obtain ⟨hcan', hstopped⟩ := stopSliced_self (d := d) hcan
      exact foldl_stopSliced vs hcan' (.inr hstopped)
    · have hsame := stopSliced_ne s (d := d) hv
      refine foldl_stopSliced vs (by rw [hsame]; exact hcan) (hin.imp (fun h => ?_) (fun h => by rw [hsame]; exact h))
      exact (List.mem_cons.mp h).resolve_left hv

theorem stopUnits_stops {s : State} {us : List Nat} {d u : Nat} (hu : u ∈ us) (halone : (s.unit u).group = none)
    (hheld : (s.unit u).released = false) (hrunning : (s.unit u).saved = none) :
    Stoppable ((s.stopUnits us (some d) true).unit u) (s.unit u).waves ∧ SliceStopped ((s.stopUnits us (some d) true).unit u) d := by
  have hmates : s.mates u = [u] := by
    unfold State.mates
    rw [halone]
  have hin : u ∈ (us.flatMap s.mates).eraseDups :=
    List.mem_eraseDups.mpr (List.mem_flatMap.mpr ⟨u, hu, by rw [hmates]; exact List.mem_singleton_self u⟩)
  rw [stopUnits_sliced]
  exact foldl_stopSliced _ ⟨hheld, hrunning, rfl⟩ (.inl hin)

end Sys2Proof.Machine

namespace Sys2Proof
open Machine

/-- Settles O58: each command through the event of a window that accepts it, pausing by what each partition's slice end does. -/
theorem commands : Obligations.Commands := by
  unfold Obligations.Commands
  refine ⟨fun s => ⟨shootdown_next, fun r rest => shootdownComplete_next, fun h => ⟨disposeReplay_next h, disposeFail_next h⟩, gallery_next,
      ⟨fun h hhi hmid hls hwhole hfits => nsnew_next h hhi hmid hls hwhole hfits rfl rfl, fun h hhi => nsfree_next h hhi rfl rfl⟩,
      ⟨fun ms h hhi hnone hms => collnew_next rfl hhi h hnone hms rfl, fun g h hhi => collfree_next rfl hhi h⟩,
      fun g => collectiveGroupUsable_next, pause_paused, resume_active, fun h => migin_next h rfl, fun h hpage => resync_next h hpage rfl rfl,
      teardown_next, fun hlo hhi hvf hidle => ⟨fun hwin halive => ⟨fun v => pfread_next hlo hhi hvf hidle hwin halive,
        fun t => pfwrite_next hlo hhi hvf hidle hwin halive⟩, cmdUnknown_next hlo hhi hvf hidle⟩⟩,
    fun s => ⟨pause_alone, pause_next, fun die e => endSlice_of_none_unbegun, fun us d u hu halone hheld hrunning => ?_, resume_next⟩⟩
  obtain ⟨⟨-, -, hwaves⟩, hstopping, hsliced, hdeadline⟩ := stopUnits_stops (d := d) hu halone hheld hrunning
  exact ⟨hstopping, hsliced, hwaves, hdeadline⟩

end Sys2Proof
end

section
/-! PROOFS. The record of RESYNC (O59). -/
namespace Sys2Proof.Machine

/-! Fields of a record (00 R9). -/

theorem leNat_leBytes (n x : Nat) : leNat (leBytes n x) = x % 256 ^ n := by
  induction n generalizing x with
  | zero => simp [leBytes, leNat, Nat.mod_one]
  | succ n ih =>
    have hpow : 256 ^ (n + 1) = 256 * 256 ^ n := Nat.pow_succ'
    rw [leBytes, leNat, ih, BitVec.toNat_ofNat, hpow]
    exact Nat.mod_mul.symm

theorem fieldAt_leBytes_append (n x : Nat) (bs : List Byte) : fieldAt (leBytes n x ++ bs) 0 n = x % 256 ^ n := by
  have htake : (leBytes n x ++ bs).take n = leBytes n x := List.take_left' (length_leBytes n x)
  rw [fieldAt, List.drop_zero, htake, leNat_leBytes]

theorem fieldAt_append_right {as bs : List Byte} {k : Nat} (h : as.length = k) (o n : Nat) : fieldAt (as ++ bs) (k + o) n = fieldAt bs o n := by
  rw [fieldAt, fieldAt, ← h, List.drop_length_add_append]

theorem length_flatMap_of_length {α β : Type} {f : α → List β} {k : Nat} (h : ∀ x, (f x).length = k) (xs : List α) :
    (xs.flatMap f).length = xs.length * k := by
  simp [List.length_flatMap, h]

theorem length_bytes_part (p : Part) : p.bytes.length = 16 := by simp [Part.bytes]

theorem length_ctxEntry (s : State) (vf : Nat) (tearing : Bool) : (s.ctxEntry vf tearing).length = 32 := by simp [State.ctxEntry]

/-! What the record's choices leave of the package. -/

theorem pick_pkg (s : State) (n : Nat) : (s.pick n).2.pkg = s.pkg := by
  unfold State.pick
  split <;> rfl

/-- Bytes gathered one by one, by steps that leave the package. -/
theorem foldl_bytes_spec {α : Type} {f : List Byte × State → α → List Byte × State}
    (hf : ∀ acc x, (f acc x).1.length = acc.1.length + 1 ∧ (f acc x).2.pkg = acc.2.pkg) (xs : List α) (acc : List Byte × State) :
    (xs.foldl f acc).1.length = acc.1.length + xs.length ∧ (xs.foldl f acc).2.pkg = acc.2.pkg := by
  induction xs generalizing acc with
  | nil => exact ⟨rfl, rfl⟩
  | cons x xs ih =>
    obtain ⟨hlen, hpkg⟩ := ih (f acc x)
    obtain ⟨hlen', hpkg'⟩ := hf acc x
    rw [List.foldl_cons, List.length_cons]
    exact ⟨by omega, hpkg.trans hpkg'⟩

theorem foldl_pkg {α β : Type} {g : β → State} {f : β → α → β} (hf : ∀ b x, (g (f b x)).pkg = (g b).pkg) (xs : List α) (b : β) :
    (g (xs.foldl f b)).pkg = (g b).pkg := by
  induction xs generalizing b with
  | nil => rfl
  | cons x xs ih => exact (ih (f b x)).trans (hf b x)

theorem choices_pkg {α : Type} (s : State) (xs : List α) (isOpen : α → Bool) : (s.choices xs isOpen).2.pkg = s.pkg := by
  refine foldl_pkg (g := fun (b : List Bool × State) => b.2) (fun b x => ?_) xs ([], s)
  dsimp only
  split
  · exact pick_pkg b.2 2
  · rfl

/-- A byte that is 2, or of the device's choice. -/
theorem chosenByte_spec {p : Prop} [Decidable p] (acc : List Byte × State) :
    (if p then (acc.1 ++ leBytes 1 2, acc.2) else (acc.1 ++ leBytes 1 (acc.2.pick 2).1, (acc.2.pick 2).2)).1.length = acc.1.length + 1 ∧
    (if p then (acc.1 ++ leBytes 1 2, acc.2) else (acc.1 ++ leBytes 1 (acc.2.pick 2).1, (acc.2.pick 2).2)).2.pkg = acc.2.pkg := by
  split
  · exact ⟨by simp, rfl⟩
  · exact ⟨by simp, pick_pkg _ _⟩

/-- The record: its first fields, its length, and the SEQ that the package goes on from (22 R430). -/
theorem resyncRecord_spec (s : State) (view : Option Nat) :
    (∃ bs, (s.resyncRecord view).1 = leBytes 2 1 ++ (leBytes 2 Config.packageNumber ++ (leBytes 4 (s.pkg.resyncSeq + 1).toNat ++
      (leBytes 8 (10 * s.pkg.ticks) ++ bs))) ∧ bs.length = 4080) ∧ (s.resyncRecord view).2.pkg.resyncSeq = s.pkg.resyncSeq + 1 := by
  unfold State.resyncRecord
  dsimp only
  simp only [List.append_assoc]
  refine ⟨⟨_, rfl, ?_⟩, ?_⟩
  · simp only [List.length_append, length_leBytes]
    rw [(foldl_bytes_spec (fun acc x => ?_) _ _).1]
    rw [length_flatMap_of_length (k := 4) (fun x => ?_), length_flatMap_of_length (k := 4) (fun x => ?_),
      length_flatMap_of_length (k := 2) (fun x => ?_), length_flatMap_of_length (k := 8) (fun x => ?_),
      length_flatMap_of_length (k := 16 * 16) (fun x => ?_), length_flatMap_of_length (k := 32) (fun x => ?_)]
    · simp only [List.length_range, List.length_nil, List.length_take, List.length_append, List.length_replicate]
      omega
    · split
      · split
        · exact length_ctxEntry _ _ _
        · exact length_leBytes _ _
      · exact length_leBytes _ _
    · refine length_flatMap_of_length (fun e => ?_) _
      split
      · exact length_bytes_part _
      · exact length_leBytes _ _
    · simp only [List.length_append, length_leBytes]
    · exact length_leBytes _ _
    · exact length_leBytes _ _
    · exact length_leBytes _ _
    · exact chosenByte_spec acc
  · rw [foldl_pkg (g := fun t => t) (fun t x => ?_), choices_pkg, choices_pkg, (foldl_bytes_spec (fun acc x => chosenByte_spec acc) _ _).2]
    · rfl
    · split <;> rfl

end Sys2Proof.Machine
end

section
/-! PROOFS. Resets, the side band's requests, links and clause flags (O59). -/
namespace Sys2Proof.Machine

/-! Resets (22 R432). -/

theorem exec_resetPartition (s : State) : exec .resetPartition s = s.resetEvent "RESET_PARTITION" 0 := rfl
theorem exec_resetEngine (s : State) : exec .resetEngine s = s.resetEvent "RESET_ENGINE" 1 := rfl
theorem exec_resetLink (s : State) : exec .resetLink s = s.resetEvent "RESET_LINK" 2 := rfl
theorem exec_resetPackage (s : State) : exec .resetPackage s = s.resetEvent "RESET_PACKAGE" 3 := rfl

section
variable {s : State} {target : Nat}

theorem resetGrain_partition (ht : target < 64) (hact : (s.part (target / 16) (target % 16)).state = 1) :
    s.resetGrain 0 target = some (s.resetPart (target / 16) (target % 16)) := if_pos (by simp [ht, hact])

theorem resetGrain_engine (ht : target < 8192) : s.resetGrain 1 target = some (s.resetEng (target / 8) (target % 8)) := if_pos ht

theorem resetGrain_link (ht : target < 32) : s.resetGrain 2 target = some (s.resetPort target) := if_pos ht

/-- A reset that the side band asks for answers with its status. -/
theorem resetEvent_sideBand {row : String} {grain : Nat} {t : State} (hc : s.occ.c = 1) (hreset : s.resetGrain grain s.occ.b = some t) :
    s.resetEvent row grain = .next (t.respond 0 []) := by
  unfold State.resetEvent
  rw [if_pos hc, hreset]

variable (h : Accepts s 13) (hc : s.occ.c ≠ 1)
include h

theorem runCommand_reset {t : State} (hreset : (s.cmdIn 13).resetGrain (s.winMgmt s.occ.win).arg0.toNat (s.winMgmt s.occ.win).arg1.toNat = some t) :
    (s.cmdIn 13).runCommand s.occ.a s.occ.win (s.winVf s.occ.win) 13 (s.winMgmt s.occ.win).arg0 (s.winMgmt s.occ.win).arg1 = .done t 0 := by
  refine (h.run (by decide)).trans ?_
  rw [hreset]
  rfl

include hc

/-- A reset by command, of less than the package. -/
theorem resetEvent_next {row : String} {grain : Nat} {t : State} (harg : (s.winMgmt s.occ.win).arg0.toNat = grain) (hgrain : grain < 3)
    (hreset : (s.cmdIn 13).resetGrain grain (s.winMgmt s.occ.win).arg1.toNat = some t) :
    s.resetEvent row grain = .next (t.cmdOut s.occ.win 0 0 false) := by
  subst harg
  have h3 : (s.winMgmt s.occ.win).arg0 ≠ 3 := fun h3 => by
    rw [h3] at hgrain
    exact absurd hgrain (by decide)
  exact (if_neg hc).trans (h.next (by simp) (.inr h3) (runCommand_reset h hreset))

theorem resetPackage_next (harg : (s.winMgmt s.occ.win).arg0 = 3) : exec .resetPackage s = .next (s.cmdIn 13).resetAll := by
  have hrun := runCommand_reset (t := (s.cmdIn 13).resetAll) h (by rw [harg]; rfl)
  rw [exec_resetPackage]
  refine (if_neg hc).trans ((h.event (by simp [harg])).trans (congrArg Host.Outcome.next ?_))
  rw [State.plainCommand, command_runs (r := .done (s.cmdIn 13).resetAll 0) h.idle h.own (by rw [← State.cmdIn, winVf_cmdIn, hrun])]
  exact if_pos (by simp [harg, CmdRes.done])

end

/-! The side band's other requests (22 R430-R432; 08 R201; 09 R232). -/

theorem exec_sbResync (s : State) : exec .sbResync s = execSbResync s := rfl
theorem exec_sbTeardown (s : State) : exec .sbTeardown s = execSbTeardown s := rfl
theorem exec_fwstage (off : Nat) (bytes : List Byte) (s : State) : exec (.fwstage off bytes) s = execFwstage off bytes s := rfl
theorem exec_fwact (s : State) : exec .fwact s = execFwact s := rfl
theorem exec_schedulerHandoff (s : State) : exec .schedulerHandoff s = execSchedulerHandoff s := rfl
theorem exec_sensclr (s : State) : exec .sensclr s = execSensclr s := rfl

section
variable {s : State}

/-- Segment 0 takes a new record, and answers with its first bytes. -/
theorem sbResync_first (ha : s.occ.a = 0) : exec .sbResync s = .next (((s.resyncRecord none).2.setPkg {
    (s.resyncRecord none).2.pkg with sideBand := (s.resyncRecord none).1 }).respond 0 ((s.resyncRecord none).1.take 64)) := by
  rw [exec_sbResync]
  unfold execSbResync
  simp only [ha]
  rfl

theorem sbResync_later (hlo : 0 < s.occ.a) (hhi : s.occ.a < 64) :
    exec .sbResync s = .next (s.respond 0 ((s.pkg.sideBand.drop (64 * s.occ.a)).take 64)) := by
  rw [exec_sbResync]
  unfold execSbResync
  simp only [Nat.not_le.mpr hhi, Nat.pos_iff_ne_zero.mp hlo, if_false]

/-- The record: 4096 bytes, which begin with the version, the package, SEQ and the time. -/
theorem resyncRecord_fields (s : State) (view : Option Nat) : (s.resyncRecord view).1.length = 4096 ∧
    fieldAt (s.resyncRecord view).1 0 2 = 1 ∧ fieldAt (s.resyncRecord view).1 2 2 = Config.packageNumber % 65536 ∧
    fieldAt (s.resyncRecord view).1 4 4 = (s.pkg.resyncSeq + 1).toNat ∧ fieldAt (s.resyncRecord view).1 8 8 = 10 * s.pkg.ticks % 2 ^ 64 := by
  obtain ⟨⟨bs, hrec, hlen⟩, -⟩ := resyncRecord_spec s view
  rw [hrec]
  refine ⟨?_, fieldAt_leBytes_append 2 1 _, ?_, ?_, ?_⟩
  · simp only [List.length_append, length_leBytes, hlen]
  · exact (fieldAt_append_right (length_leBytes 2 _) 0 2).trans (fieldAt_leBytes_append 2 _ _)
  · refine (fieldAt_append_right (length_leBytes 2 _) 2 4).trans ((fieldAt_append_right (length_leBytes 2 _) 0 4).trans
      ((fieldAt_leBytes_append 4 _ _).trans (Nat.mod_eq_of_lt (BitVec.isLt _))))
  · refine (fieldAt_append_right (length_leBytes 2 _) 6 8).trans ((fieldAt_append_right (length_leBytes 2 _) 4 8).trans
      ((fieldAt_append_right (length_leBytes 4 _) 0 8).trans (fieldAt_leBytes_append 8 _ _)))

theorem sbTeardown_next (hvf : s.occ.a < 1024) (halive : (s.ctx s.occ.a).state ≠ .torn) :
    exec .sbTeardown s = .next ((s.teardown s.occ.a 1).respond 0 []) :=
  (exec_sbTeardown s).trans (if_pos (by simp [hvf, halive]))

theorem fwstage_next {off : Nat} {bytes : List Byte} (hlen : bytes.length ≤ 56) (hidle : s.pkg.handoff ≠ 2) :
    exec (.fwstage off bytes) s = .next ((s.setPkg { s.pkg with
      handoff := 1
      staged := ((List.range bytes.length).zip bytes).foldl (fun m (p : Nat × Byte) => tins m (off + p.1) p.2) s.pkg.staged }).respond 0 []) :=
  (exec_fwstage off bytes s).trans (if_neg (by simp [Nat.not_lt.mpr hlen, hidle]))

theorem fwact_next (hstaged : s.pkg.handoff = 1) (hauth : Config.authentic s.pkg.stagedImage = true) :
    exec .fwact s = .next ((s.setPkg { s.pkg with
      image := Config.imageVersion s.pkg.stagedImage, digest := Config.sha384 s.pkg.stagedImage, handoff := 2, nextHandoff := 0
      staged := [] }).respond 0 []) :=
  (exec_fwact s).trans (if_neg (by simp [hstaged, hauth]))

theorem fwact_rejects (hauth : Config.authentic s.pkg.stagedImage = false) : exec .fwact s = .next (s.respond 1 []) :=
  (exec_fwact s).trans (if_pos (by simp [hauth]))

theorem die_setPkg (s : State) (p : Package) (die : Nat) : (s.setPkg p).die die = s.die die := rfl

/-- A die's scheduler core is handed off in its turn, and is down until it beats again. -/
theorem schedulerHandoff_next (hact : s.pkg.handoff = 2) (hturn : s.occ.a = s.pkg.nextHandoff) (hdie : s.occ.a < 4) :
    ∃ t, exec .schedulerHandoff s = .next t ∧ (t.die s.occ.a).schedVer = s.pkg.image ∧ (t.die s.occ.a).schedDown = true ∧
      t.pkg.nextHandoff = s.occ.a + 1 ∧ t.pkg.handoff = (if s.occ.a = 3 then 0 else 2) := by
  refine ⟨_, (exec_schedulerHandoff s).trans (if_pos (by simp [hact, ← hturn, hdie])), ?_, ?_, rfl, rfl⟩
  · rw [die_setPkg, State.die_modDie]
  · rw [die_setPkg, State.die_modDie]

/-- A sensor that the vote counts again, with no readings of before (21 R417). -/
def Sensor.cleared (x : Sensor) : Sensor := { x with voted := false, past := [] }

/-- Of three sensors, one is cleared. -/
theorem clearSensor_eq_set {xs : List Sensor} (hlen : xs.length = 3) {i : Nat} (hi : i < 3) :
    xs.take i ++ ((xs.drop i).take 1).map Sensor.cleared ++ xs.drop (i + 1) = xs.set i (xs.getD i Sensor.init).cleared := by
  obtain ⟨a, b, c, rfl⟩ := List.length_eq_three.mp hlen
  match i, hi with
  | 0, _ => rfl
  | 1, _ => rfl
  | 2, _ => rfl

theorem sensclr_next {xs : List Sensor} (hxs : (s.cluster s.occ.a).sensors = xs) (ha : s.occ.a < 256) (hb : s.occ.b < 3) (hlen : xs.length = 3) :
    ∃ t, exec .sensclr s = .next t ∧ (t.cluster s.occ.a).sensors = xs.set s.occ.b (xs.getD s.occ.b Sensor.init).cleared := by
  refine ⟨_, (exec_sensclr s).trans (if_pos (by simp [ha, hb])), ?_⟩
  rw [← clearSensor_eq_set hlen hb, ← hxs]
  exact congrArg ClusterSt.sensors (State.cluster_modCluster s s.occ.a _)

end

/-! Links and ports (22 R421; 02 R48). -/

theorem exec_flitCrcFail (s : State) : exec .flitCrcFail s = s.replayFlit "FLIT_CRC_FAIL" := rfl
theorem exec_flitAckTimeout (s : State) : exec .flitAckTimeout s = s.replayFlit "FLIT_ACK_TIMEOUT" := rfl
theorem exec_linkDown (s : State) : exec .linkDown s = execLinkDown s := rfl
theorem exec_linkUp (s : State) : exec .linkUp s = execLinkUp s := rfl
theorem exec_mezzaninePortFail (s : State) : exec .mezzaninePortFail s = execMezzaninePortFail s := rfl
theorem exec_clauseFlagClear (s : State) : exec .clauseFlagClear s = execClauseFlagClear s := rfl

section
variable {s : State} {l : Link} (hl : tget Link.init s.pkg.links s.occ.a = l) (hport : s.occ.a < 32)
include hl hport

/-- A flit that has failed before is replayed again, 8 times at most. -/
theorem replayFlit_again {row : String} (hup : l.state = 2) (hb : s.occ.b = 1) (hfew : l.attempts < 8) :
    s.replayFlit row = .next (s.setPkg { s.pkg with
      links := tset Link.init s.pkg.links s.occ.a { l with replays := l.replays + 1, attempts := l.attempts + 1 } }) := by
  subst hl
  refine (if_pos (by simp [hport, hup, hfew])).trans (congrArg Host.Outcome.next ?_)
  unfold State.modLink
  dsimp only
  rw [if_pos hb]

theorem replayFlit_first {row : String} (hup : l.state = 2) (hb : s.occ.b ≠ 1) :
    s.replayFlit row = .next (s.setPkg { s.pkg with
      links := tset Link.init s.pkg.links s.occ.a { l with replays := l.replays + 1, attempts := 1 } }) := by
  subst hl
  refine (if_pos (by simp [hport, hup, hb])).trans (congrArg Host.Outcome.next ?_)
  unfold State.modLink
  dsimp only
  rw [if_neg hb]

theorem linkDown_next (hfailed : l.attempts = 8) :
    exec .linkDown s = .next (s.setPkg { s.pkg with links := tset Link.init s.pkg.links s.occ.a { l with state := 0, attempts := 0 } }) := by
  subst hl
  exact (exec_linkDown s).trans (if_pos (by simp [hport, hfailed]))

theorem linkUp_next (hdown : l.state ≠ 2) (hpeer : s.occ.b < 512) (hpeerPort : s.occ.c < 32) :
    exec .linkUp s = .next (s.setPkg { s.pkg with
      links := tset Link.init s.pkg.links s.occ.a { l with state := 2, peer := s.occ.b, peerPort := s.occ.c, attempts := 0 } }) := by
  subst hl
  exact (exec_linkUp s).trans (if_pos (by simp [hport, hdown, hpeer, hpeerPort]))

end

theorem mezzaninePortFail_next {s : State} (hport : s.occ.a < 8) (hmezz : s.pkg.moduleMemory = false) :
    ∃ t, exec .mezzaninePortFail s = .next t ∧ t.pkg.mezzOff.testBit s.occ.a = true ∧
      ∀ k, k ≠ s.occ.a → t.pkg.mezzOff.testBit k = s.pkg.mezzOff.testBit k := by
  refine ⟨_, (exec_mezzaninePortFail s).trans (if_pos (by simp [hport, hmezz])), ?_, fun k hk => ?_⟩
  · exact (Nat.testBit_or s.pkg.mezzOff (2 ^ s.occ.a) s.occ.a).trans (by simp [Nat.testBit_two_pow_self])
  · exact (Nat.testBit_or s.pkg.mezzOff (2 ^ s.occ.a) k).trans (by simp [Nat.testBit_two_pow_of_ne hk.symm])

/-- A clause flag clears once no lane that set it has results to write (12 R273). -/
theorem clauseFlagClear_next {s : State} {v : Wave} (hv : s.wave s.occ.a = v) (hflag : s.occ.b < 12) (hset : tget 0 v.flags s.occ.b ≠ 0)
    (hcur : s.cur = none) (hwritten : ∀ l ∈ lanesOf v.live, (v.lane l).flag = s.occ.b → (v.lane l).writing = false) :
    exec .clauseFlagClear s = .next (s.modWave s.occ.a (fun v => { v with flags := tset 0 v.flags s.occ.b 0 })) := by
  subst hv
  have hheld : (lanesOf (s.wave s.occ.a).live).any (fun l =>
      ((s.wave s.occ.a).lane l).flag = s.occ.b && ((s.wave s.occ.a).lane l).writing) = false := by
    simpa using hwritten
  refine (exec_clauseFlagClear s).trans (if_pos ?_)
  rw [hheld]
  simp [hflag, hset, hcur]

end Sys2Proof.Machine

namespace Sys2Proof
open Machine

/-- Settles O59: each reset by its grain and whoever asks for it, RESYNC by the record's fields, and the rest by each event's own condition. -/
theorem resetsAndSideBand : Obligations.ResetsAndSideBand := by
  unfold Obligations.ResetsAndSideBand
  refine ⟨fun s => ⟨fun h hc => ⟨fun harg ht hact => ?_, fun harg ht => ?_, fun harg ht => ?_, resetPackage_next h hc⟩,
      fun hc => ⟨fun ht hact => resetEvent_sideBand hc (resetGrain_partition ht hact), fun ht => resetEvent_sideBand hc (resetGrain_engine ht),
        fun ht => resetEvent_sideBand hc (resetGrain_link ht), resetEvent_sideBand hc rfl⟩,
      fun ha => ?_, sbResync_later, sbTeardown_next, fun off bytes => fwstage_next, fun hstaged => ⟨fwact_next hstaged, fwact_rejects⟩,
      schedulerHandoff_next, fun ha hb hlen => ?_⟩,
    fun s => ⟨fun hport => ⟨fun hup hb hfew => ⟨?_, ?_⟩, fun hup hb => ⟨?_, ?_⟩, linkDown_next rfl hport, linkUp_next rfl hport⟩,
      mezzaninePortFail_next, fun hflag hset hcur hwritten => ?_⟩⟩
  · refine (exec_resetPartition s).trans (resetEvent_next h hc (by rw [harg]; rfl) (by decide) (resetGrain_partition ht ?_))
    unfold State.part
    rw [cmdIn_die]
    exact hact
  · exact (exec_resetEngine s).trans (resetEvent_next h hc (by rw [harg]; rfl) (by decide) (resetGrain_engine ht))
  · exact (exec_resetLink s).trans (resetEvent_next h hc (by rw [harg]; rfl) (by decide) (resetGrain_link ht))
  · obtain ⟨hlen, hversion, hpackage, hseq, htime⟩ := resyncRecord_fields s none
    exact ⟨sbResync_first ha, hlen, (resyncRecord_spec s none).2, hversion, hpackage, hseq, htime⟩
  · obtain ⟨t, hexec, hsensors⟩ := sensclr_next rfl ha hb hlen
    refine ⟨t, hexec, ?_, ?_, fun j hj hne => ?_⟩
    · rw [hsensors, List.getD_eq_getElem _ _ (by rw [List.length_set, hlen]; exact hb), List.getElem_set_self]
      rfl
    · rw [hsensors, List.length_set, hlen]
    · rw [hsensors, List.getD_eq_getElem?_getD, List.getElem?_set_ne (Ne.symm hne), ← List.getD_eq_getElem?_getD]
  · exact (exec_flitCrcFail s).trans (replayFlit_again rfl hport hup hb hfew)
  · exact (exec_flitAckTimeout s).trans (replayFlit_again rfl hport hup hb hfew)
  · exact (exec_flitCrcFail s).trans (replayFlit_first rfl hport hup hb)
  · exact (exec_flitAckTimeout s).trans (replayFlit_first rfl hport hup hb)
  · refine ⟨_, clauseFlagClear_next rfl hflag hset hcur hwritten, onlyWave_modWave _ _ _, ?_⟩
    rw [State.wave_modWave]
    exact ⟨⟨fun _ _ => rfl, fun _ _ _ _ => rfl, fun _ _ => rfl, fun _ _ => rfl, fun _ _ _ => rfl, fun _ _ => rfl⟩,
      tget_tset_same 0 (s.wave s.occ.a).flags s.occ.b 0, fun k hk => tget_tset_ne 0 (s.wave s.occ.a).flags s.occ.b k 0 hk⟩

end Sys2Proof
end

section
/-! PROOFS. What a package reset leaves (O1, O2). -/
namespace Sys2Proof.Machine

/-- Every register of a management window reads 0 after a reset (22 R423). -/
theorem Mgmt.init_get {off : Nat} {v : DWord} (h : Mgmt.init.get off = some v) : v = 0 := by
  unfold Mgmt.get at h
  split at h
  case h_20 => cases h
  all_goals exact (Option.some.inj h).symm

/-- Nothing is recorded of any location after a reset: it stands at position #0 (03 R77). -/
theorem reset_versions (a : Nat) :
    (State.reset.mem.lastOf a).1 = 0 ∧ State.reset.mem.versions a = [{ stamp := 0, val := State.reset.mem.byte a, ext := 0, key := some 0 }] := by
  refine ⟨rfl, ?_⟩
  have hkey : State.reset.mem.keyAt a = some 0 := by
    unfold Mem.keyAt
    simp [State.reset, Mem.init, tget, tfind?, SectorKey.none]
  have hnewest : State.reset.mem.newest a = { stamp := 0, val := State.reset.mem.byte a, ext := 0, key := State.reset.mem.keyAt a } := rfl
  have hpast : tget [] State.reset.mem.past a = [] := rfl
  rw [Mem.versions, hnewest, hkey, hpast]

theorem reset_timens (vf : Nat) : State.reset.timens vf = 0 := rfl

end Sys2Proof.Machine

namespace Sys2Proof
open Machine

/-- Settles O1: every table is empty, so that what an unlisted context, core, cluster or die holds is what a reset leaves of it. -/
theorem resetValues : Obligations.ResetValues := by
  unfold Obligations.ResetValues
  refine ⟨rfl, rfl, rfl, rfl, rfl, rfl, reset_versions, fun vf => ?_, fun off v => Mgmt.init_get, fun k => ⟨rfl, rfl, rfl, rfl, rfl⟩,
    fun k => ⟨rfl, rfl, rfl, rfl⟩, fun d e => ⟨rfl, rfl⟩, rfl⟩
  exact ⟨reset_timens vf, rfl, rfl, rfl, rfl, rfl, rfl, rfl, rfl, fun off v => Mgmt.init_get⟩

/-- Settles O2: the backing stores hold no cell after a reset, and no word executes. -/
theorem resetInvariant : Obligations.ResetInvariant := ⟨reset_mem_wf, rfl, rfl⟩

end Sys2Proof
end

section
/-! PROOFS. What drains, direct writes and atomic steps write, byte by byte (O9), and the drain of one entry (O10). -/
namespace Sys2Proof.Machine

/-! One write (03 R77, R80). -/

/-- A drained write puts its bytes in turn. -/
theorem Mem.drain_puts (m : Mem) (e : QEntry) (a : Nat) :
    (m.drain e).2.byte a = (e.bytes.foldl (fun m' p => m'.put (m.clock + 1) (extentOf e.bytes e.acc) p.1 p.2) m).byte a := rfl

theorem Mem.drain_byte_other (m : Mem) (e : QEntry) {a : Nat} (h : ∀ b, (a, b) ∉ e.bytes) : (m.drain e).2.byte a = m.byte a :=
  (m.drain_puts e a).trans (Mem.puts_byte_other _ _ _ _ _ fun p hp hpa => h p.2 (hpa ▸ hp))

theorem Mem.drain_byte_mem (m : Mem) (e : QEntry) {a : Nat} {b : Byte} (hb : (a, b) ∈ e.bytes) (hone : ∀ b', (a, b') ∈ e.bytes → b' = b) :
    (m.drain e).2.byte a = b :=
  (m.drain_puts e a).trans (Mem.puts_byte_mem _ _ _ _ _ _ hb hone)

theorem storeNow_byte_other (s : State) (bs : List (Nat × Byte)) (key : Nat) {a : Nat} (h : ∀ b, (a, b) ∉ bs) :
    (s.storeNow bs key).mem.byte a = s.mem.byte a := s.mem.drain_byte_other _ h

theorem storeNow_byte_mem (s : State) (bs : List (Nat × Byte)) (key : Nat) {a : Nat} {b : Byte} (hb : (a, b) ∈ bs)
    (hone : ∀ b', (a, b') ∈ bs → b' = b) : (s.storeNow bs key).mem.byte a = b := s.mem.drain_byte_mem _ hb hone

/-! Several writes of an agent (03 R86, R89). -/

theorem drainEntries_byte_other (es : List QEntry) (m : Mem) (v : View) {a : Nat} (h : ∀ e ∈ es, ∀ b, (a, b) ∉ e.bytes) :
    (drainEntries m v es).1.byte a = m.byte a := by
  induction es generalizing m v with
  | nil => rfl
  | cons e es ih =>
    exact (ih _ _ fun x hx => h x (List.mem_cons_of_mem _ hx)).trans (m.drain_byte_other e (h e List.mem_cons_self))

theorem drainList_byte_other (s : State) (ag : Agent) (es rest : List QEntry) {a : Nat} (h : ∀ e ∈ es, ∀ b, (a, b) ∉ e.bytes) :
    (s.drainList ag es rest).mem.byte a = s.mem.byte a := by
  rw [drainList_mem]
  exact drainEntries_byte_other _ _ _ fun e he => h e (List.mem_of_mem_filter he)

/-- An agent without queued writes drains nothing. -/
theorem drainAll_mem_of_empty {s : State} {ag : Agent} (h : (s.agent ag).queue = []) : (s.drainAll ag).mem = s.mem := by
  unfold State.drainAll
  rw [drainList_mem, h]
  rfl

theorem drainAll_byte_other (s : State) (ag : Agent) {a : Nat} (h : ∀ e ∈ (s.agent ag).queue, ∀ b, (a, b) ∉ e.bytes) :
    (s.drainAll ag).mem.byte a = s.mem.byte a := drainList_byte_other s ag _ _ h

theorem drainWhere_byte_other (s : State) (ag : Agent) (p : Nat → Bool) {a : Nat}
    (h : ∀ e, (e, true) ∈ markNeeded p (s.agent ag).queue → ∀ b, (a, b) ∉ e.bytes) : (s.drainWhere ag p).mem.byte a = s.mem.byte a := by
  refine drainList_byte_other s ag _ _ fun e he => h e ?_
  obtain ⟨⟨e, mark⟩, hmem, rfl⟩ := List.mem_map.mp he
  obtain ⟨hin, hmark⟩ := List.mem_filter.mp hmem
  obtain rfl : mark = true := hmark
  exact hin

/-! An atomic step (03 R92). -/

/-- A number written whole leaves each of its bytes below the capability tags (00 R9). -/
theorem storeNow_plain_byte (s : State) (loc n x key : Nat) (hloc : loc + n ≤ 2 ^ 96) {i : Nat} (hi : i < n) :
    (s.storeNow (plainWrite loc n x) key).mem.byte (loc + i) = BitVec.ofNat 8 (x / 256 ^ i) := by
  refine storeNow_byte_mem _ _ _ (List.mem_append_left _ (List.mem_map.mpr ⟨i, List.mem_range.mpr hi, rfl⟩)) fun b h => ?_
  rcases List.mem_append.mp h with h | h
  · obtain ⟨j, -, hj⟩ := List.mem_map.mp h
    obtain ⟨hij, hb⟩ := Prod.mk.inj hj
    obtain rfl : j = i := by omega
    exact hb.symm
  · have := (mem_tagClears h).1
    dsimp only at this
    omega

section
variable (s : State) (ag : Agent) (loc n : Nat) (f : Nat → Option Nat)

/-- The state in which an atomic step has drained the agent's entries at its location. -/
def State.atomicDrained : State := s.drainWhere ag (fun x => loc ≤ x && x < loc + n)

theorem atomicStep_mem_none (h : f (s.atomicStep ag loc n f).1 = none) :
    (s.atomicStep ag loc n f).2.mem = (s.atomicDrained ag loc n).mem := by
  have hold : f (((s.atomicDrained ag loc n).memFor ag).nat loc n) = none := h
  unfold State.atomicStep
  dsimp only
  rw [viewLatest_mem, ← State.atomicDrained, hold]

theorem atomicStep_mem_some {y : Nat} (h : f (s.atomicStep ag loc n f).1 = some y) : (s.atomicStep ag loc n f).2.mem =
    ((s.atomicDrained ag loc n).storeNow (plainWrite loc n y) ((s.atomicDrained ag loc n).agentKey ag)).mem := by
  have hold : f (((s.atomicDrained ag loc n).memFor ag).nat loc n) = some y := h
  unfold State.atomicStep
  dsimp only
  rw [viewLatest_mem, ← State.atomicDrained, hold]

/-- A byte that no entry drained for it names, and that its new value, if any, does not name, stands. -/
theorem atomicStep_byte_other {a : Nat}
    (hdrained : ∀ e, (e, true) ∈ markNeeded (fun x => decide (loc ≤ x) && decide (x < loc + n)) (s.agent ag).queue → ∀ b, (a, b) ∉ e.bytes)
    (hnew : f (s.atomicStep ag loc n f).1 = none ∨ ∀ y b, (a, b) ∉ plainWrite loc n y) :
    (s.atomicStep ag loc n f).2.mem.byte a = s.mem.byte a := by
  have hd : (s.atomicDrained ag loc n).mem.byte a = s.mem.byte a := drainWhere_byte_other s ag _ hdrained
  cases hf : f (s.atomicStep ag loc n f).1 with
  | none => rw [atomicStep_mem_none s ag loc n f hf, hd]
  | some y =>
    have hout : ∀ b, (a, b) ∉ plainWrite loc n y := (hnew.resolve_left (by rw [hf]; exact Option.some_ne_none y)) y
    rw [atomicStep_mem_some s ag loc n f hf, storeNow_byte_other _ _ _ hout, hd]

theorem atomicStep_byte_new {y : Nat} (hf : f (s.atomicStep ag loc n f).1 = some y) (hloc : loc + n ≤ 2 ^ 96) {i : Nat} (hi : i < n) :
    (s.atomicStep ag loc n f).2.mem.byte (loc + i) = BitVec.ofNat 8 (y / 256 ^ i) := by
  rw [atomicStep_mem_some s ag loc n f hf]
  exact storeNow_plain_byte _ _ _ _ _ hloc hi

end

/-! An agent that exists is kept as it is written, and the drain of one of its entries (03 R80). -/

/-- What an agent that exists is set to is what is then kept of it. -/
theorem agent_setAgent {s : State} {ag : Agent} (x : AgentSt) (h : s.hasAgent ag = true) : (s.setAgent ag x).agent ag = x := by
  cases ag with
  | lane w l => exact agent_setAgent_lane s w l x
  | op u e n => exact agent_setAgent_op x (Option.isSome_iff_ne_none.mp h)
  | fabric p => exact tget_tset_same _ _ _ _

theorem setAgent_failed (s : State) (ag : Agent) (x : AgentSt) : (s.setAgent ag x).failed = s.failed := by
  cases ag <;> rfl

theorem hasAgent_congr {s t : State} (hw : t.waves = s.waves) (hu : t.units = s.units) (ag : Agent) : t.hasAgent ag = s.hasAgent ag := by
  cases ag <;> simp only [State.hasAgent, State.unit, hw, hu]

section
variable {s : State} {ag : Agent} {es rest : List QEntry}

theorem drainList_failed : (s.drainList ag es rest).failed = s.failed ++ (es.filter s.entryFails).flatMap (s.failRec ag) := setAgent_failed _ _ _

theorem drainList_agent (h : s.hasAgent ag = true) : (s.drainList ag es rest).agent ag =
    { s.agent ag with view := (drainEntries s.mem (s.agent ag).view (es.filter (fun e => !s.entryFails e))).2, queue := rest } :=
  agent_setAgent _ ((hasAgent_congr rfl rfl ag).trans h)

end

theorem exec_drain {s : State} {ag : Agent} {i : Nat} {e : QEntry} (hag : s.hasAgent ag = true) (he : (s.agent ag).queue[i]? = some e)
    (hd : drainable (s.agent ag).queue i = true) : exec (.drain ag i) s = .next (s.drainList ag [e] ((s.agent ag).queue.eraseIdx i)) := by
  have hone : s.drainOne ag i = s.drainList ag [e] ((s.agent ag).queue.eraseIdx i) := by
    unfold State.drainOne
    simp only [he]
  change execDrain ag i s = _
  unfold execDrain
  rw [hag, hd, hone]
  rfl

section
variable {s : State} {ag : Agent} {e : QEntry} {rest : List QEntry}

/-- A write that no port takes leaves memory as it was, with its record. -/
theorem drainList_one_fails (h : s.entryFails e = true) :
    (s.drainList ag [e] rest).mem = s.mem ∧ (s.drainList ag [e] rest).failed = s.failed ++ s.failRec ag e := by
  rw [drainList_mem, drainList_failed]
  simp [h, drainEntries]

/-- A write that reaches memory is drained whole, and no record is made. -/
theorem drainList_one_reaches (h : s.entryFails e = false) :
    (s.drainList ag [e] rest).mem = (s.mem.drain e).2 ∧ (s.drainList ag [e] rest).failed = s.failed := by
  rw [drainList_mem, drainList_failed]
  simp [h, drainEntries]

end

end Sys2Proof.Machine

namespace Sys2Proof
open Machine

/-- Settles O9: each operation is a drain of entries, or a write made directly, and both put their bytes in turn. -/
theorem memoryStaysCanonical : Obligations.MemoryStaysCanonical := by
  unfold Obligations.MemoryStaysCanonical
  refine ⟨fun m e h => ⟨m.drain_wf e h, fun a => m.drain_byte_other e, fun a b => m.drain_byte_mem e⟩,
    fun s bs key h => ⟨storeNow_wf s bs key h, fun a => storeNow_byte_other s bs key, fun a b => storeNow_byte_mem s bs key⟩,
    fun s ag h => ⟨drainAll_wf s ag h, drainAll_mem_of_empty, fun a => drainAll_byte_other s ag⟩,
    fun s ag p h => ⟨drainWhere_wf s ag p h, fun a => drainWhere_byte_other s ag p⟩,
    fun s ag loc n f h => ⟨atomicStep_wf s ag loc n f h, fun a => atomicStep_byte_other s ag loc n f, fun y hf hloc i => ?_⟩⟩
  exact atomicStep_byte_new s ag loc n f hf hloc

/-- Settles O10: the entry leaves its queue, and goes to memory whole unless it fails on its way. -/
theorem drainMovesOneWrite : Obligations.DrainMovesOneWrite := by
  unfold Obligations.DrainMovesOneWrite
  intro s ag i e hag he hd
  refine ⟨_, exec_drain hag he hd, fun hok => ?_, fun hfails => ?_, congrArg AgentSt.queue (drainList_agent hag)⟩
  · obtain ⟨hmem, hfailed⟩ := drainList_one_reaches (rest := (s.agent ag).queue.eraseIdx i) hok
    refine ⟨hfailed, fun a b hb hone => ?_, fun a ha => ?_⟩
    · rw [hmem, Mem.drain_byte_mem _ _ hb hone]
    · rw [hmem, Mem.drain_byte_other _ _ ha]
  · obtain ⟨hmem, hfailed⟩ := drainList_one_fails (rest := (s.agent ag).queue.eraseIdx i) hfails
    exact ⟨fun a => by rw [hmem], hfailed⟩

end Sys2Proof
end

section
/-! PROOFS. Full releases and acquires (O11), and fences (O12). -/
namespace Sys2Proof.Machine

/-! Views that only rise (03 R77). -/

theorem tget_le_viewTop (v : View) (loc : Nat) : tget 0 v loc ≤ viewTop v loc := by
  induction v with
  | nil => exact Nat.le_refl 0
  | cons p v ih =>
    rw [viewTop_cons]
    by_cases h : p.1 = loc
    · simp [tget, tfind?, h]
    · simpa [tget, tfind?, h] using ih

theorem tget_le_vmerge (v w : View) (loc : Nat) : tget 0 v loc ≤ tget 0 (vmerge v w) loc := by
  rw [tget_vmerge]
  exact Nat.le_max_left _ _

/-- Merging several views in turn loses nothing of the first. -/
theorem tget_le_foldl_vmerge {α : Type} (g : α → View) (ks : List α) (v : View) (loc : Nat) :
    tget 0 v loc ≤ tget 0 (ks.foldl (fun v k => vmerge v (g k)) v) loc := by
  induction ks generalizing v with
  | nil => exact Nat.le_refl _
  | cons k ks ih => exact Nat.le_trans (tget_le_vmerge v (g k) loc) (ih _)

/-! The agent of a drain, a release and an acquire (03 R89, R94). -/

theorem agent_congr {s t : State} (hw : t.waves = s.waves) (hu : t.units = s.units) (hp : t.pkg = s.pkg) (ag : Agent) :
    t.agent ag = s.agent ag := by
  cases ag <;> simp only [State.agent, State.wave, State.unit, hw, hu, hp]

theorem relMerge_agent (s : State) (k : RKey) (v : View) (ag : Agent) : (s.relMerge k v).agent ag = s.agent ag := agent_congr rfl rfl rfl ag

section
variable {s : State} {ag : Agent} (h : s.hasAgent ag = true)
include h

theorem drainAll_queue : ((s.drainAll ag).agent ag).queue = [] := congrArg AgentSt.queue (drainList_agent h)

theorem drainAll_view1 : ((s.drainAll ag).agent ag).view1 = (s.agent ag).view1 := by
  rw [State.drainAll, drainList_agent h]

theorem acquireView_agent (v : View) : (s.acquireView ag v).agent ag =
    { s.agent ag with view := vmerge (s.agent ag).view v, view1 := vmerge (s.agent ag).view1 v } := agent_setAgent _ h

end

theorem fullRelease_rel_same (s : State) (ag : Agent) (k : RKey) (loc : Nat) :
    tget 0 ((s.fullRelease ag k).rel k) loc = max (tget 0 (s.rel k) loc) (viewTop ((s.drainAll ag).agent ag).view loc) := by
  unfold State.fullRelease
  dsimp only
  rw [rel_relMerge_same, tget_vmerge, rel_congr (drainAll_rels s ag)]

theorem fullRelease_rel_ne (s : State) (ag : Agent) {k j : RKey} (h : j ≠ k) : (s.fullRelease ag k).rel j = s.rel j :=
  (rel_relMerge_ne _ _ h).trans (rel_congr (drainAll_rels s ag) j)

/-! A fence by a lane (03 R89, R90). -/

/-- A lane's write of its own state is what it is then kept as. -/
theorem fencePathStep_agent (s : State) (w l : Nat) : ((s.fencePathStep (.lane w l)).agent (.lane w l)) =
    { (s.drainAll (.lane w l)).agent (.lane w l) with
      view1 := vmerge ((s.drainAll (.lane w l)).agent (.lane w l)).view1 ((s.drainAll (.lane w l)).agent (.lane w l)).view } :=
  agent_setAgent_lane _ _ _ _

/-- Merging one view into several sets leaves memory and every agent. -/
theorem foldl_relMerge_frame (ks : List RKey) (v : View) (s : State) (ag : Agent) :
    (ks.foldl (fun s k => s.relMerge k v) s).mem = s.mem ∧ (ks.foldl (fun s k => s.relMerge k v) s).agent ag = s.agent ag := by
  induction ks generalizing s with
  | nil => exact ⟨rfl, rfl⟩
  | cons k ks ih =>
    obtain ⟨hmem, hag⟩ := ih (s.relMerge k v)
    exact ⟨hmem, hag.trans (relMerge_agent s k v ag)⟩

/-- A fence leaves V1 what it was, merged with a view that is at least V. -/
theorem fenceStep_spec (s : State) (w l scope : Nat) : (s.fenceStep w l scope).mem = (s.drainAll (.lane w l)).mem ∧
    ((s.fenceStep w l scope).agent (.lane w l)).queue = ((s.drainAll (.lane w l)).agent (.lane w l)).queue ∧
    ∃ v, (∀ loc, tget 0 ((s.drainAll (.lane w l)).agent (.lane w l)).view loc ≤ tget 0 v loc) ∧
      ((s.fenceStep w l scope).agent (.lane w l)).view1 = vmerge ((s.drainAll (.lane w l)).agent (.lane w l)).view1 v := by
  unfold State.fenceStep
  dsimp only
  generalize s.drainAll (.lane w l) = d
  obtain ⟨hmem, hag⟩ := foldl_relMerge_frame (d.scopeKeys w scope) (d.agent (.lane w l)).view d (.lane w l)
  rw [setAgent_mem, agent_setAgent_lane, hag]
  exact ⟨hmem, rfl, _, fun loc => tget_le_foldl_vmerge _ _ _ loc, rfl⟩

end Sys2Proof.Machine

namespace Sys2Proof
open Machine

/-- Settles O11: a release drains and merges into its set alone, and an acquire writes its agent alone. -/
theorem fullReleaseAndAcquire : Obligations.FullReleaseAndAcquire := by
  unfold Obligations.FullReleaseAndAcquire
  intro s ag k hag
  have hacq : (s.fullAcquire ag k).agent ag = _ := acquireView_agent hag (s.rel k)
  refine ⟨?_, rfl, fullRelease_rel_same s ag k, fun j => fullRelease_rel_ne s ag, fun loc => ?_, setAgent_rels _ _ _, setAgent_mem _ _ _, ?_⟩
  · exact (congrArg AgentSt.queue (relMerge_agent _ _ _ ag)).trans (drainAll_queue hag)
  · rw [hacq]
    exact ⟨tget_vmerge _ _ loc, tget_vmerge _ _ loc⟩
  · rw [hacq]

/-- Settles O12: the lane drains, and its V1 is merged with V, or by a fence with a view that V is a part of. -/
theorem fencePathRule : Obligations.FencePathRule := by
  unfold Obligations.FencePathRule
  intro s w l hw hl ag t d
  have hag : s.hasAgent ag = true := by simp [ag, State.hasAgent, hw, hl]
  have hpath : t.agent ag = _ := fencePathStep_agent s w l
  have hview1 : (d.agent ag).view1 = (s.agent ag).view1 := drainAll_view1 hag
  refine ⟨?_, setAgent_mem _ _ _, ?_, ?_, fun loc => ?_, fun scope loc => ?_⟩
  · rw [hpath]
    exact drainAll_queue hag
  · rw [hpath]
  · exact (setAgent_rels _ _ _).trans (drainAll_rels s ag)
  · rw [hpath, tget_vmerge, hview1]
  · obtain ⟨hmem, hqueue, v, hv, hfence⟩ := fenceStep_spec s w l scope
    refine ⟨hqueue.trans (drainAll_queue hag), hmem, ?_⟩
    have htop := Nat.le_trans (hv loc) (tget_le_viewTop v loc)
    rw [hfence, tget_vmerge, hview1]
    exact Nat.max_le.mpr ⟨Nat.le_max_left _ _, Nat.le_trans htop (Nat.le_max_right _ _)⟩

end Sys2Proof
end

section
/-! PROOFS. Phases, launch completion, node batches and waiting fault records (O56). -/
namespace Sys2Proof.Machine

theorem exec_phaseStart (s : State) : exec .phaseStart s = execPhaseStart s := rfl
theorem exec_launchComplete (s : State) : exec .launchComplete s = execLaunchComplete s := rfl
theorem exec_xlateRecordPost (s : State) : exec .xlateRecordPost s = execXlateRecordPost s := rfl
theorem exec_nodeTimeoutExpiry (s : State) : exec .nodeTimeoutExpiry s = execNodeTimeoutExpiry s := rfl
theorem exec_nodeLaunchStart (s : State) : exec .nodeLaunchStart s = execNodeLaunchStart s := rfl

section
variable {s : State}

/-- A phase starts where the one before it is closed and complete and a launch is held for a later one (03 R98). -/
theorem phaseStart_next {k : Ctx} (hk : s.ctx s.occ.a = k) (hclosed : k.closed = true) (hcnt : k.phaseCnt = 0) (hheld : k.heldRecs ≠ [])
    (hphase : ∀ l ∈ k.heldRecs, l.phase ≠ k.phase) (halive : k.state ≠ .torn) : exec .phaseStart s =
      .next ((s.setCtx s.occ.a { k with phase := (k.phase + 1) % 65536, closed := false, phaseCancelled := false }).serveHeld s.occ.a) := by
  subst hk
  exact (exec_phaseStart s).trans (if_pos (by simp [hclosed, hcnt, hheld, halive]; exact hphase))

/-- A launch that has nothing left to do completes (08 R195). -/
theorem launchComplete_exists (hdone : s.launchDone s.occ.a = true) : ∃ t, exec .launchComplete s = .next t :=
  ⟨_, (exec_launchComplete s).trans (if_neg (by simp [hdone]))⟩

/-- The state in which a launch has published its writes and counts as complete (08 R196). -/
def State.completed (s : State) (n : Nat) : State := (s.publishLaunch n).modLaunch n (fun l => { l with complete := true })

/-- The state in which a complete launch's record is written (08 R195, R196). -/
def State.recorded (s : State) (n : Nat) (l : Launch) : State :=
  (s.completed n).writeCompletion l.vf l.completion (completionWord true (l.faultCnt != 0) l.cancelled false ((l.firstFault.map (·.1)).getD 0) 0)
    (completionBytes l.faultCnt l.firstFault l.lid ((s.completed n).timens l.vf))

/-- The state in which its phase counts a complete launch no more (08 R194). -/
def State.uncounted (s : State) (n : Nat) (l : Launch) : State :=
  ((s.recorded n l).modCtx l.vf (fun c => { c with phaseCnt := c.phaseCnt - 1 })).graphJudge l.vf

/-- A launch of no graph node's batch writes its record, and its phase counts it no more. -/
theorem launchComplete_next {l : Launch} (hl : s.launch s.occ.a = l) (hdone : s.launchDone s.occ.a = true) (hnode : l.graphNode = none)
    (hbatch : l.batch = none) : exec .launchComplete s =
      .next (((s.uncounted s.occ.a l).serveHeld l.vf).serveRung l.vf ((s.uncounted s.occ.a l).ctx l.vf).rung.length) := by
  subst hl
  refine (exec_launchComplete s).trans ((if_neg (by simp [hdone])).trans ?_)
  simp only [hnode, hbatch]
  rfl

/-- A fault record that waits is posted once its queue has room (09 R226). -/
theorem xlateRecordPost_next {r : FRec} {rest : List FRec} (hwait : (s.ctx s.occ.a).fwaiting = r :: rest)
    (hsize : (s.ctx s.occ.a).mgmt.fqsize ≠ 0) (hroom : (s.ctx s.occ.a).queueFull = false) : exec .xlateRecordPost s =
      .next ((s.setCtx s.occ.a { s.ctx s.occ.a with fwaiting := rest }).appendFault s.occ.a r) := by
  rw [exec_xlateRecordPost]
  unfold execXlateRecordPost
  simp only [hwait]
  exact if_pos (by simpa [hroom] using hsize)

/-- A node's timeout expires once its oldest record has been ready for it (08 R207). -/
theorem nodeTimeoutExpiry_next {g : Graph} (hg : (s.ctx s.occ.a).graph = some g) (htimeout : s.nodeField s.occ.a s.occ.b 0x16 2 ≠ 0)
    (hready : s.nodeField s.occ.a s.occ.b 0x20 4 ≠ s.nodeField s.occ.a s.occ.b 0x28 4) (hnot : tget false g.expired s.occ.b = false)
    (hsince : tget 0 g.readySince (recordKey s.occ.b (s.nodeField s.occ.a s.occ.b 0x28 4)) + 100 * s.nodeField s.occ.a s.occ.b 0x16 2 ≤ s.pkg.ticks) :
    exec .nodeTimeoutExpiry s = .next ((s.devUse s.occ.a (s.nodeAddr s.occ.a s.occ.b) 64).modGraph s.occ.a
      (fun g => { g with expired := tset false g.expired s.occ.b true })) := by
  rw [exec_nodeTimeoutExpiry]
  unfold execNodeTimeoutExpiry
  simp only [hg]
  exact if_pos (by simp [htimeout, hready, hnot, hsince])

end

end Sys2Proof.Machine

namespace Sys2Proof
open Machine

/-- Settles O56: each event by the condition of its row. -/
theorem launchLife : Obligations.LaunchLife := by
  unfold Obligations.LaunchLife
  intro s
  refine ⟨phaseStart_next rfl, fun hdone => ⟨launchComplete_exists hdone, launchComplete_next rfl hdone⟩,
    fun r rest => xlateRecordPost_next, fun g hg => nodeTimeoutExpiry_next hg, ?_⟩
  intro vf n g hg taken ready co cap live k bs hactive hrun hnode hlive hready hdue hroom t
  have hgraph : (s.ctx s.occ.a).graph = some g := hg
  rw [exec_nodeLaunchStart]
  unfold execNodeLaunchStart
  simp only [hgraph]
  refine if_pos ?_
  simp only [Bool.and_eq_true, Bool.or_eq_true, decide_eq_true_eq, Bool.not_eq_true', bne_iff_ne]
  exact ⟨⟨⟨⟨⟨⟨hactive, hrun⟩, hnode⟩, hlive⟩, hready⟩, hdue⟩, hroom⟩

end Sys2Proof
end

section
/-! PROOFS. Accesses from outside, remote completions and storage errors (O54). -/
namespace Sys2Proof.Machine

theorem exec_hostRead (s : State) : exec .hostRead s = execHostRead s := rfl
theorem exec_hostWrite (ep pa : Nat) (bytes : List Byte) (s : State) : exec (.hostWrite ep pa bytes) s = execHostWrite ep pa bytes s := rfl
theorem exec_fabricAccess (pkg pa : Nat) (acc : FabricOp) (s : State) : exec (.fabricAccess pkg pa acc) s = execFabricAccess pkg pa acc s := rfl
theorem exec_remoteStoreFail (ag : Agent) (i : Nat) (s : State) : exec (.remoteStoreFail ag i) s = execRemoteStoreFail ag i s := rfl
theorem exec_remoteLoadComplete (s : State) : exec .remoteLoadComplete s = execRemoteLoadComplete s := rfl
theorem exec_memberResidentWake (s : State) : exec .memberResidentWake s = execMemberResidentWake s := rfl
theorem exec_storageError (u buf off : Nat) (c : Bool) (s : State) : exec (.storageError u buf off c) s = execStorageError u buf off c s := rfl
theorem exec_storageTrap (s : State) : exec .storageTrap s = execStorageTrap s := rfl

/-! The registers of a window by their offsets and sizes (22 R423). -/

/-- No two registers of a window share a byte: a byte of one is found in no other. -/
theorem mgmtOffsets_find {off i : Nat} (hoff : off ∈ mgmtOffsets) (hi : i < mgmtSize off) :
    mgmtOffsets.find? (fun r => r ≤ off + i && off + i < r + mgmtSize r) = some off := by
  have hall : ∀ off ∈ mgmtOffsets, ∀ i < mgmtSize off, mgmtOffsets.find? (fun r => r ≤ off + i && off + i < r + mgmtSize r) = some off := by
    decide
  exact hall off hoff i hi

/-- The bytes of one whole register meet that register alone. -/
theorem mgmtOffsets_filter {off : Nat} (hoff : off ∈ mgmtOffsets) :
    mgmtOffsets.filter (fun r => r < off + mgmtSize off && off < r + mgmtSize r) = [off] := by
  have hall : ∀ off ∈ mgmtOffsets, mgmtOffsets.filter (fun r => r < off + mgmtSize off && off < r + mgmtSize r) = [off] := by decide
  exact hall off hoff

theorem mgmtSize_pos (off : Nat) : 0 < mgmtSize off ∧ mgmtSize off ≤ 8 := by
  unfold mgmtSize
  split <;> decide

/-- The bytes of a number, counted from the least significant (00 R9). -/
theorem leBytes_eq_map (n x : Nat) : leBytes n x = (List.range n).map (fun i => BitVec.ofNat 8 (x / 256 ^ i)) := by
  induction n generalizing x with
  | zero => rfl
  | succ n ih =>
    rw [leBytes, ih, List.range_succ_eq_map, List.map_cons, List.map_map]
    refine congrArg₂ List.cons (by simp) (List.map_congr_left fun i _ => ?_)
    simp [Nat.div_div_eq_div_mul, Nat.pow_succ']

section
variable {s : State} {win : Win} {off : Nat} (hoff : off ∈ mgmtOffsets)
include hoff

/-- A read of one whole register gives its bytes. -/
theorem mgmtRead_register {v : DWord} (hv : (if 0x80 ≤ off then s.winMgmt win else (s.ctx (s.winVf win)).mgmt).get off = some v) :
    s.mgmtRead win off (mgmtSize off) = leBytes (mgmtSize off) v.toNat := by
  rw [leBytes_eq_map]
  refine List.map_congr_left fun i hi => ?_
  simp only [mgmtOffsets_find hoff (List.mem_range.mp hi), Option.map_some, Option.getD_some, hv, Nat.add_sub_cancel_left]

/-- A write of one whole register writes it. -/
theorem mgmtBytes_register {ep : Nat} {bs : List Byte} (hcmd : off ≠ 0x80) (hlen : bs.length = mgmtSize off) :
    s.mgmtBytes ep win off bs = s.mgmtWrite ep win off (BitVec.ofNat 64 (leNat bs)) := by
  have hbytes : ∀ old : List Byte, (List.range (mgmtSize off)).map (fun i =>
      if (decide (off ≤ off + i) && decide (off + i < off + bs.length)) = true then bs.getD (off + i - off) 0 else old.getD i 0) = bs := fun old => by
    refine List.ext_getElem (by simp [hlen]) fun i hi _ => ?_
    have hlt : i < bs.length := by simpa [hlen] using hi
    simp [hlt]
  unfold State.mgmtBytes
  simp only [hlen, mgmtOffsets_filter hoff, List.foldl_cons, List.foldl_nil, if_neg hcmd]
  rw [← hlen] at hbytes ⊢
  rw [hbytes]

end

/-! Hosts (03 R103; 22 R422). -/

section
variable {s : State}

theorem hostWrite_memory {ep pa : Nat} {bytes : List Byte} (hlo : 384 ≤ ep) (hhi : ep < 512) (hne : bytes ≠ [])
    (hpa : paSpace pa bytes.length = .memory) : exec (.hostWrite ep pa bytes) s = .next (s.hostStore pa bytes) := by
  rw [exec_hostWrite]
  unfold execHostWrite
  rw [if_neg (by simp [hne]; omega), hpa]

theorem hostWrite_register {ep pa off : Nat} {bytes : List Byte} {win : Win} (hlo : 384 ≤ ep) (hhi : ep < 512) (hoff : off ∈ mgmtOffsets)
    (hcmd : off ≠ 0x80) (hvf : s.winVf win < 1024) (hpa : paSpace pa (mgmtSize off) = .mgmtWin win off) (hlen : bytes.length = mgmtSize off) :
    exec (.hostWrite ep pa bytes) s = .next (s.mgmtWrite ep win off (BitVec.ofNat 64 (leNat bytes))) := by
  have hne : bytes ≠ [] := List.ne_nil_of_length_pos (hlen ▸ (mgmtSize_pos off).1)
  rw [exec_hostWrite]
  unfold execHostWrite
  rw [if_neg (by simp [hne]; omega), hlen, hpa]
  exact congrArg Host.Outcome.next ((if_neg (Nat.not_le.mpr hvf)).trans (mgmtBytes_register hoff hcmd hlen))

variable (hlo : 384 ≤ s.occ.a) (hhi : s.occ.a < 512)
include hlo hhi

theorem hostRead_memory (hpos : 0 < s.occ.c) (hmax : s.occ.c ≤ 4096) (hpa : paSpace s.occ.b s.occ.c = .memory) :
    exec .hostRead s = .next (s.deliver s.occ.a s.occ.b ((s.mem.under 0).bytes s.occ.b s.occ.c)) := by
  refine (if_neg (by simp; omega)).trans ?_
  simp only [hpa]

theorem hostRead_register {off : Nat} {win : Win} {v : DWord} (hoff : off ∈ mgmtOffsets) (hc : s.occ.c = mgmtSize off)
    (hpa : paSpace s.occ.b s.occ.c = .mgmtWin win off)
    (hv : (if 0x80 ≤ off then s.winMgmt win else (s.ctx (s.winVf win)).mgmt).get off = some v) : exec .hostRead s =
      .next (s.setPkg { s.pkg with hostReads := (s.occ.a, s.occ.b, leBytes (mgmtSize off) v.toNat) :: s.pkg.hostReads }) := by
  obtain ⟨hpos, hmax⟩ := mgmtSize_pos off
  rw [← mgmtRead_register hoff hv, ← hc]
  refine (if_neg (by simp; omega)).trans ?_
  simp only [hpa]

theorem hostRead_hole (hpos : 0 < s.occ.c) (hmax : s.occ.c ≤ 4096) (hpa : paSpace s.occ.b s.occ.c = .hole) :
    exec .hostRead s = .fault (.physicalHole s.occ.b) := by
  refine (if_neg (by simp; omega)).trans ?_
  simp only [hpa]

end

/-! Other packages (03 R103; 22 R422; 02 R71; 09 R233). -/

/-- What n bytes of memory are to an access under an assigned key, where no context torn down has left them. -/
structure FabricHere (s : State) (pa n : Nat) : Prop where
  space : paSpace pa n = .memory
  key : s.keyAssigned s.occ.a = true
  bytes : s.tornAt pa n = false
  page : s.tornPage pa n = false

section
variable {s : State} {pkg pa : Nat} (hag : s.hasAgent (.fabric pkg) = true) (hlo : 1 ≤ s.occ.a) (hhi : s.occ.a < 4096)
include hag hlo hhi

/-- An access of an agent that exists, under a key index in range, is not turned away. -/
theorem fabric_accepted : ¬ (!s.hasAgent (.fabric pkg) || decide (s.occ.a = 0) || decide (4096 ≤ s.occ.a)) = true := by
  simp [hag]
  omega

theorem fabricAccess_read {n : Nat} (h : FabricHere s pa n) : exec (.fabricAccess pkg pa (.read n)) s =
    .next ((s.readStep (.fabric pkg) ((List.range n).map (pa + ·))).2.deliver pkg pa (s.readStep (.fabric pkg) ((List.range n).map (pa + ·))).1) := by
  refine (if_neg (fabric_accepted hag hlo hhi)).trans ?_
  simp only [h.space]
  exact if_neg (by simp [h.key, h.bytes, h.page])

theorem fabricAccess_write {bytes : List Byte} (h : FabricHere s pa bytes.length) : exec (.fabricAccess pkg pa (.write bytes)) s =
    .next ({ s with nextId := s.nextId + 1 }.queueWrite (.fabric pkg) (plainBytes pa bytes) s.nextId) := by
  refine (if_neg (fabric_accepted hag hlo hhi)).trans ?_
  simp only [h.space]
  exact if_neg (by simp [h.key, h.bytes, h.page])

theorem fabricAccess_atom {sub ty v : Nat} (hsub : sub ≤ 11) (hty : atomTypeOk sub ty = true) (h : FabricHere s pa (if wide ty then 8 else 4)) :
    let r := s.atomicStep (.fabric pkg) pa (if wide ty then 8 else 4) (fun o => some (atomNew sub ty o v))
    exec (.fabricAccess pkg pa (.atom sub ty v)) s = .next (r.2.deliver pkg pa (leBytes (if wide ty then 8 else 4) r.1)) := by
  refine (if_neg (fabric_accepted hag hlo hhi)).trans ((if_neg (by simp [hty]; omega)).trans ?_)
  simp only [h.space]
  exact if_neg (by simp [h.key, h.bytes, h.page])

theorem fabricAccess_cas {n old new : Nat} (hn : n = 4 ∨ n = 8) (h : FabricHere s pa n) :
    let r := s.atomicStep (.fabric pkg) pa n (fun o => if o = old % 2 ^ (8 * n) then some new else none)
    exec (.fabricAccess pkg pa (.cas n old new)) s = .next (r.2.deliver pkg pa (leBytes n r.1)) := by
  refine (if_neg (fabric_accepted hag hlo hhi)).trans ((if_neg (by simp; omega)).trans ?_)
  simp only [h.space]
  exact if_neg (by simp [h.key, h.bytes, h.page])

theorem fabricAccess_rel {v : Nat} {runs : List (Nat × Nat)} (h : FabricHere s pa 8) :
    exec (.fabricAccess pkg pa (.rel v runs)) s = .next (s.fabricRel (.fabric pkg) pa v runs) := by
  refine (if_neg (fabric_accepted hag hlo hhi)).trans ?_
  simp only [h.space]
  exact if_neg (by simp [h.key, h.bytes, h.page])

theorem fabricAccess_acq (h : FabricHere s pa 8) : exec (.fabricAccess pkg pa .acq) s =
    .next ((s.acqStep (.fabric pkg) pa).2.deliver pkg pa (leBytes 8 (s.acqStep (.fabric pkg) pa).1)) := by
  refine (if_neg (fabric_accepted hag hlo hhi)).trans ?_
  simp only [h.space]
  exact if_neg (by simp [h.key, h.bytes, h.page])

/-- A fence releases into each set of its scope, and then acquires each. -/
theorem fabricAccess_fence (system : Bool) :
    let ks := if system then [RKey.fence 5 0, .fence 6 0] else [RKey.fence 5 0]
    exec (.fabricAccess pkg pa (.fence system)) s =
      .next (ks.foldl (fun s k => s.fullAcquire (.fabric pkg) k) (ks.foldl (fun s k => s.fullRelease (.fabric pkg) k) s)) :=
  if_neg (fabric_accepted hag hlo hhi)

/-- A read of what is not there any more fails by delivering no bytes. -/
theorem fabricAccess_gone {n : Nat} (hspace : paSpace pa n = .memory)
    (hgone : s.keyAssigned s.occ.a = false ∨ s.tornAt pa n = true ∨ s.tornPage pa n = true) :
    exec (.fabricAccess pkg pa (.read n)) s = .next (s.setPkg { s.pkg with hostReads := (pkg, pa, []) :: s.pkg.hostReads }) := by
  refine (if_neg (fabric_accepted hag hlo hhi)).trans ?_
  simp only [hspace]
  exact if_pos (by simpa [or_assoc] using hgone)

end

/-! Stores that fail, and accesses that return (09 R225, R227; 22 R421; 01 R20). -/

section
variable {s : State}

theorem remoteStoreFail_queued {ag : Agent} {i : Nat} {e : QEntry} {vf core slot lane lid : Nat} (hag : s.hasAgent ag = true)
    (he : (s.agent ag).queue[i]? = some e) (hd : drainable (s.agent ag).queue i = true) (hplace : s.agentPlace ag = some (vf, core, slot, lane, lid))
    (hremote : e.bytes.any (fun b => isRemote b.1) = true) : exec (.remoteStoreFail ag i) s =
      .next ((s.setAgent ag { s.agent ag with queue := (s.agent ag).queue.eraseIdx i }).postFault vf {
        kind := 5, code := Code.remote, reason := 0, access := e.acc, core, slot, lane, lid
        addr := e.ea, pc := e.pc, subject := .none }) := by
  rw [exec_remoteStoreFail]
  cases ag with
  | fabric p => cases hplace
  | lane w l =>
    simp only [execRemoteStoreFail, he, hag, hd, hremote, State.failRec, hplace, Bool.and_self, if_true]
    rfl
  | op u k n =>
    simp only [execRemoteStoreFail, he, hag, hd, hremote, State.failRec, hplace, Bool.and_self, if_true]
    rfl

theorem remoteStoreFail_recorded {p i vf : Nat} {r : FRec} (h : s.failed[i]? = some (vf, r)) :
    exec (.remoteStoreFail (.fabric p) i) s = .next (({ s with failed := s.failed.eraseIdx i } : State).postFault vf r) := by
  simp only [exec_remoteStoreFail, execRemoteStoreFail, h]

section
variable {locs : List Nat} (hawake : s.awake s.occ.a = true) (hwait : s.waitOf s.occ.a s.occ.b = some (.hold (.remote locs)))
include hawake hwait

theorem remoteLoadComplete_up (hup : s.occ.c = 1 ∧ ∀ x ∈ locs, s.cutOff x = false) : exec .remoteLoadComplete s =
    .next ((s.modWave s.occ.a (fun v => { v with remoteOk := v.remoteOk ||| s.waiters s.occ.a s.occ.b })).endHold s.occ.a
      (s.waiters s.occ.a s.occ.b)) := by
  have hcond : (decide (s.occ.c = 1) && !locs.any s.cutOff) = true := by simpa using hup
  simp only [exec_remoteLoadComplete, execRemoteLoadComplete, hwait, hawake, hcond, if_true]

theorem remoteLoadComplete_down (hdown : ¬ (s.occ.c = 1 ∧ ∀ x ∈ locs, s.cutOff x = false)) : exec .remoteLoadComplete s =
    .next ((s.modWave s.occ.a (fun v => { v with remoteBad := v.remoteBad ||| s.waiters s.occ.a s.occ.b })).endHold s.occ.a
      (s.waiters s.occ.a s.occ.b)) := by
  have hcond : (decide (s.occ.c = 1) && !locs.any s.cutOff) = false := Bool.eq_false_iff.mpr (by simpa using hdown)
  simp only [exec_remoteLoadComplete, execRemoteLoadComplete, hwait, hawake, hcond, if_true, Bool.false_eq_true, if_false]

end

theorem memberResidentWake_next {k g j u : Nat} (hawake : s.awake s.occ.a = true)
    (hwait : s.waitOf s.occ.a s.occ.b = some (.hold (.member k))) (hgroup : (s.unit (s.wave s.occ.a).unit).group = some (g, j))
    (hu : s.memberUnit g k = some u) (hbegun : (s.unit u).begun = true) :
    exec .memberResidentWake s = .next (s.endHold s.occ.a (s.waiters s.occ.a s.occ.b)) := by
  rw [exec_memberResidentWake]
  unfold execMemberResidentWake
  simp only [hwait, hgroup]
  exact if_pos (by simp [hawake, hu, hbegun])

/-! Storage errors (02 R57, R72; 09 R227). -/

theorem storageError_corrected {u off k : Nat} (hk : s.dramSector u 4 off = some k) :
    exec (.storageError u 4 off true) s = .next (s.setPkg { s.pkg with corrected := s.pkg.corrected + 1 }) := by
  simp [exec_storageError, execStorageError, hk]

/-- An uncorrectable error of DRAM poisons its sector, and leaves every byte. -/
theorem storageError_poisons {u buf off k : Nat} (hbuf : 4 ≤ buf) (hk : s.dramSector u buf off = some k) :
    ∃ t, exec (.storageError u buf off false) s = .next t ∧ SameBytes s t ∧ t.pkg.poisonedCount = s.pkg.poisonedCount + 1 ∧
      ∀ a, a / 64 = k → poisonable a = true → t.poisoned a = true := by
  let poisoned : State := { s with mem := { s.mem with poison := tins s.mem.poison k [] } }
  refine ⟨poisoned.setPkg { s.pkg with poisonedCount := s.pkg.poisonedCount + 1 }, ?_, fun _ => rfl, rfl, fun a ha hp => ?_⟩
  · refine (exec_storageError u buf off false s).trans ((if_pos hbuf).trans ?_)
    simp only [hk]
    rfl
  · subst ha
    simp [poisoned, State.poisoned, State.setPkg, hp, tfind?_tins_same]

theorem dramSector_physical {off : Nat} (h : classFits 0 off = true ∨ classFits 2 off = true) (u : Nat) : s.dramSector u 4 off = some (off / 64) :=
  (if_pos rfl).trans (if_pos (by simpa using h))

theorem dramSector_gallery {u off : Nat} (h : off < tget 0 (s.ctx (u / 4)).galWin (u % 4)) :
    s.dramSector u 5 off = some (locGallery (u / 4) (u % 4) off / 64) := if_pos h

theorem storageError_buffer {u buf off n : Nat} (hsize : (s.unit u).bufSize? buf = some n) (hoff : off < n) (hheld : (s.unit u).released = false)
    (hsaved : (s.unit u).saved = none) : exec (.storageError u buf off false) s = .next (s.badBufWord u buf off) := by
  have hbuf : ¬ 4 ≤ buf := fun h => by
    rw [UnitSt.bufSize?, if_neg (by omega)] at hsize
    cases hsize
  refine (exec_storageError u buf off false s).trans ((if_neg hbuf).trans ?_)
  simp only [hsize]
  exact (if_neg (by simp [hheld, hsaved, hoff])).trans (if_neg Bool.false_ne_true)

/-! A wave that meets a storage error of its unit (02 R57; 09 R227). -/

theorem releasedFor_storageTrap (s : State) (w : Nat) : ((s.releasedFor w).wave w).storageTrap = (s.wave w).storageTrap := by
  have hres : ∀ t : State, ((t.dropReservation w).wave w).storageTrap = (t.wave w).storageTrap := fun t => by
    unfold State.dropReservation State.dropHeavy
    dsimp only
    split
    · rfl
    · rw [State.wave_modWave, Wave.modLanes_storageTrap]
      rfl
  have hpark : ∀ t : State, ((t.dropPark w).wave w).storageTrap = (t.wave w).storageTrap := fun t => by
    unfold State.dropPark
    rw [State.modCtx_wave, State.wave_setWave]
  rw [State.releasedFor, hpark, hres, beginChild_wave]

/-- A wave that takes a fault, and is no handler, is trapped with the fault's record; the storage error it may still have to meet stands. -/
theorem takeFault_trapped {w : Nat} (h : (s.wave w).handles = none) (t : TrapRec) : ((s.takeFault w t).wave w).trapState = .trapped ∧
    ((s.takeFault w t).wave w).trap = some t ∧ ((s.takeFault w t).wave w).storageTrap = (s.wave w).storageTrap := by
  obtain ⟨hwaves, -⟩ := stopWave_spec s w t
  rw [takeFault_of_no_handler h, hwaves, State.wave_setWave, ← releasedFor_storageTrap s w]
  simp [Wave.trappedBy]

theorem storageTrap_next {v : Wave} (hv : s.wave s.occ.a = v) (htrap : v.storageTrap = true) (hruns : v.trapState = .running)
    (hlive : v.exited = false) (hcand : v.cand = none) (hpark : v.park = none) (hsteps : v.steps = []) (hh : v.handles = none)
    (hres : (s.unit v.unit).resident = true) (hcur : s.cur = none) : ∃ t r, exec .storageTrap s = .next t ∧
      (t.wave s.occ.a).trapState = .trapped ∧ (t.wave s.occ.a).storageTrap = false ∧ (t.wave s.occ.a).trap = some r ∧
      r.code = Code.storage ∧ r.cls = 3 := by
  subst hv
  obtain ⟨r, hr, hcode, hcls⟩ : ∃ r, exec .storageTrap s =
      .next (((s.bodyPcs s.occ.a).modWave s.occ.a (fun v => { v with storageTrap := false })).takeFault s.occ.a r) ∧ r.code = Code.storage ∧ r.cls = 3 :=
    ⟨_, (exec_storageTrap s).trans (if_pos (by simp [htrap, hruns, hlive, hcand, hpark, hsteps, hres, hcur])), rfl, rfl⟩
  have hhandles : (((s.bodyPcs s.occ.a).modWave s.occ.a (fun v => { v with storageTrap := false })).wave s.occ.a).handles = none := by
    rw [State.wave_modWave, State.bodyPcs, State.wave_modWave]
    exact (Wave.modLanes_handles _ _ _).trans hh
  obtain ⟨hstate, hrec, hclear⟩ := takeFault_trapped hhandles r
  refine ⟨_, r, hr, hstate, hclear.trans ?_, hrec, hcode, hcls⟩
  rw [State.wave_modWave]

end

end Sys2Proof.Machine

namespace Sys2Proof
open Machine

/-- Settles O54: each access by the space it names, each event by its own condition. -/
theorem outsideAccesses : Obligations.OutsideAccesses := by
  unfold Obligations.OutsideAccesses
  intro s
  refine ⟨fun ep pa bytes => hostWrite_memory, hostRead_memory, ?_, ?_, ?_,
    fun ag i e vf core slot lane lid => remoteStoreFail_queued, fun p i vf r => remoteStoreFail_recorded,
    fun hawake => ⟨fun locs hwait => ⟨remoteLoadComplete_up hawake hwait, remoteLoadComplete_down hawake hwait⟩,
      fun k g j u => memberResidentWake_next hawake⟩, ?_, ?_, fun u buf off n => storageError_buffer, storageTrap_next rfl⟩
  · intro win pa off v hoff hcmd hvf hpa
    refine ⟨fun hlo hhi hb hc hv => ?_, fun ep bytes hlo hhi => hostWrite_register hlo hhi hoff hcmd hvf hpa⟩
    rw [hostRead_register hlo hhi hoff hc (by rw [hb, hc, hpa]) hv, hb]
  · intro pkg pa hag hlo hhi here gone
    have hhere : ∀ n, here n → FabricHere s pa n := fun n ⟨hspace, hkey, hbytes, hpage⟩ => ⟨hspace, hkey, hbytes, hpage⟩
    exact ⟨fun n h => fabricAccess_read hag hlo hhi (hhere n h), fun bytes h => fabricAccess_write hag hlo hhi (hhere _ h),
      fun sub ty v hsub hty h => fabricAccess_atom hag hlo hhi hsub hty (hhere _ h), fun n old new hn h => fabricAccess_cas hag hlo hhi hn (hhere n h),
      fun v runs h => fabricAccess_rel hag hlo hhi (hhere 8 h), fun h => fabricAccess_acq hag hlo hhi (hhere 8 h),
      fabricAccess_fence hag hlo hhi false, fabricAccess_fence hag hlo hhi true, fun n ⟨hspace, hgone⟩ => fabricAccess_gone hag hlo hhi hspace hgone⟩
  · intro pa n hpa hlo hhi hpos hmax hb hc
    rw [hostRead_hole hlo hhi hpos hmax (by rw [hb, hc, hpa]), hb]
  · intro u off hfits
    obtain ⟨t, hexec, hbytes, hcount, hpoison⟩ := storageError_poisons (Nat.le_refl 4) (dramSector_physical (s := s) hfits u)
    exact ⟨storageError_corrected (dramSector_physical hfits u), t, hexec, hbytes, hcount, hpoison off rfl⟩
  · exact fun u off hoff => storageError_poisons (by decide) (dramSector_gallery hoff)

end Sys2Proof
end

section
/-! PROOFS. What every step keeps: the canonical form of the backing stores, and that nothing executes between steps (O3). The predicate, on
states and on what carries a state, and how it passes through conditionals, folds and changes of other fields. -/
namespace Sys2Proof.Machine

/-- The backing stores are canonical and, where `q`, no word executes. What an instruction does is followed with `q` false, what the machine
does around it with `q` true. -/
structure State.Canon (q : Prop) (s : State) : Prop where
  mem : s.mem.wf = true
  cur : q → s.cur = none
  occ : q → s.occ = Occasion.none

/-- The state that the meaning of a native word answers. -/
inductive Res.Canon (q : Prop) : Res → Prop
  | done {s : State} (h : s.Canon q) : Res.Canon q (.done s)
  | moved {s : State} (h : s.Canon q) : Res.Canon q (.moved s)
  | midway {s : State} (h : s.Canon q) : Res.Canon q (.midway s)
  | held {x : Hold} {s : State} (h : s.Canon q) : Res.Canon q (.held x s)
  | fault {code lane acc : Nat} {ea : DWord} {s : State} (h : s.Canon q) : Res.Canon q (.fault code lane acc ea s)
  | park {lane acc reason level : Nat} {ea : DWord} {s : State} (h : s.Canon q) : Res.Canon q (.park lane acc reason level ea s)

/-- The state that the meaning of a candidate word answers, if it does. -/
inductive CRes.Canon (q : Prop) : CRes → Prop
  | val {d : Nat} {x : Word} {s : State} (h : s.Canon q) : CRes.Canon q (.val d x s)
  | go {s : State} (h : s.Canon q) : CRes.Canon q (.go s)
  | jump {target : Int} {s : State} (h : s.Canon q) : CRes.Canon q (.jump target s)
  | stop {code : Nat} : CRes.Canon q (.stop code)
  | halt : CRes.Canon q .halt

/-- The next state of an outcome, if there is one. -/
inductive NextCanon (q : Prop) : Host.Outcome State Fault Refusal → Prop
  | next {s : State} (h : s.Canon q) : NextCanon q (.next s)
  | fault {e : Fault} : NextCanon q (.fault e)
  | refused {e : Refusal} : NextCanon q (.refused e)

/-- A state that may be there. -/
inductive OptCanon (q : Prop) : Option State → Prop
  | some {s : State} (h : s.Canon q) : OptCanon q (some s)
  | none : OptCanon q none

/-- A state, or something else in its place. -/
inductive ExcCanon (q : Prop) {ε : Type} : Except ε State → Prop
  | ok {s : State} (h : s.Canon q) : ExcCanon q (.ok s)
  | error {e : ε} : ExcCanon q (.error e)

/-- The state of a pair. -/
def SndCanon (q : Prop) {α : Type} (x : α × State) : Prop := x.2.Canon q

/-- The state of a triple. -/
def Snd2Canon (q : Prop) {α β : Type} (x : α × β × State) : Prop := x.2.2.Canon q

/-- The state of a pair that begins with it. -/
def FstCanon (q : Prop) {α : Type} (x : State × α) : Prop := x.1.Canon q

/-- The state that a command leaves. -/
def CmdRes.Canon (q : Prop) (x : CmdRes) : Prop := x.s.Canon q

section
variable {q : Prop} {s t : State} {α β γ : Type}

/-- The invariant of every step is the predicate where nothing executes. -/
theorem inv_iff_canon : s.Inv ↔ s.Canon True :=
  ⟨fun h => ⟨h.mem, fun _ => h.cur, fun _ => h.occ⟩, fun h => ⟨h.mem, h.cur trivial, h.occ trivial⟩⟩

theorem canon_false_iff : s.Canon False ↔ s.mem.wf = true := ⟨fun h => h.mem, fun h => ⟨h, False.elim, False.elim⟩⟩

/-- A change of other fields. -/
theorem State.Canon.same (h : s.Canon q) (hm : t.mem.cells = s.mem.cells := by rfl) (hc : t.cur = s.cur := by rfl)
    (ho : t.occ = s.occ := by rfl) : t.Canon q :=
  ⟨(congrArg cellsWf hm).trans h.mem, fun hq => hc ▸ h.cur hq, fun hq => ho ▸ h.occ hq⟩

/-- A state written out with other fields: the form in which the unifier finds the state that it changes. -/
theorem fields_canon (h : s.Canon q) {rels waves units launches frames held ctxs pf cores clusters dies pkg agenda opp passed spilled breaks failed
    fresh nextId} : State.Canon q ⟨s.mem, rels, waves, units, launches, frames, held, ctxs, pf, cores, clusters, dies, pkg, agenda, s.occ, s.cur,
      opp, passed, spilled, breaks, failed, fresh, nextId⟩ := h.same

/-- The same where what the memory records beside the cells changes too. -/
theorem cells_canon (h : s.Canon q) {last past clock poison bad after keys rels waves units launches frames held ctxs pf cores clusters dies pkg
    agenda opp passed spilled breaks failed fresh nextId} : State.Canon q ⟨⟨s.mem.cells, last, past, clock, poison, bad, after, keys⟩, rels, waves,
      units, launches, frames, held, ctxs, pf, cores, clusters, dies, pkg, agenda, s.occ, s.cur, opp, passed, spilled, breaks, failed, fresh,
      nextId⟩ := h.same

theorem eraseKey_cells {m : Mem} {key : Nat} : (m.eraseKey key).cells = m.cells := by
  unfold Mem.eraseKey
  split <;> rfl

/-- The same where a key is erased too. -/
theorem erased_canon {key} (h : s.Canon q) {rels waves units launches frames held ctxs pf cores clusters dies pkg agenda opp passed spilled breaks
    failed fresh nextId} : State.Canon q ⟨s.mem.eraseKey key, rels, waves, units, launches, frames, held, ctxs, pf, cores, clusters, dies, pkg,
      agenda, s.occ, s.cur, opp, passed, spilled, breaks, failed, fresh, nextId⟩ := h.same eraseKey_cells

/-- A change of the backing stores that keeps their cells in canonical form. -/
theorem State.Canon.withMem (h : s.Canon q) (hm : t.mem.wf = true) (hc : t.cur = s.cur := by rfl) (ho : t.occ = s.occ := by rfl) :
    t.Canon q := ⟨hm, fun hq => hc ▸ h.cur hq, fun hq => ho ▸ h.occ hq⟩

/-! A state in a tuple. -/

theorem snd_mk {a : α} (h : s.Canon q) : SndCanon q (a, s) := h

theorem snd2_mk {a : α} {b : β} (h : s.Canon q) : Snd2Canon q (a, b, s) := h

theorem fst_mk {a : α} (h : s.Canon q) : FstCanon q (s, a) := h

theorem cmd_mk {code : Nat} {value : DWord} {busy : Bool} (h : s.Canon q) : CmdRes.Canon q ⟨s, code, value, busy⟩ := h

theorem cmd_done {code : Nat} (h : s.Canon q) : CmdRes.Canon q (.done s code) := h

/-! Conditionals. -/

section
variable {c : Prop} [Decidable c]

theorem canon_ite {a b : State} (ha : a.Canon q) (hb : b.Canon q) : (if c then a else b).Canon q := by
  split <;> assumption

theorem snd_ite {a b : α × State} (ha : SndCanon q a) (hb : SndCanon q b) : SndCanon q (if c then a else b) := by
  split <;> assumption

theorem res_ite {a b : Res} (ha : a.Canon q) (hb : b.Canon q) : (if c then a else b).Canon q := by
  split <;> assumption

theorem cres_ite {a b : CRes} (ha : a.Canon q) (hb : b.Canon q) : (if c then a else b).Canon q := by
  split <;> assumption

theorem next_ite {a b : Host.Outcome State Fault Refusal} (ha : NextCanon q a) (hb : NextCanon q b) : NextCanon q (if c then a else b) := by
  split <;> assumption

theorem cmd_ite {a b : CmdRes} (ha : a.Canon q) (hb : b.Canon q) : (if c then a else b).Canon q := by
  split <;> assumption

theorem exc_ite {ε : Type} {a b : Except ε State} (ha : ExcCanon q a) (hb : ExcCanon q b) : ExcCanon q (if c then a else b) := by
  split <;> assumption

theorem opt_ite {a b : Option State} (ha : OptCanon q a) (hb : OptCanon q b) : OptCanon q (if c then a else b) := by
  split <;> assumption

end

theorem canon_elim {o : Option β} {f : β → State} (h : s.Canon q) (hf : ∀ x, (f x).Canon q) : (o.elim s f).Canon q := by
  cases o with
  | none => exact h
  | some x => exact hf x

/-! Folds. -/

theorem canon_foldl {f : State → β → State} {l : List β} (hf : ∀ t x, t.Canon q → (f t x).Canon q) (h : s.Canon q) :
    (l.foldl f s).Canon q :=
  List.foldlRecOn l f h (fun _ hb x _ => hf _ x hb)

theorem snd_foldl {f : α × State → β → α × State} {l : List β} {b : α × State} (hf : ∀ b x, SndCanon q b → SndCanon q (f b x))
    (h : SndCanon q b) : SndCanon q (l.foldl f b) :=
  List.foldlRecOn l f h (fun _ hb x _ => hf _ x hb)

theorem fst_foldl {f : State × α → β → State × α} {l : List β} {b : State × α} (hf : ∀ b x, FstCanon q b → FstCanon q (f b x))
    (h : FstCanon q b) : FstCanon q (l.foldl f b) :=
  List.foldlRecOn l f h (fun _ hb x _ => hf _ x hb)

theorem snd2_foldl {f : α × γ × State → β → α × γ × State} {l : List β} {b : α × γ × State}
    (hf : ∀ b x, Snd2Canon q b → Snd2Canon q (f b x)) (h : Snd2Canon q b) : Snd2Canon q (l.foldl f b) :=
  List.foldlRecOn l f h (fun _ hb x _ => hf _ x hb)

/-! A state that a case of a match names. -/

theorem canon_of_snd {x : α × State} {a : α} (he : x = (a, s)) (h : SndCanon q x) : s.Canon q := by
  subst he
  exact h

theorem canon_of_done {x : Res} (he : x = .done s) (h : x.Canon q) : s.Canon q := by
  subst he
  cases h with | done h => exact h

theorem canon_of_moved {x : Res} (he : x = .moved s) (h : x.Canon q) : s.Canon q := by
  subst he
  cases h with | moved h => exact h

theorem canon_of_val {x : CRes} {d : Nat} {y : Word} (he : x = .val d y s) (h : x.Canon q) : s.Canon q := by
  subst he
  cases h with | val h => exact h

theorem canon_of_go {x : CRes} (he : x = .go s) (h : x.Canon q) : s.Canon q := by
  subst he
  cases h with | go h => exact h

theorem canon_of_jump {x : CRes} {y : Int} (he : x = .jump y s) (h : x.Canon q) : s.Canon q := by
  subst he
  cases h with | jump h => exact h

theorem canon_of_some {x : Option State} (he : x = some s) (h : OptCanon q x) : s.Canon q := by
  subst he
  cases h with | some h => exact h

theorem canon_of_ok {ε : Type} {x : Except ε State} (he : x = .ok s) (h : ExcCanon q x) : s.Canon q := by
  subst he
  cases h with | ok h => exact h

theorem canon_of_next {x : Host.Outcome State Fault Refusal} (he : x = .next s) (h : NextCanon q x) : s.Canon q := by
  subst he
  cases h with | next h => exact h

end

end Sys2Proof.Machine
end

section
/-! PROOFS. What every step keeps (O3): reading and updating the parts of the state. -/
namespace Sys2Proof.Machine

variable {q : Prop} {s : State}

theorem setWave_canon {w x} (h : s.Canon q) : (s.setWave w x).Canon q := h.same

theorem setUnit_canon {u x} (h : s.Canon q) : (s.setUnit u x).Canon q := h.same

theorem setLaunch_canon {n x} (h : s.Canon q) : (s.setLaunch n x).Canon q := h.same

theorem setCtx_canon {vf x} (h : s.Canon q) : (s.setCtx vf x).Canon q := h.same

theorem setCore_canon {c x} (h : s.Canon q) : (s.setCore c x).Canon q := h.same

theorem setCluster_canon {c x} (h : s.Canon q) : (s.setCluster c x).Canon q := h.same

theorem setDie_canon {d x} (h : s.Canon q) : (s.setDie d x).Canon q := h.same

theorem setPkg_canon {p} (h : s.Canon q) : (s.setPkg p).Canon q := h.same

theorem modWave_canon {w f} (h : s.Canon q) : (s.modWave w f).Canon q := setWave_canon h

theorem modUnit_canon {u f} (h : s.Canon q) : (s.modUnit u f).Canon q := setUnit_canon h

theorem modLaunch_canon {n f} (h : s.Canon q) : (s.modLaunch n f).Canon q := setLaunch_canon h

theorem modCtx_canon {vf f} (h : s.Canon q) : (s.modCtx vf f).Canon q := setCtx_canon h

theorem modCore_canon {c f} (h : s.Canon q) : (s.modCore c f).Canon q := setCore_canon h

theorem modCluster_canon {c f} (h : s.Canon q) : (s.modCluster c f).Canon q := setCluster_canon h

theorem modDie_canon {d f} (h : s.Canon q) : (s.modDie d f).Canon q := setDie_canon h

theorem draw_canon (h : s.Canon q) : s.draw.2.Canon q := h.same

theorem pick_canon {n} (h : s.Canon q) : (s.pick n).2.Canon q := snd_ite h (snd_mk (fields_canon h))

theorem newId_canon (h : s.Canon q) : s.newId.2.Canon q := h.same

theorem readTime_canon {vf} (h : s.Canon q) : (s.readTime vf).2.Canon q := by
  unfold State.readTime
  dsimp only
  exact modCtx_canon h

end Sys2Proof.Machine
end

section
/-! PROOFS. What every step keeps (O3): the ordering machine. -/
namespace Sys2Proof.Machine

variable {q : Prop} {s : State}

theorem relMerge_canon {k v} (h : s.Canon q) : (s.relMerge k v).Canon q := h.same

theorem relDrop_canon {k} (h : s.Canon q) : (s.relDrop k).Canon q := h.same

theorem setAgent_canon {ag x} (h : s.Canon q) : (s.setAgent ag x).Canon q := by
  unfold State.setAgent
  split
  · exact modWave_canon h
  · exact modUnit_canon h
  · exact setPkg_canon h

theorem queueWrite_canon {ag bytes instr ea pc acc} (h : s.Canon q) : (s.queueWrite ag bytes instr ea pc acc).Canon q := setAgent_canon h

theorem drainList_canon {ag es rest} (h : s.Canon q) : (s.drainList ag es rest).Canon q := setAgent_canon (h.withMem (drainEntries_wf _ _ _ h.mem))

theorem drainWhere_canon {ag p} (h : s.Canon q) : (s.drainWhere ag p).Canon q := drainList_canon h

theorem drainAll_canon {ag} (h : s.Canon q) : (s.drainAll ag).Canon q := drainList_canon h

theorem drainOne_canon {ag idx} (h : s.Canon q) : (s.drainOne ag idx).Canon q := by
  unfold State.drainOne
  dsimp only
  split
  · exact h
  · exact drainList_canon h

theorem readView_canon {m v due ext locs} (h : s.Canon q) : (s.readView m v due ext locs).2.Canon q :=
  snd_ite h (snd_ite h (snd_mk (snd_foldl (fun _ _ hacc => snd_mk (pick_canon hacc)) (snd_mk (pick_canon h)))))

theorem readThrough_canon {ag ext locs} (h : s.Canon q) : (s.readThrough ag ext locs).2.Canon q := setAgent_canon (readView_canon h)

theorem readWrites_canon {ag locs} (h : s.Canon q) : (s.readWrites ag locs).2.Canon q := readThrough_canon h

theorem readStep_canon {ag locs} (h : s.Canon q) : (s.readStep ag locs).2.Canon q := readWrites_canon h

theorem readSkip_canon {ag locs} (h : s.Canon q) : (s.readSkip ag locs).2.Canon q := readThrough_canon h

theorem readOnlyWrites_canon {ag locs} (h : s.Canon q) : (s.readOnlyWrites ag locs).2.Canon q := setAgent_canon (readView_canon h)

theorem readOnly_canon {ag locs} (h : s.Canon q) : (s.readOnly ag locs).2.Canon q := readOnlyWrites_canon h

theorem storeNow_canon {bytes key} (h : s.Canon q) : (s.storeNow bytes key).Canon q := h.withMem (storeNow_wf s bytes key h.mem)

theorem storeOrFail_canon {ag bytes ea pc} (h : s.Canon q) : (s.storeOrFail ag bytes ea pc).Canon q := canon_ite (fields_canon h) (storeNow_canon h)

theorem storeAfter_canon {bytes key locs} (h : s.Canon q) : (s.storeAfter bytes key locs).Canon q := cells_canon (storeNow_canon h)

theorem viewLatest_canon {ag locs} (h : s.Canon q) : (s.viewLatest ag locs).Canon q := setAgent_canon h

theorem atomicStep_canon {ag loc n f} (h : s.Canon q) : (s.atomicStep ag loc n f).2.Canon q := by
  unfold State.atomicStep
  refine viewLatest_canon ?_
  split
  · exact drainWhere_canon h
  · exact storeNow_canon (drainWhere_canon h)

theorem deviceAtomic_canon {loc n f key} (h : s.Canon q) : (s.deviceAtomic loc n f key).2.Canon q := storeNow_canon h

theorem fullRelease_canon {ag k} (h : s.Canon q) : (s.fullRelease ag k).Canon q := relMerge_canon (drainAll_canon h)

theorem releaseView_canon {ag v} (h : s.Canon q) : (s.releaseView ag v).2.Canon q := drainAll_canon h

theorem acquireView_canon {ag v} (h : s.Canon q) : (s.acquireView ag v).Canon q := setAgent_canon h

theorem fullAcquire_canon {ag k} (h : s.Canon q) : (s.fullAcquire ag k).Canon q := acquireView_canon h

theorem fenceStep_canon {w l scope} (h : s.Canon q) : (s.fenceStep w l scope).Canon q := by
  unfold State.fenceStep
  exact setAgent_canon (canon_foldl (fun s' k hs' => relMerge_canon hs') (drainAll_canon h))

theorem relSet_canon {k v} (h : s.Canon q) : (s.relSet k v).Canon q := h.same

theorem fencePathStep_canon {ag} (h : s.Canon q) : (s.fencePathStep ag).Canon q := setAgent_canon (drainAll_canon h)

end Sys2Proof.Machine
end

section
/-! PROOFS. What every step keeps (O3): addresses, translation and access checks. -/
namespace Sys2Proof.Machine

variable {q : Prop} {s : State}

theorem translateWalk_canon {core vf va} (h : s.Canon q) : (s.translateWalk core vf va).2.Canon q := by
  unfold State.translateWalk
  split
  · exact h
  · dsimp only
    refine modCluster_canon (modCore_canon ?_)
    exact canon_ite (storeNow_canon h) h

theorem translate_canon {core vf va afresh} (h : s.Canon q) : (s.translate core vf va afresh).2.Canon q := by
  unfold State.translate
  dsimp only
  split
  · exact snd_ite (snd_mk (pick_canon h)) (translateWalk_canon (pick_canon h))
  · exact translateWalk_canon h

theorem setDirty_canon {core vf entry loc} (h : s.Canon q) : (s.setDirty core vf entry loc).2.Canon q :=
  snd_ite h (snd_ite (snd_mk (modCluster_canon (modCore_canon (storeNow_canon h)))) h)

theorem translateAll_canon {core vf u sb afresh a a1 a2 a3} (h : s.Canon q) : (s.translateAll core vf u sb afresh a a1 a2 a3).2.2.2.Canon q := by
  induction a generalizing s a1 a2 a3 with
  | nil => exact h
  | cons r rs ih =>
    unfold State.translateAll
    dsimp only
    split
    · split
      · exact ih (translate_canon h)
      · split <;> exact ih (translate_canon h)
    · split <;> exact ih h

theorem dirtyAll_canon {core vf ls} (h : s.Canon q) : (s.dirtyAll core vf ls).2.Canon q := snd_foldl (fun _ _ hacc => snd_mk (setDirty_canon hacc)) h

theorem translateCheck_canon {core vf u sb afresh rs} (h : s.Canon q) : (s.translateCheck core vf u sb afresh rs).2.Canon q := by
  unfold State.translateCheck
  dsimp only
  split
  · exact translateAll_canon h
  · split
    · exact translateAll_canon h
    · split <;> exact translateAll_canon h

theorem checkAccess_canon {core vf u sb rs afresh} (h : s.Canon q) : (s.checkAccess core vf u sb rs afresh).2.Canon q := by
  unfold State.checkAccess
  split
  · exact h
  · split
    next he1 =>
      split
      next he2 => exact canon_of_snd he2 (dirtyAll_canon (canon_of_snd he1 (translateCheck_canon h)))
      next he2 =>
        split
        next he3 =>
          exact dirtyAll_canon
            (canon_of_snd he3 (translateCheck_canon (canon_of_snd he2 (dirtyAll_canon (canon_of_snd he1 (translateCheck_canon h))))))
        · exact translateCheck_canon (canon_of_snd he2 (dirtyAll_canon (canon_of_snd he1 (translateCheck_canon h))))
    · exact translateCheck_canon h

end Sys2Proof.Machine
end

section
/-! PROOFS. What every step keeps (O3): what the entries of a chain say. -/
namespace Sys2Proof.Machine

variable {q : Prop} {s : State}

theorem readEntry_canon {u e o i} (h : s.Canon q) : (s.readEntry u e o i).2.Canon q := by
  unfold State.readEntry
  dsimp only
  split
  · exact h
  · exact snd_ite h (snd_mk (snd_foldl (fun acc k hacc => snd_mk (readStep_canon hacc)) h))

end Sys2Proof.Machine
end

section
/-! PROOFS. What every step keeps (O3): the device's accesses, fault records, and how waves and units end. -/
namespace Sys2Proof.Machine

variable {q : Prop} {s : State}

theorem devTouch_canon {vf va w} (h : s.Canon q) : (s.devTouch vf va w).Canon q := by
  unfold State.devTouch
  split
  · exact h
  · exact canon_ite h (storeNow_canon h)

theorem devUse_canon {vf ea n} (h : s.Canon q) : (s.devUse vf ea n).Canon q := canon_foldl (fun _ _ hs' => devTouch_canon hs') h

theorem devWrite_canon {vf ea bs} (h : s.Canon q) : (s.devWrite vf ea bs).Canon q := by
  unfold State.devWrite
  split
  · exact storeNow_canon (devTouch_canon h)
  · exact devTouch_canon h

theorem noteSeq_canon {subj seq} (h : s.Canon q) : (s.noteSeq subj seq).Canon q := by
  unfold State.noteSeq
  split
  · exact modWave_canon h
  · exact modUnit_canon h
  · exact fields_canon h
  · exact h

theorem appendFault_canon {vf r} (h : s.Canon q) : (s.appendFault vf r).Canon q :=
  canon_ite (noteSeq_canon (modCtx_canon (devWrite_canon h))) (modCtx_canon (devWrite_canon h))

theorem postFault_canon {vf r} (h : s.Canon q) : (s.postFault vf r).Canon q :=
  canon_ite h (canon_ite (canon_ite h (modCtx_canon h)) (canon_ite (canon_ite (modCtx_canon h) (modCtx_canon h)) (appendFault_canon h)))

theorem writeCompletion_canon {vf ea w0 rest} (h : s.Canon q) : (s.writeCompletion vf ea w0 rest).Canon q := by
  unfold State.writeCompletion
  dsimp only
  split
  · exact storeAfter_canon (devTouch_canon (devWrite_canon h))
  · exact devWrite_canon h

theorem escalate_canon {n code fcore fctx opnum} (h : s.Canon q) : (s.escalate n code fcore fctx opnum).Canon q :=
  canon_ite (modLaunch_canon h) (writeCompletion_canon (modLaunch_canon h))

theorem launchDown_canon {n} (h : s.Canon q) : (s.launchDown n).Canon q := modLaunch_canon h

theorem dropOwner_canon {core u} (h : s.Canon q) : (s.dropOwner core u).Canon q := canon_ite (modCore_canon h) h

theorem giveBack_canon {u} (h : s.Canon q) : (s.giveBack u).Canon q := by
  unfold State.giveBack
  dsimp only
  split
  · exact modUnit_canon h
  · exact modCtx_canon (modUnit_canon h)

theorem freeTiles_canon {u} (h : s.Canon q) : (s.freeTiles u).Canon q := canon_foldl (fun _ _ hs' => canon_ite (modUnit_canon hs') hs') h

theorem releaseGroup_canon {u} (h : s.Canon q) : (s.releaseGroup u).Canon q :=
  canon_ite (canon_foldl (fun _ _ hs' => giveBack_canon hs') (freeTiles_canon (canon_ite (dropOwner_canon h) h)))
    (freeTiles_canon (canon_ite (dropOwner_canon h) h))

theorem joinApply_canon {vf loc code view} (h : s.Canon q) : (s.joinApply vf loc code view).Canon q := by
  unfold State.joinApply
  refine deviceAtomic_canon ?_
  split
  · exact relMerge_canon h
  · exact relMerge_canon (storeNow_canon (relMerge_canon h))

theorem joinUpdate_canon {j} (h : s.Canon q) : (s.joinUpdate j).Canon q := by
  unfold State.joinUpdate
  refine canon_ite ?_ ?_
  · split
    · exact launchDown_canon h
    · exact canon_ite (releaseGroup_canon (launchDown_canon (modUnit_canon (joinApply_canon h)))) (fields_canon h)
  · split
    · exact launchDown_canon (joinApply_canon (devTouch_canon h))
    · exact canon_ite (launchDown_canon (escalate_canon h)) (postFault_canon (fields_canon h))
    · exact launchDown_canon (escalate_canon (devTouch_canon h))

theorem drainWave_canon {w} (h : s.Canon q) : (s.drainWave w).2.Canon q := snd_foldl (fun _ _ hacc => releaseView_canon hacc) h

theorem childEnd_canon {u w f pc e} (h : s.Canon q) : (s.childEnd u w f pc e).Canon q :=
  canon_ite (launchDown_canon h) (joinUpdate_canon (newId_canon (drainWave_canon h)))

theorem escalateEngines_canon {u} (h : s.Canon q) : (s.escalateEngines u).Canon q := canon_foldl (fun _ _ hs' => canon_ite (escalate_canon hs') hs') h

theorem barJudge_canon {u} (h : s.Canon q) : (s.barJudge u).Canon q := canon_ite (modUnit_canon (canon_foldl (fun _ _ hs' => modWave_canon hs') h)) h

theorem unpend_canon {id a} (h : s.Canon q) : (s.unpend id a).Canon q := by
  induction a with
  | nil => exact h
  | cons n ns ih => exact modCore_canon ih

theorem beginChild_canon {w} (h : s.Canon q) : (s.beginChild w).Canon q := by
  unfold State.beginChild
  dsimp only
  split
  · exact h
  · exact fields_canon (unpend_canon h)

theorem dropHeavy_canon {w ids} (h : s.Canon q) : (s.dropHeavy w ids).Canon q := canon_ite h (modWave_canon (modCluster_canon h))

theorem dropReservation_canon {w} (h : s.Canon q) : (s.dropReservation w).Canon q := dropHeavy_canon h

theorem dropPark_canon {w} (h : s.Canon q) : (s.dropPark w).Canon q := by
  unfold State.dropPark
  exact modCtx_canon (setWave_canon h)

theorem stopWave_canon {w t} (h : s.Canon q) : (s.stopWave w t).Canon q :=
  canon_ite (modCore_canon (setWave_canon (dropPark_canon (dropReservation_canon (beginChild_canon h)))))
    (setWave_canon (dropPark_canon (dropReservation_canon (beginChild_canon h))))

theorem latchFault_canon {u code hs} (h : s.Canon q) : (s.latchFault u code hs).Canon q :=
  canon_foldl (fun _ _ hs' => canon_ite (stopWave_canon (modWave_canon hs')) (modWave_canon hs')) (modUnit_canon h)

theorem waveExited_canon {w pc e} (h : s.Canon q) : (s.waveExited w pc e).Canon q := by
  unfold State.waveExited
  refine canon_ite h (canon_ite (releaseGroup_canon (canon_ite (launchDown_canon (modUnit_canon (escalateEngines_canon ?_)))
    (modUnit_canon (escalateEngines_canon ?_)))) ?_)
  all_goals
    split
    · exact childEnd_canon (latchFault_canon (modUnit_canon (barJudge_canon (dropReservation_canon (setWave_canon h)))))
    · exact latchFault_canon (modUnit_canon (barJudge_canon (dropReservation_canon (setWave_canon h))))

theorem abarWaiters_canon {loc k} (h : s.Canon q) : (s.abarWaiters loc k).Canon q := deviceAtomic_canon h

theorem leaveBarriers_canon {w g} (h : s.Canon q) : (s.leaveBarriers w g).Canon q := canon_foldl (fun _ _ hs' => abarWaiters_canon hs') h

theorem exitLanes_canon {w g pc e} (h : s.Canon q) : (s.exitLanes w g pc e).Canon q :=
  canon_ite (waveExited_canon (modWave_canon (leaveBarriers_canon h))) (modWave_canon (leaveBarriers_canon h))

theorem killWave_canon {w code} (h : s.Canon q) : (s.killWave w code).Canon q := exitLanes_canon (drainWave_canon h)

theorem endHandler_canon {hw e} (h : s.Canon q) : (s.endHandler hw e).Canon q := by
  unfold State.endHandler
  dsimp only
  split
  · exact h
  · split
    · exact modWave_canon (modCore_canon (modWave_canon (leaveBarriers_canon (dropReservation_canon (dropPark_canon h)))))
    · exact killWave_canon (modWave_canon (modCore_canon (modWave_canon (leaveBarriers_canon (dropReservation_canon (dropPark_canon h))))))
    · exact escalate_canon
        (killWave_canon (modWave_canon (modCore_canon (modWave_canon (leaveBarriers_canon (dropReservation_canon (dropPark_canon h)))))))

theorem takeFault_canon {w t} (h : s.Canon q) : (s.takeFault w t).Canon q := canon_ite (endHandler_canon h) (stopWave_canon h)

end Sys2Proof.Machine
end

section
/-! PROOFS. What every step keeps (O3): the frame every native instruction shares. -/
namespace Sys2Proof.Machine

variable {q : Prop} {s : State}

theorem fail_canon {x code} (h : s.Canon q) : (Iss.fail x code s).Canon q := .fault h

theorem advance_canon {c g} (h : s.Canon q) : (s.advance c g).Canon q := modWave_canon h

theorem flagged_canon {x fs} (h : s.Canon q) : (s.flagged x fs).Canon q := canon_ite h (modWave_canon h)

theorem issued_canon {x fs} (h : s.Canon q) : (s.issued x fs).Canon q := modWave_canon (flagged_canon h)

theorem retired_canon {x} (h : s.Canon q) : (s.retired x).Canon q := canon_ite h (beginChild_canon h)

theorem parkWave_canon {x lane acc reason level ea} (h : s.Canon q) : (s.parkWave x lane acc reason level ea).Canon q :=
  canon_ite (takeFault_canon h) (postFault_canon (setWave_canon (beginChild_canon h)))

theorem walked_canon {x} (h : s.Canon q) : (s.walked x).Canon q := modWave_canon h

theorem settle_canon {x fs a} (ha : a.Canon q) : (State.settle x fs a).Canon q := by
  unfold State.settle
  cases ha with
  | done h => exact advance_canon (beginChild_canon (issued_canon (walked_canon h)))
  | moved h => exact retired_canon (issued_canon (walked_canon h))
  | midway h => exact modWave_canon (flagged_canon h)
  | held h => exact modWave_canon h
  | fault h => exact canon_ite (takeFault_canon h) h
  | park h => exact canon_ite (parkWave_canon h) h

theorem perform_canon {i hd body} (h : s.Canon q) (hbody : ∀ a t, t.Canon q → (body a t).Canon q) : NextCanon q (s.perform i hd body) := by
  unfold State.perform
  dsimp only
  split
  · exact .refused
  · split
    · exact .next (settle_canon (fail_canon h))
    · exact .next (settle_canon (hbody _ _ h))

theorem transfer_canon {x targets} (h : s.Canon q) : (s.transfer x targets).Canon q := by
  unfold State.transfer
  dsimp only
  split
  · exact .fault h
  · exact .moved (modWave_canon (advance_canon h))

theorem access_canon {x reqs k} (h : s.Canon q) (hk : ∀ a t, t.Canon q → (k a t).Canon q) : (s.access x reqs k).Canon q := by
  unfold State.access
  dsimp only
  split
  · exact hk _ _ (checkAccess_canon (modWave_canon h))
  · exact .fault (checkAccess_canon (modWave_canon h))
  · exact .park (checkAccess_canon (modWave_canon h))
  · exact .held (checkAccess_canon (modWave_canon h))

theorem reach_canon {x ps kind k} (h : s.Canon q) (hk : ∀ t, t.Canon q → (k t).Canon q) : (s.reach x ps kind k).Canon q := by
  unfold State.reach
  refine res_ite ?_ (hk _ h)
  refine res_ite ?_ (res_ite (.held h) (hk _ (modWave_canon h)))
  split
  · exact .fault (modWave_canon h)
  · exact hk _ h

theorem consume_canon {x ps n kind k} (h : s.Canon q) (hk : ∀ t, t.Canon q → (k t).Canon q) : (s.consume x ps n kind k).Canon q := by
  unfold State.consume
  refine reach_canon h (fun s' hs' => ?_)
  split
  · exact .fault hs'
  · exact hk _ (canon_ite (modWave_canon hs') hs')

theorem shuffle_canon {α : Type} {n : Nat} {l : List α} (h : s.Canon q) : (State.shuffle n l s).2.Canon q := by
  induction n generalizing s l with
  | zero => exact h
  | succ n ih =>
    unfold State.shuffle
    dsimp only
    split
    · exact pick_canon h
    · exact ih (pick_canon h)

theorem laneSteps_canon {x i ls vals one fin} (h : s.Canon q) (hone : ∀ a b t, t.Canon q → (one a b t).2.Canon q)
  (hfin : ∀ a t, t.Canon q → (fin a t).Canon q) :
    (s.laneSteps x i ls vals one fin).Canon q := by
  unfold State.laneSteps
  dsimp only
  split
  · exact hfin _ _ (modWave_canon (snd_foldl (fun acc p hacc => snd_mk (hone _ _ _ hacc)) (snd_mk (pick_canon (shuffle_canon h)))))
  · exact .midway (modWave_canon (snd_foldl (fun acc p hacc => snd_mk (hone _ _ _ hacc)) (snd_mk (pick_canon (shuffle_canon h)))))

theorem steppedAccess_canon {x i reqs size kind one fin} (h : s.Canon q) (hone : ∀ a b t, t.Canon q → (one a b t).2.Canon q)
  (hfin : ∀ a t, t.Canon q → (fin a t).Canon q) :
    (s.steppedAccess x i reqs size kind one fin).Canon q := by
  unfold State.steppedAccess
  split
  · exact laneSteps_canon h (fun a a' a2 ha2 => hone _ _ _ ha2) (fun a a' ha' => hfin _ _ ha')
  · exact access_canon h (fun ps s' hs' => consume_canon hs' (fun s2 hs2 => laneSteps_canon hs2 (fun a a' a2 ha2 => hone _ _ _ ha2)
      (fun a a' ha' => hfin _ _ ha')))

end Sys2Proof.Machine
end

section
/-! PROOFS. What every step keeps (O3): operands and results. -/
namespace Sys2Proof.Machine

variable {q : Prop} {s : State}

theorem put_canon {x d wd tag f} (h : s.Canon q) : (s.put x d wd tag f).Canon q := by
  unfold State.put
  split
  · exact canon_ite h (modWave_canon h)
  · exact canon_ite h (modWave_canon h)
  · exact modWave_canon h
  · exact h

theorem putAffine_canon {x d wd tag b st} (h : s.Canon q) : (s.putAffine x d wd tag b st).Canon q := by
  unfold State.putAffine
  split
  · exact canon_ite h (modWave_canon h)
  · exact modWave_canon h
  · exact h

end Sys2Proof.Machine
end

section
/-! PROOFS. What every step keeps (O3): sticky records and status registers. -/
namespace Sys2Proof.Machine

variable {q : Prop} {s : State}

theorem sticky_canon {x d dz iov} (h : s.Canon q) : (s.sticky x d dz iov).Canon q := canon_ite h (modWave_canon h)

theorem setSat_canon {w sat} (h : s.Canon q) : (s.setSat w sat).Canon q := canon_ite (modWave_canon h) h

theorem setPois_canon {w p} (h : s.Canon q) : (s.setPois w p).Canon q := canon_ite (modWave_canon h) h

theorem writeStatus_canon {w code x} (h : s.Canon q) : ExcCanon q (s.writeStatus w code x) := by
  unfold State.writeStatus
  split
  · exact exc_ite .error (.ok (modWave_canon h))
  · exact .ok (modWave_canon h)
  · exact .ok (modWave_canon h)
  · exact exc_ite .error (.ok (modWave_canon h))
  · exact exc_ite .error (.ok (modWave_canon h))
  · exact exc_ite .error (.ok (modWave_canon h))
  · exact .error

end Sys2Proof.Machine
end

section
/-! PROOFS. What every step keeps (O3): live tables and saved units. -/
namespace Sys2Proof.Machine

variable {q : Prop} {s : State}

theorem useTable_canon {u} (h : s.Canon q) : (s.useTable u).Canon q := canon_foldl (fun _ _ hs' => devUse_canon (devUse_canon hs')) (devUse_canon h)

theorem forget_canon {p} (h : s.Canon q) : (s.forget p).Canon q := h.withMem (forget_wf s p h.mem)

theorem fillFree_canon {u kinds} (h : s.Canon q) : (s.fillFree u kinds).Canon q := h.withMem (fillFree_wf s u kinds h.mem)

theorem keepLive_canon {u} (h : s.Canon q) : (s.keepLive u).Canon q := by
  unfold State.keepLive
  dsimp only
  refine canon_ite ?_ (canon_ite (canon_ite (pick_canon (modUnit_canon (forget_canon ?_)))
    (fillFree_canon (forget_canon (pick_canon (modUnit_canon (forget_canon ?_)))))) (forget_canon ?_))
  all_goals
    refine canon_foldl (fun s' w hs' => ?_) h
    split
    · exact hs'
    · exact modWave_canon hs'

end Sys2Proof.Machine
end

section
/-! PROOFS. What every step keeps (O3): fetching and choosing what issues. -/
namespace Sys2Proof.Machine

variable {q : Prop} {s : State}

theorem modPart_canon {d e f} (h : s.Canon q) : (s.modPart d e f).Canon q := modDie_canon h

theorem fetchBlock_canon {w g ea} (h : s.Canon q) : (s.fetchBlock w g ea).2.Canon q := by
  unfold State.fetchBlock
  dsimp only
  split
  · exact h
  · refine snd_ite ?_ (snd_mk (modWave_canon (pick_canon h)))
    split
    next he1 => exact snd_mk (canon_of_snd he1 (translate_canon (pick_canon h)))
    next he1 =>
      exact snd_ite (snd_mk (canon_of_snd he1 (translate_canon (pick_canon h)))) (snd_ite (snd_mk (canon_of_snd he1 (translate_canon (pick_canon h))))
        (snd_mk (modWave_canon (modCore_canon (canon_of_snd he1 (translate_canon (pick_canon h)))))))

theorem keepCode_canon {w g ea ws} (h : s.Canon q) : (s.keepCode w g ea ws).Canon q := modWave_canon h

theorem withBlock_canon {w g ea aligned pc next k} (h : s.Canon q) (hk : ∀ a t, t.Canon q → (k a t).2.Canon q) :
    (s.withBlock w g ea aligned pc next k).2.Canon q := by
  unfold State.withBlock
  split
  · exact h
  · split
    next he1 => exact hk _ _ (canon_of_snd he1 (fetchBlock_canon h))
    next he1 => exact canon_of_snd he1 (fetchBlock_canon h)
    next he1 => exact canon_of_snd he1 (fetchBlock_canon h)

theorem withCode_canon {w g ea pc next k} (h : s.Canon q) (hk : ∀ a t, t.Canon q → (k a t).2.Canon q) : (s.withCode w g ea pc next k).2.Canon q := by
  unfold State.withCode
  split
  · exact hk _ _ h
  · exact withBlock_canon h (fun ws s' hs' => hk _ _ (keepCode_canon hs'))

theorem fetchBody_canon {w g base hdr pc} (h : s.Canon q) : (s.fetchBody w g base hdr pc).2.Canon q := by
  unfold State.fetchBody
  dsimp only
  refine withCode_canon h (fun ws s' hs' => ?_)
  refine snd_ite ?_ ?_
  · refine withCode_canon hs' (fun ws' s2 hs2 => ?_)
    split <;> exact hs2
  · split <;> exact hs'

theorem withRecordBytes_canon {α : Type} {w g pc} {read : List Byte → Except Reject α} {k} (h : s.Canon q)
    (hk : ∀ a b t, t.Canon q → (k a b t).2.Canon q) : (s.withRecordBytes w g pc read k).2.Canon q := by
  unfold State.withRecordBytes
  refine withBlock_canon h (fun ws t ht => ?_)
  dsimp only
  split
  · exact withBlock_canon ht (fun ws2 t' ht' => hk _ _ _ ht')
  · exact hk _ _ _ ht

theorem fetchRecord_canon {w g base pc info} (h : s.Canon q) : (s.fetchRecord w g base pc info).2.Canon q :=
  withRecordBytes_canon h (fun _ _ _ hs' => hs')

theorem withModule_canon {w g base pc k} (h : s.Canon q) (hk : ∀ a t, t.Canon q → (k a t).2.Canon q) : (s.withModule w g base pc k).2.Canon q :=
  withBlock_canon h (fun _ _ hs' => withBlock_canon hs' (fun _ _ hs2 => snd_ite hs2 (hk _ _ hs2)))

theorem enterRecord_canon {w g pc otherwise_} (h : s.Canon q) : (s.enterRecord w g pc otherwise_).2.Canon q := by
  unfold State.enterRecord
  refine withRecordBytes_canon h (fun r span s' hs' => ?_)
  split
  · exact withModule_canon hs' (fun info s2 hs2 => hs2)
  · exact hs'

theorem stand_canon {w g pc clause modBase info} (h : s.Canon q) : (s.stand w g pc clause modBase info).Canon q := modWave_canon h

theorem fetchFor_canon {w g l} (h : s.Canon q) : (s.fetchFor w g l).2.Canon q := by
  unfold State.fetchFor
  split
  · exact fetchBody_canon h
  · split
    · exact snd_ite (enterRecord_canon h) (fetchRecord_canon h)
    · exact snd_ite (enterRecord_canon h) (withBlock_canon h (fun ws s' hs' => snd_ite (withModule_canon hs'
        (fun info s2 hs2 => fetchRecord_canon (stand_canon hs2))) (snd_ite (fetchBody_canon (keepCode_canon (stand_canon hs')))
        (snd_ite (enterRecord_canon hs') hs'))))

theorem served_canon {w g} (h : s.Canon q) : (s.served w g).Canon q := modWave_canon h

theorem stalled_canon {w} (h : s.Canon q) : (s.stalled w).Canon q := modWave_canon h

theorem chooseGroups_canon {w gs} (h : s.Canon q) : (s.chooseGroups w gs).2.Canon q := by
  unfold State.chooseGroups
  dsimp only
  exact snd_foldl (fun acc g hacc => snd_ite (snd_mk (pick_canon hacc)) (snd_mk (modWave_canon (pick_canon hacc)))) h

theorem readyGroups_canon {core port} (h : s.Canon q) : (s.readyGroups core port).2.Canon q :=
  snd_ite h (snd_foldl (fun _ _ hacc => snd_mk (chooseGroups_canon hacc)) h)

theorem endReservation_canon {w} (h : s.Canon q) : (s.endReservation w).Canon q := canon_ite h (modWave_canon (dropHeavy_canon h))

theorem wordEnd_canon {c} (h : s.Canon q) : (s.wordEnd c).Canon q := canon_ite h (endReservation_canon (modWave_canon h))

end Sys2Proof.Machine
end

section
/-! PROOFS. What every step keeps (O3): branches, loops, waits and the unit barrier. -/
namespace Sys2Proof.Machine

variable {q : Prop} {s : State}

theorem waitOn_canon {x e wt} (h : s.Canon q) : (s.waitOn x e wt).Canon q := modWave_canon (advance_canon h)

theorem leaveWait_canon {w m} (h : s.Canon q) : (s.leaveWait w m).Canon q := beginChild_canon (modWave_canon h)

theorem releaseLanes_canon {w m k} (h : s.Canon q) : (s.releaseLanes w m k).Canon q := canon_foldl (fun _ _ hs' => fullRelease_canon hs') h

theorem acquireLanes_canon {w m k} (h : s.Canon q) : (s.acquireLanes w m k).Canon q := canon_foldl (fun _ _ hs' => fullAcquire_canon hs') h

theorem releaseLanesView_canon {w m} (h : s.Canon q) : (s.releaseLanesView w m).2.Canon q := snd_foldl (fun _ _ hacc => releaseView_canon hacc) h

theorem execNop_canon {w} (h : s.Canon q) : NextCanon q (execNop w s) := perform_canon h (fun _ _ hs' => .done hs')

theorem execBra_canon {sub cond off} (h : s.Canon q) : NextCanon q (execBra sub cond off s) :=
  perform_canon h (fun _ _ hs' => res_ite (fail_canon hs') (res_ite (transfer_canon hs') (.done hs')))

theorem execBrc_canon {sub cond off} (h : s.Canon q) : NextCanon q (execBrc sub cond off s) :=
  perform_canon h (fun _ _ hs' => res_ite (fail_canon hs') (transfer_canon hs'))

theorem execJmpi_canon {w} (h : s.Canon q) : NextCanon q (execJmpi w s) := perform_canon h (fun _ _ hs' => transfer_canon hs')

theorem execRet_canon {w} (h : s.Canon q) : NextCanon q (execRet w s) := perform_canon h (fun _ _ hs' => transfer_canon hs')

theorem execCall_canon {sub cond link off} (h : s.Canon q) : NextCanon q (execCall sub cond link off s) := by
  unfold execCall
  refine perform_canon h (fun x s' hs' => ?_)
  refine res_ite (fail_canon hs') ?_
  split
  next he => exact .moved (put_canon (canon_of_moved he (transfer_canon hs')))
  · exact transfer_canon hs'

theorem execSyncw_canon {w} (h : s.Canon q) : NextCanon q (execSyncw w s) :=
  perform_canon h (fun _ _ hs' => res_ite (.done hs') (.moved (waitOn_canon hs')))

theorem execSyncwRelease_canon (h : s.Canon q) : NextCanon q (execSyncwRelease s) := next_ite (.next (leaveWait_canon h)) .refused

theorem scanClauses_canon {w g a a1 a2} (h : s.Canon q) : (s.scanClauses w g a a1 a2).2.Canon q := by
  induction a generalizing s a1 a2 with
  | zero => exact h
  | succ fuel ih =>
    unfold State.scanClauses
    split
    · exact h
    · split
      next he => exact canon_of_snd he (fetchBlock_canon h)
      next he => exact canon_of_snd he (fetchBlock_canon h)
      next he =>
        have ht := canon_of_snd he (fetchBlock_canon h)
        exact snd_ite ht (snd_ite ht (snd_ite ht (ih ht)))

theorem scanRecords_canon {w g vvirt a a1 a2} (h : s.Canon q) : (s.scanRecords w g vvirt a a1 a2).2.Canon q := by
  induction a generalizing s a1 a2 with
  | zero => exact h
  | succ fuel ih =>
    unfold State.scanRecords
    split
    · exact h
    · split
      next he => exact canon_of_snd he (fetchBlock_canon h)
      next he => exact canon_of_snd he (fetchBlock_canon h)
      next ws t he =>
        have ht := canon_of_snd he (fetchBlock_canon h)
        dsimp only
        generalize hr : (@ite (BlockRes × State) _ (_) _ _) = r
        have hr : SndCanon q r := by
          rw [← hr]
          refine snd_ite ht ?_
          split
          · exact ht
          · exact fetchBlock_canon ht
        split
        · exact hr
        · exact hr
        · split
          · exact hr
          · exact snd_ite hr (ih hr)

theorem execLoop_canon {lc count body} (h : s.Canon q) : NextCanon q (execLoop lc count body s) := by
  unfold execLoop
  dsimp only
  refine perform_canon h (fun x s' hs' => res_ite (fail_canon hs') (res_ite (fail_canon hs') ?_))
  split
  case' h_1 => refine .fault ?_
  case' h_2 => refine .park ?_
  case' h_3 => refine fail_canon ?_
  case' h_4 =>
    refine res_ite (fail_canon ?_) (res_ite (.moved (modWave_canon (modWave_canon ?_))) (.moved (modWave_canon (modWave_canon ?_))))
  case' h_5 =>
    refine res_ite (fail_canon ?_) (res_ite (.moved (modWave_canon (modWave_canon ?_))) (.moved (modWave_canon (modWave_canon ?_))))
  all_goals
    split
    · exact scanClauses_canon hs'
    · exact scanRecords_canon hs'

theorem execLoopEnd_canon (h : s.Canon q) : NextCanon q (execLoopEnd s) := by
  unfold execLoopEnd
  dsimp only
  split
  · exact .refused
  · exact next_ite (next_ite (.next (setWave_canon h)) (.next (setWave_canon h))) .refused

theorem execLbrk_canon {w} (h : s.Canon q) : NextCanon q (execLbrk w s) := by
  unfold execLbrk
  refine perform_canon h (fun x s' hs' => ?_)
  split
  · exact .done hs'
  · exact .moved (modWave_canon hs')

theorem endLanes_canon {x m} (h : s.Canon q) : (s.endLanes x m).Canon q := by
  unfold State.endLanes
  dsimp only
  split
  · exact canon_ite h (exitLanes_canon h)
  · exact canon_ite (endHandler_canon (modWave_canon h)) (modWave_canon h)

theorem execExitI_canon {w} (h : s.Canon q) : NextCanon q (execExitI w s) := perform_canon h (fun _ _ hs' => .done (endLanes_canon hs'))

theorem execExitW_canon {w} (h : s.Canon q) : NextCanon q (execExitW w s) := perform_canon h (fun _ _ hs' => .done (endLanes_canon hs'))

theorem execYield_canon {w} (h : s.Canon q) : NextCanon q (execYield w s) := perform_canon h (fun _ _ hs' => .done (modWave_canon hs'))

theorem execBkpt_canon {w} (h : s.Canon q) : NextCanon q (execBkpt w s) := perform_canon h (fun _ _ hs' => res_ite (.done hs') (.fault hs'))

theorem execTrapI_canon {w} (h : s.Canon q) : NextCanon q (execTrapI w s) := perform_canon h (fun _ _ hs' => res_ite (.done hs') (.fault hs'))

theorem barArrive_canon {w g} (h : s.Canon q) : (s.barArrive w g).Canon q := barJudge_canon (modWave_canon (releaseLanes_canon h))

theorem barAcquire_canon {w g pc k} (h : s.Canon q) : (s.barAcquire w g pc k).Canon q := modWave_canon (acquireLanes_canon h)

theorem execBarArrive_canon {w} (h : s.Canon q) : NextCanon q (execBarArrive w s) :=
  perform_canon h (fun _ _ hs' => res_ite (.moved (waitOn_canon hs')) (.done (barArrive_canon hs')))

theorem execBarWait_canon {w} (h : s.Canon q) : NextCanon q (execBarWait w s) :=
  perform_canon h (fun _ _ hs' => res_ite (.done (barAcquire_canon hs')) (.moved (waitOn_canon hs')))

theorem execBarSync_canon {w} (h : s.Canon q) : NextCanon q (execBarSync w s) :=
  perform_canon h (fun _ _ hs' => res_ite (.moved (waitOn_canon hs')) (res_ite (.done (barAcquire_canon (barArrive_canon hs')))
    (.moved (waitOn_canon (barArrive_canon hs')))))

theorem execBarWaitResume_canon (h : s.Canon q) : NextCanon q (execBarWaitResume s) :=
  next_ite (next_ite (.next (leaveWait_canon (barAcquire_canon h))) (next_ite (.next (leaveWait_canon (barArrive_canon h)))
    (next_ite (next_ite (.next (leaveWait_canon (barAcquire_canon (barArrive_canon h)))) (.next (modWave_canon (barArrive_canon h)))) .refused)))
    .refused

theorem mwaitRead_canon {w e d loc} (h : s.Canon q) : (s.mwaitRead w e d loc).Canon q := by
  unfold State.mwaitRead
  dsimp only
  exact put_canon (setPois_canon (snd_foldl (fun acc l hacc => snd_mk (readStep_canon hacc)) h))

theorem execMwait_canon {w} (h : s.Canon q) : NextCanon q (execMwait w s) := by
  unfold execMwait
  refine perform_canon h (fun x s' hs' => ?_)
  refine res_ite (.done hs') (access_canon hs' (fun ps s2 hs2 => ?_))
  refine reach_canon hs2 (fun s3 hs3 => ?_)
  split
  · exact .done hs3
  · split
    · exact .fault hs3
    · exact res_ite (.done (mwaitRead_canon hs3)) (.moved (waitOn_canon hs3))

theorem execMwaitWake_canon (h : s.Canon q) : NextCanon q (execMwaitWake s) := by
  unfold execMwaitWake
  dsimp only
  split
  · exact next_ite (.next (takeFault_canon h)) (next_ite (next_ite (.next (takeFault_canon h)) (.next (leaveWait_canon (mwaitRead_canon h))))
      .refused)
  · exact .refused

theorem execWaitt_canon {w} (h : s.Canon q) : NextCanon q (execWaitt w s) :=
  perform_canon h (fun _ _ hs' => res_ite (.done hs') (.moved (waitOn_canon hs')))

theorem execWaittExpiry_canon (h : s.Canon q) : NextCanon q (execWaittExpiry s) := by
  unfold execWaittExpiry
  dsimp only
  split
  · exact next_ite (.next (leaveWait_canon h)) .refused
  · exact .refused

theorem execReservedOpcode_canon {w} (h : s.Canon q) : NextCanon q (execReservedOpcode w s) := perform_canon h (fun _ _ hs' => fail_canon hs')

theorem execBlockRecord_canon {dist} (h : s.Canon q) : NextCanon q (execBlockRecord dist s) := perform_canon h (fun _ _ hs' => .done hs')

theorem execEndRecord_canon (h : s.Canon q) : NextCanon q (execEndRecord s) := perform_canon h (fun _ _ hs' => fail_canon hs')

end Sys2Proof.Machine
end

section
/-! PROOFS. What every step keeps (O3): integer words and moves. -/
namespace Sys2Proof.Machine

variable {q : Prop} {s : State}

theorem intBody_canon {w srcs cls aff f x} (h : s.Canon q) : (intBody w srcs cls aff f x s).Canon q :=
  res_ite (fail_canon h) (res_ite (fail_canon h) (res_ite (.done h) (res_ite (res_ite (.done (putAffine_canon h)) (fail_canon h))
    (.done (sticky_canon (put_canon h))))))

theorem intOp_canon {i w srcs cls aff f} (h : s.Canon q) : NextCanon q (intOp i w srcs cls aff f s) :=
  perform_canon h (fun _ _ hs' => intBody_canon hs')

theorem bitBody_canon {w srcs f x} (h : s.Canon q) : (bitBody w srcs f x s).Canon q := by
  unfold bitBody
  split
  · exact fail_canon h
  · exact .done (put_canon h)

theorem bitOp_canon {i w srcs f} (h : s.Canon q) : NextCanon q (bitOp i w srcs f s) := perform_canon h (fun _ _ hs' => bitBody_canon hs')

theorem fieldOp_canon {i w also f} (h : s.Canon q) : NextCanon q (fieldOp i w also f s) := by
  unfold fieldOp
  exact perform_canon h (fun x s' hs' => res_ite (fail_canon hs') (res_ite (fail_canon hs') (.done (put_canon hs'))))

theorem countOp_canon {i w f} (h : s.Canon q) : NextCanon q (countOp i w f s) := by
  unfold countOp
  exact perform_canon h (fun x s' hs' => res_ite (fail_canon hs') (res_ite (fail_canon hs') (.done (put_canon hs'))))

theorem execIadd_canon {w} (h : s.Canon q) : NextCanon q (execIadd w s) := intOp_canon h

theorem execIsub_canon {w} (h : s.Canon q) : NextCanon q (execIsub w s) := intOp_canon h

theorem execImul_canon {w} (h : s.Canon q) : NextCanon q (execImul w s) := intOp_canon h

theorem execImulh_canon {w} (h : s.Canon q) : NextCanon q (execImulh w s) := intOp_canon h

theorem execImad_canon {w} (h : s.Canon q) : NextCanon q (execImad w s) := intOp_canon h

theorem execIdiv_canon {w} (h : s.Canon q) : NextCanon q (execIdiv w s) := intOp_canon h

theorem execIrem_canon {w} (h : s.Canon q) : NextCanon q (execIrem w s) := intOp_canon h

theorem execIneg_canon {w} (h : s.Canon q) : NextCanon q (execIneg w s) := intOp_canon h

theorem execIabs_canon {w} (h : s.Canon q) : NextCanon q (execIabs w s) := intOp_canon h

theorem execImin_canon {w} (h : s.Canon q) : NextCanon q (execImin w s) := intOp_canon h

theorem execImax_canon {w} (h : s.Canon q) : NextCanon q (execImax w s) := intOp_canon h

theorem execAndI_canon {w} (h : s.Canon q) : NextCanon q (execAndI w s) := bitOp_canon h

theorem execOrI_canon {w} (h : s.Canon q) : NextCanon q (execOrI w s) := bitOp_canon h

theorem execXorI_canon {w} (h : s.Canon q) : NextCanon q (execXorI w s) := bitOp_canon h

theorem execAndn_canon {w} (h : s.Canon q) : NextCanon q (execAndn w s) := bitOp_canon h

theorem execNotI_canon {w} (h : s.Canon q) : NextCanon q (execNotI w s) := bitOp_canon h

theorem execShl_canon {w} (h : s.Canon q) : NextCanon q (execShl w s) := intOp_canon h

theorem execShr_canon {w} (h : s.Canon q) : NextCanon q (execShr w s) := intOp_canon h

theorem execSar_canon {w} (h : s.Canon q) : NextCanon q (execSar w s) := intOp_canon h

theorem execRot_canon {w} (h : s.Canon q) : NextCanon q (execRot w s) := intOp_canon h

theorem execBfe_canon {w} (h : s.Canon q) : NextCanon q (execBfe w s) := fieldOp_canon h

theorem execBfi_canon {w} (h : s.Canon q) : NextCanon q (execBfi w s) := fieldOp_canon h

theorem execPopc_canon {w} (h : s.Canon q) : NextCanon q (execPopc w s) := countOp_canon h

theorem execClz_canon {w} (h : s.Canon q) : NextCanon q (execClz w s) := countOp_canon h

theorem execCtz_canon {w} (h : s.Canon q) : NextCanon q (execCtz w s) := countOp_canon h

theorem execBrev_canon {w} (h : s.Canon q) : NextCanon q (execBrev w s) := countOp_canon h

theorem putMask_canon {x d p} (h : s.Canon q) : (s.putMask x d p).Canon q := by
  unfold State.putMask
  split
  · exact modWave_canon h
  · exact h

theorem execIcmp_canon {w} (h : s.Canon q) : NextCanon q (execIcmp w s) := by
  unfold execIcmp
  exact perform_canon h (fun x s' hs' => res_ite (fail_canon hs') (res_ite (fail_canon hs') (.done (putMask_canon hs'))))

theorem execIsel_canon {w} (h : s.Canon q) : NextCanon q (execIsel w s) := by
  unfold execIsel
  refine perform_canon h (fun x s' hs' => ?_)
  split
  · exact fail_canon hs'
  · exact .done (put_canon hs')

theorem moveBody_canon {w x} (h : s.Canon q) : (moveBody w x s).Canon q := by
  unfold moveBody
  split
  · exact fail_canon h
  · exact res_ite (.done (putAffine_canon h)) (.done (put_canon h))

theorem moveOp_canon {i w} (h : s.Canon q) : NextCanon q (moveOp i w s) := perform_canon h (fun _ _ hs' => moveBody_canon hs')

theorem execMovI_canon {w} (h : s.Canon q) : NextCanon q (execMovI w s) := moveOp_canon h

theorem execProm_canon {w} (h : s.Canon q) : NextCanon q (execProm w s) := moveOp_canon h

theorem execMovi_canon {d ty imm} (h : s.Canon q) : NextCanon q (execMovi d ty imm s) := perform_canon h (fun _ _ hs' => .done (put_canon hs'))

theorem convertOp_canon {i w dstOk} (h : s.Canon q) : NextCanon q (convertOp i w dstOk s) := by
  unfold convertOp
  exact perform_canon h (fun x s' hs' => res_ite (fail_canon hs') (res_ite (fail_canon hs')
    (res_ite (.done hs') (.done (setSat_canon (sticky_canon (put_canon hs')))))))

theorem execCvti_canon {w} (h : s.Canon q) : NextCanon q (execCvti w s) := convertOp_canon h

theorem execLea_canon {w} (h : s.Canon q) : NextCanon q (execLea w s) := by
  unfold execLea
  exact perform_canon h (fun x s' hs' => res_ite (fail_canon hs') (res_ite (fail_canon hs')
    (res_ite (.done hs') (res_ite (.done (putAffine_canon hs')) (.done (put_canon hs'))))))

theorem execPickl_canon {w} (h : s.Canon q) : NextCanon q (execPickl w s) := by
  unfold execPickl
  exact perform_canon h (fun x s' hs' => .done (put_canon hs'))

theorem execVtoa_canon {w} (h : s.Canon q) : NextCanon q (execVtoa w s) := by
  unfold execVtoa
  refine perform_canon h (fun x s' hs' => ?_)
  refine res_ite (fail_canon hs') (res_ite (.done hs') ?_)
  split
  · exact .done (putAffine_canon hs')
  · exact fail_canon hs'

theorem execMkaff_canon {w} (h : s.Canon q) : NextCanon q (execMkaff w s) := perform_canon h (fun _ _ hs' => .done (putAffine_canon hs'))

theorem execAbase_canon {w} (h : s.Canon q) : NextCanon q (execAbase w s) := perform_canon h (fun _ _ hs' => .done (put_canon hs'))

theorem execAstride_canon {w} (h : s.Canon q) : NextCanon q (execAstride w s) := perform_canon h (fun _ _ hs' => .done (put_canon hs'))

theorem execVrdx_canon {w} (h : s.Canon q) : NextCanon q (execVrdx w s) := by
  unfold execVrdx
  dsimp only
  refine perform_canon h (fun x s' hs' => ?_)
  split
  · exact .fault hs'
  · exact res_ite (fail_canon hs') (.done (put_canon hs'))

theorem execVwrx_canon {w} (h : s.Canon q) : NextCanon q (execVwrx w s) := by
  unfold execVwrx
  dsimp only
  refine perform_canon h (fun x s' hs' => ?_)
  split
  · exact .fault hs'
  · exact .done (modWave_canon hs')

end Sys2Proof.Machine
end

section
/-! PROOFS. What every step keeps (O3): masks and capabilities. -/
namespace Sys2Proof.Machine

variable {q : Prop} {s : State}

theorem maskOp_canon {i w f} (h : s.Canon q) : NextCanon q (maskOp i w f s) := perform_canon h (fun _ _ hs' => .done (putMask_canon hs'))

theorem execMand_canon {w} (h : s.Canon q) : NextCanon q (execMand w s) := maskOp_canon h

theorem execMor_canon {w} (h : s.Canon q) : NextCanon q (execMor w s) := maskOp_canon h

theorem execMxor_canon {w} (h : s.Canon q) : NextCanon q (execMxor w s) := maskOp_canon h

theorem execMnot_canon {w} (h : s.Canon q) : NextCanon q (execMnot w s) := maskOp_canon h

theorem execMandn_canon {w} (h : s.Canon q) : NextCanon q (execMandn w s) := maskOp_canon h

theorem maskWord_canon {i w f} (h : s.Canon q) : NextCanon q (maskWord i w f s) := perform_canon h (fun _ _ hs' => .done (put_canon hs'))

theorem execMpopc_canon {w} (h : s.Canon q) : NextCanon q (execMpopc w s) := maskWord_canon h

theorem execMffs_canon {w} (h : s.Canon q) : NextCanon q (execMffs w s) := maskWord_canon h

theorem execMtos_canon {w} (h : s.Canon q) : NextCanon q (execMtos w s) := maskWord_canon h

theorem execMlive_canon {w} (h : s.Canon q) : NextCanon q (execMlive w s) := maskWord_canon h

theorem execStom_canon {w} (h : s.Canon q) : NextCanon q (execStom w s) := perform_canon h (fun _ _ hs' => .done (putMask_canon hs'))

theorem capOp_canon {i w regs f} (h : s.Canon q) : NextCanon q (capOp i w regs f s) := by
  unfold capOp
  refine perform_canon h (fun x s' hs' => ?_)
  refine res_ite (.done hs') (res_ite (fail_canon hs') ?_)
  split
  · exact fail_canon hs'
  · exact .done (modWave_canon hs')

theorem execCnarrow_canon {w} (h : s.Canon q) : NextCanon q (execCnarrow w s) := capOp_canon h

theorem execCperm_canon {w} (h : s.Canon q) : NextCanon q (execCperm w s) := capOp_canon h

theorem execCfmt_canon {w} (h : s.Canon q) : NextCanon q (execCfmt w s) := capOp_canon h

theorem execCget_canon {w} (h : s.Canon q) : NextCanon q (execCget w s) := by
  unfold execCget
  exact perform_canon h (fun x s' hs' => .done (put_canon hs'))

theorem execCtag_canon {w} (h : s.Canon q) : NextCanon q (execCtag w s) := perform_canon h (fun _ _ hs' => .done (put_canon hs'))

theorem readCap_canon {ag p} (h : s.Canon q) : (s.readCap ag p).2.2.Canon q := pick_canon (snd_ite (readOnlyWrites_canon h) (readWrites_canon h))

theorem execCld_canon {w} (h : s.Canon q) : NextCanon q (execCld w s) := by
  unfold execCld
  refine perform_canon h (fun x s' hs' => ?_)
  refine res_ite (.done hs') (access_canon hs' (fun ps s2 hs2 => ?_))
  split
  · exact .done hs2
  · exact consume_canon hs2 (fun s3 hs3 => .done (modWave_canon (readCap_canon hs3)))

theorem execCst_canon {w} (h : s.Canon q) : NextCanon q (execCst w s) :=
  perform_canon h (fun _ _ hs' => access_canon hs' (fun _ _ hs2 => .done (canon_foldl (fun _ _ hs3 => queueWrite_canon hs3) (newId_canon hs2))))

end Sys2Proof.Machine
end

section
/-! PROOFS. What every step keeps (O3): floating point and pair words. -/
namespace Sys2Proof.Machine

variable {q : Prop} {s : State}

theorem fltBody_canon {w srcs ok rm f x} (h : s.Canon q) : (fltBody w srcs ok rm f x s).Canon q :=
  res_ite (fail_canon h) (res_ite (fail_canon h) (.done (put_canon h)))

theorem execFadd_canon {w} (h : s.Canon q) : NextCanon q (execFadd w s) := perform_canon h (fun _ _ hs' => fltBody_canon hs')

theorem execFsub_canon {w} (h : s.Canon q) : NextCanon q (execFsub w s) := perform_canon h (fun _ _ hs' => fltBody_canon hs')

theorem execFmul_canon {w} (h : s.Canon q) : NextCanon q (execFmul w s) := perform_canon h (fun _ _ hs' => fltBody_canon hs')

theorem execFfma_canon {w} (h : s.Canon q) : NextCanon q (execFfma w s) := perform_canon h (fun _ _ hs' => fltBody_canon hs')

theorem execFdiv_canon {w} (h : s.Canon q) : NextCanon q (execFdiv w s) := perform_canon h (fun _ _ hs' => fltBody_canon hs')

theorem execFsqrt_canon {w} (h : s.Canon q) : NextCanon q (execFsqrt w s) := perform_canon h (fun _ _ hs' => fltBody_canon hs')

theorem execFmin_canon {w} (h : s.Canon q) : NextCanon q (execFmin w s) := perform_canon h (fun _ _ hs' => fltBody_canon hs')

theorem execFmax_canon {w} (h : s.Canon q) : NextCanon q (execFmax w s) := perform_canon h (fun _ _ hs' => fltBody_canon hs')

theorem execFabs_canon {w} (h : s.Canon q) : NextCanon q (execFabs w s) := perform_canon h (fun _ _ hs' => fltBody_canon hs')

theorem execFneg_canon {w} (h : s.Canon q) : NextCanon q (execFneg w s) := perform_canon h (fun _ _ hs' => fltBody_canon hs')

theorem execFrcp_canon {w} (h : s.Canon q) : NextCanon q (execFrcp w s) := perform_canon h (fun _ _ hs' => fltBody_canon hs')

theorem execFrsq_canon {w} (h : s.Canon q) : NextCanon q (execFrsq w s) := perform_canon h (fun _ _ hs' => fltBody_canon hs')

theorem execFexp2_canon {w} (h : s.Canon q) : NextCanon q (execFexp2 w s) := perform_canon h (fun _ _ hs' => fltBody_canon hs')

theorem execFlog2_canon {w} (h : s.Canon q) : NextCanon q (execFlog2 w s) := perform_canon h (fun _ _ hs' => fltBody_canon hs')

theorem execFsinpi_canon {w} (h : s.Canon q) : NextCanon q (execFsinpi w s) := perform_canon h (fun _ _ hs' => fltBody_canon hs')

theorem execFcospi_canon {w} (h : s.Canon q) : NextCanon q (execFcospi w s) := perform_canon h (fun _ _ hs' => fltBody_canon hs')

theorem execFtanh_canon {w} (h : s.Canon q) : NextCanon q (execFtanh w s) := perform_canon h (fun _ _ hs' => fltBody_canon hs')

theorem execFsigm_canon {w} (h : s.Canon q) : NextCanon q (execFsigm w s) := perform_canon h (fun _ _ hs' => fltBody_canon hs')

theorem execFrnd_canon {w} (h : s.Canon q) : NextCanon q (execFrnd w s) := perform_canon h (fun _ _ hs' => fltBody_canon hs')

theorem execFcmp_canon {w} (h : s.Canon q) : NextCanon q (execFcmp w s) := by
  unfold execFcmp
  exact perform_canon h (fun x s' hs' => res_ite (fail_canon hs') (res_ite (fail_canon hs') (.done (putMask_canon hs'))))

theorem execFcvt_canon {w} (h : s.Canon q) : NextCanon q (execFcvt w s) := convertOp_canon h

theorem execRetag_canon {w} (h : s.Canon q) : NextCanon q (execRetag w s) := perform_canon h (fun _ _ hs' => .done (put_canon hs'))

theorem execFclass_canon {w} (h : s.Canon q) : NextCanon q (execFclass w s) := by
  unfold execFclass
  exact perform_canon h (fun x s' hs' => res_ite (fail_canon hs') (res_ite (fail_canon hs') (.done (put_canon hs'))))

theorem execDotp_canon {w} (h : s.Canon q) : NextCanon q (execDotp w s) := by
  unfold execDotp
  exact perform_canon h (fun x s' hs' => res_ite (fail_canon hs') (res_ite (fail_canon hs') (.done (put_canon hs'))))

theorem execExpr_canon {w in3 tokens} (h : s.Canon q) : NextCanon q (execExpr w in3 tokens s) := by
  unfold execExpr
  exact perform_canon h (fun x s' hs' => res_ite (fail_canon hs') (res_ite (fail_canon hs') (.done (put_canon hs'))))

theorem execFscale_canon {w} (h : s.Canon q) : NextCanon q (execFscale w s) := by
  unfold execFscale
  exact perform_canon h (fun x s' hs' => res_ite (fail_canon hs') (res_ite (fail_canon hs') (.done (put_canon hs'))))

theorem slotBody_canon {p x} (h : s.Canon q) : (slotBody p x s).Canon q := by
  unfold slotBody
  split
  · exact .done h
  · exact intBody_canon h
  · exact intBody_canon h
  · exact intBody_canon h
  · exact bitBody_canon h
  · exact bitBody_canon h
  · exact bitBody_canon h
  · exact intBody_canon h
  · exact intBody_canon h
  · exact intBody_canon h
  · exact intBody_canon h
  · exact intBody_canon h
  · exact moveBody_canon h
  · exact intBody_canon h
  · exact bitBody_canon h
  · exact fltBody_canon h
  · exact fltBody_canon h
  · exact fltBody_canon h
  · exact fltBody_canon h
  · exact fltBody_canon h
  · exact fltBody_canon h
  · exact fltBody_canon h
  · exact moveBody_canon h

theorem slotRun_canon {p x} (h : s.Canon q) : (slotRun p x s).Canon q :=
  res_ite (.done h) (res_ite (fail_canon h) (res_ite (fail_canon h) (res_ite (fail_canon h) (slotBody_canon h))))

theorem execPairWord_canon {p q1} (h : s.Canon q) : NextCanon q (execPairWord p q1 s) := by
  unfold execPairWord
  refine perform_canon h (fun x s' hs' => ?_)
  split
  next he =>
    split
    · exact .fault hs'
    · exact slotRun_canon (canon_of_done he (slotRun_canon hs'))
  · exact slotRun_canon hs'

end Sys2Proof.Machine
end

section
/-! PROOFS. What every step keeps (O3): cross-lane words. -/
namespace Sys2Proof.Machine

variable {q : Prop} {s : State}

theorem execShfl_canon {w} (h : s.Canon q) : NextCanon q (execShfl w s) := by
  unfold execShfl
  refine perform_canon h (fun x s' hs' => ?_)
  split
  · exact fail_canon hs'
  · exact .done (put_canon (pick_canon hs'))

theorem execVote_canon {w} (h : s.Canon q) : NextCanon q (execVote w s) := perform_canon h (fun _ _ hs' => .done (put_canon hs'))

theorem redBody_canon {w f x} (h : s.Canon q) : (redBody w f x s).Canon q := res_ite (fail_canon h) (res_ite (fail_canon h) (.done (put_canon h)))

theorem execVred_canon {w} (h : s.Canon q) : NextCanon q (execVred w s) := perform_canon h (fun _ _ hs' => redBody_canon hs')

theorem execVscan_canon {w} (h : s.Canon q) : NextCanon q (execVscan w s) := perform_canon h (fun _ _ hs' => redBody_canon hs')

theorem execMatchI_canon {w} (h : s.Canon q) : NextCanon q (execMatchI w s) := by
  unfold execMatchI
  exact perform_canon h (fun x s' hs' => .done (put_canon hs'))

end Sys2Proof.Machine
end

section
/-! PROOFS. What every step keeps (O3): loads, stores, atomics and cache words. -/
namespace Sys2Proof.Machine

variable {q : Prop} {s : State}

theorem loadSteps_canon {w ps n} (h : s.Canon q) : (s.loadSteps w ps n).2.Canon q :=
  snd_foldl (fun _ _ hacc => snd_mk (snd_ite (readOnly_canon hacc) (readStep_canon hacc))) h

theorem execLd_canon {w} (h : s.Canon q) : NextCanon q (execLd w s) := by
  unfold execLd
  exact perform_canon h (fun x s' hs' => access_canon hs' (fun ps s2 hs2 => consume_canon hs2
    (fun s3 hs3 => .done (put_canon (loadSteps_canon hs3)))))

theorem execSt_canon {w} (h : s.Canon q) : NextCanon q (execSt w s) := by
  unfold execSt
  exact perform_canon h (fun x s' hs' => access_canon hs' (fun ps s2 hs2 => .done (canon_foldl (fun s3 p hs3 => queueWrite_canon hs3)
    (newId_canon hs2))))

theorem execPfetch_canon {w} (h : s.Canon q) : NextCanon q (execPfetch w s) :=
  perform_canon h (fun _ _ hs' => access_canon hs' (fun _ _ hs2 => .done hs2))

theorem atomOne_canon {w n f l loc} (h : s.Canon q) : (s.atomOne w n f l loc).2.Canon q := by
  unfold State.atomOne
  dsimp only
  exact atomicStep_canon h

theorem execAtom_canon {w} (h : s.Canon q) : NextCanon q (execAtom w s) := by
  unfold execAtom
  exact perform_canon h (fun x s' hs' => res_ite (fail_canon hs') (res_ite (fail_canon hs')
    (steppedAccess_canon hs' (fun l loc s2 hs2 => atomOne_canon hs2) (fun vals s2 hs2 => .done (put_canon hs2)))))

theorem execAtcas_canon {w} (h : s.Canon q) : NextCanon q (execAtcas w s) := by
  unfold execAtcas
  exact perform_canon h (fun x s' hs' => res_ite (fail_canon hs') (res_ite (fail_canon hs')
    (steppedAccess_canon hs' (fun l loc s2 hs2 => atomOne_canon hs2) (fun vals s2 hs2 => .done (put_canon hs2)))))

theorem execCflush_canon {w} (h : s.Canon q) : NextCanon q (execCflush w s) :=
  perform_canon h (fun _ _ hs' => access_canon hs' (fun _ _ hs2 => .done hs2))

theorem execIcinv_canon {w} (h : s.Canon q) : NextCanon q (execIcinv w s) := by
  unfold execIcinv
  dsimp only
  refine perform_canon h (fun x s' hs' => ?_)
  refine res_ite (.done hs') ?_
  split
  · exact .fault hs'
  · exact res_ite (.done hs') (.done (canon_foldl (fun s2 p hs2 => modCore_canon hs2) hs'))

end Sys2Proof.Machine
end

section
/-! PROOFS. What every step keeps (O3): fences, sync objects and barriers. -/
namespace Sys2Proof.Machine

variable {q : Prop} {s : State}

theorem fenceMeet_canon {w e} (h : s.Canon q) : (s.fenceMeet w e).Canon q := canon_foldl (fun _ _ hs' => fullAcquire_canon hs') h

theorem execFence_canon {w} (h : s.Canon q) : NextCanon q (execFence w s) :=
  perform_canon h (fun _ _ hs' => laneSteps_canon hs' (fun _ _ _ hs2 => snd_mk (fenceStep_canon hs2)) (fun _ _ hs2 => .done (fenceMeet_canon hs2)))

theorem execFencePath_canon {w} (h : s.Canon q) : NextCanon q (execFencePath w s) :=
  perform_canon h (fun _ _ hs' => .done (canon_foldl (fun _ _ hs2 => fencePathStep_canon hs2) hs'))

theorem acqStep_canon {ag loc} (h : s.Canon q) : (s.acqStep ag loc).2.Canon q := by
  unfold State.acqStep
  exact fullAcquire_canon (relMerge_canon (atomicStep_canon h))

theorem execAcq_canon {w} (h : s.Canon q) : NextCanon q (execAcq w s) := by
  unfold execAcq
  dsimp only
  exact perform_canon h (fun x s' hs' => steppedAccess_canon hs' (fun l loc s2 hs2 => snd_mk (acqStep_canon hs2))
    (fun vals s2 hs2 => .done (put_canon hs2)))

theorem relStep_canon {vf ag ea pc loc v} (h : s.Canon q) : (s.relStep vf ag ea pc loc v).Canon q :=
  canon_ite (storeOrFail_canon (relMerge_canon (drainWhere_canon h))) (viewLatest_canon (storeOrFail_canon (relMerge_canon (drainWhere_canon h))))

theorem execRelI_canon {w} (h : s.Canon q) : NextCanon q (execRelI w s) := by
  unfold execRelI
  dsimp only
  refine perform_canon h (fun x s' hs' => ?_)
  split
  · exact laneSteps_canon hs' (fun l loc s2 hs2 => snd_mk (relStep_canon hs2)) (fun x' s2 hs2 => .done hs2)
  · exact access_canon hs' (fun ps s2 hs2 => laneSteps_canon hs2 (fun l loc s3 hs3 => snd_mk (relStep_canon hs3)) (fun x' s3 hs3 => .done hs3))

theorem execBindI_canon {w} (h : s.Canon q) : NextCanon q (execBindI w s) := by
  unfold execBindI
  dsimp only
  refine perform_canon h (fun x s' hs' => ?_)
  refine res_ite (.done hs') ?_
  split
  · exact .fault hs'
  · split
    · exact .fault hs'
    · exact res_ite (.fault hs') (res_ite (.fault hs') (.done (modCtx_canon hs')))

theorem execUnbind_canon {w} (h : s.Canon q) : NextCanon q (execUnbind w s) :=
  perform_canon h (fun _ _ hs' => res_ite (.done hs') (.done (modCtx_canon hs')))

theorem abarArriveAt_canon {ag loc b} (h : s.Canon q) : (s.abarArriveAt ag loc b).Canon q := by
  unfold State.abarArriveAt
  dsimp only
  exact canon_ite (relSet_canon (atomicStep_canon h)) (atomicStep_canon h)

theorem withBarrier_canon {x a k} (h : s.Canon q) (hk : ∀ a b t, t.Canon q → (k a b t).Canon q) : (s.withBarrier x a k).Canon q := by
  unfold State.withBarrier
  refine res_ite (.done h) (access_canon h (fun ps s' hs' => ?_))
  split
  · exact hk _ _ _ hs'
  · exact .done hs'

theorem execAbarInit_canon {w} (h : s.Canon q) : NextCanon q (execAbarInit w s) :=
  perform_canon h (fun _ _ hs' => withBarrier_canon hs' (fun _ _ _ hs2 => .done (atomicStep_canon hs2)))

theorem execAbarArrive_canon {w} (h : s.Canon q) : NextCanon q (execAbarArrive w s) :=
  perform_canon h (fun _ _ hs' => withBarrier_canon hs' (fun _ _ _ hs2 => .done (abarArriveAt_canon (releaseLanes_canon hs2))))

theorem execAbarWait_canon {w} (h : s.Canon q) : NextCanon q (execAbarWait w s) :=
  perform_canon h
    (fun _ _ hs' => withBarrier_canon hs' (fun _ _ _ hs2 => res_ite (.done (acquireLanes_canon (abarWaiters_canon (abarWaiters_canon hs2))))
    (.moved (waitOn_canon (abarWaiters_canon hs2)))))

theorem execAbarWaitResume_canon (h : s.Canon q) : NextCanon q (execAbarWaitResume s) := by
  unfold execAbarWaitResume
  dsimp only
  split
  · exact next_ite (.next (leaveWait_canon (acquireLanes_canon (abarWaiters_canon h)))) .refused
  · exact .refused

theorem execAbarTest_canon {w} (h : s.Canon q) : NextCanon q (execAbarTest w s) :=
  perform_canon h (fun _ _ hs' => withBarrier_canon hs' (fun _ _ _ hs2 => .done (put_canon (canon_ite (acquireLanes_canon hs2) hs2))))

end Sys2Proof.Machine
end

section
/-! PROOFS. What every step keeps (O3): candidate mode and the Vestibule. -/
namespace Sys2Proof.Machine

variable {q : Prop} {s : State}

theorem vestStep_canon {die n sig insert} (h : s.Canon q) : (s.vestStep die n sig insert).2.Canon q := by
  unfold State.vestStep
  dsimp only
  exact modDie_canon h

theorem candFinish_canon {w c} (h : s.Canon q) : (s.candFinish w c).Canon q :=
  canon_ite h (canon_ite (setWave_canon h) (exitLanes_canon (setWave_canon h)))

theorem candRetire_canon {w l c code} (h : s.Canon q) : (s.candRetire w l c code).Canon q := by
  unfold State.candRetire
  split
  · exact modWave_canon (snd_ite (snd_ite (snd_mk (vestStep_canon h)) h) h)
  · exact canon_foldl (fun s' p hs' => queueWrite_canon hs') (newId_canon (modWave_canon (modWave_canon
      (snd_ite (snd_ite (snd_mk (vestStep_canon h)) h) h))))

theorem outcomesAnew_canon {w c} (h : s.Canon q) : (s.outcomesAnew w c).2.Canon q := by
  unfold State.outcomesAnew
  dsimp only
  refine snd_ite h ?_
  split
  next he => exact snd_mk (canon_of_snd he (checkAccess_canon h))
  next he => exact snd_mk (canon_of_snd he (checkAccess_canon h))

theorem candStop_canon {w l c code} (h : s.Canon q) : (s.candStop w l c code).Canon q := candFinish_canon (candRetire_canon h)

theorem readWords8_canon {ag loc n} (h : s.Canon q) : (s.readWords8 ag loc n).2.Canon q := snd_foldl (fun _ _ hacc => snd_mk (readSkip_canon hacc)) h

theorem startExample_canon {w l c e} (h : s.Canon q) : (s.startExample w l c e).2.Canon q := by
  unfold State.startExample
  dsimp only
  exact snd_ite (snd_mk (modWave_canon h)) (snd_ite (snd_mk (setPois_canon (modWave_canon h)))
    (snd_mk (modWave_canon (canon_foldl (fun s' k hs' => queueWrite_canon hs') (newId_canon (readWords8_canon (modWave_canon h)))))))

theorem candStart_canon {w l c idx} (h : s.Canon q) : (s.candStart w l c idx).Canon q := by
  unfold State.candStart
  dsimp only
  split
  · refine canon_ite
      (candRetire_canon (modWave_canon (draw_canon (draw_canon (draw_canon (draw_canon (draw_canon (setPois_canon (readWords8_canon h)))))))))
      (canon_ite (candRetire_canon (modWave_canon (draw_canon (draw_canon (draw_canon (draw_canon (draw_canon (readWords8_canon h)))))))) ?_)
    split
    next he1 => exact canon_of_snd he1 (startExample_canon (modWave_canon (readWords8_canon h)))
    next he1 => exact candRetire_canon (canon_of_snd he1 (startExample_canon (modWave_canon (readWords8_canon h))))
  · exact candRetire_canon (modWave_canon (draw_canon (draw_canon (draw_canon (draw_canon (draw_canon h))))))

theorem candEnter_canon {x c startLane} (h : s.Canon q) (hstartLane : ∀ a t, t.Canon q → (startLane a t).Canon q) :
    (s.candEnter x c startLane).Canon q :=
  canon_ite (modWave_canon (modWave_canon h)) (candFinish_canon (canon_foldl (fun _ _ hs' => hstartLane _ _ hs') (modWave_canon h)))

theorem readDescriptor_canon {w l loc} (h : s.Canon q) : (s.readDescriptor w l loc).2.2.Canon q := by
  unfold State.readDescriptor
  exact fields_canon h

theorem execCrun_canon {w} (h : s.Canon q) : NextCanon q (execCrun w s) := by
  unfold execCrun
  refine perform_canon h (fun x s' hs' => res_ite (fail_canon hs') (res_ite (fail_canon hs')
    (res_ite (fail_canon hs') (access_canon hs' (fun ps s2 hs2 => reach_canon hs2 (fun s3 hs3 => ?_))))))
  refine (res_ite (.done (candEnter_canon (setPois_canon hs3) (fun k s4 hs4 => candStart_canon hs4))) ?_)
  have hd : ∀ loc, Snd2Canon q (s3.readDescriptor x.w (lowestLane x.live) loc) := fun loc => readDescriptor_canon hs3
  generalize hgen : s3.readDescriptor x.w (lowestLane x.live) _ = d
  have hd : Snd2Canon q d := hgen ▸ hd _
  refine (res_ite (.fault hd) (res_ite (.fault hd) (res_ite (.fault hd) (res_ite (.fault hd) (res_ite (.fault hd) ?_)))))
  refine (access_canon hd (fun exs s4 hs4 => access_canon hs4 (fun os s5 hs5 => res_ite (.fault hs5) (res_ite (.fault hs5) ?_))))
  exact (.done (candEnter_canon (setAgent_canon hs5) (fun k s6 hs6 => candStart_canon hs6)))

theorem candWord_canon {cost body} (h : s.Canon q) (hbody : ∀ a b c t, t.Canon q → (body a b c t).Canon q) : NextCanon q (s.candWord cost body) := by
  unfold State.candWord
  dsimp only
  split
  · exact .refused
  · split
    · exact .refused
    · refine next_ite (.next (candStop_canon h)) ?_
      split
      next he2 => exact .next (modWave_canon (modWave_canon (canon_of_val he2 (hbody _ _ _ _ (setWave_canon h)))))
      next he2 => exact .next (modWave_canon (canon_of_go he2 (hbody _ _ _ _ (setWave_canon h))))
      · exact .next (candStop_canon (setWave_canon h))
      next he2 =>
        exact next_ite (.next (candStop_canon (setWave_canon h))) (.next (modWave_canon (canon_of_jump he2 (hbody _ _ _ _ (setWave_canon h)))))
      · refine next_ite (.next (candStop_canon (canon_ite (modWave_canon (setWave_canon h)) (setWave_canon h)))) ?_
        split
        next he3 => exact .next (canon_of_snd he3 (startExample_canon (canon_ite (modWave_canon (setWave_canon h)) (setWave_canon h))))
        next he3 =>
          exact .next (candStop_canon (canon_of_snd he3 (startExample_canon (canon_ite (modWave_canon (setWave_canon h)) (setWave_canon h)))))

theorem candAlu_canon {c f} (h : s.Canon q) : NextCanon q (s.candAlu c f) := candWord_canon h (fun _ _ _ _ hs' => .val hs')

theorem candBranch_canon {c p} (h : s.Canon q) : NextCanon q (s.candBranch c p) :=
  candWord_canon h (fun _ _ _ _ hs' => cres_ite (.jump hs') (.go hs'))

theorem execCandHalt_canon {_c} (h : s.Canon q) : NextCanon q (execCandHalt _c s) := candWord_canon h (fun _ _ _ _ _ => .halt)

theorem execCandAdd_canon {c} (h : s.Canon q) : NextCanon q (execCandAdd c s) := candAlu_canon h

theorem execCandSub_canon {c} (h : s.Canon q) : NextCanon q (execCandSub c s) := candAlu_canon h

theorem execCandMul_canon {c} (h : s.Canon q) : NextCanon q (execCandMul c s) := candAlu_canon h

theorem execCandDiv_canon {c} (h : s.Canon q) : NextCanon q (execCandDiv c s) := candWord_canon h (fun _ _ _ _ hs' => cres_ite .stop (.val hs'))

theorem execCandRem_canon {c} (h : s.Canon q) : NextCanon q (execCandRem c s) := candWord_canon h (fun _ _ _ _ hs' => cres_ite .stop (.val hs'))

theorem execCandAnd_canon {c} (h : s.Canon q) : NextCanon q (execCandAnd c s) := candAlu_canon h

theorem execCandOr_canon {c} (h : s.Canon q) : NextCanon q (execCandOr c s) := candAlu_canon h

theorem execCandXor_canon {c} (h : s.Canon q) : NextCanon q (execCandXor c s) := candAlu_canon h

theorem execCandShl_canon {c} (h : s.Canon q) : NextCanon q (execCandShl c s) := candAlu_canon h

theorem execCandShr_canon {c} (h : s.Canon q) : NextCanon q (execCandShr c s) := candAlu_canon h

theorem execCandSar_canon {c} (h : s.Canon q) : NextCanon q (execCandSar c s) := candAlu_canon h

theorem execCandMin_canon {c} (h : s.Canon q) : NextCanon q (execCandMin c s) := candAlu_canon h

theorem execCandMax_canon {c} (h : s.Canon q) : NextCanon q (execCandMax c s) := candAlu_canon h

theorem execCandSlt_canon {c} (h : s.Canon q) : NextCanon q (execCandSlt c s) := candAlu_canon h

theorem execCandSeq_canon {c} (h : s.Canon q) : NextCanon q (execCandSeq c s) := candAlu_canon h

theorem execCandAddi_canon {c} (h : s.Canon q) : NextCanon q (execCandAddi c s) := candAlu_canon h

theorem execCandMuli_canon {c} (h : s.Canon q) : NextCanon q (execCandMuli c s) := candAlu_canon h

theorem execCandAndi_canon {c} (h : s.Canon q) : NextCanon q (execCandAndi c s) := candAlu_canon h

theorem execCandLi_canon {c} (h : s.Canon q) : NextCanon q (execCandLi c s) := candAlu_canon h

theorem execCandLis_canon {c} (h : s.Canon q) : NextCanon q (execCandLis c s) := candAlu_canon h

theorem execCandNeg_canon {c} (h : s.Canon q) : NextCanon q (execCandNeg c s) := candAlu_canon h

theorem execCandAbs_canon {c} (h : s.Canon q) : NextCanon q (execCandAbs c s) := candAlu_canon h

theorem execCandLd_canon {c} (h : s.Canon q) : NextCanon q (execCandLd c s) := by
  unfold execCandLd
  dsimp only
  refine candWord_canon h (fun w l r s' hs' => ?_)
  split
  · exact .stop
  · exact cres_ite .stop (.val (readStep_canon hs'))

theorem execCandSt_canon {c} (h : s.Canon q) : NextCanon q (execCandSt c s) := by
  unfold execCandSt
  refine candWord_canon h (fun w l r s' hs' => ?_)
  split
  · exact .stop
  · exact .go (queueWrite_canon (newId_canon hs'))

theorem execCandLdx_canon {c} (h : s.Canon q) : NextCanon q (execCandLdx c s) := candWord_canon h (fun _ _ _ _ hs' => cres_ite .stop (.val hs'))

theorem execCandBeq_canon {c} (h : s.Canon q) : NextCanon q (execCandBeq c s) := candBranch_canon h

theorem execCandBne_canon {c} (h : s.Canon q) : NextCanon q (execCandBne c s) := candBranch_canon h

theorem execCandBlt_canon {c} (h : s.Canon q) : NextCanon q (execCandBlt c s) := candBranch_canon h

theorem execCandBge_canon {c} (h : s.Canon q) : NextCanon q (execCandBge c s) := candBranch_canon h

theorem execCandJmp_canon {c} (h : s.Canon q) : NextCanon q (execCandJmp c s) := candBranch_canon h

theorem execCandOut_canon {c} (h : s.Canon q) : NextCanon q (execCandOut c s) :=
  candWord_canon h (fun _ _ _ _ hs' => cres_ite .stop (.go (setWave_canon hs')))

theorem execCandSel_canon {c} (h : s.Canon q) : NextCanon q (execCandSel c s) := candWord_canon h (fun _ _ _ _ hs' => .val hs')

theorem execCandClz_canon {c} (h : s.Canon q) : NextCanon q (execCandClz c s) := candAlu_canon h

theorem execCandPopc_canon {c} (h : s.Canon q) : NextCanon q (execCandPopc c s) := candAlu_canon h

theorem execCandIllegal_canon {_op _c} (h : s.Canon q) : NextCanon q (execCandIllegal _op _c s) := candWord_canon h (fun _ _ _ _ _ => .stop)

theorem vestBody_canon {x w insert} (h : s.Canon q) : (s.vestBody x w insert).Canon q := by
  unfold State.vestBody
  split
  · refine res_ite (fail_canon h) ?_
    split
    · exact fail_canon h
    · exact .done (put_canon (snd_foldl (fun acc l hacc => snd_mk (vestStep_canon hacc)) h))
  · exact .done h

theorem execVsti_canon {w} (h : s.Canon q) : NextCanon q (execVsti w s) := perform_canon h (fun _ _ hs' => vestBody_canon hs')

theorem execVstq_canon {w} (h : s.Canon q) : NextCanon q (execVstq w s) := perform_canon h (fun _ _ hs' => vestBody_canon hs')

theorem execVstc_canon {w} (h : s.Canon q) : NextCanon q (execVstc w s) := by
  unfold execVstc
  refine perform_canon h (fun x s' hs' => ?_)
  split
  · exact fail_canon hs'
  · exact res_ite (.done hs') (.done (modDie_canon hs'))

end Sys2Proof.Machine
end

section
/-! PROOFS. What every step keeps (O3): tiles. -/
namespace Sys2Proof.Machine

variable {q : Prop} {s : State}

theorem onTile_canon {x t use bad k} (h : s.Canon q) (hk : ∀ t, t.Canon q → (k t).Canon q) : (s.onTile x t use bad k).Canon q := by
  unfold State.onTile
  refine res_ite (.done h) (res_ite (fail_canon h) ?_)
  split
  · exact .held h
  · exact fail_canon h
  · exact hk _ (modUnit_canon h)

theorem execTcfg_canon {w} (h : s.Canon q) : NextCanon q (execTcfg w s) :=
  perform_canon h (fun _ _ hs' => onTile_canon hs' (fun _ hs2 => .done (modUnit_canon hs2)))

theorem execTrel_canon {w} (h : s.Canon q) : NextCanon q (execTrel w s) := perform_canon h (fun _ _ hs' => onTile_canon hs' (fun _ hs2 => .done hs2))

theorem execTzero_canon {w} (h : s.Canon q) : NextCanon q (execTzero w s) :=
  perform_canon h
    (fun _ _ hs' => onTile_canon hs' (fun _ hs2 => .done (releaseLanes_canon (canon_foldl (fun _ _ hs3 => queueWrite_canon hs3) (newId_canon hs2)))))

theorem execTwait_canon {w} (h : s.Canon q) : NextCanon q (execTwait w s) :=
  perform_canon h (fun _ _ hs' => onTile_canon hs' (fun _ hs2 => .done (acquireLanes_canon hs2)))

theorem execTstat_canon {w} (h : s.Canon q) : NextCanon q (execTstat w s) :=
  perform_canon h (fun _ _ hs' => res_ite (.done hs') (res_ite (fail_canon hs') (.done (put_canon hs'))))

theorem endHold_canon {w m} (h : s.Canon q) : (s.endHold w m).Canon q := modWave_canon h

theorem execTileWaitResume_canon (h : s.Canon q) : NextCanon q (execTileWaitResume s) := by
  unfold execTileWaitResume
  dsimp only
  split
  · exact next_ite (.next (endHold_canon h)) .refused
  · exact .refused

end Sys2Proof.Machine
end

section
/-! PROOFS. What every step keeps (O3): operations of engine contexts. -/
namespace Sys2Proof.Machine

variable {q : Prop} {s : State}

theorem readGran_canon {ag loc n} (h : s.Canon q) : (s.readGran ag loc n).2.Canon q := snd_foldl (fun _ _ hacc => snd_mk (readStep_canon hacc)) h

theorem writeGran_canon {ag loc bs instr ea pc} (h : s.Canon q) : (s.writeGran ag loc bs instr ea pc).Canon q :=
  canon_foldl (fun _ _ hs' => queueWrite_canon hs') h

theorem issueOp_canon {u e wave kind start} (h : s.Canon q) : (s.issueOp u e wave kind start).Canon q := modUnit_canon h

theorem modOp_canon {u e n f} (h : s.Canon q) : (s.modOp u e n f).Canon q := modUnit_canon h

theorem addRequest_canon {k units who} (h : s.Canon q) : (s.addRequest k units who).Canon q := by
  unfold State.addRequest
  exact modCluster_canon (pick_canon h)

theorem requestCurrent_canon {u e n units} (h : s.Canon q) : (s.requestCurrent u e n units).Canon q := modOp_canon (addRequest_canon h)

theorem returnCurrent_canon {u e n units} (h : s.Canon q) : (s.returnCurrent u e n units).Canon q := by
  unfold State.returnCurrent
  split
  · exact h
  · exact modOp_canon (modCluster_canon h)

theorem undoEntry_canon {o} (h : s.Canon q) : (s.undoEntry o).Canon q := by
  unfold State.undoEntry
  split
  · exact canon_foldl (fun s' p hs' => modUnit_canon hs') h
  · exact modWave_canon (canon_foldl (fun s' p hs' => modUnit_canon hs') h)

theorem endHolds_canon {u hd} (h : s.Canon q) : (s.endHolds u hd).Canon q := canon_foldl (fun _ _ hs' => modWave_canon hs') h

theorem completeOp_canon {u e n} (h : s.Canon q) : (s.completeOp u e n).Canon q :=
  releaseGroup_canon (canon_ite (endHolds_canon (modUnit_canon (fullRelease_canon h))) (modUnit_canon (fullRelease_canon h)))

theorem contribute_canon {key g rows clock failed} (h : s.Canon q) : (s.contribute key g rows clock failed).Canon q := setPkg_canon h

theorem memberFails_canon {u o} (h : s.Canon q) : (s.memberFails u o).Canon q := by
  unfold State.memberFails
  split
  · refine canon_ite h ?_
    split
    · exact canon_ite (contribute_canon h) h
    · exact h
  · exact h

theorem abandonOp_canon {u e o} (h : s.Canon q) : (s.abandonOp u e o).Canon q := by
  unfold State.abandonOp
  refine completeOp_canon ?_
  split
  · exact modUnit_canon (undoEntry_canon (memberFails_canon (returnCurrent_canon h)))
  · exact undoEntry_canon (memberFails_canon (returnCurrent_canon h))

theorem recordFault_canon {u e n code entry core} (h : s.Canon q) : (s.recordFault u e n code entry core).Canon q :=
  canon_ite (escalate_canon (modUnit_canon h)) (modUnit_canon h)

theorem engineFault_canon {u e o code core} (h : s.Canon q) : (s.engineFault u e o code core).Canon q := abandonOp_canon (recordFault_canon h)

theorem execEngineLimitResume_canon (h : s.Canon q) : NextCanon q (execEngineLimitResume s) := by
  unfold execEngineLimitResume
  dsimp only
  split
  · exact next_ite (.next (endHold_canon h)) .refused
  · exact .refused

theorem grantTo_canon {a} (h : s.Canon q) : (s.grantTo a).Canon q := by
  unfold State.grantTo
  split
  · exact modOp_canon h
  · exact modWave_canon h

theorem execCurrentReservationGrant_canon (h : s.Canon q) : NextCanon q (execCurrentReservationGrant s) := by
  unfold execCurrentReservationGrant
  dsimp only
  split
  · exact .refused
  · exact next_ite (.next (grantTo_canon (setCluster_canon h))) .refused

end Sys2Proof.Machine
end

section
/-! PROOFS. What every step keeps (O3): matrix operations. -/
namespace Sys2Proof.Machine

variable {q : Prop} {s : State}

theorem execGang_canon {w} (h : s.Canon q) : NextCanon q (execGang w s) := by
  unfold execGang
  refine perform_canon h (fun x s' hs' => ?_)
  refine res_ite (.done hs') ?_
  split
  · exact .fault hs'
  next he => exact .done (canon_of_ok he (writeStatus_canon hs'))

theorem execMown_canon {w} (h : s.Canon q) : NextCanon q (execMown w s) :=
  perform_canon h (fun _ _ hs' => res_ite (.done hs') (res_ite (fail_canon hs') (res_ite (.done hs')
    (res_ite (.done (setCore_canon hs')) (.held (setCore_canon hs'))))))

theorem execMownGrant_canon (h : s.Canon q) : NextCanon q (execMownGrant s) := by
  unfold execMownGrant
  dsimp only
  split
  · exact .next (endHolds_canon (modUnit_canon (setCore_canon h)))
  · exact .refused

theorem execMpass_canon {w} (h : s.Canon q) : NextCanon q (execMpass w s) :=
  perform_canon h (fun _ _ hs' => res_ite (.done hs') (res_ite (.held hs') (.done (dropOwner_canon hs'))))

theorem matrixIssue_canon {u sub td tb members c0 cn} (h : s.Canon q) : (s.matrixIssue u sub td tb members c0 cn).Canon q :=
  issueOp_canon (modUnit_canon (snd_foldl (fun _ _ hacc => snd_foldl (fun _ _ hacc' => releaseView_canon hacc') hacc) h))

theorem matrixBody_canon {x sub w r} (h : s.Canon q) : (s.matrixBody x sub w r).Canon q := by
  unfold State.matrixBody
  refine res_ite (.done h) (res_ite (fail_canon h) ?_)
  split
  · exact fail_canon h
  · refine res_ite (fail_canon h) (res_ite (.held (modUnit_canon h)) ?_)
    split
    · exact .held h
    · exact fail_canon h
    · exact res_ite (.held h) (.done (matrixIssue_canon h))

theorem execMma_canon {w} (h : s.Canon q) : NextCanon q (execMma w s) := perform_canon h (fun _ _ hs' => matrixBody_canon hs')

theorem execMmaCks_canon {w} (h : s.Canon q) : NextCanon q (execMmaCks w s) := perform_canon h (fun _ _ hs' => matrixBody_canon hs')

theorem execMstep_canon {w} (h : s.Canon q) : NextCanon q (execMstep w s) := perform_canon h (fun _ _ hs' => matrixBody_canon hs')

theorem latchLeave_canon {u hs} (h : s.Canon q) : (s.latchLeave u hs).Canon q :=
  canon_foldl (fun _ _ hs' => leaveWait_canon (modWave_canon hs')) (modUnit_canon h)

theorem execGangLatchMatch_canon (h : s.Canon q) : NextCanon q (execGangLatchMatch s) := by
  unfold execGangLatchMatch
  dsimp only
  split
  · exact .refused
  · refine next_ite .refused (next_ite (.next (latchFault_canon h)) ?_)
    split
    · exact .refused
    · split
      · exact .next (latchFault_canon h)
      · split
        · exact .refused
        · exact .next (latchFault_canon h)
        · exact next_ite .refused (.next (latchLeave_canon (matrixIssue_canon h)))

theorem readRecs_canon {ag u g kg c count} (h : s.Canon q) : (s.readRecs ag u g kg c count).2.2.Canon q :=
  snd2_foldl (fun _ _ hacc => snd2_mk (readGran_canon hacc)) h

theorem writeChanged_canon {ag loc old new instr} (h : s.Canon q) : (s.writeChanged ag loc old new instr).Canon q :=
  canon_foldl (fun _ _ hs' => canon_ite hs' (queueWrite_canon hs')) h

theorem mmaGroup_canon {u n sub td tb members c0 c} (h : s.Canon q) : (s.mmaGroup u n sub td tb members c0 c).Canon q := by
  unfold State.mmaGroup
  generalize 16 = records
  refine modUnit_canon (writeChanged_canon (newId_canon ?_))
  refine snd2_foldl (fun acc k hacc => snd2_mk ?_) (snd2_mk (readGran_canon (canon_ite (recordFault_canon (readRecs_canon ?_)) (readRecs_canon ?_))))
  · split
    · exact hacc
    · exact draw_canon hacc
  · exact snd2_foldl (fun acc m hacc => snd2_mk (readRecs_canon hacc)) h
  · exact snd2_foldl (fun acc m hacc => snd2_mk (readRecs_canon hacc)) h

theorem mmaGroups_canon {u n sub td tb members c0 cn} (h : s.Canon q) : (s.mmaGroups u n sub td tb members c0 cn).Canon q :=
  canon_foldl (fun _ _ hs' => mmaGroup_canon hs') (pick_canon h)

theorem execMmaComplete_canon (h : s.Canon q) : NextCanon q (execMmaComplete s) := by
  unfold execMmaComplete
  dsimp only
  split
  · exact .refused
  · split
    · exact next_ite .refused (next_ite (.next (requestCurrent_canon h)) (next_ite .refused
        (next_ite (.next (mmaGroups_canon h)) (.next (completeOp_canon (returnCurrent_canon
        (fullRelease_canon (modUnit_canon (mmaGroups_canon h)))))))))
    · exact .refused

end Sys2Proof.Machine
end

section
/-! PROOFS. What every step keeps (O3): command chains. -/
namespace Sys2Proof.Machine

variable {q : Prop} {s : State}

theorem chainBody_canon {x w} (h : s.Canon q) : (s.chainBody x w).Canon q := by
  unfold State.chainBody
  refine res_ite (.done h) ?_
  split
  · exact .fault h
  · exact res_ite (.held h) (.done (issueOp_canon (snd_foldl (fun acc l hacc => releaseView_canon hacc) h)))

theorem execCgo_canon {w} (h : s.Canon q) : NextCanon q (execCgo w s) := perform_canon h (fun _ _ hs' => chainBody_canon hs')

theorem execGgo_canon {w} (h : s.Canon q) : NextCanon q (execGgo w s) := perform_canon h (fun _ _ hs' => chainBody_canon hs')

theorem execXgo_canon {w} (h : s.Canon q) : NextCanon q (execXgo w s) := perform_canon h (fun _ _ hs' => chainBody_canon hs')

theorem engPlaces_canon {u rcv e o k align ea n} (h : s.Canon q) : (s.engPlaces u rcv e o k align ea n).2.Canon q := by
  unfold State.engPlaces
  dsimp only
  refine snd_ite h ?_
  split
  · exact snd_ite (snd_mk (checkAccess_canon h)) (snd_mk (modOp_canon (checkAccess_canon h)))
  · exact snd_mk (checkAccess_canon h)
  · exact snd_mk (checkAccess_canon h)
  · exact snd_mk (checkAccess_canon h)

theorem engRead_canon {u e o align ea n} (h : s.Canon q) : (s.engRead u e o align ea n).2.Canon q := by
  unfold State.engRead
  split
  next he => exact canon_of_snd he (engPlaces_canon h)
  next he =>
    exact snd_ite (snd_mk (canon_of_snd he (engPlaces_canon h))) (snd_ite (snd_mk (canon_of_snd he (engPlaces_canon h)))
      (snd_mk (snd_foldl (fun acc p hacc => snd_mk (readGran_canon hacc)) (snd_mk (canon_of_snd he (engPlaces_canon h))))))

theorem countBytes_canon {u n} (h : s.Canon q) : (s.countBytes u n).Canon q := modUnit_canon h

theorem engWrite_canon {u rcv e o ea bs} (h : s.Canon q) : (s.engWrite u rcv e o ea bs).2.Canon q := by
  unfold State.engWrite
  split
  next he => exact canon_of_snd he (engPlaces_canon h)
  next he =>
    exact countBytes_canon (snd_foldl (fun acc p hacc => snd_mk (writeGran_canon hacc)) (snd_mk (newId_canon (canon_of_snd he (engPlaces_canon h)))))

theorem faultOneOf_canon {u e o l} (h : s.Canon q) : (s.faultOneOf u e o l).Canon q := by
  unfold State.faultOneOf
  dsimp only
  split
  · exact pick_canon h
  · exact engineFault_canon (pick_canon h)

theorem engSat_canon {o sat} (h : s.Canon q) : (s.engSat o sat).Canon q := canon_ite h (setSat_canon h)

theorem readRec_canon {ag t idx} (h : s.Canon q) : (s.readRec ag t idx).2.2.Canon q := readGran_canon h

theorem readTileRow_canon {ag t row n} (h : s.Canon q) : (s.readTileRow ag t row n).2.Canon q :=
  snd_ite h (snd_ite (snd_mk (readGran_canon h)) (snd_mk (snd2_foldl (fun _ _ hacc => snd2_mk (readRec_canon hacc)) h)))

theorem readSource_canon {u e o d r} (h : s.Canon q) : (s.readSource u e o d r).2.Canon q := by
  unfold State.readSource
  refine snd_ite ?_ (engRead_canon h)
  split
  next he => exact snd_mk (canon_of_snd he (engRead_canon h))
  next he => exact engRead_canon (canon_of_snd he (engRead_canon h))

theorem writeCells_canon {ag cells instr} (h : s.Canon q) : (s.writeCells ag cells instr).Canon q :=
  canon_foldl (fun _ _ hs' => queueWrite_canon hs') h

theorem fillRows_canon {u e o d t row xss} (h : s.Canon q) : (s.fillRows u e o d t row xss).Canon q :=
  engSat_canon (canon_ite (modUnit_canon (countBytes_canon (writeCells_canon (newId_canon h)))) (countBytes_canon (writeCells_canon (newId_canon h))))

theorem fetchRows_canon {u e n d first a} (h : s.Canon q) : (s.fetchRows u e n d first a).2.Canon q := by
  induction a generalizing s with
  | zero => exact h
  | succ left ih =>
    unfold State.fetchRows
    split
    · exact h
    · split
      next he => exact canon_of_snd he (readSource_canon h)
      next he => exact ih (modOp_canon (canon_of_snd he (readSource_canon h)))

theorem drainRows_canon {u e o d t first k} (h : s.Canon q) : (s.drainRows u e o d t first k).2.Canon q := by
  unfold State.drainRows
  refine snd_foldl (fun acc i hacc => ?_) h
  split
  · exact hacc
  · split
    next he => exact snd_mk (canon_of_snd he (readTileRow_canon hacc))
    next he => exact snd_mk (canon_of_snd he (readTileRow_canon hacc))

theorem readRows_canon {u e n d first k} (h : s.Canon q) : (s.readRows u e n d first k).2.Canon q := by
  unfold State.readRows
  split
  · exact h
  · split
    · exact drainRows_canon h
    · split
      next he2 => exact canon_of_snd he2 (fetchRows_canon h)
      next he2 => exact canon_of_snd he2 (fetchRows_canon h)

theorem writeAll_canon {u e o ea bs a} (h : s.Canon q) : (s.writeAll u e o ea bs a).2.Canon q := by
  induction a generalizing s with
  | nil => exact h
  | cons r rs ih =>
    unfold State.writeAll
    split
    next he => exact canon_of_snd he (engWrite_canon h)
    next he => exact ih (canon_of_snd he (engWrite_canon h))

theorem putRows_canon {u e o d r rows} (h : s.Canon q) : (s.putRows u e o d r rows).2.Canon q := by
  unfold State.putRows
  split
  · exact canon_foldl (fun s' rcv hs' => fillRows_canon hs') h
  · split
    · exact h
    · exact writeAll_canon (engSat_canon h)

theorem runRows_canon {u e n d a} (h : s.Canon q) : (s.runRows u e n d a).2.Canon q := by
  induction a generalizing s with
  | zero => exact h
  | succ fuel ih =>
    unfold State.runRows
    dsimp only
    split
    · exact h
    · refine snd_ite h ?_
      split
      next he => exact canon_of_snd he (readRows_canon h)
      next he =>
        have ht := canon_of_snd he (readRows_canon h)
        split
        next he' => exact canon_of_snd he' (putRows_canon ht)
        next he' => exact ih (modOp_canon (canon_of_snd he' (putRows_canon ht)))

theorem arriveAt_canon {u e n d rs} (h : s.Canon q) : (s.arriveAt u e n d rs).Canon q := by
  unfold State.arriveAt
  refine modOp_canon (canon_foldl (fun s' r hs' => ?_) h)
  split
  · exact abarArriveAt_canon (fullRelease_canon hs')
  · exact hs'

theorem arriveSome_canon {u e o d} (h : s.Canon q) : (s.arriveSome u e o d).2.Canon q := arriveAt_canon (pick_canon h)

theorem abandonAll_canon {u e} (h : s.Canon q) : (s.abandonAll u e).Canon q := canon_foldl (fun _ _ hs' => abandonOp_canon hs') h

theorem finishEntry_canon {u e n} (h : s.Canon q) : (s.finishEntry u e n).Canon q := by
  unfold State.finishEntry
  split
  · exact h
  · exact canon_ite
      (abandonAll_canon (modOp_canon (returnCurrent_canon (canon_foldl (fun s' p hs' => modUnit_canon hs')
      (canon_foldl (fun s' p hs' => fullRelease_canon hs') h))))) (modOp_canon (returnCurrent_canon
      (canon_foldl (fun s' p hs' => modUnit_canon hs') (canon_foldl (fun s' p hs' => fullRelease_canon hs') h))))

theorem passEntry_canon {u e o d} (h : s.Canon q) : (s.passEntry u e o d).Canon q :=
  canon_ite (finishEntry_canon (arriveSome_canon h)) (arriveSome_canon h)

theorem parkOp_canon {u e o ea acc reason level} (h : s.Canon q) : (s.parkOp u e o ea acc reason level).Canon q :=
  canon_ite (engineFault_canon h) (postFault_canon (modOp_canon h))

theorem stopEntry_canon {u e n x} (h : s.Canon q) : (s.stopEntry u e n x).Canon q := by
  unfold State.stopEntry
  split
  · exact h
  · split
    · exact engineFault_canon h
    · exact canon_ite (abandonAll_canon h) (parkOp_canon h)
    · exact canon_ite (abandonAll_canon h) h

theorem entryNow_canon {u e o} (h : s.Canon q) : (s.entryNow u e o).2.Canon q := by
  unfold State.entryNow
  split
  · exact h
  · split
    next he1 => exact canon_of_snd he1 (readEntry_canon h)
    next he1 => exact modOp_canon (canon_of_snd he1 (readEntry_canon h))

theorem atEntry_canon {row k} (h : s.Canon q) (hk : ∀ t a b c d, t.Canon q → NextCanon q (k t a b c d)) : NextCanon q (s.atEntry row k) := by
  unfold State.atEntry
  dsimp only
  split
  · exact .refused
  · exact next_ite .refused (hk _ _ _ _ _ (entryNow_canon h))

theorem moveTiles_canon {u o d} (h : s.Canon q) : (s.moveTiles u o d).1.Canon q := by
  unfold State.moveTiles
  dsimp only
  refine fst_foldl (fun acc t hacc => ?_) h
  split
  · exact fst_mk (modUnit_canon hacc)
  · exact hacc

theorem reachEntry_canon {u e o d} (h : s.Canon q) : OptCanon q (s.reachEntry u e o d) :=
  opt_ite (.some (faultOneOf_canon h)) (opt_ite .none (opt_ite (.some (faultOneOf_canon (modOp_canon (moveTiles_canon h))))
    (opt_ite (opt_ite .none (.some (modOp_canon (moveTiles_canon h)))) (opt_ite (opt_ite .none
    (.some (requestCurrent_canon (modOp_canon (modWave_canon (modOp_canon (moveTiles_canon h)))))))
    (.some (requestCurrent_canon (modOp_canon (moveTiles_canon h))))))))

theorem landRows_canon {u e o d} (h : s.Canon q) : (s.landRows u e o d).2.Canon q := by
  unfold State.landRows
  dsimp only
  split
  next he => exact canon_of_snd he (fetchRows_canon (pick_canon h))
  next he =>
    exact snd_ite (snd_mk (canon_of_snd he (fetchRows_canon (pick_canon h)))) (snd_mk (modOp_canon
      (modWave_canon (engSat_canon (canon_of_snd he (fetchRows_canon (pick_canon h)))))))

theorem someRows_canon {u e o d} (h : s.Canon q) : (s.someRows u e o d).2.Canon q := runRows_canon (pick_canon h)

theorem moveEntry_canon {u e o d} (h : s.Canon q) : OptCanon q (s.moveEntry u e o d) := by
  unfold State.moveEntry
  dsimp only
  refine opt_ite .none (opt_ite (.some (faultOneOf_canon h)) ?_)
  split
  · exact opt_ite .none (.some (stopEntry_canon (snd_ite (landRows_canon h) (someRows_canon h))))
  · exact .some (stopEntry_canon (snd_ite (landRows_canon h) (someRows_canon h)))
  · exact .some (canon_ite (passEntry_canon (snd_ite (landRows_canon h) (someRows_canon h))) (snd_ite (landRows_canon h) (someRows_canon h)))

theorem stageEntry_canon {row u e o d} (h : s.Canon q) : NextCanon q (s.stageEntry row u e o d) := by
  unfold State.stageEntry
  split
  next he => exact .next (canon_of_some he (opt_ite (reachEntry_canon h) (opt_ite (moveEntry_canon h) .none)))
  · exact .refused

theorem execCopyEntry_canon (h : s.Canon q) : NextCanon q (execCopyEntry s) := by
  unfold execCopyEntry
  refine atEntry_canon h (fun s' u e o d hs' => ?_)
  split
  · exact .next (engineFault_canon hs')
  · exact next_ite (stageEntry_canon hs') .refused

theorem execGatherEntry_canon (h : s.Canon q) : NextCanon q (execGatherEntry s) := by
  unfold execGatherEntry
  refine atEntry_canon h (fun s' u e o d hs' => ?_)
  split
  · exact next_ite (stageEntry_canon hs') .refused
  · exact .refused

theorem execLandingTransferComplete_canon (h : s.Canon q) : NextCanon q (execLandingTransferComplete s) := by
  unfold execLandingTransferComplete
  dsimp only
  split
  · exact .refused
  · split
    · exact next_ite (.next (passEntry_canon (canon_ite h (modWave_canon h)))) .refused
    · exact .refused

theorem execLoopEntry_canon (h : s.Canon q) : NextCanon q (execLoopEntry s) := by
  unfold execLoopEntry
  refine atEntry_canon h (fun s' u e o d hs' => ?_)
  split
  · exact next_ite (.next (modOp_canon hs')) .refused
  · exact .refused

theorem execCondEntry_canon (h : s.Canon q) : NextCanon q (execCondEntry s) := by
  unfold execCondEntry
  refine atEntry_canon h (fun s' u e o d hs' => ?_)
  split
  · refine next_ite .refused ?_
    split
    · exact .next (engineFault_canon hs')
    · exact .refused
    · exact .next (modOp_canon (fullAcquire_canon hs'))
  · exact .refused

theorem execArriveOnlyEntry_canon (h : s.Canon q) : NextCanon q (execArriveOnlyEntry s) := by
  unfold execArriveOnlyEntry
  refine atEntry_canon h (fun s' u e o d hs' => ?_)
  split
  · refine next_ite .refused ?_
    split
    · exact .next (engineFault_canon hs')
    · exact next_ite (.next (faultOneOf_canon hs')) (next_ite (.next (canon_ite (modOp_canon (arriveSome_canon hs')) (arriveSome_canon hs')))
        .refused)
  · exact .refused

theorem putList_canon {u e o d a} (h : s.Canon q) : (s.putList u e o d a).2.Canon q := by
  induction a generalizing s with
  | nil => exact h
  | cons x xs ih =>
    unfold State.putList
    dsimp only
    split
    next he => exact canon_of_snd he (putRows_canon (engSat_canon h))
    next he => exact ih (modOp_canon (canon_of_snd he (putRows_canon (engSat_canon h))))

theorem collGive_canon {u e o d g} (h : s.Canon q) : (s.collGive u e o d g).2.Canon q := by
  unfold State.collGive
  dsimp only
  split
  · split
    next he1 => exact canon_of_snd he1 (drainRows_canon h)
    next he1 => exact modOp_canon (contribute_canon (engSat_canon (canon_of_snd he1 (drainRows_canon h))))
  · split
    next he1 => exact canon_of_snd he1 (fetchRows_canon (pick_canon h))
    next he1 =>
      exact canon_ite (canon_of_snd he1 (fetchRows_canon (pick_canon h))) (modOp_canon (contribute_canon
        (engSat_canon (canon_of_snd he1 (fetchRows_canon (pick_canon h))))))

theorem collTake_canon {u e o d g round paced bad} (h : s.Canon q) : OptCanon q (s.collTake u e o d g round paced bad) := by
  unfold State.collTake
  refine opt_ite .none (opt_ite (.some (engineFault_canon (canon_ite h (modOp_canon (modCluster_canon h))))) ?_)
  refine .some ?_
  split
  next he => exact stopEntry_canon (canon_of_snd he (putList_canon (pick_canon (canon_ite h (modOp_canon (modCluster_canon h))))))
  next he =>
    exact canon_ite (passEntry_canon (canon_of_snd he (putList_canon (pick_canon (canon_ite h (modOp_canon (modCluster_canon h)))))))
      (canon_of_snd he (putList_canon (pick_canon (canon_ite h (modOp_canon (modCluster_canon h))))))

theorem runCollective_canon {u e o d g} (h : s.Canon q) : OptCanon q (s.runCollective u e o d g) := by
  unfold State.runCollective
  refine opt_ite (.some (faultOneOf_canon h)) ?_
  split
  · exact collTake_canon h
  · refine opt_ite .none ?_
    split
    next he1 => exact .some (stopEntry_canon (canon_of_snd he1 (collGive_canon h)))
    next he1 => exact .some (canon_of_snd he1 (collGive_canon h))

theorem execCollectiveEntry_canon (h : s.Canon q) : NextCanon q (execCollectiveEntry s) := by
  unfold execCollectiveEntry
  refine atEntry_canon h (fun s' u e o d hs' => ?_)
  split
  · refine next_ite .refused ?_
    split
    next he =>
      refine .next (canon_of_some he (opt_ite (reachEntry_canon hs') (opt_ite .none ?_)))
      split
      · exact runCollective_canon hs'
      · exact .some (engineFault_canon hs')
    · exact .refused
  · exact .refused

theorem execEndEntry_canon (h : s.Canon q) : NextCanon q (execEndEntry s) := by
  unfold execEndEntry
  refine atEntry_canon h (fun s' u e o d hs' => ?_)
  split
  · exact next_ite (.next (completeOp_canon hs')) .refused
  · exact .refused

theorem execEngineOperationStart_canon (h : s.Canon q) : NextCanon q (execEngineOperationStart s) := by
  unfold execEngineOperationStart
  dsimp only
  split
  · exact .refused
  · refine next_ite .refused (next_ite (.next (abandonOp_canon h)) ?_)
    split
    · exact .next (canon_foldl (fun s' t hs' => fullAcquire_canon hs') (modOp_canon h))
    · split
      next he2 => exact .next (engineFault_canon (canon_of_snd he2 (readEntry_canon (modOp_canon h))))
      next he2 =>
        exact next_ite (.next (engineFault_canon (modOp_canon (canon_of_snd he2 (readEntry_canon (modOp_canon h))))))
          (.next (modOp_canon (canon_of_snd he2 (readEntry_canon (modOp_canon h)))))

theorem suspendOp_canon {u e} (h : s.Canon q) : (s.suspendOp u e).Canon q := by
  unfold State.suspendOp
  split
  · exact h
  · refine returnCurrent_canon (canon_ite h ?_)
    split
    · exact canon_foldl (fun s' c hs' => mmaGroup_canon hs') (pick_canon h)
    · split
      · exact h
      · exact canon_ite h (runRows_canon (pick_canon h))

theorem midEntry_canon {o} (h : s.Canon q) : (s.midEntry o).2.Canon q := by
  unfold State.midEntry
  dsimp only
  split <;> exact pick_canon h

theorem discardOps_canon {u} (h : s.Canon q) : (s.discardOps u).Canon q := by
  unfold State.discardOps
  refine canon_foldl (fun s' e hs' => ?_) h
  split
  · exact hs'
  · exact canon_ite (modOp_canon (midEntry_canon hs')) (abandonAll_canon (midEntry_canon hs'))

theorem onContext_canon {x a k} (h : s.Canon q) (hk : ∀ a b c, (k a b c).Canon q) : (s.onContext x a k).Canon q :=
  res_ite (.done h) (res_ite (fail_canon h) (hk _ _ _))

theorem execTlge_canon {w} (h : s.Canon q) : NextCanon q (execTlge w s) :=
  perform_canon h (fun _ _ hs' => onContext_canon hs' (fun _ _ _ => res_ite (.done (acquireLanes_canon hs')) (.moved (waitOn_canon hs'))))

theorem execTlgeResume_canon (h : s.Canon q) : NextCanon q (execTlgeResume s) := by
  unfold execTlgeResume
  dsimp only
  split
  · exact next_ite (.next (leaveWait_canon (acquireLanes_canon h))) .refused
  · exact .refused

theorem execTlout_canon {w} (h : s.Canon q) : NextCanon q (execTlout w s) :=
  perform_canon h (fun _ _ hs' => onContext_canon hs' (fun _ _ _ => res_ite (.done hs') (.moved (waitOn_canon hs'))))

theorem execTloutResume_canon (h : s.Canon q) : NextCanon q (execTloutResume s) := by
  unfold execTloutResume
  dsimp only
  split
  · exact next_ite (.next (leaveWait_canon h)) .refused
  · exact .refused

theorem execTlrd_canon {w} (h : s.Canon q) : NextCanon q (execTlrd w s) :=
  perform_canon h (fun _ _ hs' => onContext_canon hs' (fun _ _ _ => .done (put_canon hs')))

theorem execTliss_canon {w} (h : s.Canon q) : NextCanon q (execTliss w s) :=
  perform_canon h (fun _ _ hs' => onContext_canon hs' (fun _ _ _ => .done (put_canon hs')))

theorem execTlflt_canon {w} (h : s.Canon q) : NextCanon q (execTlflt w s) :=
  perform_canon h (fun _ _ hs' => onContext_canon hs' (fun _ _ _ => .done (modUnit_canon (put_canon hs'))))

theorem execCommit_canon {w} (h : s.Canon q) : NextCanon q (execCommit w s) := by
  unfold execCommit
  dsimp only
  refine perform_canon h (fun x s' hs' => ?_)
  split
  · exact .held hs'
  · exact res_ite (.held hs') (fail_canon hs')
  · exact res_ite (fail_canon hs') (.done (modWave_canon hs'))

theorem execCommitResume_canon (h : s.Canon q) : NextCanon q (execCommitResume s) := by
  unfold execCommitResume
  dsimp only
  split
  · exact next_ite (.next (endHold_canon h)) .refused
  · exact .refused

end Sys2Proof.Machine
end

section
/-! PROOFS. What every step keeps (O3): the work of a context on the cores. -/
namespace Sys2Proof.Machine

variable {q : Prop} {s : State}

theorem useRegion_canon {n core head ks} (h : s.Canon q) : (s.useRegion n core head ks).Canon q :=
  canon_foldl (fun _ _ hs' => devUse_canon hs') (canon_ite (devUse_canon h) h)

theorem setRegion_canon {n core head fs} (h : s.Canon q) : (s.setRegion n core head fs).Canon q := by
  unfold State.setRegion
  exact modLaunch_canon (devWrite_canon (canon_foldl (fun s' p hs' => canon_ite hs' (fields_canon (devWrite_canon hs'))) h))

theorem regionPush_canon {core q1} (h : s.Canon q) : (s.regionPush core q1).Canon q := setRegion_canon (useRegion_canon h)

theorem regionUnder_canon {core q1} (h : s.Canon q) : (s.regionUnder core q1).Canon q := setRegion_canon (useRegion_canon h)

theorem storePage_canon {n off len} (h : s.Canon q) : (s.storePage n off len).Canon q := by
  unfold State.storePage
  dsimp only
  split
  · exact storeNow_canon (devTouch_canon (draw_canon h))
  · exact h

theorem writeSomewhere_canon {n len align} (h : s.Canon q) : (s.writeSomewhere n len align).Canon q :=
  canon_foldl (fun _ _ hs' => canon_ite hs' (storePage_canon hs')) (pick_canon h)

theorem writeStore_canon {u} (h : s.Canon q) : (s.writeStore u).Canon q := writeSomewhere_canon h

theorem scrambleWave_canon {w} (h : s.Canon q) : (s.scrambleWave w).Canon q :=
  canon_ite (canon_foldl (fun _ _ hs' => canon_foldl (fun _ _ hs2 => modWave_canon (draw_canon hs2)) (modWave_canon (draw_canon hs'))) h)
    (modWave_canon (fields_canon (draw_canon (canon_foldl (fun _ _ hs' => canon_foldl (fun _ _ hs2 => modWave_canon (draw_canon hs2))
    (modWave_canon (draw_canon hs'))) h))))

theorem storeWritten_canon {stamp} (h : s.Canon q) : (s.storeWritten stamp).Canon q := by
  unfold State.storeWritten
  dsimp only
  exact canon_ite h (canon_foldl (fun s' u hs' => canon_ite hs' (canon_ite (pick_canon hs')
    (canon_foldl (fun s2 w hs2 => scrambleWave_canon hs2) (pick_canon hs')))) h)

theorem storeFollows_canon {s0 : State} (h : s.Canon q) : (s0.storeFollows s).Canon q :=
  canon_foldl (fun _ _ hs' => canon_ite (writeSomewhere_canon hs') (canon_foldl (fun _ _ hs2 => canon_foldl (fun _ _ hs3 => writeSomewhere_canon hs3)
    hs2) hs')) h

theorem inherit_canon {u} (h : s.Canon q) : (s.inherit u).Canon q := h.withMem (inherit_wf s u h.mem)

theorem leftover_canon {u} (h : s.Canon q) : (s.leftover u).Canon q := by
  unfold State.leftover
  dsimp only
  exact canon_ite (modCore_canon h) (canon_ite (pick_canon (modCore_canon h)) (canon_ite (fillFree_canon (pick_canon (modCore_canon h)))
    (inherit_canon (pick_canon (modCore_canon h)))))

theorem scrubbed_canon {core} (h : s.Canon q) : (s.scrubbed core).Canon q := h.withMem (scrubbed_wf s core h.mem)

theorem claimCore_canon {core vf} (h : s.Canon q) : (s.claimCore core vf).Canon q := canon_ite (setCore_canon h) (canon_ite (setCore_canon h) h)

theorem dropHandler_canon {w} (h : s.Canon q) : (s.dropHandler w).Canon q := by
  unfold State.dropHandler
  refine modWave_canon (modCore_canon ?_)
  split
  · exact h
  · exact modWave_canon (leaveBarriers_canon (dropReservation_canon (dropPark_canon h)))

theorem retireWave_canon {w} (h : s.Canon q) : (s.retireWave w).Canon q := by
  unfold State.retireWave
  refine canon_ite h (canon_ite
    (releaseGroup_canon (discardOps_canon (exitLanes_canon (beginChild_canon (dropHandler_canon (dropPark_canon ?_))))))
    (exitLanes_canon (beginChild_canon (dropHandler_canon (dropPark_canon ?_)))))
  all_goals
    split
    · exact h
    · exact canon_foldl (fun s' l hs' => canon_ite (candRetire_canon hs') hs') (outcomesAnew_canon h)

theorem cancelUnit_canon {u bit} (h : s.Canon q) : (s.cancelUnit u bit).Canon q := by
  unfold State.cancelUnit
  refine canon_ite h (canon_ite
    (releaseGroup_canon (canon_foldl (fun s' j hs' => joinUpdate_canon hs')
      (fields_canon (modUnit_canon (canon_foldl (fun s' w hs' => retireWave_canon hs') ?_)))))
    (canon_foldl (fun s' w hs' => canon_ite (retireWave_canon hs') hs') ?_))
  all_goals
    refine canon_foldl (fun s' w hs' => ?_) (modUnit_canon h)
    split
    · exact modWave_canon hs'
    · exact modWave_canon (modWave_canon hs')

theorem retireFrame_canon {core q1} (h : s.Canon q) : (s.retireFrame core q1).Canon q :=
  canon_ite (launchDown_canon (fields_canon h)) (joinUpdate_canon (newId_canon (fields_canon h)))

theorem retireFrames_canon {n} (h : s.Canon q) : (s.retireFrames n).Canon q :=
  canon_foldl (fun _ _ hs' => canon_ite hs' (canon_foldl (fun _ _ hs2 => retireFrame_canon hs2) (modCore_canon hs')))
    (canon_foldl (fun _ _ hs' => canon_ite hs' (canon_foldl (fun _ _ hs2 => retireFrame_canon hs2) (setRegion_canon (useRegion_canon hs')))) h)

theorem cancelLaunch_canon {n bit} (h : s.Canon q) : (s.cancelLaunch n bit).Canon q :=
  canon_ite h (retireFrames_canon (canon_foldl (fun _ _ hs' => cancelUnit_canon hs') (modLaunch_canon h)))

theorem setNode_canon {vf node off n x} (h : s.Canon q) : (s.setNode vf node off n x).Canon q := devWrite_canon h

theorem withGraph_canon {vf completion lid} (h : s.Canon q) : (s.withGraph vf completion lid).Canon q := by
  unfold State.withGraph
  split
  · exact h
  · exact modCtx_canon h

theorem modGraph_canon {vf f} (h : s.Canon q) : (s.modGraph vf f).Canon q := modCtx_canon h

theorem dropGraph_canon {vf} (h : s.Canon q) : (s.dropGraph vf).Canon q := modCtx_canon h

theorem graphJudge_canon {vf} (h : s.Canon q) : (s.graphJudge vf).Canon q := by
  unfold State.graphJudge
  split
  · exact h
  · exact canon_ite h (canon_ite (dropGraph_canon h) (writeCompletion_canon (dropGraph_canon h)))

theorem graphFault_canon {vf code} (h : s.Canon q) : (s.graphFault vf code).Canon q := by
  unfold State.graphFault
  dsimp only
  split
  · exact modGraph_canon h
  · exact canon_ite (modGraph_canon h) (writeCompletion_canon (modGraph_canon h))

theorem retireRecords_canon {vf node} (h : s.Canon q) : (s.retireRecords vf node).Canon q :=
  modGraph_canon (canon_ite (setNode_canon (setNode_canon (setNode_canon h))) (setNode_canon (setNode_canon h)))

theorem cancelGraph_canon {vf bit} (h : s.Canon q) : (s.cancelGraph vf bit).Canon q := by
  unfold State.cancelGraph
  split
  · exact h
  · exact graphJudge_canon (canon_foldl (fun s' k hs' => retireRecords_canon hs') (canon_foldl (fun s' n hs' => cancelLaunch_canon hs')
      (modGraph_canon h)))

theorem cancelPhase_canon {vf} (h : s.Canon q) : (s.cancelPhase vf).Canon q :=
  canon_foldl (fun _ _ hs' => cancelLaunch_canon hs') (cancelGraph_canon (modCtx_canon h))

theorem removeUnits_canon {us} (h : s.Canon q) : (s.removeUnits us).Canon q := h.same

theorem clearBind_canon {die i} (h : s.Canon q) : (s.clearBind die i).Canon q := modDie_canon h

theorem clearBinds_canon {p} (h : s.Canon q) : (s.clearBinds p).Canon q :=
  canon_foldl (fun _ _ hs' => canon_foldl (fun _ _ hs2 => canon_ite (clearBind_canon hs2) hs2) hs') h

theorem teardown_canon {vf cause} (h : s.Canon q) : (s.teardown vf cause).Canon q := by
  unfold State.teardown
  refine canon_ite h (modCtx_canon (canon_ite ?_ ?_))
  · exact erased_canon (removeUnits_canon (fields_canon (clearBinds_canon h)))
  · exact erased_canon (removeUnits_canon (fields_canon (clearBinds_canon h)))

end Sys2Proof.Machine
end

section
/-! PROOFS. What every step keeps (O3): SPAWN, JOIN and the deque units. -/
namespace Sys2Proof.Machine

variable {q : Prop} {s : State}

theorem frameObject_canon {x join k} (h : s.Canon q) (hk : ∀ a t, t.Canon q → (k a t).Canon q) : (s.frameObject x join k).Canon q :=
  res_ite (hk _ _ h) (access_canon h (fun _ _ hs' => consume_canon hs' (fun _ ha => hk _ _ ha)))

theorem pushFrame_canon {core vf q1} (h : s.Canon q) : (s.pushFrame core vf q1).Canon q :=
  canon_ite (modCore_canon h) (canon_ite (teardown_canon (modCore_canon h)) (canon_foldl (fun _ _ hs' => regionPush_canon hs') (modCore_canon h)))

theorem spawnChild_canon {x f loc} (h : s.Canon q) : (s.spawnChild x f loc).Canon q := by
  unfold State.spawnChild
  refine pushFrame_canon (fields_canon (relMerge_canon (newId_canon (modCore_canon ?_))))
  refine canon_ite (modCtx_canon (modUnit_canon (modLaunch_canon ?_))) (modLaunch_canon ?_)
  all_goals
    split
    · exact releaseLanesView_canon h
    · exact atomicStep_canon (releaseLanesView_canon h)

theorem execSpawn_canon {w} (h : s.Canon q) : NextCanon q (execSpawn w s) := by
  unfold execSpawn
  exact perform_canon h (fun x s' hs' => res_ite (.done hs') (res_ite (fail_canon hs') (res_ite (fail_canon hs')
    (frameObject_canon hs' (fun loc s2 hs2 => res_ite (fail_canon hs2) (res_ite (fail_canon hs2) (.done (spawnChild_canon hs2))))))))

theorem joinPass_canon {x d loc} (h : s.Canon q) : (s.joinPass x d loc).Canon q := by
  unfold State.joinPass
  dsimp only
  exact put_canon (readStep_canon (acquireLanes_canon h))

theorem execJoinI_canon {w} (h : s.Canon q) : NextCanon q (execJoinI w s) := by
  unfold execJoinI
  exact perform_canon h (fun x s' hs' => res_ite (.done hs') (access_canon hs' (fun ps s2 hs2 => consume_canon hs2
    (fun s3 hs3 => res_ite (.done (joinPass_canon hs3)) (.moved (waitOn_canon (storeNow_canon hs3)))))))

theorem execJoinResume_canon (h : s.Canon q) : NextCanon q (execJoinResume s) := by
  unfold execJoinResume
  dsimp only
  split
  · exact next_ite (.next (takeFault_canon h)) (next_ite (.next (leaveWait_canon (joinPass_canon h))) .refused)
  · exact .refused

theorem checkStore_canon {n} (h : s.Canon q) : (s.checkStore n).Canon q := canon_ite (teardown_canon h) h

theorem startChild_canon {q1 sp} (h : s.Canon q) : (s.startChild q1 sp).Canon q :=
  checkStore_canon (leftover_canon (setWave_canon (setUnit_canon (modCore_canon (pick_canon (newId_canon (newId_canon h)))))))

theorem execDequePop_canon (h : s.Canon q) : NextCanon q (execDequePop s) := by
  unfold execDequePop
  dsimp only
  split
  · exact next_ite (.next (startChild_canon (modCore_canon h))) .refused
  · exact .refused

theorem execDequeRefill_canon (h : s.Canon q) : NextCanon q (execDequeRefill s) :=
  next_ite (next_ite (.next (teardown_canon h)) (next_ite .refused (.next (modCore_canon (setRegion_canon (useRegion_canon h)))))) .refused

theorem execDequeSteal_canon (h : s.Canon q) : NextCanon q (execDequeSteal s) := by
  unfold execDequeSteal
  dsimp only
  split
  · refine next_ite ?_ .refused
    refine next_ite (.next (teardown_canon h)) ?_
    split
    · exact .refused
    · exact .next (startChild_canon (canon_ite (setRegion_canon (useRegion_canon (pick_canon h))) (modCore_canon (pick_canon h))))
  · exact .refused

theorem unstart_canon {core} (h : s.Canon q) : (s.unstart core).Canon q := removeUnits_canon h

theorem returnCluster_canon {k} (h : s.Canon q) : (s.returnCluster k).Canon q := by
  unfold State.returnCluster
  dsimp only
  refine canon_ite ?_ h
  split
  · exact modCluster_canon h
  · exact canon_foldl (fun s' c hs' => claimCore_canon hs') (modCluster_canon h)

theorem departCore_canon {core} (h : s.Canon q) : (s.departCore core).Canon q := by
  unfold State.departCore
  dsimp only
  split
  · exact modCore_canon (unstart_canon h)
  · exact canon_ite (teardown_canon (modCore_canon (unstart_canon h))) (canon_foldl (fun s' q' hs' => regionUnder_canon hs')
      (canon_foldl (fun s' q' hs' => regionPush_canon hs') (modCore_canon (unstart_canon h))))

theorem execCoreDepart_canon (h : s.Canon q) : NextCanon q (execCoreDepart s) := next_ite (.next (returnCluster_canon (departCore_canon h))) .refused

end Sys2Proof.Machine
end

section
/-! PROOFS. What every step keeps (O3): launches, phases and graphs. -/
namespace Sys2Proof.Machine

variable {q : Prop} {s : State}

theorem recordReads_canon {vf bs start} (h : s.Canon q) : (s.recordReads vf bs start).Canon q :=
  canon_ite (canon_ite (devUse_canon (canon_ite (devUse_canon h) h)) (canon_ite (devUse_canon h) h))
    (canon_ite (devUse_canon (canon_ite (devUse_canon (canon_ite (devUse_canon h) h)) (canon_ite (devUse_canon h) h)))
    (devUse_canon (canon_ite (devUse_canon (canon_ite (devUse_canon h) h)) (canon_ite (devUse_canon h) h))))

theorem countReject_canon {vf} (h : s.Canon q) : (s.countReject vf).Canon q := modCtx_canon h

theorem rejectRecord_canon {vf l reason} (h : s.Canon q) : (s.rejectRecord vf l reason).Canon q := by
  unfold State.rejectRecord
  dsimp only
  split
  · exact storeAfter_canon (devWrite_canon h)
  · exact devWrite_canon h

theorem startLaunch_canon {l start} (h : s.Canon q) : (s.startLaunch l start).2.Canon q := by
  unfold State.startLaunch
  refine setLaunch_canon ?_
  split
  · exact modGraph_canon (withGraph_canon (modCtx_canon (newId_canon h)))
  · exact modCtx_canon (modCtx_canon (newId_canon h))

theorem acceptRecord_canon {vf bs} (h : s.Canon q) : (s.acceptRecord vf bs).Canon q :=
  canon_ite (countReject_canon h) (canon_ite (rejectRecord_canon (recordReads_canon h)) (canon_ite (modCtx_canon (recordReads_canon h))
    (startLaunch_canon (recordReads_canon h))))

theorem serveHeld_canon {vf} (h : s.Canon q) : (s.serveHeld vf).Canon q :=
  canon_foldl (fun _ _ hs' => canon_ite hs' (startLaunch_canon (modCtx_canon hs'))) h

theorem serveRung_canon {vf a} (h : s.Canon q) : (s.serveRung vf a).Canon q := by
  induction a generalizing s with
  | zero => exact h
  | succ fuel ih =>
    unfold State.serveRung
    split
    · exact h
    · exact canon_ite h (ih (acceptRecord_canon (modCtx_canon h)))

theorem doorbell_canon {vf v} (h : s.Canon q) : (s.doorbell vf v).Canon q :=
  canon_ite (countReject_canon h) (canon_ite (canon_ite (setCtx_canon h) (countReject_canon h))
    (canon_ite (countReject_canon h) (serveRung_canon (setCtx_canon h))))

theorem execDoorbellLaunch_canon (h : s.Canon q) : NextCanon q (execDoorbellLaunch s) := next_ite (.next (doorbell_canon h)) .refused

theorem execDoorbellClose_canon (h : s.Canon q) : NextCanon q (execDoorbellClose s) := next_ite (.next (doorbell_canon h)) .refused

theorem execPhaseStart_canon (h : s.Canon q) : NextCanon q (execPhaseStart s) := next_ite (.next (serveHeld_canon (setCtx_canon h))) .refused

theorem freeBatches_canon {vf node a} (h : s.Canon q) : (s.freeBatches vf node a).Canon q := by
  induction a generalizing s with
  | zero => exact h
  | succ fuel ih =>
    unfold State.freeBatches
    split
    · exact canon_ite (setNode_canon h) h
    · exact canon_ite h (ih (modGraph_canon (setNode_canon h)))

theorem finishBatch_canon {vf node start n} (h : s.Canon q) : (s.finishBatch vf node start n).Canon q := freeBatches_canon (modGraph_canon h)

theorem publishLaunch_canon {n} (h : s.Canon q) : (s.publishLaunch n).Canon q :=
  canon_foldl (fun _ _ hs' => relMerge_canon (drainWave_canon hs')) (canon_foldl (fun _ _ hs' => canon_foldl (fun _ _ hs2 => relMerge_canon hs2) hs')
    h)

theorem execLaunchComplete_canon (h : s.Canon q) : NextCanon q (execLaunchComplete s) := by
  unfold execLaunchComplete
  refine next_ite .refused (.next ?_)
  refine serveRung_canon (serveHeld_canon ?_)
  refine graphJudge_canon ?_
  split
  · split
    · exact modCtx_canon (canon_ite (modGraph_canon (modLaunch_canon (publishLaunch_canon h)))
        (writeCompletion_canon (modLaunch_canon (publishLaunch_canon h))))
    · exact modGraph_canon (canon_ite (modGraph_canon (modLaunch_canon (publishLaunch_canon h)))
        (writeCompletion_canon (modLaunch_canon (publishLaunch_canon h))))
  · refine finishBatch_canon (setNode_canon ?_)
    split
    · exact modCtx_canon (canon_ite (modGraph_canon (modLaunch_canon (publishLaunch_canon h)))
        (writeCompletion_canon (modLaunch_canon (publishLaunch_canon h))))
    · exact modGraph_canon (canon_ite (modGraph_canon (modLaunch_canon (publishLaunch_canon h)))
        (writeCompletion_canon (modLaunch_canon (publishLaunch_canon h))))

theorem execEmit_canon {w} (h : s.Canon q) : NextCanon q (execEmit w s) := by
  unfold execEmit
  exact perform_canon h (fun x s' hs' => res_ite (.done hs') (res_ite (.fault hs') (access_canon (devUse_canon hs')
    (fun ps s2 hs2 => res_ite (.held hs2)
    (.done (canon_ite
    (graphJudge_canon
    (retireRecords_canon
    (modGraph_canon (withGraph_canon (setNode_canon (setNode_canon (relMerge_canon (storeOrFail_canon (releaseLanes_canon (relDrop_canon hs2))))))))))
    (modGraph_canon
    (withGraph_canon (setNode_canon (setNode_canon (relMerge_canon (storeOrFail_canon (releaseLanes_canon (relDrop_canon hs2))))))))))))))

theorem execEmitResume_canon (h : s.Canon q) : NextCanon q (execEmitResume s) := by
  unfold execEmitResume
  dsimp only
  split
  · exact next_ite (.next (endHold_canon (devUse_canon h))) .refused
  · exact .refused

theorem execNodeTimeoutExpiry_canon (h : s.Canon q) : NextCanon q (execNodeTimeoutExpiry s) := by
  unfold execNodeTimeoutExpiry
  dsimp only
  split
  · exact .refused
  · exact next_ite (.next (modGraph_canon (devUse_canon h))) .refused

theorem nodeLaunch_canon {vf node first n batch} (h : s.Canon q) : (s.nodeLaunch vf node first n batch).Canon q := by
  rw [State.nodeLaunch]
  split
  · exact graphJudge_canon (finishBatch_canon (setNode_canon (graphFault_canon (devUse_canon h))))
  · exact canon_ite (graphJudge_canon (finishBatch_canon (setNode_canon (countReject_canon (recordReads_canon (devUse_canon h))))))
      (canon_ite (graphJudge_canon (finishBatch_canon (setNode_canon (rejectRecord_canon (recordReads_canon (devUse_canon h))))))
      (canon_ite (graphJudge_canon (finishBatch_canon (setNode_canon (graphFault_canon (recordReads_canon (devUse_canon h))))))
      (startLaunch_canon (recordReads_canon (devUse_canon h)))))

theorem execNodeLaunchStart_canon (h : s.Canon q) : NextCanon q (execNodeLaunchStart s) := by
  unfold execNodeLaunchStart
  dsimp only
  split
  · exact .refused
  · exact next_ite (.next (nodeLaunch_canon (modGraph_canon (setNode_canon (setNode_canon h))))) .refused

theorem launchBytes_canon {ag places} (h : s.Canon q) : (s.launchBytes ag places).2.2.2.Canon q := by
  unfold State.launchBytes
  exact snd_foldl (fun acc loc hacc => snd_foldl (fun acc' i hacc' => snd_mk (readWrites_canon hacc')) hacc) h

theorem execLaunch_canon {w} (h : s.Canon q) : NextCanon q (execLaunch w s) :=
  perform_canon h (fun _ _ hs0 => res_ite (.done hs0) (access_canon hs0 (fun _ _ hs' => consume_canon hs'
    (fun _ hs2 => res_ite (.done (put_canon (countReject_canon (launchBytes_canon hs2)))) (res_ite
    (.done (put_canon (rejectRecord_canon (recordReads_canon (launchBytes_canon hs2))))) (res_ite (.held hs2)
    (.done (put_canon (startLaunch_canon (releaseLanesView_canon (recordReads_canon (launchBytes_canon hs2))))))))))))

theorem execLaunchLimitResume_canon (h : s.Canon q) : NextCanon q (execLaunchLimitResume s) := by
  unfold execLaunchLimitResume
  dsimp only
  split
  · exact next_ite (.next (endHold_canon h)) .refused
  · exact .refused

theorem execCancel_canon {w} (h : s.Canon q) : NextCanon q (execCancel w s) :=
  perform_canon h (fun _ _ hs' => res_ite (.done hs') (res_ite (.fault hs') (res_ite (.done (cancelUnit_canon hs'))
    (res_ite (.done (canon_elim hs' (fun _ => cancelLaunch_canon hs'))) (res_ite (.done (canon_ite (cancelGraph_canon hs') hs'))
    (.done (cancelPhase_canon hs')))))))

theorem execLvlcnt_canon {w} (h : s.Canon q) : NextCanon q (execLvlcnt w s) :=
  perform_canon h (fun _ _ hs' => res_ite (.done hs') (res_ite (.fault hs') (.done (put_canon hs'))))

theorem execCancelRetire_canon (h : s.Canon q) : NextCanon q (execCancelRetire s) := next_ite (.next (retireWave_canon h)) .refused

end Sys2Proof.Machine
end

section
/-! PROOFS. What every step keeps (O3): the Newel slot, its window, and status words. -/
namespace Sys2Proof.Machine

variable {q : Prop} {s : State}

theorem execSrd_canon {w} (h : s.Canon q) : NextCanon q (execSrd w s) := perform_canon h (fun _ _ hs' => .done (put_canon hs'))

theorem execSwr_canon {w} (h : s.Canon q) : NextCanon q (execSwr w s) := by
  unfold execSwr
  refine perform_canon h (fun x s' hs' => ?_)
  refine res_ite (.done hs') ?_
  split
  · exact .fault hs'
  next he => exact .done (canon_of_ok he (writeStatus_canon hs'))

theorem execTimens_canon {w} (h : s.Canon q) : NextCanon q (execTimens w s) :=
  perform_canon h (fun _ _ hs' => res_ite (.done hs') (.done (put_canon (readTime_canon hs'))))

theorem execCycles_canon {w} (h : s.Canon q) : NextCanon q (execCycles w s) := perform_canon h (fun _ _ hs' => .done (put_canon hs'))

theorem execPerfrd_canon {w} (h : s.Canon q) : NextCanon q (execPerfrd w s) :=
  perform_canon h (fun _ _ hs' => res_ite (.done hs') (.done (put_canon hs')))

theorem unwait_canon {hd y alone} (h : s.Canon q) : (s.unwait hd y alone).Canon q := by
  unfold State.unwait
  split
  · exact canon_ite (abarWaiters_canon h) h
  · exact modWave_canon (modUnit_canon h)
  · exact h

theorem movePc_canon {hd l pc} (h : s.Canon q) : (s.movePc hd l pc).Canon q := by
  unfold State.movePc
  refine canon_ite h ?_
  split
  · exact modWave_canon h
  · exact unwait_canon (modWave_canon h)

theorem winWrite_canon {hd e lanes f} (h : s.Canon q) : ExcCanon q (s.winWrite hd e lanes f) := by
  unfold State.winWrite
  split
  · exact .ok (modWave_canon h)
  · exact .ok (modWave_canon h)
  · exact .ok (modWave_canon h)
  · exact .ok (modWave_canon h)
  · exact .ok (modWave_canon h)
  · exact .ok (modWave_canon h)
  · exact .ok (modWave_canon h)
  · exact .ok (canon_foldl (fun s' l hs' => movePc_canon hs') h)
  · exact .ok (canon_foldl (fun s' l hs' => movePc_canon hs') h)
  · exact .ok (modWave_canon h)
  · exact .ok (modWave_canon h)
  · exact writeStatus_canon h
  · exact .error

theorem winNamed_canon {x idx k} (h : s.Canon q) (hk : ∀ a b, (k a b).Canon q) : (s.winNamed x idx k).Canon q := by
  unfold State.winNamed
  split
  · exact fail_canon h
  · split
    · exact fail_canon h
    · exact hk _ _

theorem execWinrd_canon {w} (h : s.Canon q) : NextCanon q (execWinrd w s) :=
  perform_canon h (fun _ _ hs' => winNamed_canon hs' (fun _ _ => res_ite (fail_canon hs') (res_ite (fail_canon hs') (.done (put_canon hs')))))

theorem execWinwr_canon {w} (h : s.Canon q) : NextCanon q (execWinwr w s) := by
  unfold execWinwr
  refine perform_canon h (fun x s' hs' => ?_)
  refine winNamed_canon hs' (fun h' e => ?_)
  refine res_ite (fail_canon hs') (res_ite (fail_canon hs') ?_)
  refine res_ite (.done hs') ?_
  split
  · exact .fault hs'
  next he => exact .done (canon_of_ok he (winWrite_canon hs'))

theorem execTresume_canon {w} (h : s.Canon q) : NextCanon q (execTresume w s) := by
  unfold execTresume
  refine perform_canon h (fun x s' hs' => ?_)
  split
  · exact .done hs'
  · exact .moved (modWave_canon (endHandler_canon hs'))

theorem execTkill_canon {w} (h : s.Canon q) : NextCanon q (execTkill w s) := perform_canon h (fun _ _ hs' => .moved (endHandler_canon hs'))

theorem execTescal_canon {w} (h : s.Canon q) : NextCanon q (execTescal w s) := perform_canon h (fun _ _ hs' => .moved (endHandler_canon hs'))

theorem bodyPcs_canon {w} (h : s.Canon q) : (s.bodyPcs w).Canon q := modWave_canon h

theorem execHandlerStart_canon (h : s.Canon q) : NextCanon q (execHandlerStart s) := by
  unfold execHandlerStart
  dsimp only
  split
  · exact next_ite .refused (.next (modCore_canon (modWave_canon (setWave_canon (bodyPcs_canon (newId_canon h))))))
  · exact .refused

theorem execStorageTrap_canon (h : s.Canon q) : NextCanon q (execStorageTrap s) :=
  next_ite (.next (takeFault_canon (modWave_canon (bodyPcs_canon h)))) .refused

theorem execXlateRecordPost_canon (h : s.Canon q) : NextCanon q (execXlateRecordPost s) := by
  unfold execXlateRecordPost
  dsimp only
  split
  · exact next_ite (.next (appendFault_canon (setCtx_canon h))) .refused
  · exact .refused

end Sys2Proof.Machine
end

section
/-! PROOFS. What every step keeps (O3): the dispatch hardware. -/
namespace Sys2Proof.Machine

variable {q : Prop} {s : State}

theorem slotCommit_canon {die i} (h : s.Canon q) : (s.slotCommit die i).Canon q := by
  unfold State.slotCommit
  split <;> exact modDie_canon h

theorem execSlotcommit_canon (h : s.Canon q) : NextCanon q (execSlotcommit s) := next_ite (.next (slotCommit_canon h)) .refused

theorem clearGroup_canon {die i} (h : s.Canon q) : (s.clearGroup die i).Canon q := canon_foldl (fun _ _ hs' => clearBind_canon hs') h

theorem execBindRecordRun_canon (h : s.Canon q) : NextCanon q (execBindRecordRun s) := by
  unfold execBindRecordRun
  dsimp only
  split
  · exact .refused
  · refine next_ite .refused (next_ite (.next (clearGroup_canon h)) ?_)
    split
    · exact next_ite (next_ite (.next (clearGroup_canon h)) (.next (modDie_canon h))) .refused
    · exact next_ite (.next (clearGroup_canon h)) (next_ite .refused (.next (canon_foldl (fun s' p hs' => claimCore_canon (departCore_canon hs')) h)))

theorem stopUnits_canon {us deadline sliced} (h : s.Canon q) : (s.stopUnits us deadline sliced).Canon q :=
  canon_foldl (fun _ _ hs' => canon_ite hs' (setUnit_canon hs')) h

theorem stopPlaced_canon {us} (h : s.Canon q) : (s.stopPlaced us).Canon q := by
  unfold State.stopPlaced
  refine canon_foldl (fun s' u hs' => ?_) h
  split
  · exact hs'
  · exact stopUnits_canon hs'

theorem placeUnit_canon {die r n idx group size} (h : s.Canon q) : (s.placeUnit die r n idx group size).2.Canon q := by
  unfold State.placeUnit
  dsimp only
  exact modLaunch_canon (leftover_canon (modCore_canon (canon_foldl (fun s' p hs' => setWave_canon hs')
    (setUnit_canon (fields_canon (newId_canon h))))))

theorem execUnitPlace_canon (h : s.Canon q) : NextCanon q (execUnitPlace s) := by
  unfold execUnitPlace
  dsimp only
  split
  · exact .refused
  · exact next_ite
      (.next (checkStore_canon (stopPlaced_canon (modDie_canon (snd_foldl (fun acc p hacc => snd_mk (placeUnit_canon hacc))
      (snd_mk (snd_ite h (newId_canon h)))))))) .refused

theorem quiesce_canon {u} (h : s.Canon q) : (s.quiesce u).Canon q :=
  canon_foldl (fun _ _ hs' => suspendOp_canon hs') (canon_foldl (fun _ _ hs' => drainWave_canon hs') h)

theorem saveUnit_canon {u live} (h : s.Canon q) : (s.saveUnit u live).Canon q :=
  canon_foldl (fun _ _ hs' => modWave_canon hs') (setUnit_canon (setCore_canon (canon_foldl (fun _ _ hs' => dropReservation_canon hs')
    (canon_ite (keepLive_canon (canon_foldl (fun _ _ hs' => beginChild_canon hs') h)) (canon_foldl (fun _ _ hs' => beginChild_canon hs') h)))))

theorem unbindUnits_canon {us} (h : s.Canon q) : (s.unbindUnits us).Canon q := by
  unfold State.unbindUnits
  refine canon_foldl (fun s' d hs' => ?_) h
  refine canon_foldl (fun s2 b hs2 => ?_) hs'
  split
  · exact hs2
  · exact canon_ite hs2 (canon_ite (clearBind_canon hs2) (modDie_canon hs2))

theorem endStopped_canon {u} (h : s.Canon q) : (s.endStopped u).Canon q := canon_foldl (fun _ _ hs' => canon_ite (abandonAll_canon hs') hs') h

theorem evictUnit_canon {u} (h : s.Canon q) : (s.evictUnit u).Canon q :=
  canon_ite (teardown_canon (unbindUnits_canon (canon_foldl (fun _ _ hs' => saveUnit_canon hs')
    (canon_foldl (fun _ _ hs' => quiesce_canon hs') (canon_foldl (fun _ _ hs' => endStopped_canon hs')
    (canon_foldl (fun _ _ hs' => retireWave_canon hs') (canon_ite (useTable_canon h) h)))))))
    (canon_foldl (fun _ _ hs' => writeStore_canon hs') (unbindUnits_canon (canon_foldl (fun _ _ hs' => saveUnit_canon hs')
    (canon_foldl (fun _ _ hs' => quiesce_canon hs') (canon_foldl (fun _ _ hs' => endStopped_canon hs')
    (canon_foldl (fun _ _ hs' => retireWave_canon hs') (canon_ite (useTable_canon h) h)))))))

theorem execUnitEvict_canon (h : s.Canon q) : NextCanon q (execUnitEvict s) := next_ite (.next (evictUnit_canon h)) .refused

theorem execBindRecordEvict_canon (h : s.Canon q) : NextCanon q (execBindRecordEvict s) := by
  unfold execBindRecordEvict
  dsimp only
  split
  · exact .refused
  · refine next_ite .refused ?_
    split
    · exact next_ite (.next (clearBind_canon h)) .refused
    · split
      · exact .next (clearBind_canon h)
      · exact .next (modDie_canon (stopUnits_canon h))

theorem candReread_canon {w l c} (h : s.Canon q) : (s.candReread w l c).Canon q := by
  unfold State.candReread
  dsimp only
  split
  · exact canon_ite (candStop_canon (setPois_canon h)) (modWave_canon (readWords8_canon (readWords8_canon h)))
  · exact candStop_canon h

theorem candAbort_canon {w c} (h : s.Canon q) : (s.candAbort w c).Canon q :=
  canon_foldl (fun _ _ hs' => canon_ite (candStop_canon hs') hs') (outcomesAnew_canon h)

theorem candResume_canon {w afresh} (h : s.Canon q) : (s.candResume w afresh).Canon q := by
  unfold State.candResume
  dsimp only
  split
  · exact h
  · split
    · exact canon_ite (candAbort_canon (checkAccess_canon (checkAccess_canon (checkAccess_canon h))))
        (postFault_canon (modWave_canon (checkAccess_canon (checkAccess_canon (checkAccess_canon h)))))
    · exact canon_ite (candAbort_canon (checkAccess_canon (checkAccess_canon (checkAccess_canon h))))
        (postFault_canon (modWave_canon (checkAccess_canon (checkAccess_canon (checkAccess_canon h)))))
    · exact canon_ite (candAbort_canon (checkAccess_canon (checkAccess_canon (checkAccess_canon h))))
        (postFault_canon (modWave_canon (checkAccess_canon (checkAccess_canon (checkAccess_canon h)))))
    · exact canon_foldl (fun s' l hs' => canon_ite (candReread_canon hs') hs') (modWave_canon
        (checkAccess_canon (checkAccess_canon (checkAccess_canon h))))
    · exact candAbort_canon (checkAccess_canon (checkAccess_canon (checkAccess_canon h)))

theorem restoreUnit_canon {u sp} (h : s.Canon q) : (s.restoreUnit u sp).Canon q := by
  unfold State.restoreUnit
  refine canon_foldl (fun s' j hs' => joinUpdate_canon hs') (fields_canon ?_)
  split
  · exact canon_foldl (fun s' w hs' => modWave_canon hs') (setCore_canon (setUnit_canon h))
  · exact modWave_canon (canon_foldl (fun s' w hs' => modWave_canon hs') (setCore_canon (setUnit_canon h)))

theorem execBindRecordResume_canon (h : s.Canon q) : NextCanon q (execBindRecordResume s) := by
  unfold execBindRecordResume
  dsimp only
  split
  · exact .refused
  · exact next_ite (next_ite (.next (teardown_canon (pick_canon h))) (.next (checkStore_canon
      (stopPlaced_canon (canon_foldl (fun s' w hs' => candResume_canon hs') (clearGroup_canon
      (canon_foldl (fun s' p hs' => restoreUnit_canon hs') (pick_canon h)))))))) .refused

theorem resetDone_canon {k} (h : s.Canon q) : (s.resetDone k).Canon q := by
  unfold State.resetDone
  split
  · exact h
  · exact canon_ite (modPart_canon h) h

theorem execScrubComplete_canon (h : s.Canon q) : NextCanon q (execScrubComplete s) := by
  unfold execScrubComplete
  dsimp only
  split
  · exact .refused
  · exact next_ite (.next (resetDone_canon (setCore_canon (scrubbed_canon h)))) (.next (teardown_canon (setCore_canon h)))

theorem execHeartbeatTimeout_canon (h : s.Canon q) : NextCanon q (execHeartbeatTimeout s) := next_ite (.next (setDie_canon h)) .refused

theorem execLendCluster_canon (h : s.Canon q) : NextCanon q (execLendCluster s) := by
  unfold execLendCluster
  dsimp only
  split
  · exact .refused
  · exact next_ite (.next (canon_foldl (fun s' c hs' => claimCore_canon hs') (modCluster_canon
      (canon_foldl (fun s' c hs' => departCore_canon hs') h)))) .refused

theorem execReclaimCluster_canon (h : s.Canon q) : NextCanon q (execReclaimCluster s) :=
  next_ite (.next (returnCluster_canon (stopUnits_canon (canon_foldl (fun _ _ hs' => unstart_canon hs') (setCluster_canon h))))) .refused

theorem execReclaimDeadline_canon (h : s.Canon q) : NextCanon q (execReclaimDeadline s) :=
  next_ite (.next (canon_foldl (fun _ _ hs' => canon_ite (evictUnit_canon hs') hs') h)) .refused

theorem endSlice_canon {die e} (h : s.Canon q) : (s.endSlice die e).Canon q :=
  stopUnits_canon (modPart_canon (canon_foldl (fun _ _ hs' => unstart_canon hs') h))

theorem execTenantSliceEnd_canon (h : s.Canon q) : NextCanon q (execTenantSliceEnd s) := next_ite (.next (endSlice_canon h)) .refused

theorem execSliceLimitExpiry_canon (h : s.Canon q) : NextCanon q (execSliceLimitExpiry s) :=
  next_ite (.next (canon_foldl (fun _ _ hs' => canon_ite (evictUnit_canon hs') hs') h)) .refused

theorem beginSlice_canon {die e} (h : s.Canon q) : (s.beginSlice die e).Canon q :=
  canon_foldl (fun _ _ hs' => canon_ite (claimCore_canon hs') hs') (modPart_canon h)

theorem execTenantSliceBegin_canon (h : s.Canon q) : NextCanon q (execTenantSliceBegin s) := next_ite (.next (beginSlice_canon h)) .refused

end Sys2Proof.Machine
end

section
/-! PROOFS. What every step keeps (O3): the registers of the windows. -/
namespace Sys2Proof.Machine

variable {q : Prop} {s : State}

theorem modWin_canon {w f} (h : s.Canon q) : (s.modWin w f).Canon q := by
  unfold State.modWin
  split
  · exact modCtx_canon h
  · exact fields_canon h

theorem regPut_canon {vf off v} (h : s.Canon q) : OptCanon q (s.regPut vf off v) := by
  unfold State.regPut
  dsimp only
  split
  · exact opt_ite (.some (modCtx_canon h)) .none
  · exact opt_ite (.some (modCtx_canon h)) .none
  · exact opt_ite (.some (modCtx_canon h)) .none
  · exact opt_ite (.some (modCtx_canon h)) .none
  · exact opt_ite (.some (modCtx_canon h)) .none
  · exact opt_ite (.some (modCtx_canon h)) .none
  · exact opt_ite (.some (modCtx_canon h)) .none
  · exact .some (modCtx_canon h)
  · exact opt_ite (.some (modCtx_canon h)) .none
  · exact .none

theorem mgmtWrite_canon {ep w off v} (h : s.Canon q) : (s.mgmtWrite ep w off v).Canon q := by
  unfold State.mgmtWrite
  refine canon_ite (modCtx_canon h) (canon_ite (modWin_canon h) ?_)
  refine canon_ite (countReject_canon h) ?_
  split
  next he => exact canon_of_some he (regPut_canon h)
  · exact modWin_canon h

theorem slotWrite_canon {vf off bs} (h : s.Canon q) : (s.slotWrite vf off bs).Canon q :=
  canon_ite h (canon_ite (countReject_canon h) (setCtx_canon h))

theorem execRegisterWrite_canon {by_ target v} (h : s.Canon q) : NextCanon q (execRegisterWrite by_ target v s) := by
  unfold execRegisterWrite
  split
  · exact next_ite (.next (slotWrite_canon h)) .refused
  · exact next_ite (.next (mgmtWrite_canon h)) .refused
  · exact next_ite (next_ite (.next (setDie_canon h)) (.next (setDie_canon h))) .refused
  · exact next_ite (.next (setDie_canon h)) .refused
  · exact next_ite (.next (canon_ite (modPart_canon h) h)) .refused
  · exact next_ite (.next h) .refused
  · exact next_ite (.next (modDie_canon h)) .refused
  · exact next_ite (.next (modDie_canon h)) .refused
  · exact next_ite (.next (modCtx_canon h)) .refused

theorem execRootWrite_canon (h : s.Canon q) : NextCanon q (execRootWrite s) := next_ite (.next (mgmtWrite_canon h)) .refused

theorem execToffsetWrite_canon (h : s.Canon q) : NextCanon q (execToffsetWrite s) := next_ite (.next (mgmtWrite_canon h)) .refused

theorem choices_canon {α : Type} {xs : List α} {open_ : α → Bool} (h : s.Canon q) : (s.choices xs open_).2.Canon q := by
  unfold State.choices
  refine snd_foldl (fun acc x hacc => ?_) h
  dsimp only
  exact snd_ite (snd_mk (pick_canon hacc)) hacc

theorem resyncRecord_canon {view} (h : s.Canon q) : (s.resyncRecord view).2.Canon q := by
  unfold State.resyncRecord
  dsimp only
  exact canon_foldl (fun s' vf hs' => canon_ite (modCtx_canon hs') hs') (choices_canon (choices_canon
    (snd_foldl (fun acc d hacc => snd_ite hacc (snd_mk (pick_canon hacc))) (snd_mk (setPkg_canon h)))))

theorem hostStore_canon {loc bs} (h : s.Canon q) : (s.hostStore loc bs).Canon q := relMerge_canon (storeNow_canon h)

end Sys2Proof.Machine
end

section
/-! PROOFS. What every step keeps (O3): commands, resets and firmware. -/
namespace Sys2Proof.Machine

variable {q : Prop} {s : State}

theorem drainUnits_canon {us} (h : s.Canon q) : (s.drainUnits us).Canon q :=
  canon_foldl (fun _ _ hs' => canon_foldl (fun _ _ hs2 => canon_foldl (fun _ _ hs3 => drainAll_canon hs3) hs2) hs')
    (canon_foldl (fun _ _ hs' => drainWave_canon hs') h)

theorem drainCtx_canon {vf} (h : s.Canon q) : (s.drainCtx vf).Canon q := drainUnits_canon h

theorem dropTranslations_canon {vf r} (h : s.Canon q) : (s.dropTranslations vf r).Canon q := h.same

theorem rewatchAll_canon {vf r} (h : s.Canon q) : (s.rewatchAll vf r).Canon q :=
  canon_foldl (fun _ _ hs' => canon_foldl (fun _ _ hs2 => devTouch_canon hs2) (modWave_canon hs')) h

theorem cmdShootdown_canon {win vf a0 a1} (h : s.Canon q) : (s.cmdShootdown win vf a0 a1).s.Canon q := cmd_ite h (cmd_mk (modCtx_canon h))

theorem disposeWave_canon {w p fail} (h : s.Canon q) : (s.disposeWave w p fail).Canon q := by
  unfold State.disposeWave
  dsimp only
  split
  · exact candResume_canon (modWave_canon h)
  · exact candAbort_canon (modWave_canon h)
  · exact modWave_canon (modWave_canon h)
  · exact takeFault_canon (modWave_canon h)

theorem dispose_canon {vf seq fail} (h : s.Canon q) : (s.dispose vf seq fail).Canon q := by
  unfold State.dispose
  dsimp only
  split
  · exact h
  · split
    · split
      · exact canon_ite (disposeWave_canon (modCtx_canon h)) (modCtx_canon h)
      · exact modCtx_canon h
    · split
      · exact canon_ite (modCtx_canon h) (canon_ite (engineFault_canon (modOp_canon (modCtx_canon h))) (modOp_canon (modCtx_canon h)))
      · exact modCtx_canon h
    · split
      · exact modCtx_canon h
      · exact canon_ite (launchDown_canon (escalate_canon (fields_canon (modCtx_canon h)))) (joinUpdate_canon (fields_canon (modCtx_canon h)))
    · exact modCtx_canon h

theorem cmdDispose_canon {vf a0 a1} (h : s.Canon q) : (s.cmdDispose vf a0 a1).s.Canon q :=
  cmd_ite (cmd_done (dispose_canon h)) (cmd_ite (cmd_done (dispose_canon h)) h)

theorem cmdGallery_canon {vf a0 a1} (h : s.Canon q) : (s.cmdGallery vf a0 a1).s.Canon q := cmd_ite h (cmd_done (modCtx_canon h))

theorem cmdNsnew_canon {vf a0 a1} (h : s.Canon q) : (s.cmdNsnew vf a0 a1).s.Canon q := cmd_ite h (cmd_ite h (cmd_done (setDie_canon h)))

theorem cmdNsfree_canon {vf a0} (h : s.Canon q) : (s.cmdNsfree vf a0).s.Canon q := cmd_ite h (cmd_done (modDie_canon h))

theorem useList_canon {vf ea} (h : s.Canon q) : (s.useList vf ea).Canon q := by
  unfold State.useList
  refine canon_ite h ?_
  split <;> exact devUse_canon h

theorem cmdCollnew_canon {vf a0 a1} (h : s.Canon q) : (s.cmdCollnew vf a0 a1).s.Canon q := by
  unfold State.cmdCollnew
  refine cmd_ite h ?_
  split
  · exact cmd_done (useList_canon h)
  · exact cmd_done (setPkg_canon (useList_canon h))

theorem cmdCollfree_canon {vf a0} (h : s.Canon q) : (s.cmdCollfree vf a0).s.Canon q := cmd_ite h (cmd_done (setPkg_canon h))

theorem execCollectiveGroupUsable_canon (h : s.Canon q) : NextCanon q (execCollectiveGroupUsable s) := by
  unfold execCollectiveGroupUsable
  dsimp only
  split
  · exact .refused
  · exact next_ite (.next (setPkg_canon h)) .refused

theorem cmdPause_canon {vf} (h : s.Canon q) : (s.cmdPause vf).s.Canon q :=
  cmd_ite h (cmd_done (canon_foldl (fun _ _ hs' => canon_ite (endSlice_canon hs') hs') (setCtx_canon h)))

theorem cmdResume_canon {vf} (h : s.Canon q) : (s.cmdResume vf).s.Canon q := cmd_ite h (cmd_done (setCtx_canon h))

theorem cmdMigin_canon {vf a0} (h : s.Canon q) : (s.cmdMigin vf a0).s.Canon q := cmd_done (modCtx_canon (modCtx_canon h))

theorem cmdResync_canon {ep win a0} (h : s.Canon q) : (s.cmdResync ep win a0).s.Canon q := by
  unfold State.cmdResync
  exact cmd_ite h (cmd_mk (hostStore_canon (resyncRecord_canon h)))

theorem wipeWave_canon {w} (h : s.Canon q) : (s.wipeWave w).Canon q := retireWave_canon (modWave_canon h)

theorem wipeLaunch_canon {n} (h : s.Canon q) : (s.wipeLaunch n).Canon q := by
  unfold State.wipeLaunch
  dsimp only
  refine canon_ite h ?_
  split
  · split
    · exact modCtx_canon (setLaunch_canon h)
    · exact modGraph_canon (setLaunch_canon h)
  · refine finishBatch_canon (setNode_canon ?_)
    split
    · exact modCtx_canon (setLaunch_canon h)
    · exact modGraph_canon (setLaunch_canon h)

theorem graphGone_canon {vf} (h : s.Canon q) : (s.graphGone vf).Canon q := canon_ite (dropGraph_canon h) h

theorem resetPart_canon {die e} (h : s.Canon q) : (s.resetPart die e).Canon q := by
  unfold State.resetPart
  exact graphGone_canon (modPart_canon (canon_foldl (fun s' k hs' => canon_foldl (fun s2 c hs2 => modCore_canon hs2) (modCluster_canon hs'))
    (canon_foldl (fun s' c hs' => modCore_canon hs') (canon_foldl (fun s' c hs' => departCore_canon hs')
    (canon_foldl (fun s' n hs' => wipeLaunch_canon hs') (canon_foldl (fun s' j hs' => launchDown_canon hs')
    (fields_canon (canon_foldl (fun s' h' hs' => modCtx_canon hs') (removeUnits_canon (drainUnits_canon
    (canon_foldl (fun s' u hs' => canon_foldl (fun s2 w hs2 => wipeWave_canon hs2) hs') (clearBinds_canon
    (canon_foldl (fun s' c hs' => unstart_canon hs') h)))))))))))))

theorem resetEng_canon {core e} (h : s.Canon q) : (s.resetEng core e).Canon q := by
  unfold State.resetEng
  refine canon_foldl (fun s' u hs' => ?_) h
  split
  · exact hs'
  · exact canon_foldl (fun s2 o' hs2 => abandonOp_canon hs2) (recordFault_canon hs')

theorem resetPort_canon {port} (h : s.Canon q) : (s.resetPort port).Canon q := setPkg_canon h

theorem resetAll_canon (h : s.Canon q) : s.resetAll.Canon q := ⟨cellsWf_filter _ _ h.mem, fun _ => rfl, fun _ => rfl⟩

theorem resetGrain_canon {grain target} (h : s.Canon q) : OptCanon q (s.resetGrain grain target) := by
  unfold State.resetGrain
  split
  · exact opt_ite (.some (resetPart_canon h)) .none
  · exact opt_ite (.some (resetEng_canon h)) .none
  · exact opt_ite (.some (resetPort_canon h)) .none
  · exact .some (resetAll_canon h)
  · exact .none

theorem runCommand_canon {ep win vf code a0 a1} (h : s.Canon q) : (s.runCommand ep win vf code a0 a1).s.Canon q := by
  unfold State.runCommand
  refine cmd_ite h (cmd_ite h ?_)
  split
  · exact cmdShootdown_canon h
  · exact cmdDispose_canon h
  · exact cmdGallery_canon h
  · exact cmdNsnew_canon h
  · exact cmdNsfree_canon h
  · exact cmdCollnew_canon h
  · exact cmdCollfree_canon h
  · exact cmdPause_canon h
  · exact cmdResume_canon h
  · exact cmdMigin_canon h
  · exact cmdResync_canon h
  · exact cmd_done (teardown_canon h)
  · split
    next he => exact cmd_done (canon_of_some he (resetGrain_canon h))
    · exact h

theorem command_canon {own win code run} (h : s.Canon q) (hrun : ∀ t, t.Canon q → (run t).s.Canon q) : (s.command own win code run).Canon q :=
  canon_ite (countReject_canon h) (canon_ite (countReject_canon h) (canon_ite (hrun _ (modWin_canon h)) (modWin_canon (hrun _ (modWin_canon h)))))

theorem plainCommand_canon {ep own win code} (h : s.Canon q) : (s.plainCommand ep own win code).Canon q :=
  command_canon h (fun _ hs' => runCommand_canon hs')

theorem pfRead_canon (h : s.Canon q) : s.pfRead.s.Canon q := by
  unfold State.pfRead
  split <;> exact h

theorem pfWrite_canon {ep} (h : s.Canon q) : (s.pfWrite ep).s.Canon q := by
  unfold State.pfWrite
  refine cmd_ite (cmd_done (plainCommand_canon h)) (cmd_ite (cmd_done (mgmtWrite_canon h)) ?_)
  refine cmd_ite ?_ (cmd_ite (cmd_done (modCtx_canon h)) h)
  split
  next he => exact cmd_done (canon_of_some he (regPut_canon h))
  · exact h

theorem writeCmd_canon {ep win code} (h : s.Canon q) : (s.writeCmd ep win code).Canon q :=
  canon_ite (command_canon h (fun _ hs' => cmd_ite hs' (cmd_ite (pfRead_canon hs') (pfWrite_canon hs')))) (plainCommand_canon h)

theorem cmdEvent_canon {row code ok} (h : s.Canon q) : NextCanon q (s.cmdEvent row code ok) := next_ite (.next (writeCmd_canon h)) .refused

theorem execShootdown_canon (h : s.Canon q) : NextCanon q (execShootdown s) := cmdEvent_canon h

theorem execDisposeReplay_canon (h : s.Canon q) : NextCanon q (execDisposeReplay s) := cmdEvent_canon h

theorem execDisposeFail_canon (h : s.Canon q) : NextCanon q (execDisposeFail s) := cmdEvent_canon h

theorem execGallery_canon (h : s.Canon q) : NextCanon q (execGallery s) := cmdEvent_canon h

theorem execNsnew_canon (h : s.Canon q) : NextCanon q (execNsnew s) := cmdEvent_canon h

theorem execNsfree_canon (h : s.Canon q) : NextCanon q (execNsfree s) := cmdEvent_canon h

theorem execCollnew_canon (h : s.Canon q) : NextCanon q (execCollnew s) := cmdEvent_canon h

theorem execCollfree_canon (h : s.Canon q) : NextCanon q (execCollfree s) := cmdEvent_canon h

theorem execPause_canon (h : s.Canon q) : NextCanon q (execPause s) := cmdEvent_canon h

theorem execResume_canon (h : s.Canon q) : NextCanon q (execResume s) := cmdEvent_canon h

theorem execMigin_canon (h : s.Canon q) : NextCanon q (execMigin s) := cmdEvent_canon h

theorem execResync_canon (h : s.Canon q) : NextCanon q (execResync s) := cmdEvent_canon h

theorem execTeardown_canon (h : s.Canon q) : NextCanon q (execTeardown s) := cmdEvent_canon h

theorem execPfread_canon (h : s.Canon q) : NextCanon q (execPfread s) := cmdEvent_canon h

theorem execPfwrite_canon (h : s.Canon q) : NextCanon q (execPfwrite s) := cmdEvent_canon h

theorem execCmdUnknown_canon (h : s.Canon q) : NextCanon q (execCmdUnknown s) := cmdEvent_canon h

theorem execShootdownComplete_canon (h : s.Canon q) : NextCanon q (execShootdownComplete s) := by
  unfold execShootdownComplete
  dsimp only
  split
  · exact .refused
  · exact next_ite .refused (.next (modWin_canon (modCtx_canon (rewatchAll_canon (dropTranslations_canon (drainCtx_canon h))))))

theorem respond_canon {status bs} (h : s.Canon q) : (s.respond status bs).Canon q := setPkg_canon h

theorem resetEvent_canon {row grain} (h : s.Canon q) : NextCanon q (s.resetEvent row grain) := by
  unfold State.resetEvent
  refine next_ite ?_ (cmdEvent_canon h)
  split
  next he => exact .next (respond_canon (canon_of_some he (resetGrain_canon h)))
  · exact .next (respond_canon h)

theorem execResetPartition_canon (h : s.Canon q) : NextCanon q (execResetPartition s) := resetEvent_canon h

theorem execResetEngine_canon (h : s.Canon q) : NextCanon q (execResetEngine s) := resetEvent_canon h

theorem execResetLink_canon (h : s.Canon q) : NextCanon q (execResetLink s) := resetEvent_canon h

theorem execResetPackage_canon (h : s.Canon q) : NextCanon q (execResetPackage s) := resetEvent_canon h

theorem execSbResync_canon (h : s.Canon q) : NextCanon q (execSbResync s) := by
  unfold execSbResync
  exact next_ite (.next (respond_canon h)) (.next (respond_canon (canon_ite (setPkg_canon (resyncRecord_canon h)) h)))

theorem execPartw_canon {die entry bytes} (h : s.Canon q) : NextCanon q (execPartw die entry bytes s) :=
  next_ite (.next (respond_canon h)) (next_ite (.next (respond_canon h)) (.next (respond_canon (setDie_canon h))))

theorem execStealgrp_canon (h : s.Canon q) : NextCanon q (execStealgrp s) :=
  next_ite (.next (respond_canon (modPart_canon h))) (.next (respond_canon h))

theorem execOwner_canon (h : s.Canon q) : NextCanon q (execOwner s) := next_ite (.next (respond_canon (modCtx_canon h))) (.next (respond_canon h))

theorem execSbTeardown_canon (h : s.Canon q) : NextCanon q (execSbTeardown s) :=
  next_ite (.next (respond_canon (teardown_canon h))) (.next (respond_canon h))

theorem execSensclr_canon (h : s.Canon q) : NextCanon q (execSensclr s) :=
  next_ite (.next (respond_canon (modCluster_canon h))) (.next (respond_canon h))

theorem execFwstage_canon {off bytes} (h : s.Canon q) : NextCanon q (execFwstage off bytes s) :=
  next_ite (.next (respond_canon h)) (.next (respond_canon (setPkg_canon h)))

theorem execFwact_canon (h : s.Canon q) : NextCanon q (execFwact s) := next_ite (.next (respond_canon h)) (.next (respond_canon (setPkg_canon h)))

theorem execSchedulerHandoff_canon (h : s.Canon q) : NextCanon q (execSchedulerHandoff s) := next_ite (.next (setPkg_canon (modDie_canon h))) .refused

end Sys2Proof.Machine
end

section
/-! PROOFS. What every step keeps (O3): rails, boost and temperature. -/
namespace Sys2Proof.Machine

variable {q : Prop} {s : State}

theorem modClock_canon {k f} (h : s.Canon q) : (s.modClock k f).Canon q := by
  unfold State.modClock
  exact modCluster_canon h

theorem execBoostIntervalEnd_canon (h : s.Canon q) : NextCanon q (execBoostIntervalEnd s) := next_ite (.next (modClock_canon h)) .refused

theorem execBoostStepdown_canon (h : s.Canon q) : NextCanon q (execBoostStepdown s) := next_ite (.next (modClock_canon h)) .refused

theorem execPermitRefill_canon (h : s.Canon q) : NextCanon q (execPermitRefill s) := next_ite (.next (modClock_canon h)) .refused

theorem execBoostGrant_canon (h : s.Canon q) : NextCanon q (execBoostGrant s) := by
  unfold execBoostGrant
  dsimp only
  split
  · exact .refused
  · exact next_ite (.next (modClock_canon h)) .refused

theorem execRailSwitch_canon (h : s.Canon q) : NextCanon q (execRailSwitch s) :=
  next_ite (next_ite (.next (modClock_canon h)) .refused) (next_ite (.next (modCluster_canon h)) .refused)

theorem execMeterSample_canon (h : s.Canon q) : NextCanon q (execMeterSample s) :=
  next_ite (.next (canon_foldl (fun _ _ hs' => modCluster_canon hs') (modPart_canon h))) .refused

theorem execThrottleStep_canon (h : s.Canon q) : NextCanon q (execThrottleStep s) := by
  unfold execThrottleStep
  dsimp only
  split
  · exact .refused
  · exact next_ite (.next (canon_foldl (fun s' k hs' => modClock_canon hs') (modPart_canon h))) .refused

theorem notifyHot_canon {k before} (h : s.Canon q) : (s.notifyHot k before).Canon q := canon_ite (setPkg_canon h) h

theorem execSensorSample_canon {cluster t0 t1 t2} (h : s.Canon q) : NextCanon q (execSensorSample cluster t0 t1 t2 s) :=
  next_ite .refused (.next (notifyHot_canon (modClock_canon h)))

theorem execThermalStep_canon (h : s.Canon q) : NextCanon q (execThermalStep s) := next_ite (.next (modClock_canon h)) .refused

end Sys2Proof.Machine
end

section
/-! PROOFS. What every step keeps (O3): hosts, other packages, storage errors and links. -/
namespace Sys2Proof.Machine

variable {q : Prop} {s : State}

theorem execDrain_canon {ag idx} (h : s.Canon q) : NextCanon q (execDrain ag idx s) := next_ite (.next (drainOne_canon h)) .refused

theorem launchBytesWrite_canon {vf off bs} (h : s.Canon q) : (s.launchBytesWrite vf off bs).Canon q :=
  canon_ite (doorbell_canon (canon_ite (slotWrite_canon h) h)) (canon_ite (slotWrite_canon h) h)

theorem mgmtBytes_canon {ep w off bs} (h : s.Canon q) : (s.mgmtBytes ep w off bs).Canon q :=
  canon_foldl (fun _ _ hs' => canon_ite (writeCmd_canon hs') (mgmtWrite_canon hs')) h

theorem execHostWrite_canon {ep pa bytes} (h : s.Canon q) : NextCanon q (execHostWrite ep pa bytes s) := by
  unfold execHostWrite
  refine next_ite .refused ?_
  split
  · exact .next (hostStore_canon h)
  · exact .next (launchBytesWrite_canon h)
  · exact .next (canon_ite h (mgmtBytes_canon h))
  · exact .fault

theorem deliver_canon {who pa bs} (h : s.Canon q) : (s.deliver who pa bs).Canon q := setPkg_canon h

theorem execHostRead_canon (h : s.Canon q) : NextCanon q (execHostRead s) := by
  unfold execHostRead
  refine next_ite .refused ?_
  split
  · exact .next (deliver_canon h)
  · exact .next (setPkg_canon h)
  · exact .next (setPkg_canon h)
  · exact .fault

theorem fabricRel_canon {ag pa v runs} (h : s.Canon q) : (s.fabricRel ag pa v runs).Canon q :=
  viewLatest_canon (storeNow_canon (relMerge_canon (drainWhere_canon h)))

theorem execFabricAccess_canon {pkg pa acc} (h : s.Canon q) : NextCanon q (execFabricAccess pkg pa acc s) := by
  unfold execFabricAccess
  dsimp only
  refine next_ite .refused ?_
  split
  · split
    · exact next_ite (.next (setPkg_canon h)) (.next (deliver_canon (readStep_canon h)))
    · exact .fault
    · exact .next (setPkg_canon h)
  · split
    · exact next_ite (.next (setPkg_canon h)) (.next (queueWrite_canon (newId_canon h)))
    · exact .fault
    · exact .next (setPkg_canon h)
  · refine next_ite .refused ?_
    split
    · exact next_ite (.next (setPkg_canon h)) (.next (deliver_canon (atomicStep_canon h)))
    · exact .fault
    · exact .next (setPkg_canon h)
  · refine next_ite .refused ?_
    split
    · exact next_ite (.next (setPkg_canon h)) (.next (deliver_canon (atomicStep_canon h)))
    · exact .fault
    · exact .next (setPkg_canon h)
  · exact .next (canon_foldl (fun s' k hs' => fullAcquire_canon hs') (canon_foldl (fun s' k hs' => fullRelease_canon hs') h))
  · split
    · exact next_ite (.next (setPkg_canon h)) (.next (fabricRel_canon h))
    · exact .fault
    · exact .next (setPkg_canon h)
  · split
    · exact next_ite (.next (setPkg_canon h)) (.next (deliver_canon (acqStep_canon h)))
    · exact .fault
    · exact .next (setPkg_canon h)

theorem execRemoteLoadComplete_canon (h : s.Canon q) : NextCanon q (execRemoteLoadComplete s) := by
  unfold execRemoteLoadComplete
  dsimp only
  split
  · exact next_ite (.next (endHold_canon (modWave_canon h))) .refused
  · exact .refused

theorem execRemoteStoreFail_canon {ag idx} (h : s.Canon q) : NextCanon q (execRemoteStoreFail ag idx s) := by
  unfold execRemoteStoreFail
  dsimp only
  split
  · exact .next (postFault_canon (fields_canon h))
  · exact .refused
  · exact next_ite (.next (canon_foldl (fun s' r hs' => postFault_canon hs') (setAgent_canon h))) .refused
  · exact .refused

theorem execMemberResidentWake_canon (h : s.Canon q) : NextCanon q (execMemberResidentWake s) := by
  unfold execMemberResidentWake
  dsimp only
  split
  · exact next_ite (.next (endHold_canon h)) .refused
  · exact .refused

theorem badBufWord_canon {u buf off} (h : s.Canon q) : (s.badBufWord u buf off).Canon q :=
  postFault_canon (draw_canon (draw_canon (canon_ite (canon_foldl (fun _ _ hs' => modUnit_canon hs') (setPkg_canon (modCore_canon (cells_canon h))))
    (canon_foldl (fun _ _ hs' => canon_ite hs' (modWave_canon hs')) (canon_foldl (fun _ _ hs' => modUnit_canon hs')
    (setPkg_canon (modCore_canon (cells_canon h))))))))

theorem execStorageError_canon {u buf off corrected} (h : s.Canon q) : NextCanon q (execStorageError u buf off corrected s) := by
  unfold execStorageError
  refine next_ite ?_ ?_
  · split
    · exact .refused
    · exact next_ite (.next (setPkg_canon h)) (.next (setPkg_canon (cells_canon h)))
  · split
    · exact .refused
    · exact next_ite .refused (next_ite (.next (setPkg_canon (modCore_canon h))) (.next (badBufWord_canon h)))

theorem modLink_canon {port f} (h : s.Canon q) : (s.modLink port f).Canon q := setPkg_canon h

theorem replayFlit_canon {row} (h : s.Canon q) : NextCanon q (s.replayFlit row) := next_ite (.next (modLink_canon h)) .refused

theorem execFlitCrcFail_canon (h : s.Canon q) : NextCanon q (execFlitCrcFail s) := replayFlit_canon h

theorem execFlitAckTimeout_canon (h : s.Canon q) : NextCanon q (execFlitAckTimeout s) := replayFlit_canon h

theorem execLinkDown_canon (h : s.Canon q) : NextCanon q (execLinkDown s) := next_ite (.next (modLink_canon h)) .refused

theorem execLinkUp_canon (h : s.Canon q) : NextCanon q (execLinkUp s) := next_ite (.next (modLink_canon h)) .refused

theorem execMezzaninePortFail_canon (h : s.Canon q) : NextCanon q (execMezzaninePortFail s) := next_ite (.next (setPkg_canon h)) .refused

theorem execClauseFlagClear_canon (h : s.Canon q) : NextCanon q (execClauseFlagClear s) := next_ite (.next (modWave_canon h)) .refused

end Sys2Proof.Machine
end

section
/-! PROOFS. What every step keeps (O3): one arm per instruction. -/
namespace Sys2Proof.Machine

variable {q : Prop} {s : State}

theorem exec_canon {i} (h : s.Canon q) : NextCanon q (exec i s) := by
  cases i with
  | nop => exact execNop_canon h
  | bra => exact execBra_canon h
  | brc => exact execBrc_canon h
  | jmpi => exact execJmpi_canon h
  | call => exact execCall_canon h
  | ret => exact execRet_canon h
  | syncw => exact execSyncw_canon h
  | loop => exact execLoop_canon h
  | lbrk => exact execLbrk_canon h
  | exitI => exact execExitI_canon h
  | exitW => exact execExitW_canon h
  | yield => exact execYield_canon h
  | bkpt => exact execBkpt_canon h
  | trapI => exact execTrapI_canon h
  | barSync => exact execBarSync_canon h
  | barArrive => exact execBarArrive_canon h
  | barWait => exact execBarWait_canon h
  | mwait => exact execMwait_canon h
  | waitt => exact execWaitt_canon h
  | iadd => exact execIadd_canon h
  | isub => exact execIsub_canon h
  | imul => exact execImul_canon h
  | imulh => exact execImulh_canon h
  | imad => exact execImad_canon h
  | idiv => exact execIdiv_canon h
  | irem => exact execIrem_canon h
  | ineg => exact execIneg_canon h
  | iabs => exact execIabs_canon h
  | imin => exact execImin_canon h
  | imax => exact execImax_canon h
  | andI => exact execAndI_canon h
  | orI => exact execOrI_canon h
  | xorI => exact execXorI_canon h
  | andn => exact execAndn_canon h
  | notI => exact execNotI_canon h
  | shl => exact execShl_canon h
  | shr => exact execShr_canon h
  | sar => exact execSar_canon h
  | rot => exact execRot_canon h
  | bfe => exact execBfe_canon h
  | bfi => exact execBfi_canon h
  | popc => exact execPopc_canon h
  | clz => exact execClz_canon h
  | ctz => exact execCtz_canon h
  | brev => exact execBrev_canon h
  | icmp => exact execIcmp_canon h
  | isel => exact execIsel_canon h
  | movI => exact execMovI_canon h
  | movi => exact execMovi_canon h
  | cvti => exact execCvti_canon h
  | lea => exact execLea_canon h
  | prom => exact execProm_canon h
  | pickl => exact execPickl_canon h
  | vtoa => exact execVtoa_canon h
  | mkaff => exact execMkaff_canon h
  | abase => exact execAbase_canon h
  | astride => exact execAstride_canon h
  | mand => exact execMand_canon h
  | mor => exact execMor_canon h
  | mxor => exact execMxor_canon h
  | mnot => exact execMnot_canon h
  | mandn => exact execMandn_canon h
  | mpopc => exact execMpopc_canon h
  | mffs => exact execMffs_canon h
  | mtos => exact execMtos_canon h
  | stom => exact execStom_canon h
  | mlive => exact execMlive_canon h
  | vrdx => exact execVrdx_canon h
  | vwrx => exact execVwrx_canon h
  | cnarrow => exact execCnarrow_canon h
  | cperm => exact execCperm_canon h
  | cget => exact execCget_canon h
  | ctag => exact execCtag_canon h
  | cld => exact execCld_canon h
  | cst => exact execCst_canon h
  | cfmt => exact execCfmt_canon h
  | fadd => exact execFadd_canon h
  | fsub => exact execFsub_canon h
  | fmul => exact execFmul_canon h
  | ffma => exact execFfma_canon h
  | fmin => exact execFmin_canon h
  | fmax => exact execFmax_canon h
  | fabs => exact execFabs_canon h
  | fneg => exact execFneg_canon h
  | fcmp => exact execFcmp_canon h
  | fdiv => exact execFdiv_canon h
  | fsqrt => exact execFsqrt_canon h
  | frcp => exact execFrcp_canon h
  | frsq => exact execFrsq_canon h
  | fexp2 => exact execFexp2_canon h
  | flog2 => exact execFlog2_canon h
  | fsinpi => exact execFsinpi_canon h
  | fcospi => exact execFcospi_canon h
  | ftanh => exact execFtanh_canon h
  | fsigm => exact execFsigm_canon h
  | frnd => exact execFrnd_canon h
  | fcvt => exact execFcvt_canon h
  | retag => exact execRetag_canon h
  | fclass => exact execFclass_canon h
  | dotp => exact execDotp_canon h
  | expr => exact execExpr_canon h
  | fscale => exact execFscale_canon h
  | shfl => exact execShfl_canon h
  | vote => exact execVote_canon h
  | vred => exact execVred_canon h
  | vscan => exact execVscan_canon h
  | matchI => exact execMatchI_canon h
  | ld => exact execLd_canon h
  | st => exact execSt_canon h
  | pfetch => exact execPfetch_canon h
  | atom => exact execAtom_canon h
  | atcas => exact execAtcas_canon h
  | fence => exact execFence_canon h
  | fencePath => exact execFencePath_canon h
  | acq => exact execAcq_canon h
  | relI => exact execRelI_canon h
  | bindI => exact execBindI_canon h
  | unbind => exact execUnbind_canon h
  | abarInit => exact execAbarInit_canon h
  | abarArrive => exact execAbarArrive_canon h
  | abarWait => exact execAbarWait_canon h
  | abarTest => exact execAbarTest_canon h
  | cflush => exact execCflush_canon h
  | icinv => exact execIcinv_canon h
  | tcfg => exact execTcfg_canon h
  | trel => exact execTrel_canon h
  | tstat => exact execTstat_canon h
  | tzero => exact execTzero_canon h
  | twait => exact execTwait_canon h
  | mma => exact execMma_canon h
  | mmaCks => exact execMmaCks_canon h
  | mstep => exact execMstep_canon h
  | gang => exact execGang_canon h
  | mown => exact execMown_canon h
  | mpass => exact execMpass_canon h
  | cgo => exact execCgo_canon h
  | ggo => exact execGgo_canon h
  | xgo => exact execXgo_canon h
  | tlge => exact execTlge_canon h
  | tlout => exact execTlout_canon h
  | tlrd => exact execTlrd_canon h
  | tliss => exact execTliss_canon h
  | tlflt => exact execTlflt_canon h
  | commit => exact execCommit_canon h
  | spawn => exact execSpawn_canon h
  | joinI => exact execJoinI_canon h
  | emit => exact execEmit_canon h
  | launch => exact execLaunch_canon h
  | cancel => exact execCancel_canon h
  | lvlcnt => exact execLvlcnt_canon h
  | crun => exact execCrun_canon h
  | vsti => exact execVsti_canon h
  | vstq => exact execVstq_canon h
  | vstc => exact execVstc_canon h
  | srd => exact execSrd_canon h
  | swr => exact execSwr_canon h
  | timens => exact execTimens_canon h
  | cycles => exact execCycles_canon h
  | perfrd => exact execPerfrd_canon h
  | winrd => exact execWinrd_canon h
  | winwr => exact execWinwr_canon h
  | tresume => exact execTresume_canon h
  | tkill => exact execTkill_canon h
  | tescal => exact execTescal_canon h
  | pairWord => exact execPairWord_canon h
  | candHalt c => exact execCandHalt_canon (_c := c) h
  | candAdd => exact execCandAdd_canon h
  | candSub => exact execCandSub_canon h
  | candMul => exact execCandMul_canon h
  | candDiv => exact execCandDiv_canon h
  | candRem => exact execCandRem_canon h
  | candAnd => exact execCandAnd_canon h
  | candOr => exact execCandOr_canon h
  | candXor => exact execCandXor_canon h
  | candShl => exact execCandShl_canon h
  | candShr => exact execCandShr_canon h
  | candSar => exact execCandSar_canon h
  | candMin => exact execCandMin_canon h
  | candMax => exact execCandMax_canon h
  | candSlt => exact execCandSlt_canon h
  | candSeq => exact execCandSeq_canon h
  | candAddi => exact execCandAddi_canon h
  | candMuli => exact execCandMuli_canon h
  | candAndi => exact execCandAndi_canon h
  | candLi => exact execCandLi_canon h
  | candLis => exact execCandLis_canon h
  | candNeg => exact execCandNeg_canon h
  | candAbs => exact execCandAbs_canon h
  | candLd => exact execCandLd_canon h
  | candSt => exact execCandSt_canon h
  | candLdx => exact execCandLdx_canon h
  | candBeq => exact execCandBeq_canon h
  | candBne => exact execCandBne_canon h
  | candBlt => exact execCandBlt_canon h
  | candBge => exact execCandBge_canon h
  | candJmp => exact execCandJmp_canon h
  | candOut => exact execCandOut_canon h
  | candSel => exact execCandSel_canon h
  | candClz => exact execCandClz_canon h
  | candPopc => exact execCandPopc_canon h
  | candIllegal op c => exact execCandIllegal_canon (_op := op) (_c := c) h
  | drain => exact execDrain_canon h
  | hostWrite => exact execHostWrite_canon h
  | fabricAccess => exact execFabricAccess_canon h
  | remoteStoreFail => exact execRemoteStoreFail_canon h
  | storageError => exact execStorageError_canon h
  | registerWrite => exact execRegisterWrite_canon h
  | partw => exact execPartw_canon h
  | fwstage => exact execFwstage_canon h
  | sensorSample => exact execSensorSample_canon h
  | reservedOpcode => exact execReservedOpcode_canon h
  | blockRecord => exact execBlockRecord_canon h
  | syncwRelease => exact execSyncwRelease_canon h
  | loopEnd => exact execLoopEnd_canon h
  | barWaitResume => exact execBarWaitResume_canon h
  | mwaitWake => exact execMwaitWake_canon h
  | waittExpiry => exact execWaittExpiry_canon h
  | abarWaitResume => exact execAbarWaitResume_canon h
  | tileWaitResume => exact execTileWaitResume_canon h
  | mmaComplete => exact execMmaComplete_canon h
  | gangLatchMatch => exact execGangLatchMatch_canon h
  | mownGrant => exact execMownGrant_canon h
  | engineLimitResume => exact execEngineLimitResume_canon h
  | engineOperationStart => exact execEngineOperationStart_canon h
  | copyEntry => exact execCopyEntry_canon h
  | gatherEntry => exact execGatherEntry_canon h
  | landingTransferComplete => exact execLandingTransferComplete_canon h
  | loopEntry => exact execLoopEntry_canon h
  | condEntry => exact execCondEntry_canon h
  | arriveOnlyEntry => exact execArriveOnlyEntry_canon h
  | collectiveEntry => exact execCollectiveEntry_canon h
  | endEntry => exact execEndEntry_canon h
  | tlgeResume => exact execTlgeResume_canon h
  | tloutResume => exact execTloutResume_canon h
  | commitResume => exact execCommitResume_canon h
  | joinResume => exact execJoinResume_canon h
  | dequePop => exact execDequePop_canon h
  | dequeRefill => exact execDequeRefill_canon h
  | dequeSteal => exact execDequeSteal_canon h
  | coreDepart => exact execCoreDepart_canon h
  | emitResume => exact execEmitResume_canon h
  | launchLimitResume => exact execLaunchLimitResume_canon h
  | cancelRetire => exact execCancelRetire_canon h
  | handlerStart => exact execHandlerStart_canon h
  | hostRead => exact execHostRead_canon h
  | remoteLoadComplete => exact execRemoteLoadComplete_canon h
  | memberResidentWake => exact execMemberResidentWake_canon h
  | currentReservationGrant => exact execCurrentReservationGrant_canon h
  | storageTrap => exact execStorageTrap_canon h
  | xlateRecordPost => exact execXlateRecordPost_canon h
  | doorbellLaunch => exact execDoorbellLaunch_canon h
  | doorbellClose => exact execDoorbellClose_canon h
  | phaseStart => exact execPhaseStart_canon h
  | launchComplete => exact execLaunchComplete_canon h
  | slotcommit => exact execSlotcommit_canon h
  | bindRecordRun => exact execBindRecordRun_canon h
  | bindRecordResume => exact execBindRecordResume_canon h
  | bindRecordEvict => exact execBindRecordEvict_canon h
  | unitPlace => exact execUnitPlace_canon h
  | unitEvict => exact execUnitEvict_canon h
  | scrubComplete => exact execScrubComplete_canon h
  | heartbeatTimeout => exact execHeartbeatTimeout_canon h
  | lendCluster => exact execLendCluster_canon h
  | reclaimCluster => exact execReclaimCluster_canon h
  | reclaimDeadline => exact execReclaimDeadline_canon h
  | nodeLaunchStart => exact execNodeLaunchStart_canon h
  | nodeTimeoutExpiry => exact execNodeTimeoutExpiry_canon h
  | tenantSliceEnd => exact execTenantSliceEnd_canon h
  | sliceLimitExpiry => exact execSliceLimitExpiry_canon h
  | shootdown => exact execShootdown_canon h
  | shootdownComplete => exact execShootdownComplete_canon h
  | disposeReplay => exact execDisposeReplay_canon h
  | disposeFail => exact execDisposeFail_canon h
  | gallery => exact execGallery_canon h
  | nsnew => exact execNsnew_canon h
  | nsfree => exact execNsfree_canon h
  | collnew => exact execCollnew_canon h
  | collfree => exact execCollfree_canon h
  | pause => exact execPause_canon h
  | resume => exact execResume_canon h
  | migin => exact execMigin_canon h
  | resync => exact execResync_canon h
  | teardown => exact execTeardown_canon h
  | pfread => exact execPfread_canon h
  | pfwrite => exact execPfwrite_canon h
  | cmdUnknown => exact execCmdUnknown_canon h
  | rootWrite => exact execRootWrite_canon h
  | toffsetWrite => exact execToffsetWrite_canon h
  | resetPartition => exact execResetPartition_canon h
  | resetEngine => exact execResetEngine_canon h
  | resetLink => exact execResetLink_canon h
  | resetPackage => exact execResetPackage_canon h
  | sbResync => exact execSbResync_canon h
  | stealgrp => exact execStealgrp_canon h
  | owner => exact execOwner_canon h
  | sbTeardown => exact execSbTeardown_canon h
  | fwact => exact execFwact_canon h
  | schedulerHandoff => exact execSchedulerHandoff_canon h
  | sensclr => exact execSensclr_canon h
  | flitCrcFail => exact execFlitCrcFail_canon h
  | flitAckTimeout => exact execFlitAckTimeout_canon h
  | linkDown => exact execLinkDown_canon h
  | mezzaninePortFail => exact execMezzaninePortFail_canon h
  | boostIntervalEnd => exact execBoostIntervalEnd_canon h
  | boostStepdown => exact execBoostStepdown_canon h
  | permitRefill => exact execPermitRefill_canon h
  | boostGrant => exact execBoostGrant_canon h
  | railSwitch => exact execRailSwitch_canon h
  | meterSample => exact execMeterSample_canon h
  | throttleStep => exact execThrottleStep_canon h
  | thermalStep => exact execThermalStep_canon h
  | clauseFlagClear => exact execClauseFlagClear_canon h
  | tenantSliceBegin => exact execTenantSliceBegin_canon h
  | linkUp => exact execLinkUp_canon h
  | collectiveGroupUsable => exact execCollectiveGroupUsable_canon h
  | endRecord => exact execEndRecord_canon h

end Sys2Proof.Machine
end

section
/-! PROOFS. What every step keeps (O3): what comes about in one step. -/
namespace Sys2Proof.Machine

variable {q : Prop} {s : State}

theorem andThen_canon {p : Prop} {r f} (hr : NextCanon p r) (hf : ∀ t, t.Canon p → (f t).Canon q) : NextCanon q (andThen r f) := by
  cases hr with
  | next h => exact .next (hf _ h)
  | fault => exact .fault
  | refused => exact .refused

theorem rest_canon (h : s.Canon False) : s.rest.Canon True := ⟨h.mem, fun _ => rfl, fun _ => rfl⟩

theorem at_canon {c} (h : s.Canon True) : (s.at_ c).Canon False := canon_false_iff.mpr h.mem

theorem event_canon {i o} (h : s.Canon True) : NextCanon True (s.event i o) :=
  andThen_canon (exec_canon (canon_false_iff.mpr h.mem)) (fun _ ht => rest_canon ht)

theorem execAt_canon {c i} (h : s.Canon True) : NextCanon True (s.execAt c i) :=
  andThen_canon (exec_canon (at_canon h)) (fun _ ht => wordEnd_canon (rest_canon ht))

theorem awaitReservation_canon {c} (h : s.Canon q) : (s.awaitReservation c).Canon q := by
  unfold State.awaitReservation
  exact modWave_canon (addRequest_canon (newId_canon h))

theorem debugStop_canon {c} (h : s.Canon q) : (s.debugStop c).Canon q := postFault_canon (modWave_canon (takeFault_canon h))

theorem runFetched_canon {w g f} (h : s.Canon True) : NextCanon True (s.runFetched w g f) := by
  unfold State.runFetched
  split
  · exact .next (settle_canon (.fault h))
  · exact .next (settle_canon (.park h))
  · exact next_ite (.next (canon_ite (debugStop_canon (stand_canon h)) (stand_canon h))) (next_ite (.next (awaitReservation_canon (stand_canon h)))
      (execAt_canon (modWave_canon (stand_canon h))))

theorem issueGroup_canon {w g} (h : s.Canon True) : NextCanon True (s.issueGroup w g) := runFetched_canon (fetchFor_canon (served_canon h))

theorem starveAfter_canon {w ran issued} (h : s.Canon q) : (s.starveAfter w ran issued).Canon q := modWave_canon h

theorem coreCycle_canon {core port} (h : s.Canon q) : (s.coreCycle core port).Canon q :=
  canon_ite h (canon_foldl (fun _ _ hs' => modUnit_canon hs') (modCore_canon h))

theorem endOpportunity_canon {w ran g issued} (h : s.Canon q) : (s.endOpportunity w ran g issued).Canon q :=
  fields_canon (canon_ite (starveAfter_canon h) (stalled_canon (starveAfter_canon h)))

theorem afterFirst_canon {ran others o} (h : s.Canon q) : (s.afterFirst ran others o).Canon q := by
  unfold State.afterFirst
  dsimp only
  split
  · exact endOpportunity_canon h
  · exact canon_ite (endOpportunity_canon (pick_canon h)) (fields_canon (pick_canon h))

theorem portCycle_canon {core port sel rdy} (h : s.Canon q) : (s.portCycle core port sel rdy).Canon q :=
  canon_foldl (fun _ _ hs' => canon_ite (setWave_canon hs') (canon_ite (setWave_canon hs') (stalled_canon (setWave_canon hs')))) h

theorem issueAct_canon {core port} (h : s.Canon True) : NextCanon True (s.issueAct core port) := by
  unfold State.issueAct
  dsimp only
  refine next_ite .refused ?_
  split
  · exact .next (coreCycle_canon (portCycle_canon (readyGroups_canon h)))
  · split
    · exact .next (endOpportunity_canon (coreCycle_canon (portCycle_canon (readyGroups_canon h))))
    · exact andThen_canon (issueGroup_canon (coreCycle_canon (portCycle_canon (readyGroups_canon h)))) (fun s' hs' => afterFirst_canon hs')

theorem secondAct_canon {w g} (h : s.Canon True) : NextCanon True (s.secondAct w g) := by
  unfold State.secondAct
  split
  · exact .refused
  · exact next_ite (.next (endOpportunity_canon h)) (andThen_canon (issueGroup_canon h) (fun s' hs' => endOpportunity_canon hs'))

theorem candNext_canon {w l t} (h : s.Canon q) (he : s.candNext w l = some (.inl t)) : t.Canon q := by
  unfold State.candNext at he
  dsimp only at he
  split at he
  · cases he
  · split at he
    · cases he
    · split at he
      · cases he
        exact candStop_canon h
      · split at he
        · cases he
          exact candStop_canon h
        · cases he

theorem candAct_canon {w l} (h : s.Canon True) : NextCanon True (s.candAct w l) := by
  unfold State.candAct
  refine next_ite .refused ?_
  split
  · exact .refused
  next he => exact .next (candNext_canon h he)
  · exact andThen_canon (exec_canon (at_canon h)) (fun _ ht => rest_canon ht)

theorem stepsAct_canon {w l} (h : s.Canon True) : NextCanon True (s.stepsAct w l) := by
  unfold State.stepsAct
  dsimp only
  split
  · exact .refused
  · exact next_ite .refused (execAt_canon h)

theorem pokeAct_canon {w ea n x} (h : s.Canon q) : NextCanon q (s.pokeAct w ea n x) := by
  unfold State.pokeAct
  dsimp only
  refine next_ite .refused ?_
  split
  next he =>
    have ht := canon_of_snd he (checkAccess_canon h)
    exact .next (canon_foldl (fun _ _ hs' => setAgent_canon hs') (State.Canon.same (storeNow_canon ht)))
  next => exact .next h

theorem goOn_canon {ws} (h : s.Canon q) : (s.goOn ws).Canon q := canon_foldl (fun _ _ hs' => modCore_canon (setWave_canon hs')) h

theorem contAct_canon {n} (h : s.Canon q) : NextCanon q (s.contAct n) := next_ite .refused (.next (goOn_canon h))

theorem singleAct_canon {w} (h : s.Canon q) : NextCanon q (s.singleAct w) := next_ite (.next (modWave_canon (goOn_canon h))) .refused

theorem breakpointAct_canon {vf ea on} (h : s.Canon q) : (s.breakpointAct vf ea on).Canon q := h.same

theorem tickAct_canon {n} (h : s.Canon True) : NextCanon True (s.tickAct n) := by
  unfold State.tickAct
  split
  · exact andThen_canon (event_canon h) (fun s' hs' => fields_canon hs')
  · exact .next (canon_ite (fields_canon (setPkg_canon h)) (setPkg_canon h))

theorem eventAct_canon {i o} (h : s.Canon True) : NextCanon True (s.eventAct i o) := by
  unfold State.eventAct
  split
  next he =>
    split
    · exact .next (canon_of_next he (event_canon h))
    · split
      next he2 => exact .next (fields_canon (canon_of_next he2 (stepsAct_canon h)))
      · exact .next (canon_of_next he (event_canon h))
  · exact event_canon h

theorem act_canon {a} (h : s.Canon True) : NextCanon True (s.act a) := by
  unfold State.act
  split
  · exact eventAct_canon h
  · exact issueAct_canon h
  · exact secondAct_canon h
  · exact candAct_canon h
  · exact stepsAct_canon h
  · exact tickAct_canon h
  · exact pokeAct_canon h
  · exact .next (breakpointAct_canon h)
  · exact contAct_canon h
  · exact singleAct_canon h

theorem nextAct_canon (h : s.Canon True) : s.nextAct.2.Canon True := by
  unfold State.nextAct
  split
  · exact fields_canon h
  · refine fields_canon ?_
    split
    · exact h
    · exact pick_canon h

theorem freeEntries_canon {e} (h : s.Canon q) : (s.freeEntries e).2.Canon q := by
  unfold State.freeEntries
  dsimp only
  exact snd_foldl (fun acc x hacc => snd_mk (pick_canon (pick_canon (pick_canon hacc)))) (snd_mk (pick_canon h))

theorem spaceBytes_canon {old e} (h : s.Canon q) : (s.spaceBytes old e).Canon q :=
  canon_ite h (canon_ite (storeNow_canon (draw_canon h)) (canon_ite h (storeNow_canon (draw_canon (pick_canon h)))))

theorem spacesFollow_canon {s0 : State} (h : s.Canon q) : (s0.spacesFollow s).Canon q :=
  canon_foldl (fun _ _ hs' => canon_foldl (fun _ _ hs2 => canon_ite (modDie_canon (freeEntries_canon hs2)) (spaceBytes_canon hs2)) hs') h

theorem clocksFollow_canon {s0 : State} (h : s.Canon q) : (s0.clocksFollow s).Canon q :=
  canon_foldl (fun _ _ hs' => canon_ite hs' (modClock_canon hs')) h

theorem poll_canon (h : s.Canon q) : s.poll.Canon q := by
  unfold State.poll
  dsimp only
  split
  · exact devUse_canon (pick_canon h)
  · exact pick_canon h

theorem follow_canon {a} {s0 : State} (h : s.Canon q) : (s0.follow s a).Canon q := by
  unfold State.follow
  refine clocksFollow_canon (spacesFollow_canon ?_)
  refine storeFollows_canon (canon_ite ?_ ?_)
  · split
    · exact poll_canon h
    · exact h
  · refine storeWritten_canon ?_
    split
    · exact poll_canon h
    · exact h

theorem stepOnce_canon (h : s.Canon True) : NextCanon True s.stepOnce := andThen_canon (act_canon (nextAct_canon h)) (fun _ hs' => follow_canon hs')

theorem step_canon (h : s.Canon True) : NextCanon True (step s) := stepOnce_canon h

end Sys2Proof.Machine
end

section
/-! PROOFS. Every step keeps the invariant (O3). -/
namespace Sys2Proof
open Machine

/-- Settles O3: each function that a step calls keeps the canonical form of the backing stores (`State.Canon`), and when the meaning of an
instruction has been carried out, nothing executes any more (`rest_canon`). -/
theorem stepKeepsInvariant : Obligations.StepKeepsInvariant := by
  intro s t hs hst
  exact inv_iff_canon.mpr (canon_of_next hst (step_canon (inv_iff_canon.mp hs)))

end Sys2Proof
end
